-- ==== Sys2Proof/Word.lean ====
section
/-! DEFINITION. The word types of the CZ4096 model: what the manual treats as bits. Counts, times and sizes are
plain `Nat` or `Int`. -/
namespace Sys2Proof

/-- One byte of a wire field or of a DOMAIN object. -/
abbrev Byte := BitVec 8

/-- A run of bytes, first byte first; multi-byte fields are big-endian (R11). -/
abbrev Bytes := List (BitVec 8)

/-- The bits of an IEEE 754 binary32 value (R406 type 0x07). -/
abbrev F32 := BitVec 32

/-- The bits of an IEEE 754 binary64 value (R406 type 0x08). -/
abbrev F64 := BitVec 64

/-- A 16-bit time generation, wrapping (R75). -/
abbrev Gen := BitVec 16

/-- A 32-bit sequence number, wrapping (R431). -/
abbrev Seq := BitVec 32

/-- The 16-bit time quality word of R91. -/
abbrev Qual := BitVec 16

/-- The 16-bit condition word of R150. -/
abbrev Cond := BitVec 16

/-- A device time: generation and TAI nanoseconds since the PTP epoch (R74; seconds and nanoseconds are the quotient
and remainder by 10^9). -/
structure Stamp where
  gen : Gen
  ns  : Nat
  deriving DecidableEq, Repr

/-- A sparse table: key and value pairs with rising keys. -/
abbrev Table (α : Type) := List (Nat × α)

/-- A task descriptor (R390). `wq` is none for 0xFFFF; times are in microseconds. -/
structure TaskDesc where
  tunable  : Bool
  plane    : Nat
  cluster  : Nat
  byQueue  : Bool
  byPeriod : Bool
  byEvent  : Bool
  wq       : Option Nat
  event    : Nat
  base     : Nat
  ceil     : Nat
  affinity : Nat
  delivery : Nat
  period   : Nat
  quantum  : Nat
  slice    : Nat
  name     : List (BitVec 8)
  deriving DecidableEq, Repr

end Sys2Proof
end

