-- ==== Sys2Proof/Syntax.lean ====
section
/-! DEFINITION. The commands of the CZ4096: one constructor of `Instr` per row of spec/opcode_table.json, with the
operands a command brings from outside the block. `dt` is the time in ns, on the elapsed-time counter (R79), since the
command before it (log entry 1). -/
namespace Sys2Proof

/-- The seven supply rails, in the order of R47 and R533. -/
inductive Rail where
  | vddCore | vddTime | vddSds | vddMem11 | vddMem18 | vddIo18 | vddIo33
  deriving DecidableEq, Repr

/-- Where an Osrider message arrived (R411, R434): a port, with the client's IPv4 address and UDP port, or the UART. -/
inductive Via where
  | port (p : Nat) (ip : Nat) (udp : Nat)
  | uart
  deriving DecidableEq, Repr

/-- A JTAG instruction by name (R546): the mandatory ones of IEEE 1149.1, IDCODE, or another. -/
inductive Jtag where
  | bypass | idcode | sample | preload | extest | other
  deriving DecidableEq, Repr

/-- The header of a client's Osrider message with its authentication tag (R412), and how it arrived. Its payload is what the
command's other operands spell, as decrypted. -/
structure Msg where
  sid  : Nat
  seq  : Nat
  tag  : Nat
  mac  : BitVec 128
  via  : Via
  deriving DecidableEq, Repr

/-- An Osrider OPEN with its client nonce of 16 bytes and its authentication tag (R413, R414). -/
structure OpenMsg where
  slot    : Nat
  role    : Nat
  tag     : Nat
  nonce   : List (BitVec 8)
  mac     : BitVec 128
  via     : Via
  deriving DecidableEq, Repr

/-- An Osrider REKEY with its client nonce (R413, R416). -/
structure RekeyMsg where
  head  : Msg
  nonce : List (BitVec 8)
  deriving DecidableEq, Repr

/-- A datagram to the Osrider port (R411): how it arrived, and its payload. -/
structure Datagram where
  via   : Via
  bytes : List (BitVec 8)
  deriving DecidableEq, Repr

/-- What the UART has received between two 0x7E bytes (R434), with the time before it. -/
structure UartRx where
  dt    : Nat
  bytes : List (BitVec 8)
  deriving DecidableEq, Repr

/-- What a tamper source sees (R461, R462): a line held low, B or A; a rail at a voltage in mV; the junction at a temperature in m°C;
VDD_CORE off its 1 ms average by some mV; each with how long, in ns; a REF_CLK period in ps. -/
inductive TamperIn where
  | line (b : Bool) (ns : Nat)
  | rail (r : Rail) (mv ns : Nat)
  | junction (t : Int) (ns : Nat)
  | glitch (mv : Int) (ns : Nat)
  | refClock (ps : Nat)
  deriving DecidableEq, Repr

/-- The health tests of one TRNG output (R441): repetition count, adaptive proportion. -/
structure TrngTest where
  rep  : Bool
  prop : Bool
  deriving DecidableEq, Repr

/-- An operation of the key store request port (R30): authentication of a GOOSE publication by HMAC-SHA-256 or AES-256-GCM;
Osrider session authentication and encryption, and re-keying, under an operator's or a security officer's credential;
SHA-256 over an image chunk; ECDSA P-384 manifest verification. -/
inductive KeyOp where
  | gooseHmac | gooseGcm
  | session (officer : Bool) | rekey (officer : Bool)
  | chunkHash | manifestVerify
  deriving DecidableEq, Repr

/-- The class of an operation's requesters (R30): 0 A, 1 B, 2 C. -/
def KeyOp.cls (o : KeyOp) : Nat :=
  match o with
  | .gooseHmac | .gooseGcm => 0
  | .session _ | .rekey _ => 1
  | .chunkHash | .manifestVerify => 2

/-- The operation runs on the asymmetric lane (R30). -/
def KeyOp.asym (o : KeyOp) : Bool :=
  match o with
  | .manifestVerify => true
  | .gooseHmac | .gooseGcm | .session _ | .rekey _ | .chunkHash => false

/-- The usage bit an operation needs of its slot (R446); 16 for an operation that uses no key. -/
def KeyOp.usage (o : KeyOp) : Nat :=
  match o with
  | .gooseHmac | .gooseGcm => 2
  | .session officer | .rekey officer => if officer then 1 else 0
  | .chunkHash => 16
  | .manifestVerify => 5

/-- A key store request (R30): the operation; the requester; the key handle; an initialisation vector where the operation takes one;
the data; and the tag or signature presented to be verified, none where one is asked for. -/
structure KeyReq where
  op        : KeyOp
  requester : Nat
  handle    : Nat
  iv        : List (BitVec 8)
  data      : List (BitVec 8)
  mac       : Option (List (BitVec 8))
  deriving DecidableEq, Repr

def KeyReq.cls (r : KeyReq) : Nat := r.op.cls
def KeyReq.asym (r : KeyReq) : Bool := r.op.asym
def KeyReq.usage (r : KeyReq) : Nat := r.op.usage

/-- What a start-up finds (R51 to R54, R478 to R483, R516, R521): the level of RECOVERY_N at step 2; whether the manifest and parts of
each bank verify at step 5; ns from step 1 to step 7; whether the flash's SFDP gives octal DTR at 100 MHz
(R542); whether the store's record area and the
mirror pass their check; whether the image can convert the other slot; the recorder's SRAM, mirror and journal tests;
tamper sources asserted at step 2; the copies of key slots that the flash gives damaged, as slot and copy. -/
structure StartIn where
  recoveryLow : Bool
  imageOkA    : Bool
  imageOkB    : Bool
  took        : Nat
  octal       : Bool
  recordAreaOk : Bool
  mirrorOk    : Bool
  convertOk   : Bool
  sramTestOk  : Bool
  mirrorTestOk : Bool
  journalTestOk : Bool
  tamper      : Nat
  keyDamage   : List (Nat × Nat)
  deriving DecidableEq, Repr

/-- The data set of a grandmaster that an Announce carries, which the best master clock algorithm compares (R82): priority1,
clockClass, clockAccuracy as a code, offsetScaledLogVariance, priority2, clockIdentity, stepsRemoved. -/
structure PtpDs where
  priority1  : Nat
  clockClass : Nat
  accuracy   : Nat
  variance   : Nat
  priority2  : Nat
  gmId       : Nat
  steps      : Nat
  deriving DecidableEq, Repr, Inhabited

/-- A received PTP message (R81, R128): port; messageType; domain; sequenceId; the sending port; Announce data (the grandmaster's
data set, currentUtcOffset when valid, leap 0 none 1 insert 2 delete, total time inaccuracy TLV); twoStepFlag; the origin
timestamp, with the correction field, in ns of TAI (Sync, Follow_Up); the responder's turnaround in ns (Pdelay_Resp, or
Pdelay_Resp_Follow_Up). -/
structure PtpMsg where
  port       : Nat
  msgType    : Nat
  domain     : Nat
  seqId      : Nat
  sender     : Nat
  ds         : PtpDs
  utcOffset  : Option Int
  leap       : Nat
  tlvNs      : Option Nat
  twoStep    : Bool
  origin     : Nat
  turnaround : Nat
  deriving DecidableEq, Repr

/-- The IEEE 1344 extension of an IRIG-B frame (R81): year in the century, UTC offset, leap (0 none, 1 insert, 2 delete), time
quality code. -/
structure IrigExt where
  year      : Nat
  utcOffset : Int
  leap      : Nat
  quality   : Nat
  deriving DecidableEq, Repr

/-- A received IRIG-B frame (R81, R83): whether it decodes; how long ago its on-time marker fell, ns; day of the year from 1;
second of the day, UTC; the extension when present. -/
structure IrigFrame where
  decodes  : Bool
  ago      : Nat
  day      : Nat
  second   : Nat
  ext      : Option IrigExt
  deriving DecidableEq, Repr

/-- A received Ethernet frame (R108 to R116): its bytes from the destination address to the last one before the FCS; whether the
FCS is good; PCS errors, and whether they fall inside the frame. -/
structure Frame where
  bytes     : List (BitVec 8)
  fcsOk     : Bool
  pcsErrors : Nat
  pcsInside : Bool
  deriving DecidableEq, Repr

/-- A send by offload (R123, R124): the header template, from the Ethernet destination address to the last byte of the TCP or UDP
header; the payload; the MSS of a TCP send. -/
structure OffloadSend where
  template : List (BitVec 8)
  payload  : List (BitVec 8)
  mss      : Nat
  deriving DecidableEq, Repr

/-- How a C37.118 frame reached ingest (R137, R141): transport 0 UDP or 1 TCP; source address; ingress port; over UDP the local port,
over TCP the context whose connection it came on; the frame's bytes. -/
structure C37Rx where
  transport : Nat
  src       : Nat
  port      : Nat
  via       : Nat
  bytes     : List (BitVec 8)
  deriving DecidableEq, Repr

/-- One ASDU of a sampled-value frame (R152): svID; smpCnt; confRev; SmpSynch; values with their IEC 61850-7-3 quality;
dataset length in bytes. -/
structure Asdu where
  svId     : List (BitVec 8)
  smpCnt   : Nat
  confRev  : Nat
  smpSynch : Nat
  dataLen  : Nat
  samples  : List (Int × Nat)
  deriving DecidableEq, Repr

/-- A sampled-value frame (R152): whether the APDU decodes; APPID; source MAC; simulate bit; ASDUs. -/
structure SvFrame where
  decodes  : Bool
  appid    : Nat
  srcMac   : Nat
  simulate : Bool
  asdus    : List Asdu
  deriving DecidableEq, Repr

/-- A Hedgerow cycle header as a worker receives it on one lane (R345 type 0x01). -/
structure CycleHeader where
  cycle     : Nat
  gen       : BitVec 16
  mNs       : Nat
  qual      : BitVec 16
  invited   : Option Nat
  noBursts  : Bool
  identity  : Nat
  worker    : Nat
  eqd       : Nat
  dDown     : Nat
  edges     : List (Nat × Bool × Nat)
  seq       : Nat
  crcOk     : Bool
  deriving DecidableEq, Repr

/-- A summary frame's payload head (R345 type 0x13): kind 1 to 4, group or alarm number, the object's bytes. -/
structure Summary where
  kind  : Nat
  num   : Nat
  body  : List (BitVec 8)
  deriving DecidableEq, Repr

/-- A copy of an upstream Hedgerow frame at the manager (R344, R350): the worker it comes from, its lane and sequence number, whether
its CRC is good. -/
structure HrRx where
  worker : Nat
  lane  : Nat
  seq   : Nat
  crcOk : Bool
  deriving DecidableEq, Repr

/-- A set fragment's payload (R345 type 0x12): index, count, F_g, bytes of the close. -/
structure Fragment where
  index  : Nat
  count  : Nat
  rate   : Nat
  chunk  : List (BitVec 8)
  deriving DecidableEq, Repr

/-- A store read that found an error (R377): region code and byte offset in the region, which fix the channel (R371); and whether
one bit was in error, which the read corrected, or the burst is uncorrectable. -/
structure StoreErr where
  region  : Nat
  offset  : Nat
  fixed   : Bool
  deriving DecidableEq, Repr

/-- A word of the store a scrubber pass found in error: its place, and the row of its channel that holds it (R378). -/
structure ScrubWord where
  at_    : StoreErr
  row    : Nat
  deriving DecidableEq, Repr

/-- What a scrubber pass found (R378): duration in ms; words corrected; words uncorrectable. -/
structure ScrubReport where
  ms     : Nat
  ce     : List ScrubWord
  ue     : List ScrubWord
  deriving DecidableEq, Repr

/-- One access of a reserved path to the store: the granule of 64 bytes, numbered from the start of the store, and what is
written there; none for a read (R374). Paths 0 to 4 are in the order of R372. `err`: what a read of DRAM finds there: 0 no error,
1 a word corrected, 2 an uncorrectable burst (R377). -/
structure StoreAccess where
  path    : Nat
  granule : Nat
  write   : Option (List (BitVec 8))
  err     : Nat
  deriving DecidableEq, Repr

/-- What else is asked of the arbiter in one slot frame (R372 to R376), beside the accesses of the reserved paths: the event
mirror's claims by channel; those of the six leftover classes by class * 4 + channel; and, of a faulty arbiter, the
claims it leaves ungranted, as (path, channel). -/
structure SlotLoad where
  mirror   : List Nat
  classes  : Table Nat
  faults   : List (Nat × Nat)
  deriving DecidableEq, Repr

/-- Bytes 1088 to 1279 of a manifest (R470): signature and co-signature. -/
structure Sigs where
  sig   : List (BitVec 8)
  coSig : List (BitVec 8)
  deriving DecidableEq, Repr

/-- The commands: one constructor per row of spec/opcode_table.json, in its order. -/
inductive Instr where
  | paceWindow (dt : Nat) (rates : List Nat)
  | paceDeficit (dt : Nat)
  | clearLowestMargin (dt : Nat) (m : Msg) (v : List (BitVec 8))
  | configEffective (dt : Nat)
  | previousConfigRelease (dt : Nat)
  | eventRaise (dt : Nat) (id : Nat) (inst : Nat) (param : BitVec 32)
  | eventHandover (dt : Nat)
  | keyRequest (dt : Nat) (r : KeyReq)
  | keyRequestComplete (dt : Nat) (asym : Bool)
  | railGood (dt : Nat) (r : Rail) (mV : Nat)
  | railFail (dt : Nat) (r : Rail) (mV : Nat)
  | resetNAssert (dt : Nat) (width : Nat)
  | resetNRelease (dt : Nat)
  | startUp (dt : Nat) (i : StartIn)
  | bootTimeout (dt : Nat)
  | bootRetry (dt : Nat)
  | pwrFail (dt : Nat) (lowNs : Nat)
  | pwrFailQuiesced (dt : Nat)
  | pwrRestored (dt : Nat)
  | configJournalFlush (dt : Nat)
  | modeRequestQuickset (dt : Nat) (m : Msg)
  | modeRequestConfigure (dt : Nat) (m : Msg)
  | modeRequestStandby (dt : Nat) (m : Msg)
  | modeRequestOperate (dt : Nat) (m : Msg)
  | modeRequestSafe (dt : Nat) (m : Msg)
  | modeRequestZeroize (dt : Nat) (m : Msg)
  | operateStart (dt : Nat)
  | stopInstant (dt : Nat)
  | outputsStop (dt : Nat)
  | degradedReturn (dt : Nat)
  | deviceResetBegin (dt : Nat)
  | portReset (dt : Nat) (m : Msg) (p : Nat) (v : List (BitVec 8))
  | ingestReset (dt : Nat) (m : Msg) (v : List (BitVec 8))
  | chainReset (dt : Nat) (m : Msg) (v : List (BitVec 8))
  | alignmentReset (dt : Nat) (m : Msg) (v : List (BitVec 8))
  | oscEngineReset (dt : Nat) (m : Msg) (v : List (BitVec 8))
  | islEngineReset (dt : Nat) (m : Msg) (v : List (BitVec 8))
  | alarmUnitReset (dt : Nat) (m : Msg) (v : List (BitVec 8))
  | acqReset (dt : Nat) (m : Msg) (v : List (BitVec 8))
  | hedgerowReset (dt : Nat) (m : Msg) (v : List (BitVec 8))
  | clusterReset (dt : Nat) (m : Msg) (c : Nat) (v : List (BitVec 8))
  | timebaseServoReset (dt : Nat) (m : Msg) (v : List (BitVec 8))
  | recorderReadersReset (dt : Nat) (m : Msg) (v : List (BitVec 8))
  | keyPortReset (dt : Nat) (m : Msg) (v : List (BitVec 8))
  | updateEngineReset (dt : Nat) (m : Msg) (v : List (BitVec 8))
  | coppiceReset (dt : Nat) (m : Msg) (v : List (BitVec 8))
  | wholeDeviceReset (dt : Nat) (m : Msg) (v : List (BitVec 8))
  | unitResetComplete (dt : Nat) (sub : Nat)
  | sourceQualified (dt : Nat) (src : Nat) (offset : Int)
  | sourceDisqualified (dt : Nat) (src : Nat)
  | servoLocked (dt : Nat)
  | holdoverUpdate (dt : Nat)
  | unlockedClassStep (dt : Nat)
  | setTime (dt : Nat) (m : Msg) (v : List (BitVec 8))
  | refClkLost (dt : Nat)
  | refClkRestored (dt : Nat) (offset : Int)
  | ptpFrameReceive (dt : Nat) (f : PtpMsg)
  | ptpReceiptTimeout (dt : Nat) (port : Nat)
  | ptpTransmit (dt : Nat) (port : Nat) (msgType : Nat) (domain : Nat) (seqId : Nat)
  | ppsEdge (dt : Nat) (width : Nat)
  | irigbFrame (dt : Nat) (f : IrigFrame)
  | leapPendingStart (dt : Nat)
  | leapOccur (dt : Nat)
  | leapOccurredClear (dt : Nat)
  | ppsOutPulse (dt : Nat)
  | frameReceive (dt : Nat) (p : Nat) (f : Frame)
  | ipReassemblyTimeout (dt : Nat) (p : Nat) (src : Nat) (ident : Nat)
  | linkUp (dt : Nat) (p : Nat) (rate : Nat) (half : Bool)
  | linkDown (dt : Nat) (p : Nat)
  | frameTransmit (dt : Nat) (p : Nat)
  | tcpSendOffload (dt : Nat) (p : Nat) (x : OffloadSend)
  | udpSendOffload (dt : Nat) (p : Nat) (x : OffloadSend)
  | pauseReceive (dt : Nat) (p : Nat) (dst : Nat) (opcode : Nat) (quanta : Nat)
  | pauseExpire (dt : Nat) (p : Nat)
  | pauseWatchdogTrip (dt : Nat) (p : Nat)
  | pauseHoldoffEnd (dt : Nat) (p : Nat)
  | c37DataFrame (dt : Nat) (x : C37Rx)
  | c37CfgFrame (dt : Nat) (x : C37Rx)
  | c37HeaderFrame (dt : Nat) (x : C37Rx)
  | ingestTcpConnect (dt : Nat) (ctx : Nat)
  | ingestTcpLost (dt : Nat) (ctx : Nat)
  | ingestRetry (dt : Nat) (ctx : Nat)
  | svFrameReceive (dt : Nat) (f : SvFrame)
  | streamLost (dt : Nat) (sv : Bool) (k : Nat)
  | estimatorReport (dt : Nat) (e : Nat)
  | setOpen (dt : Nat) (g : Nat)
  | setDeadline (dt : Nat) (g : Nat) (seq : BitVec 32)
  | setProvisionalDeadline (dt : Nat) (g : Nat) (seq : BitVec 32)
  | clearLearnedLatency (dt : Nat) (m : Msg) (v : List (BitVec 8))
  | oscSetIntake (dt : Nat) (g : Nat)
  | oscUpdate (dt : Nat) (g : Nat)
  | foEvaluation (dt : Nat) (g : Nat)
  | oscRestartRequest (dt : Nat) (m : Msg) (v : List (BitVec 8))
  | islFinalReport (dt : Nat)
  | islProvisionalRun (dt : Nat)
  | islRestartRequest (dt : Nat) (m : Msg) (v : List (BitVec 8))
  | alarmProvisionalDecision (dt : Nat) (a : Nat)
  | alarmFinalReport (dt : Nat) (a : Nat)
  | alarmPulseEnd (dt : Nat) (a : Nat)
  | alarmAcknowledge (dt : Nat) (m : Msg) (v : List (BitVec 8))
  | releaseFrozenAlarms (dt : Nat) (m : Msg) (v : List (BitVec 8))
  | gooseFrameBuild (dt : Nat) (p : Nat)
  | gooseRetransmit (dt : Nat) (p : Nat)
  | gooseValueEvaluate (dt : Nat) (p : Nat)
  | outCmdTurnOff (dt : Nat) (n : Nat) (src : Nat)
  | outCmdTurnOn (dt : Nat) (n : Nat) (src : Nat)
  | outCmdSendHeader (dt : Nat) (n : Nat) (src : Nat)
  | outCmdSendCfg1 (dt : Nat) (n : Nat) (src : Nat)
  | outCmdSendCfg2 (dt : Nat) (n : Nat) (src : Nat)
  | outCmdSendCfg3 (dt : Nat) (n : Nat) (src : Nat)
  | outCmdUnknown (dt : Nat) (n : Nat) (src : Nat) (cmd : Nat)
  | outClientConnect (dt : Nat) (n : Nat) (ip : Nat) (tcpPort : Nat)
  | outClientDisconnect (dt : Nat) (n : Nat)
  | outDataFrame (dt : Nat) (n : Nat)
  | outFrameHandoff (dt : Nat) (n : Nat)
  | dinEdge (dt : Nat) (d : Nat) (level : Bool) (frac : Nat)
  | dinEdgeAccept (dt : Nat) (d : Nat)
  | triggerTimeout (dt : Nat) (u : Nat)
  | recordOpen (dt : Nat) (g : Nat)
  | recordClose (dt : Nat) (g : Nat)
  | readerRead (dt : Nat) (m : Msg) (r : Nat) (sub : Nat) (offset : Nat) (maxLen : Nat)
  | readerAdvance (dt : Nat) (m : Msg) (r : Nat) (v : List (BitVec 8))
  | readerRewind (dt : Nat) (m : Msg) (r : Nat) (v : List (BitVec 8))
  | readerSetSequence (dt : Nat) (m : Msg) (r : Nat) (v : List (BitVec 8))
  | readerSetMark (dt : Nat) (m : Msg) (r : Nat) (v : List (BitVec 8))
  | readerFlagsRead (dt : Nat) (m : Msg) (r : Nat)
  | exportEnable (dt : Nat) (m : Msg) (r : Nat) (v : List (BitVec 8))
  | armGroup (dt : Nat) (m : Msg) (v : List (BitVec 8))
  | disarmGroup (dt : Nat) (m : Msg) (v : List (BitVec 8))
  | cycleStart (dt : Nat)
  | cycleHeaderReceive (dt : Nat) (lane : Nat) (h : CycleHeader)
  | workerBurst (dt : Nat) (lane : Nat)
  | burstReceive (dt : Nat) (lane : Nat) (w : Nat) (valid : Bool)
  | rangingResponse (dt : Nat) (w : Nat) (identity : Nat) (lane : Nat) (seq : Option Nat)
  | driveFrame (dt : Nat) (rx : HrRx) (line : Nat) (riseNs8 : Nat) (lenNs : Nat)
  | offsetReport (dt : Nat) (rx : HrRx) (offset : Int) (usable : Bool) (qual : BitVec 16) (gen : BitVec 16)
  | setFragment (dt : Nat) (rx : HrRx) (f : Fragment)
  | summaryFrame (dt : Nat) (rx : HrRx) (x : Summary)
  | laneLoss (dt : Nat) (lane : Nat)
  | workerLost (dt : Nat) (w : Nat)
  | managerLost (dt : Nat)
  | triggerLineFall (dt : Nat) (line : Nat)
  | offsetClear (dt : Nat) (w : Nat)
  | slotFrame (dt : Nat) (accesses : List StoreAccess) (f : SlotLoad)
  | queuePop (dt : Nat) (q : Nat) (ue : Option StoreErr)
  | queueRefill (dt : Nat) (q : Nat) (ue : Option StoreErr)
  | scrubPassEnd (dt : Nat) (r : ScrubReport)
  | rowRepair (dt : Nat) (channel : Nat) (row : Nat)
  | clearHighWater (dt : Nat) (m : Msg) (v : List (BitVec 8))
  | taskPeriod (dt : Nat) (t : Nat)
  | taskYield (dt : Nat) (core : Nat)
  | sliceExpire (dt : Nat) (core : Nat)
  | taskAgeRise (dt : Nat) (t : Nat)
  | waitBoundExceeded (dt : Nat) (t : Nat)
  | coreLoadUpdate (dt : Nat) (core : Nat)
  | schedClear (dt : Nat) (m : Msg) (v : List (BitVec 8))
  | malformedDatagram (dt : Nat) (d : Datagram)
  | open_ (dt : Nat) (m : OpenMsg)
  | close (dt : Nat) (m : Msg)
  | keepalive (dt : Nat) (m : Msg)
  | rekey (dt : Nat) (m : RekeyMsg)
  | read (dt : Nat) (m : Msg) (idx : Nat) (sub : Nat) (offset : Nat) (maxLen : Nat)
  | describe (dt : Nat) (m : Msg) (idx : Nat) (sub : Nat)
  | write (dt : Nat) (m : Msg) (idx : Nat) (sub : Nat) (v : List (BitVec 8))
  | stageOpen (dt : Nat) (m : Msg)
  | stageWrite (dt : Nat) (m : Msg) (idx : Nat) (sub : Nat) (offset : Nat) (v : List (BitVec 8))
  | stageCommit (dt : Nat) (m : Msg)
  | stageAbort (dt : Nat) (m : Msg)
  | reportRead (dt : Nat) (m : Msg) (gen : BitVec 32) (offset : Nat) (maxLen : Nat)
  | subscribe (dt : Nat) (m : Msg) (on : Nat)
  | notifyAck (dt : Nat) (m : Msg) (echo : Nat)
  | notifySend (dt : Nat) (sid : Nat)
  | notifyRetransmit (dt : Nat) (sid : Nat)
  | sessionIdleTimeout (dt : Nat) (sid : Nat)
  | rekeyDue (dt : Nat) (sid : Nat)
  | rekeyDeadline (dt : Nat) (sid : Nat)
  | oldKeyExpire (dt : Nat) (sid : Nat)
  | authLockoutEnd (dt : Nat) (ip : Nat)
  | snapshotExpire (dt : Nat) (sid : Nat)
  | stagingTimeout (dt : Nat) (sid : Nat)
  | topiaryCheck (dt : Nat)
  | commitAccept (dt : Nat)
  | stickyFlagClear (dt : Nat) (m : Msg) (idx : Nat) (sub : Nat) (v : List (BitVec 8))
  | keyImportWrapped (dt : Nat) (m : Msg) (v : List (BitVec 8)) (data : List (BitVec 8))
  | keyImportClear (dt : Nat) (m : Msg) (v : List (BitVec 8))
  | keyImportPublic (dt : Nat) (m : Msg) (v : List (BitVec 8)) (data : List (BitVec 8))
  | keyDerive (dt : Nat) (m : Msg) (v : List (BitVec 8))
  | keyUpdate (dt : Nat) (m : Msg) (v : List (BitVec 8)) (data : List (BitVec 8))
  | keyRevoke (dt : Nat) (m : Msg) (v : List (BitVec 8))
  | keyDestroy (dt : Nat) (m : Msg) (v : List (BitVec 8))
  | keyCommandComplete (dt : Nat) (verifyOk : Bool)
  | generateRoot (dt : Nat) (m : Msg) (v : List (BitVec 8)) (draws : List TrngTest) (programmed : Bool)
  | lifecycleToProvisioned (dt : Nat) (m : Msg) (v : List (BitVec 8))
  | lifecycleToOperational (dt : Nat) (m : Msg) (v : List (BitVec 8))
  | lifecycleToRma (dt : Nat) (m : Msg) (v : List (BitVec 8))
  | lifecycleToScrapped (dt : Nat) (m : Msg) (v : List (BitVec 8))
  | tamperAssert (dt : Nat) (src : TamperIn)
  | keyAreaEraseComplete (dt : Nat)
  | remaskStep (dt : Nat) (slot : Nat)
  | manifestWrite (dt : Nat) (m : Msg) (v : List (BitVec 8)) (c : Sigs)
  | chunkWrite (dt : Nat) (m : Msg) (v : List (BitVec 8)) (data : List (BitVec 8))
  | partReadback (dt : Nat) (part : Nat) (data : List (BitVec 8))
  | activate (dt : Nat) (m : Msg) (v : List (BitVec 8))
  | activationCommit (dt : Nat)
  | confirm (dt : Nat) (m : Msg) (v : List (BitVec 8))
  | rejectTrial (dt : Nat) (m : Msg) (v : List (BitVec 8))
  | trialWindowExpire (dt : Nat)
  | releaseLock (dt : Nat) (m : Msg) (v : List (BitVec 8))
  | lockLapse (dt : Nat)
  | quicksetRestart (dt : Nat) (m : Msg) (v : List (BitVec 8))
  | securityVersionStep (dt : Nat)
  | handoverStart (dt : Nat) (unit : Nat) (lane : Nat)
  | handoverComplete (dt : Nat) (unit : Nat) (matched : Bool)
  | sliceStart (dt : Nat) (unit : Nat) (lane : Nat)
  | coppiceSliceEnd (dt : Nat) (unit : Nat) (signatureOk : Bool) (element : Option Nat)
  | sliceYield (dt : Nat) (unit : Nat)
  | sliceResume (dt : Nat) (unit : Nat)
  | fuseProgram (dt : Nat) (verified : Bool)
  | testNow (dt : Nat) (m : Msg) (v : List (BitVec 8))
  | rotationPeriodEnd (dt : Nat)
  | journalPageProgram (dt : Nat) (verified : Bool)
  | recorderScrub (dt : Nat) (corrected : Nat) (ueWord : Option Nat)
  | monitorSample (dt : Nat) (tj : Int) (railsMv : List Nat)
  | thermalShutdown (dt : Nat) (tj : Int)
  | thermalRecovery (dt : Nat) (tj : Int)
  | clearHighestTj (dt : Nat) (m : Msg) (v : List (BitVec 8))
  | irqClear (dt : Nat) (m : Msg) (v : List (BitVec 8))
  | tamperDeassert (dt : Nat) (src : Nat)
  | trngOutput (dt : Nat) (repOk : Bool) (propOk : Bool)
  | jtagInstruction (dt : Nat) (i : Jtag)
  | uartFrameCrcFail (f : UartRx)
  deriving DecidableEq, Repr

end Sys2Proof
end

