-- ==== Sys2Proof/Machine/Float.lean ====
section
/-! DEFINITION. IEEE 754 binary32 and binary64 arithmetic on bits: every operation forms the exact value and rounds it
once, to nearest with ties to even. -/
namespace Sys2Proof

/-- A number: the finite value (-1)^neg * m * 2^e, an infinity, or NaN. -/
inductive Num where
  | fin (neg : Bool) (m : Nat) (e : Int)
  | inf (neg : Bool)
  | nan
  deriving DecidableEq, Repr

/-- Exponent width and fraction width of a binary format. -/
structure Fmt where
  ew : Nat
  fw : Nat
  deriving DecidableEq, Repr

def fmt32 : Fmt := ⟨8, 23⟩
def fmt64 : Fmt := ⟨11, 52⟩

def Fmt.bias (f : Fmt) : Nat := 2 ^ (f.ew - 1) - 1
def Fmt.topExp (f : Fmt) : Nat := 2 ^ f.ew - 1
/-- Exponent of the least significant bit of a subnormal. -/
def Fmt.qMin (f : Fmt) : Int := 1 - (f.bias : Int) - (f.fw : Int)

/-- Read the bits of a format. -/
def numOf (f : Fmt) (bits : Nat) : Num :=
  let frac := bits % 2 ^ f.fw
  let ex := bits / 2 ^ f.fw % 2 ^ f.ew
  let neg := bits / 2 ^ (f.fw + f.ew) % 2 = 1
  if ex = f.topExp then if frac = 0 then .inf neg else .nan
  else if ex = 0 then .fin neg frac f.qMin
  else .fin neg (2 ^ f.fw + frac) ((ex : Int) - f.bias - f.fw)

/-- `m * 2^d` rounded to an integer, ties to even; `sticky` stands for a non-zero part below the lowest bit of `m`. -/
def roundShift (m : Nat) (d : Int) (sticky : Bool) : Nat :=
  if 0 ≤ d then m * 2 ^ d.toNat
  else
    let k := (-d).toNat
    let q := m / 2 ^ k
    let r := m % 2 ^ k
    let half := 2 ^ (k - 1)
    if r > half || (r = half && (sticky || q % 2 = 1)) then q + 1 else q

/-- The bits of ± m * 2^e in a format, rounded; an overflow is an infinity. With `sticky`, `m` must have at least two
bits more than the format. -/
def packFin (f : Fmt) (neg : Bool) (m : Nat) (e : Int) (sticky : Bool) : Nat :=
  let sgn := if neg then 2 ^ (f.fw + f.ew) else 0
  if m = 0 then sgn
  else
    let len : Int := (Nat.log2 m : Int) + 1
    let q := max (e + len - (f.fw + 1)) f.qMin
    let r := roundShift m (e - q) sticky
    if r < 2 ^ f.fw then sgn + r
    else
      let biased := (q - f.qMin).toNat + 1
      let body := biased * 2 ^ f.fw + (r - 2 ^ f.fw)
      if body ≥ f.topExp * 2 ^ f.fw then sgn + f.topExp * 2 ^ f.fw else sgn + body

/-- The bits of a number; NaN is the quiet NaN 0x7FC00000 (R299) or its binary64 counterpart. -/
def pack (f : Fmt) (n : Num) : Nat :=
  match n with
  | .fin s m e => packFin f s m e false
  | .inf s => (if s then 2 ^ (f.fw + f.ew) else 0) + f.topExp * 2 ^ f.fw
  | .nan => f.topExp * 2 ^ f.fw + 2 ^ (f.fw - 1)

/-- The signed integer `v` and exponent of a finite number. -/
def Num.signed (neg : Bool) (m : Nat) : Int := if neg then -(m : Int) else (m : Int)

/-- The number `v * 2^e`. -/
def Num.ofInt (v : Int) (e : Int) : Num := .fin (v < 0) v.natAbs e

def Num.neg (a : Num) : Num :=
  match a with
  | .fin s m e => .fin (!s) m e
  | .inf s => .inf (!s)
  | .nan => .nan

/-- Exact sum. -/
def Num.add (a b : Num) : Num :=
  match a, b with
  | .nan, _ => .nan
  | _, .nan => .nan
  | .inf s, .inf t => if s = t then .inf s else .nan
  | .inf s, .fin _ _ _ => .inf s
  | .fin _ _ _, .inf t => .inf t
  | .fin s m e, .fin t n g =>
    if m = 0 then (if n = 0 then .fin (s && t) 0 e else .fin t n g)
    else if n = 0 then .fin s m e
    else
      let q := min e g
      Num.ofInt (Num.signed s m * 2 ^ (e - q).toNat + Num.signed t n * 2 ^ (g - q).toNat) q

/-- Exact product. -/
def Num.mul (a b : Num) : Num :=
  match a, b with
  | .nan, _ => .nan
  | _, .nan => .nan
  | .inf s, .inf t => .inf (s != t)
  | .inf s, .fin t n _ => if n = 0 then .nan else .inf (s != t)
  | .fin s m _, .inf t => if m = 0 then .nan else .inf (s != t)
  | .fin s m e, .fin t n g => .fin (s != t) (m * n) (e + g)

/-- `a < b` for numbers that are not NaN. -/
def Num.lt (a b : Num) : Bool :=
  match a, b with
  | .nan, _ => false
  | _, .nan => false
  | .inf s, .inf t => s && !t
  | .inf s, .fin _ _ _ => s
  | .fin _ _ _, .inf t => !t
  | .fin s m e, .fin t n g =>
    let q := min e g
    decide (Num.signed s m * 2 ^ (e - q).toNat < Num.signed t n * 2 ^ (g - q).toNat)

def Num.eq (a b : Num) : Bool :=
  match a, b with
  | .nan, _ => false
  | _, .nan => false
  | a, b => !Num.lt a b && !Num.lt b a

def Num.le (a b : Num) : Bool := Num.lt a b || Num.eq a b
def Num.isNan (a : Num) : Bool := a = .nan
def Num.finite (a : Num) : Bool :=
  match a with
  | .fin _ _ _ => true
  | _ => false

/-- The bits of a quotient, rounded once. -/
def packDiv (f : Fmt) (a b : Num) : Nat :=
  match a, b with
  | .nan, _ => pack f .nan
  | _, .nan => pack f .nan
  | .inf _, .inf _ => pack f .nan
  | .inf s, .fin t _ _ => pack f (.inf (s != t))
  | .fin s _ _, .inf t => pack f (.fin (s != t) 0 0)
  | .fin s m e, .fin t n g =>
    if n = 0 then (if m = 0 then pack f .nan else pack f (.inf (s != t)))
    else if m = 0 then pack f (.fin (s != t) 0 0)
    else
      let k := Nat.log2 n + f.fw + 4
      let q := m * 2 ^ k / n
      let r := m * 2 ^ k % n
      packFin f (s != t) q (e - g - k) (r != 0)

/-- Integer square root by halving, on `fuel` bits. -/
def isqrt (n fuel : Nat) : Nat :=
  match fuel with
  | 0 => 0
  | k + 1 =>
    let r := isqrt (n / 4) k * 2
    if (r + 1) * (r + 1) ≤ n then r + 1 else r

/-- The bits of a square root, rounded once. -/
def packSqrt (f : Fmt) (a : Num) : Nat :=
  match a with
  | .nan => pack f .nan
  | .inf s => if s then pack f .nan else pack f (.inf false)
  | .fin s m e =>
    if m = 0 then pack f (.fin s 0 0)
    else if s then pack f .nan
    else
      let k := 2 * (f.fw + 4) + (if e % 2 = 0 then 0 else 1)
      let x := m * 2 ^ k
      let r := isqrt x (Nat.log2 x / 2 + 2)
      packFin f false r ((e - (k : Int)) / 2) (r * r != x)

/-- The integer part of a finite number, towards minus infinity. -/
def Num.floor (a : Num) : Int :=
  match a with
  | .fin s m e => if 0 ≤ e then Num.signed s m * 2 ^ e.toNat else Num.signed s m / 2 ^ (-e).toNat
  | _ => 0

/-- The nearest integer, ties to even. -/
def Num.nearest (a : Num) : Int :=
  match a with
  | .fin s m e => Num.signed s (roundShift m e false)
  | _ => 0

/-- `n / d` of integers as the nearest integer, a half away from zero. -/
def nearestDiv (n : Int) (d : Nat) : Int :=
  if n < 0 then -((((-n) * 2 + d) / (2 * (d : Int)))) else (n * 2 + d) / (2 * (d : Int))

/-- `n / d` as the nearest integer, ties to even. -/
def nearestEven (n : Int) (d : Nat) : Int :=
  let q := n / (d : Int)
  let r := 2 * (n - q * d)
  if r < d then q else if (d : Int) < r then q + 1 else if q % 2 = 0 then q else q + 1

/-- Two finite numbers as integers of one exponent. -/
def Num.pair (a b : Num) : Int × Int :=
  match a, b with
  | .fin s m e, .fin t n g => let k := min e g; (Num.signed s m * 2 ^ (e - k).toNat, Num.signed t n * 2 ^ (g - k).toNat)
  | _, _ => (0, 0)

/-- `k * a / b` as the nearest integer, ties to even, for `b` above 0. -/
def Num.scaled (k : Nat) (a b : Num) : Int := let (x, y) := Num.pair a b; if y ≤ 0 then 0 else nearestEven (k * x) y.toNat

/-! Operations on binary64 bits. -/
def n64 (a : F64) : Num := numOf fmt64 a.toNat
def n32 (a : F32) : Num := numOf fmt32 a.toNat
def b64 (n : Num) : F64 := BitVec.ofNat 64 (pack fmt64 n)
def b32 (n : Num) : F32 := BitVec.ofNat 32 (pack fmt32 n)
def f64add (a b : F64) : F64 := b64 (Num.add (n64 a) (n64 b))
def f64sub (a b : F64) : F64 := b64 (Num.add (n64 a) (Num.neg (n64 b)))
def f64mul (a b : F64) : F64 := b64 (Num.mul (n64 a) (n64 b))
def f64div (a b : F64) : F64 := BitVec.ofNat 64 (packDiv fmt64 (n64 a) (n64 b))
def f64sqrt (a : F64) : F64 := BitVec.ofNat 64 (packSqrt fmt64 (n64 a))
def f64neg (a : F64) : F64 := a ^^^ (1#64 <<< 63)
def f64abs (a : F64) : F64 := a &&& (~~~ (1#64 <<< 63))
def f64lt (a b : F64) : Bool := Num.lt (n64 a) (n64 b)
def f64le (a b : F64) : Bool := Num.le (n64 a) (n64 b)
def f64ofInt (v : Int) : F64 := b64 (Num.ofInt v 0)
/-- The nearest binary64 to the rational `n / d`. -/
def f64ratio (n : Int) (d : Nat) : F64 := BitVec.ofNat 64 (packDiv fmt64 (Num.ofInt n 0) (Num.ofInt d 0))
/-- The nearest binary32 to the rational `n / d`. -/
def f32ratio (n : Int) (d : Nat) : F32 := BitVec.ofNat 32 (packDiv fmt32 (Num.ofInt n 0) (Num.ofInt d 0))
def f64of32 (a : F32) : F64 := b64 (n32 a)
def f32of64 (a : F64) : F32 := b32 (n64 a)
def f64sum (xs : List F64) : F64 := xs.foldl f64add 0#64
def f64max (a b : F64) : F64 := if f64lt a b then b else a
def f64min (a b : F64) : F64 := if f64lt b a then b else a
def f32lt (a b : F32) : Bool := Num.lt (n32 a) (n32 b)
def f32le (a b : F32) : Bool := Num.le (n32 a) (n32 b)
def f32abs (a : F32) : F32 := a &&& (~~~ (1#32 <<< 31))
def f32finite (a : F32) : Bool := Num.finite (n32 a)
def f64finite (a : F64) : Bool := Num.finite (n64 a)

/-- The quiet NaN 0x7FC00000. -/
def nan32 : F32 := 0x7FC00000#32
def nan64 : F64 := 0x7FF8000000000000#64

end Sys2Proof
end

