-- ==== Sys2Proof/Config.lean ====
section
/-! DEFINITION. What one part or its firmware fixes and the spec does not state (OTP contents, task descriptors), and
the free values: constants with no body, so that a statement holds whatever they are. -/
namespace Sys2Proof

/-! ## Fixed in OTP or in the running image (R409, R132, R364, R390) -/

/-- Die revision, 0x1000.03. -/
opaque Config.dieRevision : BitVec 16
/-- Serial number, 0x1000.04. -/
opaque Config.serial : BitVec 64
/-- MAC address of port 0; port n has this plus n (R132). -/
opaque Config.macBase : BitVec 48
/-- The fixed PCS and SerDes delay of a port, ns, by port: of receive and of transmit (R128). -/
opaque Config.rxDelay : Nat → Nat
opaque Config.txDelay : Nat → Nat
/-- The data set that a PTP port of the device announces, but for its clockClass, and that class in LOCKED (R82). -/
opaque Config.ptpOwn : PtpDs
opaque Config.ptpLockedClass : Nat
/-- The channel of granule 0, 1, 2 and 3 of the store, and of every fourth one after it (R371). -/
opaque Config.channelOrder : Equiv.Perm (Fin 4)
/-- Hedgerow identity, 0xE000.05 (R364). -/
opaque Config.hrIdentity : BitVec 64
/-- ROM version, 0x1000.07. -/
opaque Config.romVersion : BitVec 32

/-- The manifest of the image the part is shipped with, in bank A. -/
opaque Config.factoryManifest : List (BitVec 8)

/-- The firmware's task descriptor table, by task number (R390). -/
opaque Config.firmwareTasks : Table TaskDesc

/-! ## Values no rule states: each is applied to the model's own counter of free values, so every use is a new one. -/

/-- Session IDs, nonces and the like (R414). -/
opaque Config.free32 : Nat → BitVec 32
/-- A free 16-bit value. -/
opaque Config.free16 : Nat → BitVec 16
/-- A free 64-bit value. -/
opaque Config.free64 : Nat → BitVec 64
/-- A free 256-bit value: key material the TRNG draws (R441). -/
opaque Config.free256 : Nat → BitVec 256
/-- Free bytes. -/
opaque Config.freeBytes : Nat → List (BitVec 8)
/-- A byte that no rule states of a frame the device sends: by a free number and the place of the byte (log entry 185). -/
opaque Config.frameByte : Nat → Nat → BitVec 8
/-- A free frequency correction in parts per 10^15: what the servo steers to, and what is measured of the backup oscillator (R86,
R89). -/
opaque Config.freeFreq : Nat → Int
/-- A free choice. -/
opaque Config.freeBool : Nat → Bool

/-- Patterns a slice of a unit holds (R497), and so what the results show (R506). -/
opaque Config.slicePatterns : Nat → Nat

/-- The cause code of a mode resumed after an activation that the power-fail warning stopped (R476), and of the restart by
0xB000.0C (R485): R63 lists none. -/
opaque Config.resumeCause : BitVec 16
opaque Config.quicksetRestartCause : BitVec 16

/-- What an uncorrectable burst of a stored record reads as, by record sequence and byte (R377). -/
opaque Config.damagedByte : BitVec 32 → Nat → BitVec 8
/-- Texts of a C37.111 file that the manual does not state: a number as text, and fields by number (R335). -/
opaque Config.f32Text : BitVec 32 → List (BitVec 8)
opaque Config.exportText : Nat → List (BitVec 8)

/-! ## Cryptographic functions: the manual names the standards and no more is needed of them here. -/

/-- The die key, reconstructed from the die's physical fingerprint (R440). -/
opaque Config.dieKey : BitVec 256
/-- The point of the Waintily firmware verification key, from OTP (R445). -/
opaque Config.firmwareKey : List (BitVec 8)

end Sys2Proof
end

