-- ==== Sys2Proof/Machine/Tables.lean ====
section
/-! DEFINITION. Sparse tables in one canonical form: key and value pairs, keys strictly rising, no entry equal to the
value an unlisted key reads as. And the regions of the central store. -/
namespace Sys2Proof

/-- Insert or replace the value of a key, keeping the keys rising. -/
def Table.put {α : Type} (t : Table α) (k : Nat) (v : α) : Table α :=
  match t with
  | [] => [(k, v)]
  | (k', v') :: r => if k < k' then (k, v) :: (k', v') :: r else if k = k' then (k, v) :: r else (k', v') :: Table.put r k v

/-- Remove a key. -/
def Table.drop {α : Type} (t : Table α) (k : Nat) : Table α :=
  match t with
  | [] => []
  | (k', v') :: r => if k = k' then Table.drop r k else (k', v') :: Table.drop r k

/-- The listed value of a key. -/
def Table.find {α : Type} (t : Table α) (k : Nat) : Option α :=
  match t with
  | [] => none
  | (k', v') :: r => if k = k' then some v' else Table.find r k

/-- The value of a key: an unlisted key reads as `d`. -/
def Table.getD {α : Type} (t : Table α) (k : Nat) (d : α) : α := (Table.find t k).getD d

/-- Write a value; writing what an unlisted key reads as removes the entry. -/
def Table.set {α : Type} [DecidableEq α] (t : Table α) (k : Nat) (v d : α) : Table α :=
  if v = d then Table.drop t k else Table.put t k v

/-- Change the value of a key. -/
def Table.modify {α : Type} [DecidableEq α] (t : Table α) (k : Nat) (d : α) (f : α → α) : Table α :=
  Table.set t k (f (Table.getD t k d)) d

/-- The listed keys. -/
def Table.keys {α : Type} (t : Table α) : List Nat := t.map (·.1)

/-- Change every listed value. -/
def Table.mapVals {α : Type} (t : Table α) (f : α → α) : Table α := t.map (fun p => (p.1, f p.2))

/-- Keep the entries that satisfy a test. -/
def Table.keep {α : Type} (t : Table α) (p : Nat → α → Bool) : Table α := t.filter (fun q => p q.1 q.2)

/-- Fold a state change over a list. -/
def each {σ α : Type} (xs : List α) (f : α → σ → σ) (s : σ) : σ := xs.foldl (fun acc x => f x acc) s

/-- `f s` when `b`, else `s`. -/
def when {σ : Type} (b : Bool) (f : σ → σ) (s : σ) : σ := if b then f s else s

/-- The numbers from `a` to `b - 1`. -/
def span (a b : Nat) : List Nat := (List.range (b - a)).map (· + a)

/-- Keep the values of a list without repeats, in order of first appearance. -/
def dedup (xs : List Nat) : List Nat := (xs.foldl (fun acc x => if acc.contains x then acc else x :: acc) []).reverse

/-! ## The regions (R370, R371) -/

/-- Offset of a region in MiB (R370). -/
def regionBase (r : Nat) : Nat :=
  match r with
  | 0 => 0 | 1 => 1472 | 2 => 1728 | 3 => 3264 | 4 => 7360 | 5 => 7872 | 6 => 9408 | 7 => 9664 | 8 => 10688 | 9 => 11200
  | 10 => 15296 | 11 => 15808 | _ => 16320

/-- Size of a region in MiB (R370). -/
def regionSize (r : Nat) : Nat :=
  match r with
  | 0 => 1472 | 1 => 256 | 2 => 1536 | 3 => 4096 | 4 => 512 | 5 => 1536 | 6 => 256 | 7 => 1024 | 8 => 512 | 9 => 4096
  | 10 => 512 | 11 => 512 | 12 => 64 | _ => 0

/-- A MiB of the store lies in a region; the region of a MiB. -/
def inRegion (r m : Nat) : Bool := regionBase r ≤ m && m < regionBase r + regionSize r
def regionOf (m : Nat) : Nat := ((List.range 13).find? (fun r => inRegion r m)).getD 13

/-- The reserved paths a region's traffic may be charged to (R370, R379): C37.118 framing in service core memory to alarm-output, a
queue's middle to its owner. -/
def regionPaths (r : Nat) : List Nat :=
  match r with
  | 0 => [3] | 2 => [0] | 3 => [0, 1, 2, 3, 4] | 4 => [0] | 5 => [1] | 6 => [2] | 7 => [3] | 8 => [4] | 9 => [4] | _ => []

end Sys2Proof
end

