-- ==== Sys2Proof/Machine/Operands.lean ====
section
/-! DEFINITION. Operand forms: big-endian fields of byte blocks (R11), slices, and the check words of frames. -/
namespace Sys2Proof

/-- The number a run of bytes spells, first byte most significant. -/
def ofBE (bs : Bytes) : Nat := bs.foldl (fun acc b => acc * 256 + b.toNat) 0

/-- `v` as `n` bytes, most significant first, modulo 256^n. -/
def toBE (n v : Nat) : Bytes :=
  match n with
  | 0 => []
  | k + 1 => toBE k (v / 256) ++ [BitVec.ofNat 8 v]

/-- A signed value as `n` bytes of two's complement. -/
def toBEi (n : Nat) (v : Int) : Bytes := toBE n ((v % (256 ^ n : Int)).toNat)

/-- Two's complement reading of an `n`-byte number. -/
def signedOf (n v : Nat) : Int := if v < 256 ^ n / 2 then (v : Int) else (v : Int) - (256 ^ n : Int)

/-- `len` bytes from offset `off`. -/
def slice (bs : Bytes) (off len : Nat) : Bytes := (bs.drop off).take len

/-- The big-endian number in `len` bytes at `off`. -/
def field (bs : Bytes) (off len : Nat) : Nat := ofBE (slice bs off len)

/-- Bit `i` of a number. -/
def bit (v i : Nat) : Bool := v / 2 ^ i % 2 = 1

/-- Bits `hi` to `lo` of a number. -/
def bits (v hi lo : Nat) : Nat := v / 2 ^ lo % 2 ^ (hi - lo + 1)

def b2n (b : Bool) : Nat := if b then 1 else 0

/-- `n` zero bytes. -/
def zeros (n : Nat) : Bytes := List.replicate n 0#8

/-- Bytes cut or filled with zeros to a length. -/
def fit (n : Nat) (bs : Bytes) : Bytes := (bs ++ zeros (n - bs.length)).take n

/-- A device time as the generation (2 bytes), TAI seconds (6) and nanoseconds (4). -/
def stampBytes (t : Stamp) : Bytes := toBE 2 t.gen.toNat ++ toBE 6 (t.ns / 1000000000) ++ toBE 4 (t.ns % 1000000000)

/-- The stamp that begins at a place of an item. -/
def stampAt (bs : Bytes) (off : Nat) : Stamp := ⟨BitVec.ofNat 16 (field bs off 2), field bs (off + 2) 6 * 1000000000 + field bs (off + 8) 4⟩

/-- A TIME80 value: seconds, then nanoseconds (R74). -/
def time80 (ns : Nat) : Bytes := toBE 6 (ns / 1000000000) ++ toBE 4 (ns % 1000000000)

/-- A flag word from its bits, bit 0 first. -/
def flagsOf (bs : List Bool) : Nat :=
  match bs with
  | [] => 0
  | b :: r => b2n b + 2 * flagsOf r

/-- One byte of the CRC of C37.118 frames, polynomial 0x1021. -/
def crcByte (crc : BitVec 16) (b : BitVec 8) : BitVec 16 :=
  (List.range 8).foldl (fun c _ => if c.getLsbD 15 then (c <<< 1) ^^^ 0x1021#16 else c <<< 1) (crc ^^^ (b.zeroExtend 16 <<< 8))

/-- CRC-CCITT with initial value 0xFFFF, as C37.118 frames carry it. -/
def crc16 (bs : Bytes) : Nat := (bs.foldl crcByte 0xFFFF#16).toNat

/-- CRC-32 with the IEEE 802.3 polynomial. -/
def crc32Byte (crc : BitVec 32) (b : BitVec 8) : BitVec 32 :=
  (List.range 8).foldl (fun c _ => if c.getLsbD 0 then (c >>> 1) ^^^ 0xEDB88320#32 else c >>> 1) (crc ^^^ b.zeroExtend 32)
def crc32 (bs : Bytes) : Nat := (~~~(bs.foldl crc32Byte 0xFFFFFFFF#32)).toNat

/-- ASCII bytes of a text. -/
def ascii (s : String) : Bytes := s.toList.map (fun c => BitVec.ofNat 8 c.toNat)

/-- Saturate at the greatest value of `n` bits. -/
def satBits (n v : Nat) : Nat := min v (2 ^ n - 1)

/-! ## Status codes (R410) -/
def stOk : Nat := 0
def stClamped : Nat := 1
def stRejected : Nat := 2
def stAbsent : Nat := 3
def stBusy : Nat := 4
def stPending : Nat := 5
def stRevoked : Nat := 6
def stMarkLost : Nat := 7
def stUnreadable : Nat := 8
def stIncomplete : Nat := 9
def stNoRoot : Nat := 10

end Sys2Proof
end

