-- ==== Sys2Proof/Machine/Dict.lean ====
section
/-! DEFINITION. The object dictionary (R405 to R408): one descriptor per object, from the object tables of the
chapters; the defaults every byte of the configuration has; which objects belong to absent units (R2 to R8). -/
namespace Sys2Proof

/-- Access rights (R407). -/
inductive Acc where
  | ro | rw | wo | rws
  deriving DecidableEq, Repr

/-- What happens to a value out of range: rejected; clamped to the nearest limit; bits outside a mask cleared; no test;
or a rule of the object's own, tested in Machine/Topiary.lean. -/
inductive Rule where
  | rej | clamp | mask (m : Nat) | any | own
  deriving DecidableEq, Repr

/-- One object, or one object at each of `insts` consecutive indices and at subindices `sub` to `subHi`. `ty` is the
type code of R406; `dflt` the stated default, none for a dash; `recSize`, `recCount` for a DOMAIN, 0 when variable. -/
structure Obj where
  idx      : Nat
  insts    : Nat := 1
  sub      : Nat
  subHi    : Nat
  ty       : Nat
  acc      : Acc
  direct   : Bool := false
  dflt     : Option Nat := none
  lo       : Int := 0
  hi       : Int := 0
  rule     : Rule := .any
  recSize  : Nat := 0
  recCount : Nat := 0
  deriving DecidableEq, Repr

/-- Size on the wire of a type, 0 for STRING and DOMAIN (R406). -/
def typeSize (ty : Nat) : Nat :=
  match ty with
  | 1 => 1 | 2 => 2 | 3 => 4 | 4 => 8 | 5 => 4 | 6 => 8 | 7 => 4 | 8 => 8 | 9 => 10 | _ => 0

/-- The limits of a type (R418). -/
def typeLo (ty : Nat) : Int :=
  match ty with
  | 5 => -2147483648 | 6 => -9223372036854775808 | _ => 0
def typeHi (ty : Nat) : Int :=
  match ty with
  | 1 => 0xFF | 2 => 0xFFFF | 3 => 0xFFFFFFFF | 4 => 0xFFFFFFFFFFFFFFFF | 5 => 2147483647
  | 6 => 9223372036854775807 | 7 => 0xFFFFFFFF | 8 => 0xFFFFFFFFFFFFFFFF | _ => 0

/-- A read-only object. -/
def oRo (idx sub ty : Nat) (dflt : Option Nat) (lo hi : Int) : Obj :=
  { idx := idx, sub := sub, subHi := sub, ty := ty, acc := .ro, dflt := dflt, lo := lo, hi := hi, rule := .rej }
/-- A read-only object over the whole range of its type. -/
def oRoT (idx sub ty : Nat) (dflt : Option Nat) : Obj := oRo idx sub ty dflt (typeLo ty) (typeHi ty)
/-- A statistics counter: U64, read only (R430). -/
def oCtr (idx sub subHi : Nat) : Obj :=
  { idx := idx, sub := sub, subHi := subHi, ty := 4, acc := .ro, dflt := some 0, lo := 0, hi := 0xFFFFFFFFFFFF, rule := .rej }
/-- A staged object with a default. -/
def oRw (idx sub ty dflt : Nat) (lo hi : Int) (rule : Rule) : Obj :=
  { idx := idx, sub := sub, subHi := sub, ty := ty, acc := .rw, dflt := some dflt, lo := lo, hi := hi, rule := rule }
/-- The same for a session with the security-officer role. -/
def oRws (idx sub ty dflt : Nat) (lo hi : Int) (rule : Rule) : Obj := { oRw idx sub ty dflt lo hi rule with acc := .rws }
/-- A write-only action. -/
def oWo (idx sub ty : Nat) (lo hi : Int) (rule : Rule) : Obj :=
  { idx := idx, sub := sub, subHi := sub, ty := ty, acc := .wo, direct := true, lo := lo, hi := hi, rule := rule }
/-- A sticky saturated flag object (R430), of type `ty`. -/
def oSticky (idx sub ty mask : Nat) : Obj :=
  { idx := idx, sub := sub, subHi := sub, ty := ty, acc := .rw, direct := true, dflt := some 0, lo := 0, hi := mask, rule := .mask mask }
/-- A staged DOMAIN, and one that is read only. -/
def oDom (idx sub subHi size count : Nat) : Obj :=
  { idx := idx, sub := sub, subHi := subHi, ty := 11, acc := .rw, dflt := some 0, rule := .own, recSize := size, recCount := count }
def oDomRo (idx sub subHi size count : Nat) : Obj :=
  { idx := idx, sub := sub, subHi := subHi, ty := 11, acc := .ro, rule := .rej, recSize := size, recCount := count }
/-- One that starts as stated: all 0, empty, or as the firmware sets it. -/
def oDomRo0 (idx sub subHi size count : Nat) : Obj := { oDomRo idx sub subHi size count with dflt := some 0 }
/-- The same object at several indices. -/
def Obj.at (o : Obj) (n : Nat) : Obj := { o with insts := n }
def Obj.to (o : Obj) (hi : Nat) : Obj := { o with subHi := hi }
def Obj.act (o : Obj) : Obj := { o with direct := true, dflt := none }

/-- Subindex 0x00: the highest subindex in use (R405). -/
def oTop (idx hi : Nat) : Obj := oRo idx 0 1 (some hi) hi hi

/-- A value by part: CZ4096, CZ2048-A, CZ1024-L (R2). -/
def byPart (v a b c : Nat) : Nat := match v with | 0 => a | 1 => b | _ => c

/-- The objects whose index has the given high byte, for a part. -/
def dictPage (v page : Nat) : List Obj :=
  match page with
  | 0x10 =>
    [ oTop 0x1000 7, oRo 0x1000 1 10 (some 0) 1 255, oRo 0x1000 2 10 (some 0) 1 255, oRoT 0x1000 3 2 (some 0), oRoT 0x1000 4 4 (some 0),
      oRoT 0x1000 5 3 (some 0), oRo 0x1000 6 2 (some 0) 0 511, oRoT 0x1000 7 3 (some 0),
      oTop 0x1010 0x0C ] ++
    ([(1, 2, byPart v 4096 2048 1024), (2, 2, byPart v 1024 512 256), (3, 1, byPart v 6 6 4), (4, 1, byPart v 2 2 0),
      (5, 1, byPart v 1 0 0), (6, 1, byPart v 1 1 0), (7, 1, byPart v 3 1 0), (8, 2, byPart v 8192 4096 2048),
      (9, 2, byPart v 8192 4096 2048), (10, 2, byPart v 256 128 64), (11, 2, byPart v 256 128 64),
      (12, 1, byPart v 64 64 0)].map (fun (s, t, d) => oRo 0x1010 s t (some d) (if s = 5 || s = 6 then 0 else d) (if s = 5 || s = 6 then 1 else d))) ++
    [ oTop 0x1030 9, oRoT 0x1030 1 3 none, oRo 0x1030 2 3 (some 1000) 1000 1000, oRoT 0x1030 3 2 none,
      oRw 0x1030 4 2 1300 1050 1600 .clamp, oRoT 0x1030 5 2 (some 65535), oRo 0x1030 6 1 (some 0) 0 7,
      oWo 0x1030 7 1 1 1 .rej, oCtr 0x1030 8 9,
      oTop 0x1050 8, oRo 0x1050 1 2 (some 4860) 4860 4860, oRw 0x1050 2 2 30 5 3600 .clamp, oRw 0x1050 3 2 60 10 3600 .clamp,
      oRo 0x1050 4 1 (some 0) 0 8, oRo 0x1050 5 1 (some 0) 0 4, oRw 0x1050 6 3 3600 60 86400 .clamp,
      oRw 0x1050 7 1 3 0 10 .clamp, oRw 0x1050 8 1 8 1 255 .clamp,
      oTop 0x1060 5, oDomRo0 0x1060 1 1 0 0, oRoT 0x1060 2 3 none, oRoT 0x1060 3 9 none, oRoT 0x1060 4 9 none,
      oRo 0x1060 5 1 (some 0) 0 1,
      oTop 0x1080 0x0A, oCtr 0x1080 1 9, oSticky 0x1080 0x0A 2 0x1FF ]
  | 0x11 =>
    [ oTop 0x1100 0x0C, oRo 0x1100 1 1 none 0 7, (oRws 0x1100 2 1 0 0 7 .own).act, oRo 0x1100 3 1 (some 0) 0 3,
      oRoT 0x1100 4 1 none, oRoT 0x1100 5 2 none, oRw 0x1100 6 1 1 0 1 .clamp, oRoT 0x1100 7 9 none,
      oRo 0x1100 8 1 (some 0) 0 3, oRoT 0x1100 9 2 none, oCtr 0x1100 0x0A 0x0A, oRo 0x1100 0x0B 1 (some 0) 0 2,
      oRw 0x1100 0x0C 3 10000 1000 600000 .clamp,
      oTop 0x1121 0x18, ((oRws 0x1121 1 1 0 1 1 .rej).to 0x18).act,
      oTop 0x1122 0x18, (oRo 0x1122 1 1 (some 0) 0 2).to 0x18 ]
  | 0x20 =>
    [ oTop 0x2000 1, oRw 0x2000 1 1 (byPart v 0x20 0x20 0x08) 0 0xFF .own,
      (oTop 0x2010 0x0B).at 6, (oRw 0x2010 1 1 2 0 6 .rej).at 6, (oRw 0x2010 2 1 1 0 1 .clamp).at 6,
      (oRw 0x2010 3 2 0 0 9216 .own).at 6, (oRw 0x2010 4 1 0 0 1 .clamp).at 6, (oRw 0x2010 5 1 1 0 1 .clamp).at 6,
      (oRw 0x2010 6 2 50 1 1000 .clamp).at 6, (oRw 0x2010 7 2 1000 10 60000 .clamp).at 6, (oRw 0x2010 8 1 16 0 16 .rej).at 6,
      (oRw 0x2010 9 4 0x4213 0 0xFFFFFFFFFFFFFFFF .own).at 6, (oRoT 0x2010 0x0A 4 (some 0)).at 6, (oRoT 0x2010 0x0B 1 (some 0)).at 6,
      (oTop 0x2040 0x40).at 6, (oRw 0x2040 1 4 0x90000088F7000000 0 0xFFFFFFFFFFFFFFFF .own).at 6,
      (oRw 0x2040 2 4 0x90000088BA010000 0 0xFFFFFFFFFFFFFFFF .own).at 6,
      (oRw 0x2040 3 4 0x90000088B8020000 0 0xFFFFFFFFFFFFFFFF .own).at 6,
      (oRw 0x2040 4 4 0x9000000800030000 0 0xFFFFFFFFFFFFFFFF .own).at 6,
      (oRw 0x2040 5 4 0x9000000806030000 0 0xFFFFFFFFFFFFFFFF .own).at 6,
      ((oRw 0x2040 6 4 0 0 0xFFFFFFFFFFFFFFFF .own).to 0x40).at 6,
      (oTop 0x2080 0x1E).at 6, (oCtr 0x2080 1 0x1D).at 6, (oSticky 0x2080 0x1E 3 0x1FFFFFFF).at 6 ]
  | 0x30 =>
    [ oTop 0x3000 0x0D, oRo 0x3000 1 1 (some 0) 0 4, oRoT 0x3000 2 9 none, oRoT 0x3000 3 2 none, oRo 0x3000 4 2 (some 0x3F) 0 0x7FF,
      oRo 0x3000 5 1 (some 0) 0 8, oRoT 0x3000 6 3 (some 0xFFFFFFFF), oRoT 0x3000 7 6 (some 0),
      { idx := 0x3000, sub := 8, subHi := 8, ty := 9, acc := .rws, direct := true, rule := .own },
      oCtr 0x3000 9 9, oRoT 0x3000 0x0A 6 (some 0), oRoT 0x3000 0x0B 4 (some 0), oRoT 0x3000 0x0C 3 (some 0xFFFFFFFF),
      oRoT 0x3000 0x0D 6 (some 0),
      oTop 0x3010 0x0A, oRw 0x3010 1 1 (byPart v 6 6 4) 0 8 .own, oRw 0x3010 2 1 8 0 8 .own, oRw 0x3010 3 1 7 0 8 .own,
      (oRw 0x3010 4 1 0 0 8 .own).to 8, oRw 0x3010 9 2 10 1 600 .clamp, oRw 0x3010 0x0A 1 1 0 1 .clamp,
      (oTop 0x3020 8).at 6 ] ++
    ((List.range 6).map (fun n => oRw (0x3020 + n) 1 1 (if n = byPart v 5 5 3 then 1 else 0) 0 2 .rej)) ++
    [ (oRw 0x3020 2 1 0 0 1 .rej).at 6, (oRw 0x3020 3 1 0 0 255 .any).at 6, (oRw 0x3020 4 5 0 (-1000000) 1000000 .clamp).at 6,
      (oRo 0x3020 5 1 (some 1) 1 9).at 6, (oRoT 0x3020 6 3 (some 0)).at 6, (oRoT 0x3020 7 4 (some 0)).at 6,
      (oRoT 0x3020 8 3 (some 0xFFFFFFFF)).at 6,
      oTop 0x3030 4, oRw 0x3030 1 3 0 0 100000 .clamp, oRw 0x3030 2 1 0 0 2 .rej, oRw 0x3030 3 3 0 0 1000000 .clamp,
      oRw 0x3030 4 2 2026 2000 2099 .clamp,
      oTop 0x3040 6, oRw 0x3040 1 3 100 1 1000000 .clamp, oRw 0x3040 2 2 100 1 500 .clamp, oRw 0x3040 3 3 100 1 100000 .clamp,
      oRw 0x3040 4 3 10 0 10000 .clamp, oRw 0x3040 5 3 1000 100 1000000 .clamp, oRw 0x3040 6 1 0 0 1 .clamp,
      oTop 0x3050 5, oRw 0x3050 1 5 37 0 100 .clamp, oRoT 0x3050 2 5 none, oRo 0x3050 3 1 (some 0) 0 2, oRoT 0x3050 4 9 none,
      oRws 0x3050 5 1 0 0 2 .own ]
  | 0x40 =>
    [ oTop 0x4000 0x17, oRw 0x4000 1 2 4713 0 65535 .own, (oRw 0x4000 2 2 0 0 65535 .own).to 0x10,
      oRw 0x4000 0x11 2 1000 100 60000 .clamp, oRw 0x4000 0x12 2 50 0 1000 .clamp, oRw 0x4000 0x13 2 10 0 1000 .clamp,
      oRw 0x4000 0x14 2 10 1 3600 .clamp, oRw 0x4000 0x15 1 0 0 1 .clamp, oRo 0x4000 0x16 2 (some 0) 0 4096,
      oRo 0x4000 0x17 2 (some 0) 0 32768,
      oTop 0x4010 0x10, (oRws 0x4010 1 3 0 0 0xFFFFFFFF .own).to 0x10,
      oTop 0x4080 0x16, oCtr 0x4080 1 0x15, oSticky 0x4080 0x16 3 0x1FFFFF ]
  | 0x41 => [ oTop 0x4100 1, oDom 0x4100 1 1 32 4096, oTop 0x4180 1, oDomRo 0x4180 1 1 32 4096 ]
  | 0x42 => [ oTop 0x4200 1, oDom 0x4200 1 1 64 128, oTop 0x4280 1, oDomRo 0x4280 1 1 32 128 ]
  | 0x43 => [ oTop 0x4300 1, oDom 0x4300 1 1 16 32768 ]
  | 0x50 =>
    [ oTop 0x5000 6, oRo 0x5000 1 2 (some 0) 0 1024, oRo 0x5000 2 2 (some 0) 0 256, oCtr 0x5000 3 5, oSticky 0x5000 6 1 0x1C ]
  | 0x51 => [ oTop 0x5100 1, oDom 0x5100 1 1 32 1024 ]
  | 0x52 => [ oTop 0x5200 0x40, oDom 0x5200 1 0x40 0 0 ]
  | 0x53 => [ oTop 0x5300 1, oDom 0x5300 1 1 32 256, oTop 0x5380 1, oDomRo 0x5380 1 1 16 256 ]
  | 0x54 => [ oTop 0x5400 1, oDom 0x5400 1 1 16 4096, oTop 0x5480 1, oDomRo0 0x5480 1 1 512 1 ]
  | 0x60 =>
    [ oTop 0x6000 4, oRw 0x6000 1 3 15000 1000 1000000 .clamp, oRo 0x6000 2 1 (some 0) 0 16, oWo 0x6000 3 2 0 0xFFFF .own,
      oRo 0x6000 4 2 (some 0) 0 3856, oTop 0x6080 0x0C, oCtr 0x6080 1 0x0B, oSticky 0x6080 0x0C 2 0x7FF ]
  | 0x61 => [ oTop 0x6100 1, oDom 0x6100 1 1 32 16, oTop 0x6180 0x10, oDom 0x6180 1 0x10 512 1 ]
  | 0x62 => [ oTop 0x6200 1, oDom 0x6200 1 1 8 4096, oTop 0x6280 1, oDomRo0 0x6280 1 1 16 4096 ]
  | 0x63 => [ oTop 0x6300 1, oDomRo0 0x6300 1 1 32 16 ]
  | 0x68 =>
    [ oTop 0x6800 4, oRo 0x6800 1 1 (some 0) 0 16, oWo 0x6800 2 1 0 0xFF .own, oRo 0x6800 3 1 (some 17) 0 17,
      oRo 0x6800 4 3 (some 0) 0 251658240, oTop 0x6810 1, oDom 0x6810 1 1 64 16, oTop 0x6820 1, oDom 0x6820 1 1 16 1024,
      oTop 0x6840 0x10, oDomRo 0x6840 1 0x10 288 1, oTop 0x6850 0x10, oDomRo 0x6850 1 0x10 12 0, oTop 0x6860 0x10, oDomRo 0x6860 1 0x10 160 1,
      oTop 0x6870 0x10, oDomRo 0x6870 1 0x10 12 0, oTop 0x6880 0x0B, oCtr 0x6880 1 0x0A, oSticky 0x6880 0x0B 2 0x3FF ]
  | 0x70 =>
    [ oTop 0x7010 0x19, oRw 0x7010 1 1 0 0 15 .own, oRw 0x7010 2 1 3 0 7 (.mask 7), oRw 0x7010 3 1 5 1 255 .clamp, oRw 0x7010 4 1 3 1 255 .clamp,
      oRw 0x7010 5 2 10 1 1000 .clamp, oRw 0x7010 6 2 250 1 6000 .clamp, oRw 0x7010 7 2 1 1 4096 .clamp, oRw 0x7010 8 1 0 0 1 .rej,
      oRw 0x7010 9 2 200 10 5000 .clamp, oRw 0x7010 0x0A 2 500 10 5000 .own, oRw 0x7010 0x0B 2 20 0 4999 .own,
      oRw 0x7010 0x0C 2 500 10 10000 .clamp, oRw 0x7010 0x0D 2 100 0 9999 .own, oRw 0x7010 0x0E 2 700 10 6283 .clamp,
      oRw 0x7010 0x0F 2 50 0 6282 .own, oRw 0x7010 0x10 1 3 1 100 .clamp, oRw 0x7010 0x11 1 10 1 255 .clamp,
      oRw 0x7010 0x12 2 0 0 4095 .rej, (oRw 0x7010 0x13 2 0xFFFF 0 0xFFFF .own).to 0x19,
      oTop 0x7000 5, oRo 0x7000 1 1 (some 0) 0 3, oRoT 0x7000 2 2 (some 0xFFFF), oRo 0x7000 3 1 (some 0) 0 16, oRo 0x7000 4 2 (some 0) 0 4096,
      oWo 0x7000 5 1 1 1 .rej, oTop 0x7080 9, oCtr 0x7080 1 8, oSticky 0x7080 9 1 0xFF ]
  | 0x71 => [ oTop 0x7100 1, oDom 0x7100 1 1 16 4096 ]
  | 0x72 => [ oTop 0x7200 1, oDom 0x7200 1 1 16 16384 ]
  | 0x73 =>
    [ oTop 0x7300 2, oDomRo 0x7300 1 2 576 1, oTop 0x7310 1, oDomRo 0x7310 1 1 8 4096, oTop 0x7320 1, oDomRo 0x7320 1 1 2 16384 ]
  | 0x78 =>
    [ oTop 0x7800 5, oRo 0x7800 1 2 (some 0) 0 512, oRo 0x7800 2 2 (some 0) 0 512, oRo 0x7800 3 1 (some 0) 0 64, oRo 0x7800 4 2 (some 0) 0 256,
      oWo 0x7800 5 1 1 1 .rej, oTop 0x7810 1, oDom 0x7810 1 1 16 512, oTop 0x7818 1, oDomRo0 0x7818 1 1 32 512, oTop 0x7820 1,
      oWo 0x7820 1 2 0 0xFFFF .own, oTop 0x7880 0x10, oCtr 0x7880 1 0x0F, oSticky 0x7880 0x10 2 0x7FFF ]
  | 0x79 =>
    [ oTop 0x7900 1, oDom 0x7900 1 1 32 64, oTop 0x7910 1, oDom 0x7910 1 1 8 1024, oTop 0x7920 1, oDom 0x7920 1 1 192 64,
      oTop 0x7980 1, oDomRo0 0x7980 1 1 32 64 ]
  | 0x7A =>
    [ oTop 0x7A00 1, oDom 0x7A00 1 1 32 256, oTop 0x7A10 1, oDom 0x7A10 1 1 32 4096, oTop 0x7A20 1, oDom 0x7A20 1 1 2 32768,
      oTop 0x7A80 1, oDomRo0 0x7A80 1 1 32 256 ]
  | 0x80 =>
    [ oTop 0x8000 6, oRoT 0x8000 1 3 (some 0), oRw 0x8000 2 2 1024 64 4096 .own, oWo 0x8000 3 2 0 0xFFFF .own, oWo 0x8000 4 2 0 0xFFFF .own,
      oRoT 0x8000 5 3 (some 0), oRoT 0x8000 6 3 (some 0), oTop 0x8080 8, oCtr 0x8080 1 7, oSticky 0x8080 8 1 0x7F ]
  | 0x81 => [ oTop 0x8100 1, oDom 0x8100 1 1 80 16 ]
  | 0x82 => [ oTop 0x8200 1, oDom 0x8200 1 1 48 64 ]
  | 0x83 => [ oTop 0x8300 1, oDom 0x8300 1 1 8 16 ]
  | 0x84 =>
    [ (oTop 0x8410 9).at 8, { oRw 0x8410 1 3 0 0 0xFFFFFFFF .any with insts := 8, direct := true },
      { oRw 0x8410 2 3 0 0 0xFFFFFFFF .any with insts := 8, direct := true }, (oWo 0x8410 3 1 1 1 .rej).at 8, (oWo 0x8410 4 1 1 1 .rej).at 8,
      (oCtr 0x8410 5 5).at 8, (oRoT 0x8410 6 3 (some 0)).at 8, (oRoT 0x8410 7 3 (some 0)).at 8, (oRoT 0x8410 8 1 (some 0)).at 8,
      { oRw 0x8410 9 1 0 0 1 .clamp with insts := 8, direct := true } ]
  | 0x85 => [ (oTop 0x8500 3).at 8, (oDomRo 0x8500 1 3 0 0).at 8 ]
  | 0x90 =>
    [ oTop 0x9000 4, oRo 0x9000 1 2 none 0 4096, oRo 0x9000 2 2 (some 0) 0 4096, oWo 0x9000 3 1 1 1 .rej, oRw 0x9000 4 2 900 500 1000 .clamp ]
  | 0x91 => [ oTop 0x9100 1, oDomRo0 0x9100 1 1 32 4096 ]
  | 0x92 => [ oTop 0x9200 1, oDom 0x9200 1 1 16 4096 ]
  | 0x93 => [ oTop 0x9300 1, oDomRo 0x9300 1 1 32 4096 ]
  | 0x94 => [ oTop 0x9400 1, oDomRo 0x9400 1 1 176 32 ]
  | 0x95 => [ oTop 0x9500 1, oDomRo 0x9500 1 1 176 16 ]
  | 0xA0 =>
    [ oTop 0xA000 8, oRo 0xA000 1 1 (some 0) 0 4, oRo 0xA000 2 1 none 0 4, oRo 0xA000 3 1 (some 0) 0 2, (oRws 0xA000 4 3 0 0 0xFFFFFFFF .own).act,
      oWo 0xA000 5 1 1 1 .rej, oRo 0xA000 6 2 (some 1) 0 512, oRo 0xA000 7 1 (some 0) 0 31, oRo 0xA000 8 1 (some 0) 0 31,
      oTop 0xA010 3, oRws 0xA010 1 1 3 0 3 (.mask 3), oRws 0xA010 2 1 0x1F 0 0x1F (.mask 0x1F), oRws 0xA010 3 3 1000 100 60000 .clamp,
      oTop 0xA080 8, oCtr 0xA080 1 7, oSticky 0xA080 8 1 0x7F ]
  | 0xA1 => [ oTop 0xA100 1, oDomRo 0xA100 1 1 32 512 ]
  | 0xA2 => [ oTop 0xA200 2, { oDom 0xA200 1 1 0 0 with acc := .rws, direct := true, dflt := none }, oDomRo 0xA200 2 2 16 1 ]
  | 0xB0 =>
    [ oTop 0xB000 0x0C, oRo 0xB000 1 1 (some 0) 0 4, oRo 0xB000 2 1 none 0 1, oRo 0xB000 3 1 (some 0) 0 2, oRoT 0xB000 4 3 (some 0xFFFFFFFF),
      oRoT 0xB000 5 3 (some 0), oRoT 0xB000 6 3 (some 0), ((oRws 0xB000 7 1 0 1 1 .rej).to 0x0A).act, oRoT 0xB000 0x0B 3 (some 0),
      oWo 0xB000 0x0C 1 1 1 .rej, oTop 0xB010 2, oRws 0xB010 1 2 15 1 1440 .clamp, oRws 0xB010 2 2 0xFFFF 0 0xFFFF .own,
      oTop 0xB080 9, oCtr 0xB080 1 8, oSticky 0xB080 9 1 0xFF ]
  | 0xB1 =>
    [ oTop 0xB100 4, { oDom 0xB100 1 1 1280 1 with acc := .rws, direct := true, dflt := none }, { oDom 0xB100 2 2 0 0 with acc := .rws, direct := true, dflt := none },
      oDomRo 0xB100 3 4 1280 1, oTop 0xB110 1, oDomRo0 0xB110 1 1 16 16, oTop 0xB120 1, oDomRo 0xB120 1 1 16 2 ]
  | 0xC0 =>
    [ oTop 0xC000 8, oRws 0xC000 1 1 1 0 1 .clamp, oRw 0xC000 2 3 86400 3600 2592000 .clamp, oRw 0xC000 3 1 2 1 2 .clamp,
      oRw 0xC000 4 2 4000 2000 4000 .clamp, oWo 0xC000 5 1 0 0xFF .own, oRoT 0xC000 6 3 (some 0xFFFFFFFF), oRo 0xC000 7 2 (some 256) 0 256,
      oRo 0xC000 8 2 (some 0) 0 1000, oTop 0xC080 0x0A, oCtr 0xC080 1 9, oSticky 0xC080 0x0A 2 0x1FF ]
  | 0xC1 => [ oTop 0xC100 1, oDomRo 0xC100 1 1 16 19, oTop 0xC110 1, oDomRo 0xC110 1 1 32 (byPart v 183 138 115) ]
  | 0xD0 =>
    [ oTop 0xD000 7, oRoT 0xD000 1 3 none, oRoT 0xD000 2 3 none, oRoT 0xD000 3 3 (some 0), oRo 0xD000 4 2 none 0 4096, oRo 0xD000 5 1 (some 0) 0 7,
      oRws 0xD000 6 3 0 0 0xFFFFFFFF .own, oRw 0xD000 7 1 1 0 1 .clamp, oTop 0xD010 1, oDom 0xD010 1 1 32 1, oTop 0xD020 1, oDomRo0 0xD020 1 1 32 4096,
      oTop 0xD030 1, oDomRo0 0xD030 1 1 32 65536, oTop 0xD080 8, oCtr 0xD080 1 7, oSticky 0xD080 8 1 0x7F, oTop 0xD0F0 1, oDomRo0 0xD0F0 1 1 64 1 ]
  | 0xE0 =>
    [ oTop 0xE000 9, oRw 0xE000 1 1 0 0 2 .own, oRw 0xE000 2 1 0 0 15 .clamp, oRw 0xE000 3 1 0xFF 0 0xFF .own, oRw 0xE000 4 1 15 0 15 (.mask 15),
      oRoT 0xE000 5 4 (some 0), oRw 0xE000 6 3 1000 20 1000000 .clamp, oRw 0xE000 7 3 1000 8 1000000 .clamp, oRw 0xE000 8 1 10 3 100 .clamp,
      oRoT 0xE000 9 1 (some 0), oTop 0xE080 9, oCtr 0xE080 1 8, oSticky 0xE080 9 1 0xFF ]
  | 0xE1 => [ oTop 0xE100 1, oDom 0xE100 1 1 32 16, oTop 0xE110 0x10, (oRw 0xE110 1 2 0 0 0xFFFF .own).to 0x10 ]
  | 0xE2 => [ oTop 0xE200 1, oDom 0xE200 1 1 8 8192, oTop 0xE280 1, oDomRo 0xE280 1 1 40 16 ]
  | 0xE3 => [ oTop 0xE300 1, oDomRo 0xE300 1 1 40 1 ]
  | 0xE5 => [ (oTop 0xE500 4).at 16, (oDomRo 0xE500 1 4 0 0).at 16 ]
  | 0xF1 =>
    [ oTop 0xF100 9, oCtr 0xF100 1 1, oRo 0xF100 2 3 (some 0) 0 68000, oRw 0xF100 3 3 64 1 65535 .clamp, oRo 0xF100 4 4 (some 0) 0 17179869120,
      oRoT 0xF100 5 2 (some 0), oRo 0xF100 6 3 (some 0) 0 33554432, oRo 0xF100 7 3 (some 0) 0 33554432, oWo 0xF100 8 2 0 0xFFFF .own,
      oWo 0xF100 9 1 1 1 .rej, oTop 0xF110 1, oDomRo0 0xF110 1 1 16 17, oTop 0xF120 1, oDomRo 0xF120 1 1 16 6 ]
  | 0xF2 => [ oTop 0xF210 1, oDomRo0 0xF210 1 1 32 512 ]
  | 0xF3 =>
    [ oTop 0xF300 7, oRo 0xF300 1 5 none (-60000) 150000, oRo 0xF300 2 5 none (-60000) 150000, oWo 0xF300 3 1 1 1 .rej,
      oRw 0xF300 4 1 105 85 110 .clamp, oRoT 0xF300 5 5 none, oDomRo 0xF300 6 6 8 7, oRoT 0xF300 7 2 none ]
  | 0xF4 =>
    [ oTop 0xF400 1, oDom 0xF400 1 1 8 256, oTop 0xF410 3, oDomRo0 0xF410 1 1 32 1,
      { oDom 0xF410 2 2 32 1 with acc := .wo, direct := true, dflt := none }, oRo 0xF410 3 1 (some 0) 0 1 ]
  | _ => []

/-- The objects of a part that lie at an index. -/
def dictAt (v idx : Nat) : List Obj :=
  (dictPage v (idx / 256)).filter (fun o => o.idx ≤ idx && idx < o.idx + o.insts)

/-- The object at an index and subindex (R405). -/
def objAt (v idx sub : Nat) : Option Obj := (dictAt v idx).find? (fun o => o.sub ≤ sub && sub ≤ o.subHi)

/-- The default targets of R549: ID k in the four bits from 4k. -/
def eventTargets : Nat := 0x7704667466000000004776666600000000047777760000000000446474000000000746667600000000004667660000000004446644000000000046476600000004666666770000000044464666000000006464444400000000000046640000004464666666000000000004647600000000476677674674666667766677

/-- The default rate limits of R549, ms. -/
def eventLimit (id : Nat) : Nat :=
  if id = 0x40 || id = 0x90 then 100
  else if [0x0B, 0x22, 0x36, 0x39, 0x42, 0x50, 0x51, 0x52, 0x53, 0x54, 0x65, 0x66, 0x94, 0xC0].contains id then 1000 else 0

/-- The default permanent selection (R512), ID k at bit k. -/
def permanentDefault : Nat := 0xC0070003C0002004200000000000000000000000000000000000000406063

/-- The default bytes of a DOMAIN: set 0 of R166, the weights of R194, empty entries of R296, the source table of R549, all
enabled, and the selection of R512; all others 0. -/
def domDefault (idx sub off : Nat) : BitVec 8 :=
  match idx with
  | 0x5200 => if sub = 1 then (if off = 1 then 1#8 else if off = 9 then 0x40#8 else 0#8) else 0#8
  | 0x6200 => if off % 8 = 0 then 1#8 else 0#8
  | 0x7A20 => 0xFF#8
  | 0xD010 => BitVec.ofNat 8 (permanentDefault / 256 ^ (31 - off))
  | 0xF400 =>
    let id := off / 8
    let t := eventTargets / 16 ^ id % 16
    match off % 8 with
    | 0 => if t = 0 then 0#8 else 1#8
    | 1 => BitVec.ofNat 8 t
    | 2 => BitVec.ofNat 8 (eventLimit id / 256)
    | 3 => BitVec.ofNat 8 (eventLimit id)
    | _ => 0#8
  | _ => 0#8

/-- The default of one byte of the configuration: byte `off` of an object's value, big-endian. -/
def dfltByte (v idx sub off : Nat) : BitVec 8 :=
  match objAt v idx sub with
  | none => 0#8
  | some o =>
    if o.ty = 11 then domDefault idx sub off
    else if off < typeSize o.ty then BitVec.ofNat 8 ((o.dflt.getD 0) / 256 ^ (typeSize o.ty - 1 - off)) else 0#8

/-- The address of a byte of the configuration: index, subindex, offset. -/
def cfgAddr (idx sub off : Nat) : Nat := (idx * 256 + sub) * 2 ^ 24 + off

/-- What an unlisted byte of the configuration reads as: its default. -/
def dfltAt (v a : Nat) : BitVec 8 := dfltByte v (a / 2 ^ 32) (a / 2 ^ 24 % 256) (a % 2 ^ 24)

end Sys2Proof
end

