-- ==== Sys2Proof/Machine/State.lean ====
section
/-! DEFINITION. The state of the CZ4096 as plain data: every register, buffer, queue, counter, mode and ball the spec
gives it, the queue of waiting commands, the fault and refusal reasons, and the state after reset. Every field carries
its value at reset as its default; where the spec states none, the assumption log names the value. -/
namespace Sys2Proof.Machine

/-- Why the block would stop with a fault. The spec describes no fault that stops the device (an error sets a flag,
answers a status or moves the mode), so no meaning raises this; were one to, it would be safe. -/
inductive Fault where
  | neverRaised
  deriving DecidableEq, Repr

/-- Why a command has no meaning here. -/
inductive Refusal where
  /-- The command of that mnemonic has no meaning in the model yet. Safe: nothing is claimed of it. -/
  | notModelled (mnemonic : String)
  deriving DecidableEq, Repr

/-- The operating modes (R57). -/
inductive Mode where
  | quickset | provision | configure | standby | operate | degraded | safe | zeroized
  deriving DecidableEq, Repr

/-- The timebase states (R85). -/
inductive TbState where
  | freerun | acquiring | locked | holdover | refFault
  deriving DecidableEq, Repr

/-- Life-cycle states in OTP (R458). -/
inductive Life where
  | manufacture | provisioned | operational | rma | scrapped
  deriving DecidableEq, Repr

/-- Whether the device is in power hold (R47, R48), between power hold and step 7 (R51), waiting 100 ms after a failed
attempt (R53), held by RESET_N (R50), shut down by temperature (R538), or running. -/
inductive Phase where
  | hold | booting | retry | reset | thermal | running
  deriving DecidableEq, Repr

/-- The outputs are as in power hold (R48, R50, R53, R530, R538). -/
def Phase.held (p : Phase) : Bool := p != .booting && p != .running

/-- Where a reset came from, kept until the start it causes (R63, R64). -/
structure PendingStart where
  cause : Nat := 1
  cold  : Bool := true
  /-- The store's content went before an attempt that failed or was cut short: a warm start finds none (R64). -/
  lost  : Bool := false
  /-- Mode request 0: the start is to enter QUICKSET (R59). -/
  quick : Bool := false
  deriving DecidableEq, Repr

/-! ## Events (R25 to R28, R549 to R555) -/

/-- An event message: in the pending latch, or handed to a target. `direct`: raised while the fabric is fenced, so it
goes to the recorder on the direct path (R515). -/
structure Ev where
  id     : Nat
  inst   : Nat
  stamp  : Stamp
  param  : BitVec 32
  rep    : Nat
  direct : Bool := false
  /-- Elapsed time of the fabric entry. -/
  el     : Nat := 0
  deriving DecidableEq, Repr

structure EventU where
  /-- The pending latches, one event deep per source and instance (R25). -/
  latch   : List Ev := []
  /-- Elapsed time of the last hand-over of a source and instance, key id * 2^16 + instance (R552). -/
  lastOut : Table Nat := []
  /-- Occurrences held back by the rate limit (R552). -/
  held    : Table Nat := []
  /-- The event fabric is fenced, so events go to the recorder on the direct path (R515). -/
  fenced  : Bool := false
  /-- IRQ pending bits, bit k for ID k (R554). -/
  irq     : BitVec 256 := 0#256
  deriving DecidableEq, Repr

/-! ## Pace monitor (R38 to R40) -/
structure PaceU where
  measured     : Nat := 0
  margin       : Nat := 0
  ring         : Nat := 0
  lowestMargin : Nat := 65535
  lowestRing   : Nat := 0
  windowDone   : Bool := false
  lowArmed     : Bool := true
  /-- Elapsed time since which the margin has been below 1000 per mille, and the lowest margin over that run (R40). -/
  below        : Option (Nat × Nat) := none
  deficitRaised : Bool := false
  deriving DecidableEq, Repr

/-! ## Power, start and modes (R46 to R73) -/
structure PowerU where
  phase     : Phase := .running
  /-- Good state of each rail, in the order of R533. -/
  good      : List Bool := [true, true, true, true, true, true, true]
  /-- Elapsed time at which the last rail rose to good or RESET_N was released, whichever is later. -/
  since     : Nat := 0
  resetLow  : Bool := false
  /-- Elapsed time of step 1 of the attempt in progress, or of entry to the 100 ms of R53. -/
  attemptAt : Nat := 0
  start     : PendingStart := {}
  /-- 0x1100.0B. -/
  failState : Nat := 0
  failAt    : Nat := 0
  deriving DecidableEq, Repr

/-- A mode transition in progress (R58): the mode it leads to, its instant in ns of TAI of generation `gen`, whether
the stop instant has passed and outputs are draining, and what follows it (an activation, R476). -/
structure ModePending where
  target   : Mode
  atNs     : Nat
  gen      : Gen
  stopped  : Bool := false
  cause    : Nat
  activate : Bool := false
  deriving DecidableEq, Repr

structure ModeU where
  cur        : Mode := .provision
  reqStatus  : Nat := 0
  prev       : Nat := 0xFF
  cause      : Nat := 1
  since      : Stamp := ⟨0#16, 0⟩
  startCause : Nat := 1
  pend       : Option ModePending := none
  /-- Elapsed time since which the DEGRADED conditions have been clear (R59). -/
  clearSince : Option Nat := none
  /-- The instant alignment started forming sets at (R58), and of the stop instant. -/
  formFrom   : Nat := 0
  deriving DecidableEq, Repr

/-- Per-function resets (R70, R556, R557). -/
structure ResetU where
  /-- Units in reset or restoring, by subindex of 0x1122; unlisted reads 0. -/
  status : Table Nat := []
  /-- Elapsed time of the accepted write of each of them (R556). -/
  wroteAt : Table Nat := []
  /-- A whole-device reset that waits for its response to leave: cause and elapsed time of the write (R557). -/
  device : Option (Nat × Nat) := none
  deriving DecidableEq, Repr

/-- Boot flash journals (R72, R76) and the boot-attempt record (R53). -/
structure JournalU where
  /-- A valid stored configuration, its bytes and generation (R425). -/
  cfgValid : Bool := false
  cfg      : List Host.Cell := []
  cfgGen   : BitVec 32 := 0#32
  /-- 0x3050.01 as a leap left it, where no readable configuration is stored (R97). -/
  utc      : Option Int := none
  /-- Last mode journaled, 0xFF none (R62). -/
  mode     : Nat := 1
  /-- Time entry: generation and TAI seconds (R76); none before the first start of a device. -/
  time     : Option (Gen × Nat) := some (0#16, 0)
  failedBoots : Nat := 0
  /-- Failed attempts that no EV_BOOT_RECOVERED has told of yet (R54). -/
  untold   : Nat := 0
  starts   : Nat := 1
  steps    : Nat := 1
  deriving DecidableEq, Repr

/-! ## Timebase (R74 to R102) -/

/-- One source of the table of R81: since when it has been continuously valid, whether it is qualified (R83), its last
offset, and what it carries (R96, R561): UTC offset and leap announcement, stated inaccuracy (R560), clock fault. -/
structure Source where
  validSince : Option Nat := none
  qualified  : Bool := false
  utc        : Option Int := none
  leap       : Nat := 0
  inaccuracy : Nat := 0
  fault      : Bool := false
  /-- Last offset measured against it, device minus source. -/
  offset     : Int := 0
  deriving DecidableEq, Repr

/-- PTP state of a port (R101). -/
structure PtpPort where
  state     : Nat := 1
  peerDelay : Nat := 0
  gmId      : Nat := 0
  gmInacc   : Nat := 0xFFFFFFFF
  announceAt : Option Nat := none
  syncAt    : Option Nat := none
  /-- The best data set announced to the port, with the port that sends it (R82). -/
  best      : Option (PtpDs × Nat) := none
  /-- The receive stamp of a two-step Sync that waits for its Follow_Up, by sequenceId (R131). -/
  synced    : Option (Nat × Stamp) := none
  /-- The transmit stamp of a Pdelay_Req and the receive stamp of its Pdelay_Resp, which wait for the follow-up, by
  sequenceId (R131). -/
  answered  : Option (Nat × Stamp × Stamp) := none
  /-- sequenceIds of Pdelay_Req received with a valid stamp and not yet answered (R131). -/
  owed      : List Nat := []
  /-- The clockClass announced last: 248, or 0 standing for the locked class (R82). -/
  announced : Nat := 248
  deriving DecidableEq, Repr

structure TimeU where
  /-- 0x3000.0B, ns since start. -/
  elapsed  : Nat := 0
  /-- Internal time, ns of TAI since the PTP epoch (R74). -/
  tai      : Nat := 0
  gen      : Gen := 0#16
  state    : TbState := .freerun
  /-- 0x3000.05. -/
  source   : Nat := 0
  /-- Offset still to be slewed out, device minus source (R86). -/
  slew     : Int := 0
  /-- The steered frequency, parts in 10^15 by which internal time runs faster than the reference (R86, R87), and what of a ns
  it has gained. -/
  freq     : Int := 0
  frac     : Int := 0
  /-- The backup oscillator's frequency as last measured against the reference, parts in 10^15 (R89). -/
  backup   : Int := 0
  offset   : Int := 0
  lastStep : Int := 0
  /-- Elapsed time of the last exit from LOCKED; none until the first LOCKED since start (R92). -/
  unlockedAt : Option Nat := none
  /-- Unlocked duration class (R91 bits 4 to 3). -/
  durClass : Nat := 3
  unlocked : Bool := true
  /-- 0x3000.06. -/
  err      : Nat := 0xFFFFFFFF
  /-- Estimated error at entry to HOLDOVER or to a switch, and the elapsed time of entry (R87). -/
  holdE0   : Nat := 0
  holdAt   : Nat := 0
  /-- A switch of sources runs: the state counts as HOLDOVER for quality (R85). -/
  switching : Bool := false
  /-- Offsets of the last 16 s, newest first, with elapsed time (R560), and since when all were within 100 ns. -/
  offsets  : List (Nat × Int) := []
  settled  : Option Nat := none
  /-- S_g of the current generation and of earlier ones (R100). -/
  stepSums : Table Int := []
  sources  : Table Source := []
  ptp      : Table PtpPort := []
  utc      : Int := 37
  leap     : Nat := 0
  leapAt   : Nat := 0
  leapByHand : Bool := false
  leapPend : Bool := false
  /-- The last leap, until 24 h after it: its instant, whether it deleted a second, and the elapsed time from which the 24 h
  run (R97). -/
  leapDone : Bool := false
  doneAt   : Nat := 0
  doneDel  : Bool := false
  leapDoneAt : Nat := 0
  /-- A change of 0x3050.01 by the device that waits to be journaled (R73, R97). -/
  utcOwed  : Bool := false
  irigExt  : Bool := false
  /-- Elapsed time of the last on-time marker (R83). -/
  irigLast : Option Nat := none
  refPresent : Bool := true
  ppsOut   : Bool := false
  ppsOutAt : Nat := 0
  ppsLast  : Option Nat := none
  deriving DecidableEq, Repr

/-! ## The commit point (R16 to R20, R425) -/

/-- An accepted commit that waits for its T_c: the bytes it sets, its generation, its T_c and its acceptance. -/
structure Commit where
  gen   : BitVec 32
  cells : List Host.Cell
  tc    : Stamp
  acc   : Stamp
  deriving DecidableEq, Repr

structure CfgU where
  /-- The live configuration: bytes by address, the unlisted ones at their defaults. -/
  live    : List Host.Cell := []
  gen     : BitVec 32 := 0#32
  /-- T_c of the live configuration (R17). -/
  from_   : Stamp := ⟨0#16, 0⟩
  /-- A valid configuration is live or stored (R52 item 4, R59). -/
  valid   : Bool := false
  /-- The configuration held for sets before T_c: its bytes, its generation and T_c (R19). -/
  prev    : Option (List Host.Cell × BitVec 32 × Stamp) := none
  /-- The previous configuration released last: what was decided or closed before its T_c and is still under way is processed
  under it (R17). -/
  spent   : Option (List Host.Cell × BitVec 32 × Stamp) := none
  /-- Accepted commits that have not reached their T_c, oldest first. -/
  waiting : List Commit := []
  /-- Generation assigned last; acceptance and T_c of the last commit (0x1060.03, .04). -/
  lastGen : BitVec 32 := 0#32
  lastAcc : Stamp := ⟨0#16, 0⟩
  lastTc  : Stamp := ⟨0#16, 0⟩
  deriving DecidableEq, Repr

/-! ## Objects and Osrider (R405 to R439) -/

/-- A NOTIFY that waits for its answer (R432). -/
structure Outstanding where
  seq    : Nat
  recs   : List Ev
  tries  : Nat
  sentAt : Nat
  lost   : Bool
  deriving DecidableEq, Repr

/-- A DOMAIN snapshot (R419). -/
structure Snapshot where
  idx   : Nat
  sub   : Nat
  bytes : List (BitVec 8)
  readAt : Nat
  deriving DecidableEq, Repr

/-- A staging area (R421, R423, R428): the staged bytes by address; when the session last staged; frozen by a commit. -/
structure Staging where
  cells  : List Host.Cell := []
  lastAt : Nat := 0
  frozen : Bool := false
  deriving DecidableEq, Repr

/-- A secret as key SRAM holds it: two shares whose XOR is the key (R449). -/
structure Shares where
  a : BitVec 256 := 0#256
  b : BitVec 256 := 0#256
  deriving DecidableEq, Repr

/-- An Osrider session (R414 to R416). Numbers accepted: the highest, and those within the 64 below it; once more for
the numbering before the last REKEY. -/
structure Session where
  id      : Nat
  role    : Nat
  slot    : Nat
  anon    : Bool
  via     : Via
  lastAt  : Nat
  keyAt   : Nat
  key     : Shares := {}
  oldKey  : Option Shares := none
  rx      : Nat := 0
  tx      : Nat := 0
  hi      : Nat := 0
  seen    : List Nat := []
  oldHi   : Nat := 0
  oldSeen : List Nat := []
  oldUntil : Option Nat := none
  dueAt   : Option Nat := none
  txSeq   : Nat := 1
  subscribed : Bool := false
  queue   : List Ev := []
  out     : Option Outstanding := none
  lost    : Bool := false
  snap    : Option Snapshot := none
  stage   : Option Staging := none
  deriving DecidableEq, Repr

/-- A commit in the queue (R423): session, its role, the request tag, the frozen bytes. -/
structure Queued where
  sid    : Nat
  role   : Nat
  tag    : Nat
  cells  : List Host.Cell
  /-- Where the STAGE_COMMIT came from, which its response goes to (R411). -/
  via    : Via
  deriving DecidableEq, Repr

/-- One entry of a Topiary report (R427). -/
structure Entry where
  idx     : Nat
  sub     : Nat
  outcome : Nat
  record  : Nat
  off     : Nat
  len     : Nat
  reason  : Nat
  staged  : Nat
  live    : Nat
  deriving DecidableEq, Repr

/-- A Topiary report (R427). -/
structure Report where
  gen  : BitVec 32
  sid  : Nat
  acc  : Stamp
  tc   : Stamp
  entries : List Entry
  unchanged : Nat
  deriving DecidableEq, Repr

/-- A commit Topiary has checked, which waits for its journal write (R425). -/
structure Checked where
  sid   : Nat
  tag   : Nat
  cells : List Host.Cell
  entries : List Entry
  unchanged : Nat
  via   : Via
  deriving DecidableEq, Repr

/-- An Osrider response (R412, R413). -/
structure Resp where
  sid    : Nat
  type   : Nat
  tag    : Nat
  seq    : Nat
  status : Nat
  body   : List (BitVec 8)
  rekey  : Bool := false
  lost   : Bool := false
  deriving DecidableEq, Repr

structure OsrU where
  sessions : List Session := []
  queue    : List Queued := []
  checked  : Option Checked := none
  reports  : List Report := []
  /-- Authentication failures: source address to the elapsed times of the last 60 s; lockouts: address to the elapsed
  time of their end (R417). -/
  failures : Table (List Nat) := []
  lockouts : Table Nat := []
  /-- The response to the last Osrider message; none when it was dropped without reply. -/
  resp     : Option Resp := none
  /-- The last NOTIFY sent: session, sequence, records, flag bit 3. -/
  notify   : Option (Nat × Nat × List Ev × Bool) := none
  /-- Messages on their way to a port: where each goes, and its bytes (R411, R412). -/
  outbox   : List (Via × List (BitVec 8)) := []
  /-- What UART_TX sends: elapsed time of the first start bit, and the bytes of the frame (R433, R434). -/
  line     : List (Nat × List (BitVec 8)) := []
  deriving DecidableEq, Repr

/-! ## Central store and hardware queues (R369 to R387) -/

/-- A hardware queue: its items oldest first, how many lie in the head register file and how many in the middle (the
rest are in the tail), the pool items it holds, counts, the last sequence delivered, and the depth at its last refusal
while EV_QUEUE_FULL or EV_RXQ_OVERFLOW is not to be raised again. -/
structure Queue where
  items  : List (List (BitVec 8)) := []
  /-- The frame data each item refers to, in order: in the port buffers for a receive queue (R121). -/
  data   : List (List (BitVec 8)) := []
  head   : Nat := 0
  middle : Nat := 0
  pool   : Nat := 0
  high   : Nat := 0
  pushes : Nat := 0
  delivered : Nat := 0
  refused : Nat := 0
  idles  : Nat := 0
  /-- Items ever pushed, as the queue writes it into items (R381), and the last bytes 4 to 7 delivered (R383). -/
  seq    : Nat := 0
  last   : Nat := 0
  /-- No real item delivered since the start or the last clear (R383). -/
  fresh  : Bool := true
  fullAt : Option Nat := none
  deriving DecidableEq, Repr

/-- Error counts of a channel or region (0xF110.01). -/
structure ErrCount where
  ce    : Nat := 0
  ue    : Nat := 0
  rows  : Nat := 0
  flags : Nat := 0
  deriving DecidableEq, Repr

/-- Arbiter use of a path (0xF120.01): slots granted since start, and what each frame of the last second claimed. -/
structure ArbUse where
  granted : Nat := 0
  frames  : List (Nat × Nat) := []
  deriving DecidableEq, Repr

/-- A write that waits in the posting buffer of a reserved path (R374). -/
structure Posted where
  granule : Nat
  data    : List (BitVec 8)
  deriving DecidableEq, Repr

structure StoreU where
  queues   : Table Queue := []
  poolUsed : Nat := 0
  poolHigh : Nat := 0
  poolLow  : Bool := false
  /-- The item the last pop returned, with its queue. -/
  popped   : Option (Nat × List (BitVec 8)) := none
  passMs   : Nat := 0
  ueOffset : Nat := 0
  ueId     : Nat := 0
  errs     : Table ErrCount := []
  arb      : Table ArbUse := []
  /-- The posting buffers by path, oldest write first (R374). -/
  posted   : Table (List Posted) := []
  /-- What the reserved paths have written to DRAM, by granule; a granule not listed holds zeros (R51). -/
  dram     : Table (List (BitVec 8)) := []
  /-- Moves of items between register files and the middle of queues that no slot frame has served yet, by claimant * 4 + channel:
  a reserved path, or 5 + a leftover class (R380). -/
  moves    : Table Nat := []
  /-- What the reads of the last slot frame returned: path, granule, data; none of an uncorrectable burst. -/
  reads    : List (Nat × Nat × List (BitVec 8)) := []
  /-- The leftover class whose turn is next, by channel, and the leftover slots given in the last frame, by claimant * 4 +
  channel: 0 the scrubber, 1 the event mirror, 2 to 7 the six classes (R375). -/
  turns    : Table Nat := []
  given    : Table Nat := []
  /-- Rows reported to Coppice and not yet repaired: channel and row (R378). -/
  rowsDue  : List (Nat × Nat) := []
  /-- Corrected errors in the scrubber's pass so far, by channel, and the channels told of in it (R378). -/
  passCe   : Table Nat := []
  passTold : List Nat := []
  deriving DecidableEq, Repr

/-! ## Scheduler (R388 to R404) -/

structure Task where
  /-- 0 idle, 1 ready, 2 running, 3 in cluster reset. -/
  state   : Nat := 0
  level   : Nat := 0
  core    : Nat := 0xFF
  fallback : Bool := false
  overrun : Bool := false
  top     : Bool := false
  readyAt : Nat := 0
  levelAt : Nat := 0
  activeAt : Nat := 0
  startAt : Nat := 0
  longest : Nat := 0
  dispatches : Nat := 0
  preempted : Nat := 0
  overruns : Nat := 0
  /-- The slice in µs that a running task took at its dispatch (R398). -/
  slice   : Nat := 0
  deriving DecidableEq, Repr

structure CoreU where
  /-- 0 idle, 1 running, 2 out of service, 3 in reset. -/
  state   : Nat := 0
  task    : Nat := 0xFFFF
  startAt : Nat := 0
  busy    : Nat := 0
  markBusy : Nat := 0
  markAt  : Nat := 0
  /-- Busy ns and length of the measured intervals of the last 60 s, newest first. -/
  loads   : List (Nat × Nat) := []
  load    : Nat := 0
  loadRaised : Bool := false
  dispatches : Nat := 0
  preempts : Nat := 0
  hist    : Table Nat := []
  deriving DecidableEq, Repr

structure LevelU where
  high   : Nat := 0
  dispatches : Nat := 0
  rises  : Nat := 0
  hist   : Table Nat := []
  deriving DecidableEq, Repr

structure SchedU where
  /-- The descriptor table the firmware sets (R390). -/
  desc   : Table TaskDesc := []
  tasks  : Table Task := []
  cores  : Table CoreU := []
  levels : Table LevelU := []
  /-- The task dispatched last, for the fixed round-robin dispatcher (R491). -/
  turn   : Nat := 0
  deriving DecidableEq, Repr

/-! ## Ports (R103 to R134) -/

/-- A timestamp queue entry (R129). -/
structure TsEntry where
  tx    : Bool
  kind  : Nat
  domain : Nat
  seqId : Nat
  stamp : Stamp
  deriving DecidableEq, Repr

/-- A segment or fragment of an offloaded send: the frame but for its FCS; offset and length of its part of the payload (R123,
R124). -/
structure Piece where
  frame  : List (BitVec 8)
  offset : Nat
  payload : Nat
  deriving DecidableEq, Repr

/-- An IPv4 datagram in reassembly (R119): addresses, protocol and identification; when its first fragment came; the fragments as
offset and bytes; the length when its last fragment is there; refused, and so counted once. -/
structure Reasm where
  src    : Nat
  dst    : Nat
  proto  : Nat
  ident  : Nat
  start  : Nat
  parts  : List (Nat × List (BitVec 8)) := []
  total  : Option Nat := none
  refused : Bool := false
  deriving DecidableEq, Repr

structure Port where
  up     : Bool := false
  /-- 0 down, 1 10 Gb/s, 2 1000, 3 100, 4 10 Mb/s. -/
  rate   : Nat := 0
  an     : Bool := false
  half   : Bool := false
  /-- Elapsed time at which the pause time runs out; start of the episode; end of the holdoff (R125, R126). -/
  pauseEnd : Option Nat := none
  episode : Nat := 0
  holdoff : Option Nat := none
  tsq    : List TsEntry := []
  tsBurst : Bool := false
  /-- The frame being sent, but for its FCS. -/
  sending : Option (List (BitVec 8)) := none
  /-- IPv4 datagrams being reassembled (R119). -/
  reasm  : List Reasm := []
  /-- The segments or fragments of the last offloaded send (R123, R124). -/
  cut    : List Piece := []
  deriving DecidableEq, Repr

/-! ## Values, contributors and sets (R158, R207, R208) -/

/-- A slot value as written (R158): slot, context (or 0x8000 + w), F32 value, condition, quality, valid. -/
structure Slotted where
  slot  : Nat
  ctx   : Nat
  val   : BitVec 32
  cond  : Cond
  qual  : Qual
  valid : Bool
  deriving DecidableEq, Repr

/-! ## Acquisition engine and the trigger bus (R308 to R339, R359 to R361) -/

/-- A moment in 1/8 ns with its generation. -/
structure Tick where
  gen : Gen
  t8  : Nat
  deriving DecidableEq, Repr

/-- A row of a record group (R315): its number in the group, instant, DIN levels, and each channel's value, condition
and quality, in channel order. -/
structure Row where
  no     : Nat
  at_    : Stamp
  levels : Nat
  vals   : List (F32 × Cond × Qual)
  deriving DecidableEq, Repr

/-- A surviving edge of a digital input (R312). -/
structure DinEdge where
  din   : Nat
  level : Bool
  at_   : Tick
  deriving DecidableEq, Repr

/-- A firing of a trigger unit (R319): unit, trigger kind, source kind, gate used, trigger time, W in 1/8 ns, deciding
value. -/
structure Trig where
  unit : Nat
  kind : Nat
  src  : Nat
  gate : Bool
  at_  : Tick
  w8   : Nat
  val  : F32
  deriving DecidableEq, Repr

/-- One record (R327): in capture, captured and waiting for its closing mark, or closed. -/
structure Rec where
  seq    : Seq
  group  : Nat
  flags  : Nat
  cause  : Nat
  trow   : Row
  rate   : Nat
  npost  : Nat
  chans  : List Nat
  mask   : Nat
  trigs  : List Trig
  rows   : List Row
  edges  : List DinEdge
  cfgGen : BitVec 32
  size   : Nat
  off    : Nat
  captured : Bool := false
  closed : Bool := false
  /-- Offsets in the record of bursts found uncorrectable (R377). -/
  bad    : List Nat := []
  /-- The channel table, computed at the close (R328). -/
  table  : List (BitVec 8) := []
  deriving DecidableEq, Repr

/-- A record group: state (R322), its ring newest row first, rows not yet complete (instant; channel index and value),
the number of its next row, the last row of its previous record, triggers that wait for their row, and the sequence
reserved for the record they open. -/
structure GroupA where
  state : Nat := 0
  ring  : List Row := []
  part  : List (Stamp × List (Nat × F32 × Cond × Qual)) := []
  next  : Nat := 0
  lastRow : Option Nat := none
  pend  : List Trig := []
  /-- Disarmed while its record was in capture. -/
  off   : Bool := false
  seq   : Option Seq := none
  deriving DecidableEq, Repr

/-- The crossing tracker of one level: a value at or below L - H seen since the last upward crossing, and at or above
L + H since the last downward one (R318). -/
structure Cross where
  up : Bool := false
  dn : Bool := false
  deriving DecidableEq, Repr

/-- A trigger unit's run state (R318 to R320). Patterns in progress for the two polarities: the first crossing, or for a
timeout the trigger times, oldest first, with the elapsed time at which the oldest is due. -/
structure UnitT where
  prev  : Option (Stamp × F32) := none
  hi    : Cross := {}
  lo    : Cross := {}
  pos   : List Tick := []
  neg   : List Tick := []
  posDue : Nat := 0
  negDue : Nat := 0
  /-- Elapsed time, in 1/8 ns, of the last trigger time (R320). -/
  fired : Option Nat := none
  deriving DecidableEq, Repr

/-- A digital input: accepted level, edges that await their filter time, the last discard (R312). -/
structure Din where
  level : Bool := false
  /-- The edges that wait for their filter time: level, time, and the elapsed time they came at, in 1/8 ns (R312). -/
  pend  : List (Bool × Tick × Nat) := []
  lastDiscard : Option Nat := none
  deriving DecidableEq, Repr

/-- A reader (R331 to R334), with its export bit and the record a segment read is in progress on. -/
structure Reader where
  cur   : Seq := 0#32
  mark  : Seq := 0#32
  lost  : Nat := 0
  first : Seq := 0#32
  last  : Seq := 0#32
  flags : Nat := 0
  export_ : Bool := false
  reading : Option Seq := none
  deriving DecidableEq, Repr

structure AcqU where
  din    : Table Din := []
  /-- Surviving edges, newest first. -/
  edges  : List DinEdge := []
  group  : Table GroupA := []
  unit   : Table UnitT := []
  /-- Values of instants from the T_c of a commit on that changes their group, which come before it is in effect. -/
  early  : List (Nat × Stamp × F32 × Cond × Qual) := []
  /-- Stored records, in the order of their sequences. -/
  recs   : List Rec := []
  nextSeq : Seq := 0#32
  newest : Seq := 0#32
  writeAt : Nat := 0
  /-- Elapsed times of closes in the last 60 s. -/
  closes : List Nat := []
  reader : Table Reader := []
  deriving DecidableEq, Repr

/-- A line of the trigger bus (R359): level L, fall time F, last edge Z, in 1/8 ns of own time. -/
structure Line where
  level : Bool := false
  fall  : Nat := 0
  last  : Nat := 0
  deriving DecidableEq, Repr

/-- An edge on a line: line, level, time. -/
structure LineEdge where
  line  : Nat
  level : Bool
  at_   : Tick
  deriving DecidableEq, Repr

structure BusU where
  line  : Table Line := []
  /-- Edges a manager has still to broadcast (R359). -/
  out   : List LineEdge := []
  /-- Drives a registered worker has still to send: line and rise (R345). -/
  drives : List (Nat × Tick) := []
  /-- This device is a registered worker, so its lines come from the cycle headers (R360). -/
  remote : Bool := false
  deriving DecidableEq, Repr

/-! ## Stream ingest (R135 to R163) -/

/-- One block's contribution to a local context's instant (R139, R196): which blocks have written, their slot values. -/
structure LocalPart where
  at_    : Stamp
  blocks : List Nat
  vals   : List Slotted
  qual   : Qual
  deriving DecidableEq, Repr

/-- A stream context (R142 to R147, R161). Configurations are held as the received frames. -/
structure Ctx where
  accepted : Option (List (BitVec 8)) := none
  pending  : Option (List (BitVec 8)) := none
  /-- A configuration has been accepted since the context was enabled (R143). -/
  first    : Bool := false
  /-- The pending content bound by an accepted commit, with that commit's generation (R145). -/
  bound    : Option (BitVec 32 × List (BitVec 8)) := none
  delivered : Nat := 0
  quarantined : Nat := 0
  dropped  : Nat := 0
  /-- Elapsed time of the last delivered frame, or of the moment the context was enabled. -/
  lastAt   : Nat := 0
  lost     : Bool := false
  /-- Instants delivered within the last 2 s (R140, check 12). -/
  seen     : List Stamp := []
  version  : Option Nat := none
  /-- The last source address seen. -/
  src      : Option Nat := none
  tcp      : Bool := false
  /-- A connection is being opened (R138). -/
  trying   : Bool := false
  /-- Elapsed time of the last commands or the last attempt to connect (R138). -/
  lastReq  : Option Nat := none
  statChange : Bool := false
  /-- Elapsed time of the last configuration request (R140, R147). -/
  asked    : Option Nat := none
  /-- The T_c from which the accepted configuration serves (R145). -/
  since    : Option Stamp := none
  parts    : List LocalPart := []
  deriving DecidableEq, Repr

/-- A sampled-value stream (R151 to R154, R161). -/
structure Sv where
  /-- The expected smpCnt; none after a loss, a record change or a start. -/
  next     : Option Nat := none
  /-- The confRev received while the record reads PENDING. -/
  rev      : Option Nat := none
  lastVals : List Int := []
  sync     : Option Nat := none
  /-- Whole second and smpCnt base of the last instant delivered. -/
  lastAtNs : Nat := 0
  lastAt   : Nat := 0
  active   : Bool := false
  lost     : Bool := false
  delivered : Nat := 0
  quarantined : Nat := 0
  dropped  : Nat := 0
  deriving DecidableEq, Repr

/-- An analytic signal slot (R158): its last write. -/
structure SlotU where
  v     : Slotted
  at_   : Stamp
  cfgGen : BitVec 32
  deriving DecidableEq, Repr

/-- A command frame to a source (R138): context; transport; addresses and ports; the frame. -/
structure SentCmd where
  ctx     : Nat
  tcp     : Bool
  dst     : Nat
  local_  : Nat
  remote  : Nat
  bytes   : List (BitVec 8)
  deriving DecidableEq, Repr

structure IngestU where
  ctx   : Table Ctx := []
  sv    : Table Sv := []
  slots : Table SlotU := []
  unresolved : Nat := 0
  /-- Datagrams to the listening list that ports handed over and ingest has not taken yet (R119). -/
  direct : List (Stamp × C37Rx) := []
  /-- The command frames sent by the last command that sent any (R138). -/
  sent  : List SentCmd := []
  deriving DecidableEq, Repr

/-! ## Filter and phasor chain (R164 to R191) -/

/-- A raw sample (R152 to R154). -/
structure Raw where
  x    : Int
  cnt  : Nat
  at_  : Stamp
  cond : Cond
  qual : Qual
  deriving DecidableEq, Repr

/-- A filtered value (R171), with the number of the change under R173 it was computed under. -/
structure Filt where
  at_  : Stamp
  y    : F32
  cond : Cond
  qual : Qual
  era  : Nat
  deriving DecidableEq, Repr

/-- A channel: its last 4096 raw samples and its filtered values, newest first. -/
structure Chan where
  raw  : List Raw := []
  ys   : List Filt := []
  /-- How many changes under R173 have come, and the content of the last value. -/
  era  : Nat := 0
  content : List (BitVec 8) := []
  lastY : Option Stamp := none
  /-- Filtered values since start, reset or loss; the first of them. -/
  firstY : Option Stamp := none
  deriving DecidableEq, Repr

structure Comp where
  active : Bool := false
  runA   : Nat := 0
  runB   : Nat := 0
  at_    : Stamp := ⟨0#16, 0⟩
  /-- The record it ran under, when that is of a commit that is not in effect yet (R173, R176). -/
  under  : Option (List (BitVec 8)) := none
  deriving DecidableEq, Repr

structure Est where
  ft     : F64 := 0#64
  /-- f_t stands at f0 until the first valid report (R184). -/
  tracked : Bool := false
  lastF  : F64 := 0#64
  range  : Bool := false
  low    : Bool := false
  invalid : Bool := false
  /-- EV_EST_FREQ_RANGE may be raised (R184). -/
  held   : Bool := false
  last   : Option Stamp := none
  /-- The record of the last report (R184). -/
  under  : Option (List (BitVec 8)) := none
  deriving DecidableEq, Repr

structure ChainU where
  chan : Table Chan := []
  comp : Table Comp := []
  est  : Table Est := []
  deriving DecidableEq, Repr

/-! ## Alignment (R192 to R219) -/

/-- What a member wrote for one instant (R196, R207). -/
structure Contribution where
  at_  : Stamp
  vals : List Slotted
  qual : Qual
  deriving DecidableEq, Repr

/-- A member of an open set, its standing and deadline fixed at the opening (R195, R198). `who` is a context or 0x8000 + w. -/
structure Member where
  who      : Nat
  here     : Bool
  expected : Bool
  awaited  : Bool
  required : Bool
  weight   : Nat
  d        : Nat
  deriving DecidableEq, Repr

/-- A published close (R208). `states` are the members' codes (R206). `pub` numbers a group's closes. -/
structure Close where
  pub    : Nat
  kind   : Nat
  cause  : Nat
  flags  : Nat
  seq    : Seq
  at_    : Stamp
  rate   : Nat
  qual   : Qual
  conf   : Nat
  cfgGen : BitVec 32
  expected : Nat
  present : Nat
  missing : Nat
  after  : Nat
  decUs  : Nat
  item   : List (BitVec 8)
  states : List (Nat × Nat)
  quals  : List (Nat × Qual)
  vals   : List Slotted
  decAt  : Nat
  deriving DecidableEq, Repr

/-- An open set (R197). `base` is E_r; `came` are the arrivals: member, and whether after the provisional close. -/
structure OpenSet where
  at_    : Stamp
  base   : Int
  seq    : Seq
  step   : Bool
  rate   : Nat
  members : List Member
  came   : List (Nat × Bool) := []
  prov   : Option Close := none
  lostRaised : Bool := false
  deriving DecidableEq, Repr

/-- A group: open sets, sets ever opened, the latest instant opened (with its generation), the instant up to which every
instant has been reached, the last instant opened before a backward step (R212), its closes of the last 2 s, newest first, and
how many it has published. -/
structure GroupG where
  open_  : List OpenSet := []
  next   : Seq := 0#32
  opened : Bool := false
  high   : Stamp := ⟨0#16, 0⟩
  upto   : Nat := 0
  blocked : Option Nat := none
  closes : List Close := []
  pubs   : Nat := 0
  awaited : Nat := 0
  deriving DecidableEq, Repr

/-- A latency histogram (R203, R204): counts by bin of the current and the previous epoch, the last latency in ms. -/
structure Latency where
  cur   : Table Nat := []
  prev  : Table Nat := []
  last  : Nat := 0
  deriving DecidableEq, Repr

structure AlignU where
  hist  : Table (List Contribution) := []
  group : Table GroupG := []
  lat   : Table Latency := []
  /-- The last d_i reported, key member * 16 + group (R205). -/
  told  : Table Nat := []
  deriving DecidableEq, Repr

/-! ## Hedgerow (R340 to R368) -/

/-- A worker on the manager's side (R347 to R357, R366). Values of the two lanes stand in lists of two. -/
structure Worker where
  /-- 0 not configured, 1 unregistered, 2 registered, 3 lost. -/
  state  : Nat := 0
  above   : Bool := false
  reach  : Bool := false
  /-- Round trips of the ranging response by lane (R348); an EqD has been set and waits for its header; lanes it has been sent on. -/
  rts    : List (Option Nat) := [none, none]
  told   : List Bool := [false, false]
  ranged : Bool := false
  rate   : Nat := 0
  down   : List Int := [0, 0]
  eqd    : List Nat := [0, 0]
  offset : Int := 0
  /-- By lane: EqD in force before the last change, EqD sent last, and M of the header that carried it first. -/
  sent   : List (Nat × Nat × Nat) := [(0, 0, 0), (0, 0, 0)]
  /-- Arrival less M and less the EqD in force of the last 16 bursts, newest first, by lane. -/
  bursts : List (List Int) := [[], []]
  /-- Elapsed time of the last burst, by lane. -/
  burstAt : List (Option Nat) := [none, none]
  received : Nat := 0
  clearSince : Option Nat := none
  /-- The close being assembled: the sequence number of its first fragment, and the fragments received. -/
  frags  : Option (Nat × List (Nat × List (BitVec 8))) := none
  deriving DecidableEq, Repr

/-- A slot value as carried in a close (R207): slot, context, F32 value, condition and quality words. -/
structure SlotVal where
  slot : Nat
  ctx  : Nat
  val  : BitVec 32
  cond : BitVec 16
  qual : BitVec 16
  deriving DecidableEq, Repr

/-- A close that waits to be sent up: instant, rate, bytes (R345, R354). -/
structure UpClose where
  at_   : Nat
  rate  : Nat
  bytes : List (BitVec 8)
  sent  : Nat := 0
  deriving DecidableEq, Repr

/-- A frame of the last burst or header sent: sequence number, lane (none: both lanes), the whole frame (R344). -/
structure HrFrame where
  seq   : Nat
  lane  : Option Nat := none
  bytes : List (BitVec 8)
  deriving DecidableEq, Repr

/-- The copies received of one source's frames of one type (R350): the last number by lane, and the numbers a lane has skipped
and the other has not yet reached. -/
structure HrSeen where
  last : List (Option Nat) := [none, none]
  gaps : List (Nat × Nat) := []
  deriving DecidableEq, Repr

/-- A burst that a worker has still to send on a lane (R343): the header it answers, its elapsed time, and that header's M in
cycles. -/
structure BurstDue where
  lane : Nat
  seq  : Nat
  at_  : Nat
  cyc  : Nat
  deriving DecidableEq, Repr

structure HrU where
  /-- Lane up, and elapsed time of the last valid header (worker) or burst (manager). -/
  laneUp : List Bool := [false, false]
  laneAt : List (Option Nat) := [none, none]
  worker : Table Worker := []
  /-- The cycle begun last: its number in the second, and M. -/
  cycle  : Nat := 0
  m      : Nat := 0
  /-- The worker invited last, and M of the cycle that invites it (R347). -/
  asked  : Option (Nat × Nat) := none
  nextInvite : Nat := 0
  /-- Elapsed time of the last step of own time (R352). -/
  stepAt : Option Nat := none
  /-- Worker side: 0 not a worker, 1 searching, 2 awaiting invitation, 3 registered, 4 manager lost. -/
  state  : Nat := 0
  idBad  : Bool := false
  mgrGen : Gen := 0#16
  mgrUnlocked : Bool := true
  mgrStepAt : Option Nat := none
  down   : List Nat := [0, 0]
  eqd    : List Nat := [0, 0]
  eqdSeen : List Bool := [false, false]
  samples : List Int := []
  offset : Int := 0
  usable : Bool := false
  /-- The header whose invitation this worker answers; a response has gone out. -/
  invSeq : Option Nat := none
  answered : Bool := false
  /-- Bursts still to be sent, oldest first; the header whose burst has been filled last. -/
  dues   : List BurstDue := []
  builtFor : Option Nat := none
  /-- Elapsed times between which each lane transmits, on a worker (R341). -/
  pulse  : List (Nat × Nat) := [(0, 0), (0, 0)]
  /-- The sixteen cycles whose burst carried the last offset report (R346), as M in units of 1.6 ms. -/
  reported : Option Nat := none
  up     : List UpClose := []
  sums   : List (Nat × Nat × List (BitVec 8)) := []
  sent   : Nat := 0
  discarded : Nat := 0
  /-- Next sequence numbers to send, by type. -/
  txSeq  : Table Nat := []
  /-- Copies received, by source * 256 + type (R350). -/
  rx     : Table HrSeen := []
  /-- The frames of the last header or burst. -/
  frames : List HrFrame := []
  /-- Latest summaries, key w * 8 + kind. -/
  summary : Table (List (BitVec 8)) := []
  deriving DecidableEq, Repr

/-! ## Alarms, GOOSE and output sessions (R281 to R307) -/

/-- A decision of a source for an alarm (R268, R283): value; over-frequency direction; decision instant; confidence; set
sequence number; quality word; reports per second of the source; the subject's anchor bus, 0xFFFF for none. -/
structure Decision where
  value   : Nat
  above    : Bool := false
  at_     : Stamp
  conf    : Nat := 1000
  setSeq  : BitVec 32 := 0xFFFFFFFF#32
  qual    : BitVec 16 := 0#16
  rate    : Nat := 0
  anchor  : Nat := 0xFFFF
  /-- The instant on the elapsed-time counter: E_r of its set (R79, R197). -/
  el      : Int := 0
  deriving DecidableEq, Repr

/-- A decision handed to the alarm unit and not yet applied: alarm, final or provisional. -/
structure Waiting where
  alarm : Nat
  final : Bool
  d     : Decision
  deriving DecidableEq, Repr

/-- An alarm (R283 to R287, R305). -/
structure Alarm where
  v      : Nat := 0
  vf     : Nat := 0
  prov   : Bool := false
  frozen : Bool := false
  above   : Bool := false
  withdrawn : Bool := false
  corrected : Bool := false
  conf   : Nat := 0
  tp     : Stamp := ⟨0#16, 0⟩
  /-- t_p on the elapsed-time counter (R79). -/
  tpEl   : Int := 0
  seq    : Nat := 0
  at_    : Stamp := ⟨0#16, 0⟩
  setSeq : BitVec 32 := 0#32
  qual   : Qual := 0#16
  /-- Highest final value since the last acknowledgement (R285). -/
  peak   : Nat := 0
  /-- Elapsed time of the end of the pulse, and the stamp of the event that started it (R282). -/
  pulse  : Option (Nat × Stamp) := none
  /-- Decision instants and the values they gave, for R300. -/
  past   : List (Stamp × Nat) := []
  deriving DecidableEq, Repr

/-- A member of a value publication: value, validity (0 good, 2 invalid, 3 missing), instant. -/
structure GooseVal where
  val  : F32 := 0#32
  q    : Nat := 2
  at_  : Stamp := ⟨0#16, 0⟩
  qual : Qual := 0#16
  deriving DecidableEq, Repr

/-- A GOOSE publication (R288 to R294, R305). -/
structure Goose where
  authFail : Bool := false
  stNum  : Nat := 0
  sqNum  : Nat := 0
  confRev : Nat := 0
  /-- Current interval in ms, and elapsed time of the next retransmission; none until a state has been sent. -/
  interval : Nat := 0
  due    : Option Nat := none
  /-- The UtcTime of the present state. -/
  since  : List (BitVec 8) := []
  /-- Changes decided and not yet in a built frame, by member (R291). -/
  dirty  : List Nat := []
  /-- The members' contents as last built, and the values of a value publication. -/
  built  : List (List (BitVec 8)) := []
  vals   : Table GooseVal := []
  /-- Closes evaluated so far, by group (R289). -/
  cursor : Table Nat := []
  /-- The instant of the last change taken: its configuration is that of the frames (R17). -/
  of_    : Stamp := ⟨0#16, 0⟩
  /-- confRev under the previous configuration (R290). -/
  wasRev : Nat := 0
  /-- The last frame built. -/
  frame  : List (BitVec 8) := []
  deriving DecidableEq, Repr

/-- A data frame that awaits transport (R301): its set, its bytes with the values of the set, the bytes each block has for
values it lacks, and whether SAFE sends those (R302). -/
structure OutFrame where
  seq   : Seq
  bytes : List (BitVec 8)
  blank : List (List (BitVec 8)) := []
  nan   : Bool := false
  deriving DecidableEq, Repr

/-- An output session (R295 to R302, R305). -/
structure Out where
  on     : Bool := false
  client : Option (Nat × Nat) := none
  cfgCnt : Nat := 0
  sent   : Nat := 0
  discarded : Nat := 0
  lastSeq : Seq := 0#32
  /-- Frames not yet handed to transport, oldest first. -/
  buf    : List OutFrame := []
  burst  : Bool := false
  /-- The blocks of the last frame sent before SAFE, each with its STAT (R302). -/
  lastBody : List (BitVec 8) := []
  /-- Closes taken so far, by group. -/
  cursor : Table Nat := []
  /-- The commits that change the session, newest first: acceptance and configuration generation (R299 bit 10). -/
  change : List (Stamp × BitVec 32) := []
  /-- The last frame handed to transport, and the last answer to a command. -/
  out    : List (BitVec 8) := []
  answer : List (BitVec 8) := []
  deriving DecidableEq, Repr

structure AlarmU where
  alarm : Table Alarm := []
  /-- Alarms as they stood at the last T_c, where that gave them another source or took them away: what is decided for
  instants before it goes to them (R17). -/
  old   : Table Alarm := []
  inbox : List Waiting := []
  goose : Table Goose := []
  out   : Table Out := []
  deriving DecidableEq, Repr

/-! ## Privet key store (R29 to R33, R440 to R468) -/

/-- A key slot (R445). The material is held as shares; a kind 4 slot holds its point. -/
structure KeySlot where
  state   : Nat := 0
  kind    : Nat := 0
  usage   : Nat := 0
  parent  : Nat := 0xFFFE
  scope   : Nat := 0
  origin  : Nat := 0
  copy    : Nat := 0
  version : Nat := 0
  revSeq  : Nat := 0
  mat     : Shares := {}
  point   : List (BitVec 8) := []
  deriving DecidableEq, Repr

/-- A copy of a slot in the key area of the boot flash (R448): its record, whose commit counter says which of the two it is; and the
material wrapped under the storage wrap key, as initialisation vector, ciphertext and tag. -/
structure KeyCopy where
  row  : KeySlot
  iv   : List (BitVec 8)
  body : List (BitVec 8)
  deriving DecidableEq, Repr

/-- A request on a lane or waiting, with the key it found as it reached the port (R33, R455). -/
structure KeyJob where
  req   : KeyReq
  mat   : Shares := {}
  point : List (BitVec 8) := []
  deriving DecidableEq, Repr

/-- A root-secret area (R56, R440, R443): used once programming begins; completion flag; its 256 bits, which hold the root wrapped
under the die key. -/
structure RootArea where
  used     : Bool := false
  complete : Bool := false
  word     : BitVec 256 := 0#256
  deriving DecidableEq, Repr

/-- A key command past its checks (R454), which waits for its flash write: the command, its target, and what the target
will hold; none for REVOKE. -/
structure KeyCmd where
  cmd    : Nat
  target : Nat
  next   : Option KeySlot
  at_    : Nat
  retried : Bool := false
  deriving DecidableEq, Repr

/-- The result record (R466). -/
structure KeyResult where
  seq    : Nat := 0
  cmd    : Nat := 0
  status : Nat := 0
  reason : Nat := 0
  target : Nat := 0
  revoked : Nat := 0
  us     : Nat := 0
  deriving DecidableEq, Repr

/-- The life cycle, roots, slots, command, tamper state and request port. -/
structure KeyU where
  life   : Life := .manufacture
  roots  : List RootArea := [{}, {}]
  /-- The area whose root is in force. -/
  inForce : Option Nat := none
  wrap   : Shares := {}
  /-- The zeroize count (R460), 4 bits of OTP. -/
  zeroize : Nat := 0
  /-- DESTROYED, from step 1 of R464 until the device passes to PROVISION. -/
  destroyed : Bool := false
  trngFail : Bool := false
  trngBad : Nat := 0
  trngGood : Nat := 0
  /-- The slots in key SRAM; slot 0 comes from OTP. -/
  slots  : Table KeySlot := [(0, { state := 1, kind := 4, usage := 32, scope := 31, origin := 5, point := Config.firmwareKey })]
  /-- The two copies of each slot in flash (R448), by 2 * slot + copy. -/
  copies : Table KeyCopy := []
  /-- Requests served by slot (R447). -/
  uses   : Table Nat := []
  /-- The revocation journal (R457): slot and command sequence. -/
  revJournal : List (Nat × Nat) := []
  block  : List (BitVec 8) := []
  result : KeyResult := {}
  cmd    : Option KeyCmd := none
  tamperNow : Nat := 0
  tamperSince : Nat := 0
  /-- TAMPER_A_N and TAMPER_B_N are high (R461). -/
  lines  : List Bool := [true, true]
  /-- Erase of the key area in flash in progress. -/
  erasing : Bool := false
  /-- Keys re-masked in the pass in progress; elapsed time of the last step on each key (R449). -/
  remasked : List Nat := []
  maskedAt : Table Nat := []
  /-- The request on each lane, the requests that wait, the requester served last in each class, and the outcome of the
  last request that ended: its status and result. -/
  sym    : Option KeyJob := none
  asym   : Option KeyJob := none
  waiting : List KeyJob := []
  lastReq : Table Nat := []
  answer : Option (KeyReq × Nat × List (BitVec 8)) := none
  deriving DecidableEq, Repr


/-! ## Oscillation engine (R220 to R255) -/

/-- A signal of a mode group (R226 to R229, R238): its last present difference y and instant value x; the values of the
tracker sample in progress; its last fresh sample; the runs of samples that are not fresh and, while STALE, that are; the
detrend; whether it has saturated since the restart. Then the same for the detector. -/
structure OscSig where
  last   : Option (F64 × F64) := none
  part   : List F64 := []
  held   : Option F64 := none
  gap    : Nat := 0
  run    : Nat := 0
  stale  : Bool := false
  mu     : Option F64 := none
  above   : Bool := false
  foGap  : Nat := 0
  foRun  : Nat := 0
  foStale : Bool := false
  foMu   : Option F64 := none
  deriving DecidableEq, Repr

/-- A tracker sample in the window: z_q by position, every signal fresh, a saturation, worst quality of its sets. -/
structure OscSample where
  zs    : List Int
  fresh : Bool
  sat   : Bool
  qual  : Qual
  deriving DecidableEq, Repr

/-- A value set in the detector's window: v_q by input, and the set's quality. -/
structure FoSample where
  vs   : List Int
  qual : Qual
  deriving DecidableEq, Repr

/-- A mode slot (R235, R244, R245). States: 0 empty, 1 NEW, 2 TRACKED, 3 HELD. `targets` are those of the run of updates
that exceed the level; `rel`, `up` and `dn` the other runs. -/
structure OscMode where
  state : Nat := 0
  f     : F64 := 0#64
  zeta  : F64 := 0#64
  e     : F64 := 0#64
  shape : List (F64 × F64) := []
  shapeRef : Nat := 0
  age   : Nat := 0
  miss  : Nat := 0
  level : Nat := 0
  targets : List Nat := []
  rel   : Nat := 0
  amp   : Bool := false
  up    : Nat := 0
  dn    : Nat := 0
  deriving DecidableEq, Repr

/-- Track data of one input (R251): A, φ, C, and whether the bin qualifies for it. -/
structure FoInput where
  a    : F64 := 0#64
  phi  : F64 := 0#64
  c    : Nat := 0
  ok   : Bool := false
  deriving DecidableEq, Repr

/-- A forced-oscillation track (R242, R243, R246). States: 0 free, 1 NEW, 2 continuing, 3 HELD. `evals` are the stored YH
of the inputs, newest first. -/
structure FoTrack where
  state : Nat := 0
  bin   : Nat := 0
  f     : F64 := 0#64
  m0    : Nat := 0
  a     : F64 := 0#64
  source : Option (Nat × F64) := none
  score : Option Nat := none
  age   : Nat := 0
  miss  : Nat := 0
  evals : List (List (F64 × F64)) := []
  inputs : List FoInput := []
  active : Bool := false
  up    : Nat := 0
  dn    : Nat := 0
  deriving DecidableEq, Repr

/-- A results header (R250, R251): sequence number, update instant, quality, coverage, configuration generation, samples,
rank fallback. -/
structure OscHead where
  seq   : Nat := 0
  at_   : Stamp := ⟨0#16, 0⟩
  qual  : Qual := 0#16
  cover : Nat := 0
  cfgGen : BitVec 32 := 0#32
  count : Nat := 0
  stale : Bool := false
  sat   : Bool := false
  rank  : Bool := false
  deriving DecidableEq, Repr

/-- A mode group. `state` as R250; `seen`: the instant taken last; `from_`: the first instant of the window; `redo`: a
restart that waits for the first instant from a T_c; `due`: an update instant reached, with the set's configuration
generation, whose update and evaluation are still to be made. -/
structure OscGroup where
  state  : Nat := 0
  cause  : Nat := 0
  /-- The last close taken or passed over, and whether the window has begun since the restart (R236). -/
  seen   : Option Stamp := none
  begun  : Bool := false
  from_  : Option Stamp := none
  redo   : Option Stamp := none
  sigs   : List OscSig := []
  window : List OscSample := []
  quals  : List Qual := []
  q      : List (List F64) := []
  started : Bool := false
  modes  : List OscMode := []
  head   : OscHead := {}
  frozen : Bool := false
  fo     : List FoSample := []
  foCount : Nat := 0
  tracks : List FoTrack := []
  foHead : OscHead := {}
  foFrozen : Bool := false
  due    : Option (Stamp × BitVec 32) := none
  foDue  : Option (Stamp × BitVec 32) := none
  /-- The mode shapes of the last update; k_lo, k_hi and N_f, and the per-signal track data, of the last evaluation (R252). -/
  shapes : List (BitVec 8) := []
  foBand : List (BitVec 8) := []
  foData : List (BitVec 8) := []
  deriving DecidableEq, Repr

/-! ## Islanding and frequency engine (R256 to R280) -/

/-- An island (R264, R265). -/
structure Island where
  anchor  : Nat
  members : List Nat
  clearing : Bool := false
  seq     : Seq
  since   : Nat := 0
  deriving DecidableEq, Repr

/-- An alarm subject (R266, R267): values, which of them was held, level with its direction, conditions, runs (targets of
the raising run), and what the results show of it. -/
structure Subject where
  f      : F64 := 0#64
  r      : F64 := 0#64
  a      : F64 := 0#64
  ang    : F64 := 0#64
  held   : Bool := false
  anchor : Nat := 0xFFFF
  members : Nat := 0
  present : Nat := 0
  level  : Nat := 0
  above   : Bool := false
  targets : List Nat := []
  relF   : Nat := 0
  rocof  : Bool := false
  upR    : Nat := 0
  dnR    : Nat := 0
  spread : Bool := false
  upS    : Nat := 0
  dnS    : Nat := 0
  deriving DecidableEq, Repr

/-- A chain of the engine (R269): edges as state and run, bus counts as separation and rejoin, the acting reference,
islands and subjects by number, candidates already refused a slot, the last instant, reports processed, reports still
frozen, and islands whose anchor has been removed. -/
structure IslChain where
  edges  : Table (Nat × Nat) := []
  counts : Table (Nat × Nat) := []
  ref    : Option Nat := none
  noRef  : Bool := false
  isl    : Table Island := []
  subj   : Table Subject := [(0, {})]
  full   : List Nat := []
  last   : Option Stamp := none
  reports : Nat := 0
  frozen : Nat := 0
  dead   : List Nat := []
  /-- Commits its next reports are the first to serve: T_c, buses and edges changed (R273). -/
  changes : List (Stamp × List Nat × List Nat) := []
  deriving DecidableEq, Repr

/-- The engine: whether it runs, the final chain, the first instant it takes, a restart that waits for a T_c, and the results
objects (R276 to R278). -/
structure IslU where
  state  : Nat := 0
  chain  : IslChain := {}
  from_  : Option Stamp := none
  redo   : Option Stamp := none
  /-- Closes that the provisional chain has seen, and those published before the chain began (R272), by group. -/
  provSeen : Table Nat := []
  since  : Table Nat := []
  /-- Conditions have been passed to the alarm unit. -/
  passed : Bool := false
  /-- Islands, with their anchors, whose alarm states a restart has frozen, until the engine decides again (R272). -/
  formerly : Option (List (Nat × Nat)) := none
  final  : List (BitVec 8) := []
  latest : List (BitVec 8) := []
  buses  : Table (List (BitVec 8)) := []
  clusters : Nat := 0
  deriving DecidableEq, Repr

/-! ## Coppice (R489 to R508) -/

/-- A physical lane (R489, R506): state, logical lane carried, last result and its stamp, patterns run, spare elements
used, repair, last element remapped. -/
structure Lane where
  state   : Nat := 0
  logical : Option Nat := none
  result  : Nat := 0
  at_     : Stamp := ⟨0#16, 0⟩
  slices  : Nat := 0
  used    : Nat := 0
  repair  : Nat := 0
  elem    : Nat := 0xFFFF
  deriving DecidableEq, Repr

/-- A test (R497, R499, R501): unit, lane, next slice, elapsed start of the slice running, a mismatch seen once, the
diagnosis slices run (none: not in diagnosis), abandonments in a row, and elapsed time of the last. -/
structure LaneTest where
  unit    : Nat
  lane    : Nat
  slice   : Nat := 0
  running : Option Nat := none
  again   : Bool := false
  diag    : Option Nat := none
  yields  : Nat := 0
  yieldAt : Option Nat := none
  /-- The online lane whose handover is repeated when this test passes (R495). -/
  next    : Option Nat := none
  deriving DecidableEq, Repr

/-- A handover in shadow (R493): unit, online lane, spare lane, elapsed time of B0. -/
structure Shadow where
  unit  : Nat
  lane  : Nat
  spare : Nat
  at_   : Nat
  deriving DecidableEq, Repr

/-- Lanes by key unit * 64 + lane, unlisted as made; tests; handovers; start of the last slice; lanes to take first; lanes
done and to repeat in this round; rounds completed by unit; a round has ended in this period, and when the period began;
logical lanes lost; by-passes; antifuse words left; repairs not yet fused; last fuse; spare rows used by channel. -/
structure CopU where
  lanes   : Table Lane := []
  tests   : List LaneTest := []
  shadows : List Shadow := []
  startAt : Option Nat := none
  now     : List Nat := []
  done    : List Nat := []
  again   : List Nat := []
  rounds  : Table Nat := []
  ended   : Bool := false
  periodAt : Nat := 0
  lost    : List (Nat × Nat) := []
  bypass  : List Nat := []
  words   : Nat := 256
  soft    : List Nat := []
  fuseAt  : Option Nat := none
  rowsUsed : Table Nat := []
  deriving DecidableEq, Repr
/-! ## Firmware update (R469 to R488) -/

/-- A part of the manifest accepted last (0xB110.01): type, state, the bytes received, in region 0xA of the store (R475), length, hash
and read-back failures, and whether it is being programmed a second time. -/
structure PartU where
  type   : Nat
  state  : Nat := 1
  data   : List (BitVec 8) := []
  length : Nat
  hashFails : Nat := 0
  readFails : Nat := 0
  again  : Bool := false
  deriving DecidableEq, Repr

/-- A bank: state (0 empty, 1 incomplete, 2 verified, 3 confirmed, 4 in trial), manifest, and the parts written, by entry (R469). -/
structure BankU where
  state    : Nat := 0
  manifest : List (BitVec 8) := []
  parts    : List (Nat × List (BitVec 8)) := []
  deriving DecidableEq, Repr

/-- A manifest that waits while another is being checked (R473): the session that wrote it, the way it came, its tag, its bytes. -/
structure WaitingManifest where
  sid   : Nat
  via   : Via
  tag   : Nat
  bytes : List (BitVec 8)
  deriving DecidableEq, Repr

/-- A configuration format slot that the running image does not use (R482): format, whether it holds a configuration,
its bytes and generation. -/
structure FormatSlot where
  format : Nat
  valid  : Bool
  cells  : List Host.Cell
  gen    : BitVec 32
  deriving DecidableEq, Repr

structure UpdU where
  /-- 0xB000.01: 0 IDLE, 1 RECEIVING, 2 VERIFIED, 3 ACTIVATING, 4 TRIAL. -/
  state    : Nat := 0
  running  : Nat := 0
  settings : Nat := 0
  /-- The lock holder: port or 0xFE, slot, address; elapsed time of its last accepted write. -/
  holder   : Option (Nat × Nat × Nat) := none
  holderAt : Nat := 0
  lastOut  : Nat := 0
  parts    : List PartU := []
  banks    : List BankU := [{ state := 3, manifest := Config.factoryManifest }, {}]
  /-- The update journal (R477): the records of the half in use, oldest first, and which half that is; an INCOMPLETE record not yet
  written, which waits for the end of a power-fail warning. -/
  journal  : List (List (BitVec 8)) := []
  half     : Nat := 0
  owed     : Bool := false
  /-- The part types that the running image takes from ROM (R471). -/
  rom      : List Nat := []
  waiting  : Option WaitingManifest := none
  /-- Elapsed time at which the trial window ends. -/
  trialEnd : Option Nat := none
  /-- A commit has been accepted since the start. -/
  committed : Bool := false
  /-- Security version in force, and the one a confirmation raises it to (R481). -/
  secVer   : Nat := 0
  secGoal  : Nat := 0
  /-- The parameter of the EV_UPD_FALLBACK owed to the next start; 0 none. -/
  fellBack : Nat := 0
  /-- The fall-back that follows once outputs have stopped: its parameter; 0 for an activation. -/
  leaving  : Nat := 0
  /-- The mode left by an activation that PWR_FAIL_N stopped, to be resumed (R476). -/
  resume   : Option Mode := none
  /-- The mode left at step 3 of R476. -/
  left     : Option Mode := none
  /-- Format of the slot in use, and the other slot. -/
  format   : Nat := 0
  other    : Option FormatSlot := none
  deriving DecidableEq, Repr

/-! ## Event recorder (R509 to R526) -/

/-- A record (R509). -/
structure RecRow where
  seq   : Seq
  id    : Nat
  flags : Nat
  inst  : Nat
  at_   : Stamp
  param : BitVec 32
  rep   : Nat
  last  : Nat
  deriving DecidableEq, Repr

structure RecU where
  /-- The circulating area, newest first; the permanent area, oldest first. -/
  circ    : List RecRow := []
  perm    : List RecRow := []
  /-- The next sequence number; whether the next record follows a jump, or a journal gap. -/
  next    : Seq := 0#32
  jumped  : Bool := false
  gap     : Bool := false
  snap    : Nat := 0
  state   : Nat := 0
  faults  : Nat := 0
  /-- Elapsed time of the fabric entry of the newest record's event, for bytes 26 to 29. -/
  newestAt : Nat := 0
  /-- Journal entries that wait for a page, oldest first, with the elapsed time at which each began to wait. -/
  pend    : List (Nat × RecRow) := []
  /-- What the journal holds: circulating records newest first, permanent ones oldest first. -/
  jcirc   : List RecRow := []
  jperm   : List RecRow := []
  pageFailed : Bool := false
  gasp    : List (BitVec 8) := []
  /-- Areas cleared whose journal sections are still to be erased, and EV_REC_AREA's record still to be journaled: both wait for
  the end of a power-fail warning (R67). -/
  clearing : Nat := 0
  clearOwed : Bool := false
  deriving DecidableEq, Repr

/-! ## Monitors and JTAG (R538 to R548) -/

/-- A rail's measurements (0xF300.06): mV now, lowest and highest since start; since when it has been outside its range, or
inside; EV_RAIL_RANGE may be raised. -/
structure RailM where
  mv    : Nat := 0
  lo    : Option Nat := none
  hi    : Option Nat := none
  since : Option Nat := none
  out   : Bool := false
  armed : Bool := true
  deriving DecidableEq, Repr

/-- Junction temperature in m°C, its highest since the last clear, whether EV_TJ_HIGH may be raised, the integral of
temperature over time and that time (m°C ns, ns), the life consumed in per mille as F64, the time of the last sample; the
rails. -/
structure MonU where
  tj     : Int := 0
  high   : Option Int := none
  armed  : Bool := true
  sum    : Int := 0
  span   : Nat := 0
  life   : F64 := 0#64
  at_    : Nat := 0
  /-- Elapsed time since which samples have been above 125 °C or below -50 °C (R462). -/
  hotSince : Option Nat := none
  rails  : Table RailM := []
  deriving DecidableEq, Repr

/-- The whole state of the block. -/
structure State where
  /-- The commands that are waiting, first in, first out. -/
  pending : List Instr := []
  /-- Which part this is (R2): 0 CZ4096, 1 CZ2048-A, 2 CZ1024-L. -/
  variant : Nat := 0
  /-- The model's own: how many free values have been taken. -/
  freeCount : Nat := 0
  /-- Statistics counters (R430), key index * 256 + subindex; unlisted reads 0. -/
  stats  : Table Nat := []
  /-- Sticky saturated flags (R430), key index * 256 + subindex. -/
  sticky : Table Nat := []
  ev     : EventU := {}
  pace   : PaceU := {}
  power  : PowerU := {}
  mode   : ModeU := {}
  rst    : ResetU := {}
  jrn    : JournalU := {}
  time   : TimeU := {}
  cfg    : CfgU := {}
  osr    : OsrU := {}
  store  : StoreU := {}
  sched  : SchedU := {}
  port   : Table Port := []
  acq    : AcqU := {}
  bus    : BusU := {}
  ing    : IngestU := {}
  chain  : ChainU := {}
  align  : AlignU := {}
  hr     : HrU := {}
  alm    : AlarmU := {}
  key    : KeyU := {}
  osc    : Table OscGroup := []
  isl    : IslU := {}
  cop    : CopU := {}
  upd    : UpdU := {}
  rec_   : RecU := {}
  mon    : MonU := {}
  /-- The JTAG instruction in force (R546). -/
  jtag   : Jtag := .idcode
  deriving DecidableEq, Repr

/-- A new CZ4096 at step 7 of its first start (R51, R52 item 3, R76). The events of that start stand in their latches:
EV_TIME_STEP with the new generation, EV_TIME_GEN_WRAP as it follows 0xFFFF, and EV_MODE_CHANGE into PROVISION (R76, R99,
R559); the time entry and the mode are journaled (R62, R76). -/
def State.reset : State :=
  { ev := { latch := [⟨0x10, 0, ⟨0#16, 0⟩, 0#32, 0, false, 0⟩, ⟨0x17, 0, ⟨0#16, 0⟩, 0#32, 0, false, 0⟩, ⟨0x00, 0, ⟨0#16, 0⟩, 0x0001FF01#32, 0, false, 0⟩] },
    sched := { desc := Config.firmwareTasks } }

end Sys2Proof.Machine
end

