-- ==== Sys2Proof/Machine/Ops.lean ====
section
/-! DEFINITION. The named operations every unit uses: bytes of the configuration, time, counters, events, free values,
modes. -/
namespace Sys2Proof.Machine
open Sys2Proof

/-! ## The configuration as addressed bytes (R405, R424) -/

/-- The canonical form: addresses strictly rising, no byte listed that equals its default. -/
def Memory.wf (v : Nat) (m : List Host.Cell) : Bool :=
  match m with
  | [] => true
  | (a, b) :: r => (b != dfltAt v a) && (match r with | [] => true | (a', _) :: _ => decide (a < a')) && Memory.wf v r

/-- One byte of a configuration. -/
def Memory.read (v : Nat) (m : List Host.Cell) (a : Nat) : BitVec 8 := Table.getD m a (dfltAt v a)

/-- Write one byte, keeping the canonical form. -/
def Memory.write (v : Nat) (m : List Host.Cell) (a : Nat) (b : BitVec 8) : List Host.Cell :=
  Table.set m a b (dfltAt v a)

/-- Write a run of bytes at an address. -/
def Memory.writes (v : Nat) (m : List Host.Cell) (a : Nat) (bs : Bytes) : List Host.Cell :=
  match bs with
  | [] => m
  | b :: r => Memory.writes v (Memory.write v m a b) (a + 1) r

/-- Write listed cells. -/
def Memory.apply (v : Nat) (m : List Host.Cell) (cells : List Host.Cell) : List Host.Cell :=
  match cells with
  | [] => m
  | (a, b) :: r => Memory.apply v (Memory.write v m a b) r

/-- A configuration to read: the part and its bytes. -/
structure Cf where
  v   : Nat
  mem : List Host.Cell
  deriving DecidableEq, Repr

/-- `n` bytes of an object from an offset. -/
def Cf.bytes (c : Cf) (idx sub off n : Nat) : Bytes :=
  (List.range n).map (fun i => Memory.read c.v c.mem (cfgAddr idx sub (off + i)))

/-- The unsigned field of `n` bytes at an offset of an object. -/
def Cf.u (c : Cf) (idx sub off n : Nat) : Nat := ofBE (c.bytes idx sub off n)

/-- A signed field. -/
def Cf.i (c : Cf) (idx sub off n : Nat) : Int := signedOf n (c.u idx sub off n)

/-- The records of a table in which some byte is not at its default. -/
def Cf.recs (c : Cf) (idx sub size : Nat) : List Nat :=
  dedup ((c.mem.filter (fun p => p.1 / 2 ^ 24 = idx * 256 + sub)).map (fun p => p.1 % 2 ^ 24 / size))

/-- The staged bytes of an object. -/
def stagedOf (cells : List Host.Cell) (idx sub : Nat) : List Host.Cell := cells.filter (fun c => c.1 / 2 ^ 24 = idx * 256 + sub)

/-- The live configuration. -/
def State.cf (s : State) : Cf := ⟨s.variant, s.cfg.live⟩

/-- Generation `a` is later than `b` (R77). -/
def genLater (a b : Gen) : Bool := let d := (a - b).toNat; decide (1 ≤ d ∧ d ≤ 32767)

/-- Sequence number `a` is later than `b` (R431). -/
def seqLater (a b : Seq) : Bool := let d := (a - b).toNat; decide (1 ≤ d ∧ d ≤ 2147483647)

/-- Stamp order: generation first, then time (R77). -/
def Stamp.before (a b : Stamp) : Bool := genLater b.gen a.gen || (a.gen = b.gen && decide (a.ns < b.ns))

/-- Objects that ask for an action and read 0 after T_c (R145, R513). -/
def actionObject (idx sub : Nat) : Bool := idx = 0x4010 || (idx = 0xD000 && sub = 6)

/-- The cells of a commit that stay in the configuration. -/
def lasting (cells : List Host.Cell) : List Host.Cell := cells.filter (fun c => !actionObject (c.1 / 2 ^ 32) (c.1 / 2 ^ 24 % 256))

/-- The configuration and its generation that serve a reporting instant `t` (R17): the one live at `t`. Before T_c it is the
previous one, also once that is released; at or after the T_c of an accepted commit that still waits, an instant that
internal time has not reached yet is served by that commit. -/
def State.cfFor (s : State) (t : Stamp) : Cf × BitVec 32 :=
  let under := fun (p : Option (List Host.Cell × BitVec 32 × Stamp)) (later : Cf × BitVec 32) => match p with
    | some (m, g, tc) => if Stamp.before t tc then (⟨s.variant, m⟩, g) else later
    | none => later
  let now := under s.cfg.spent (under s.cfg.prev (s.cf, s.cfg.gen))
  s.cfg.waiting.foldl (fun c w => if Stamp.before t w.tc then c else (⟨s.variant, Memory.apply s.variant c.1.mem (lasting w.cells)⟩, w.gen)) now

/-- The configurations that serve instants now, oldest first, each with its generation and its T_c: the previous one while it is
kept, the live one, and each accepted commit that waits. -/
def State.served (s : State) : List (Cf × BitVec 32 × Stamp) :=
  let old := match s.cfg.prev with | some (m, g, _) => [((⟨s.variant, m⟩ : Cf), g, ⟨0#16, 0⟩)] | none => []
  s.cfg.waiting.foldl (fun cs w =>
    let m := ((cs.getLast?.map (·.1)).getD s.cf).mem
    cs ++ [((⟨s.variant, Memory.apply s.variant m (lasting w.cells)⟩ : Cf), w.gen, w.tc)]) (old ++ [(s.cf, s.cfg.gen, s.cfg.from_)])

/-- The configurations of sets that have closed, oldest first: those that serve instants now, and the one released last. -/
def State.serving (s : State) : List (Cf × BitVec 32 × Stamp) :=
  (match s.cfg.spent with | some (m, g, _) => [((⟨s.variant, m⟩ : Cf), g, ⟨0#16, 0⟩)] | none => []) ++ s.served

/-- The previous configuration serves an instant, and is still held (R17, R19). -/
def State.servedBefore (s : State) (t : Stamp) : Bool := match s.cfg.prev with | some (_, _, tc) => Stamp.before t tc | none => false

/-- An instant lies before the last T_c: what it decides belongs to alarms as they stood then (R17). -/
def State.beforeChange (s : State) (t : Stamp) : Bool :=
  match (s.cfg.prev <|> s.cfg.spent) with | some (_, _, tc) => Stamp.before t tc | none => false

/-- The instants after `t` that a configuration whose T_c is `from_` serves in the current generation come after this one. -/
def State.serveFrom (s : State) (from_ : Stamp) (t : Nat) : Nat := if from_.gen = s.time.gen then max t (from_.ns - 1) else t

/-- The earliest of the instants that each configuration offers, given its T_c, and itself serves (R17), with its configuration. -/
def State.earliest (s : State) (offer : Cf → Stamp → Option Stamp) : Option (Stamp × Cf) :=
  let mine := s.served.filterMap (fun (c, g, f) => match offer c f with
    | some t => if (s.cfFor t).2 = g then some (t, c) else none
    | none => none)
  match mine with
  | [] => none
  | h :: r => some (r.foldl (fun b x => if Stamp.before x.1 b.1 then x else b) h)

/-! ## Capabilities (R2) -/
def State.contexts (s : State) : Nat := byPart s.variant 4096 2048 1024
def State.channels (s : State) : Nat := byPart s.variant 1024 512 256
def State.ports (s : State) : Nat := byPart s.variant 6 6 4
def State.slots (s : State) : Nat := byPart s.variant 8192 4096 2048
def State.estimators (s : State) : Nat := byPart s.variant 256 128 64
def State.outSessions (s : State) : Nat := byPart s.variant 256 128 64
def State.hasOsc (s : State) : Bool := s.variant = 0
def State.hasAcq (s : State) : Bool := s.variant ≤ 1
def State.hasHr (s : State) : Bool := s.variant ≤ 1

/-! ## Time -/

/-- The device time of this moment, generation and value taken together (R36). -/
def State.now (s : State) : Stamp := ⟨s.time.gen, s.time.tai⟩
def State.elapsed (s : State) : Nat := s.time.elapsed

/-- `dt` ns pass: the elapsed-time counter counts them from the reference, or in REF_FAULT from the backup oscillator as
corrected (R79, R89). Internal time runs with them at the steered frequency (R86, R87), but for the slew, which removes the
offset at up to the rate at 0x3040.02. -/
def State.tick (s : State) (dt : Nat) : State :=
  let most := dt * s.cf.u 0x3040 2 0 2 / 1000000
  let part : Int := if s.time.slew = 0 then 0 else if 0 < s.time.slew then min s.time.slew most else max s.time.slew (-(most : Int))
  let gain : Int := s.time.frac + dt * s.time.freq
  { s with time := { s.time with elapsed := s.time.elapsed + dt, tai := ((s.time.tai + dt : Nat) + gain / 10 ^ 15 - part).toNat, slew := s.time.slew - part,
                                 frac := gain % 10 ^ 15 } }

/-- The next free value's number; the counter advances (the model's own). -/
def State.takeFree (s : State) : Nat × State := (s.freeCount, { s with freeCount := s.freeCount + 1 })

/-! ## Events (R25, R7, R515, R552) -/

/-- The event belongs to an absent unit of the part (R7). -/
def eventAbsent (v id inst : Nat) : Bool :=
  (decide (1 ≤ v) && decide (0x60 ≤ id) && decide (id ≤ 0x67)) ||
  (decide (2 ≤ v) && ((decide (0x90 ≤ id) && decide (id ≤ 0x96)) || (decide (0xA0 ≤ id) && decide (id ≤ 0xA5)))) ||
  (decide (0x20 ≤ id) && decide (id ≤ 0x24) && decide (byPart v 6 6 4 ≤ inst))

/-- The IDs marked reserved in R549. -/
def eventReserved (id : Nat) : Bool :=
  (0x18 ≤ id && id ≤ 0x1F) || (0x25 ≤ id && id ≤ 0x2F) || (0x3A ≤ id && id ≤ 0x3F) || (0x44 ≤ id && id ≤ 0x4F) ||
  (0x58 ≤ id && id ≤ 0x5F) || (0x68 ≤ id && id ≤ 0x6F) || (0x79 ≤ id && id ≤ 0x7F) || (0x86 ≤ id && id ≤ 0x8F) ||
  (0x97 ≤ id && id ≤ 0x9F) || (0xA6 ≤ id && id ≤ 0xAF) || (0xB7 ≤ id && id ≤ 0xBF) || (0xC6 ≤ id && id ≤ 0xCF) ||
  (0xD7 ≤ id && id ≤ 0xDF) || (0xE8 ≤ id && id ≤ 0xEF) || id = 0xF7 || 0xFA ≤ id

/-- Add an occurrence to the latches: the latch of its source and instance takes it, or counts it (R25). DESIGN CHOICE (log
entry 167): there is one latch per source and instance, so another instance of the source never waits. -/
def latchEvent (es : List Ev) (e : Ev) : List Ev :=
  match es with
  | [] => [e]
  | x :: r => if x.id = e.id && x.inst = e.inst && !x.direct then { x with rep := min (x.rep + 1) 0xFFFF } :: r else x :: latchEvent r e

/-- An event source raises an occurrence (R25). A source of an absent unit never fires (R7), a reserved ID never does
(R549). With the fabric fenced the occurrence takes the direct path (R515). -/
def raise (id inst param : Nat) (s : State) : State :=
  if eventAbsent s.variant id inst || eventReserved id then s
  else
    let e : Ev := { id := id, inst := inst, stamp := s.now, param := BitVec.ofNat 32 param, rep := 0, direct := s.ev.fenced, el := s.time.elapsed }
    { s with ev := { s.ev with latch := if s.ev.fenced then s.ev.latch ++ [e] else latchEvent s.ev.latch e } }

/-- An event whose parameter no rule states: bit 31 as given, the others free (log entry 17). -/
def raiseFree (id inst top : Nat) (s : State) : State :=
  let (n, s1) := s.takeFree
  raise id inst (top * 2 ^ 31 + (Config.free32 n).toNat % 2 ^ 31) s1

/-- A unit is in reset or restoring from now on (R556). -/
def beginReset (sub : Nat) (s : State) : State :=
  { s with rst := { s.rst with status := Table.put s.rst.status sub 2, wroteAt := Table.put s.rst.wroteAt sub s.elapsed } }

/-! ## Statistics counters (R430) -/

/-- The sticky flag object of a counter: its key and bit, the saturation event and its instance (0 for stream ingest: log entry 227). -/
def stickyOf (idx sub : Nat) : Option (Nat × Nat × Nat × Nat) :=
  if 0x2080 ≤ idx && idx ≤ 0x2085 then some (idx * 256 + 0x1E, sub - 1, 0x24, idx - 0x2080)
  else
    match idx with
    | 0x1080 => some (idx * 256 + 0x0A, sub - 1, 0x0C, 0)
    | 0x4080 => some (idx * 256 + 0x16, sub - 1, 0x38, 0)
    | 0x5000 => some (idx * 256 + 0x06, sub - 1, 0x43, 0)
    | 0x6080 => some (idx * 256 + 0x0C, sub - 1, 0x56, 0)
    | 0x6880 => some (idx * 256 + 0x0B, sub - 1, 0x67, 0)
    | 0x7080 => some (idx * 256 + 0x09, sub - 1, 0x78, 0)
    | 0x7880 => some (idx * 256 + 0x10, sub - 1, 0x85, 0)
    | 0x8080 => some (idx * 256 + 0x08, sub - 1, 0x96, 0)
    | 0xA080 => some (idx * 256 + 0x08, sub - 1, 0xD6, 0)
    | 0xB080 => some (idx * 256 + 0x09, sub - 1, 0xE7, 0)
    | 0xC080 => some (idx * 256 + 0x0A, sub - 1, 0xF6, 0)
    | 0xD080 => some (idx * 256 + 0x08, sub - 1, 0x0F, 0)
    | 0xE080 => some (idx * 256 + 0x09, sub - 1, 0xA5, 0)
    | _ => none

def ctrMax : Nat := 2 ^ 48 - 1

/-- The value of a counter. -/
def State.ctr (s : State) (idx sub : Nat) : Nat := Table.getD s.stats (idx * 256 + sub) 0

/-- Increment a counter by `n`: 48 bits, saturating; an increment that finds it saturated while its sticky flag is clear
sets the flag and raises the unit's saturation event (R430). -/
def countN (idx sub n : Nat) (s : State) : State :=
  let old := s.ctr idx sub
  let s1 := { s with stats := Table.set s.stats (idx * 256 + sub) (min (old + n) ctrMax) 0 }
  if n = 0 || old + n ≤ ctrMax then s1
  else
    match stickyOf idx sub with
    | none => s1
    | some (key, b, ev, inst) =>
      let flags := Table.getD s1.sticky key 0
      if bit flags b then s1
      else raise ev inst sub { s1 with sticky := Table.set s1.sticky key (flags + 2 ^ b) 0 }

/-- Increment a counter. -/
def count (idx sub : Nat) (s : State) : State := countN idx sub 1 s

/-! ## Modes (R57, R59, R62) -/

def Mode.code (m : Mode) : Nat :=
  match m with
  | .quickset => 0 | .provision => 1 | .configure => 2 | .standby => 3 | .operate => 4 | .degraded => 5 | .safe => 6 | .zeroized => 7

/-- Sets form, or run to close before a stop instant: OPERATE, DEGRADED and SAFE (R57, R58). -/
def Mode.forms (m : Mode) : Bool :=
  match m with
  | .operate | .degraded | .safe => true
  | _ => false

/-- The ports and ingest counters run (R57). -/
def Mode.ingests (m : Mode) : Bool := m.forms || m = .standby

/-- Sets of before a stop instant still run to their close, and outputs have not stopped yet (R58). -/
def State.draining (s : State) : Bool := match s.mode.pend with | some p => p.stopped | none => false

/-- Units work on sets: the mode forms them, or those of before a stop instant run to their close (R57, R58). -/
def State.forming (s : State) : Bool := s.mode.cur.forms || s.draining

/-- Osrider configuration is open (R57, R421). -/
def Mode.configures (m : Mode) : Bool := m.ingests || m = .configure

/-- The oscillation and acquisition engines run (R57). -/
def Mode.full (m : Mode) : Bool := m = .operate || m = .degraded

/-- READY (R50). -/
def State.ready (s : State) : Bool := s.power.phase = .running && s.mode.cur.configures

/-- Write the time and counter entries and the mode into the configuration journal, unless the power-fail warning has
stopped new flash programs (R62, R67, R76). -/
def journalTime (s : State) : State :=
  if s.power.failState = 0 then
    { s with jrn := { s.jrn with mode := s.mode.cur.code, time := some (s.time.gen, s.time.tai / 1000000000) } }
  else s

/-- A mode transition: objects of R62, EV_MODE_CHANGE (R559), the journal entry. -/
def enterMode (m : Mode) (cause : Nat) (s : State) : State :=
  let from_ := s.mode.cur.code
  let s1 := { s with mode := { s.mode with cur := m, prev := from_, cause := cause, since := s.now, clearSince := none } }
  journalTime (raise 0x00 0 (cause * 65536 + from_ * 256 + m.code) s1)

/-- A fence has taken a unit's logical lane (R491, R492). -/
def State.fenced (s : State) (unit lane : Nat) : Bool := s.cop.lost.contains (unit, lane)

/-- The device runs: neither in power hold nor in reset nor starting. -/
def State.runs (s : State) : Bool := s.power.phase = .running

/-- `dt` passes, and then, if the device runs, `f` happens. -/
def State.live (s : State) (dt : Nat) (f : State → State) : State :=
  let t := s.tick dt
  if t.runs then f t else t

/-! ## Parts of the state: what a command can change -/

/-- A part of the state. -/
inductive Part where
  /-- The latches and the rate limits of the event fabric. -/
  | events
  /-- The IRQ pending bits. -/
  | irq
  /-- Whether the fabric is fenced. -/
  | fence
  /-- Statistics counters and sticky flags. -/
  | stats
  /-- The free values taken. -/
  | free
  /-- The pace monitor. -/
  | pace
  /-- Power, start and PWR_FAIL_N. -/
  | power
  /-- The mode and its record. -/
  | mode
  /-- The pending transition and the request status. -/
  | request
  /-- Reset status. -/
  | reset
  /-- The journal entries for mode, time, starts and steps. -/
  | journal
  /-- The stored configuration. -/
  | stored
  /-- The timebase but for the running of its clock. -/
  | time
  /-- The live configuration, its generation, and that there is one. -/
  | config
  /-- Accepted commits that wait for T_c, and what was assigned to the last one. -/
  | commits
  /-- The previous configuration. -/
  | previous
  /-- Sessions and the last response and NOTIFY. -/
  | sessions
  /-- Queued and checked commits, reports. -/
  | commitQueue
  /-- Authentication failures and lockouts. -/
  | lockouts
  /-- Hardware queues and the pool. -/
  | queues
  /-- Errors, rows and arbiter use of the store. -/
  | store
  /-- Tasks, cores and levels. -/
  | sched
  /-- The task descriptors. -/
  | tasks
  /-- Ports. -/
  | port
  /-- The acquisition engine but for its readers. -/
  | acq
  /-- Readers. -/
  | reader
  /-- The trigger bus. -/
  | bus
  /-- Stream contexts and sampled-value streams. -/
  | ingest
  /-- Analytic signal slots and unresolved entries. -/
  | slots
  /-- Channels, comparators, estimators. -/
  | chain
  /-- Alignment. -/
  | align
  /-- Hedgerow. -/
  | hr
  /-- Alarms. -/
  | alarm
  /-- Publications. -/
  | goose
  /-- Output sessions. -/
  | out
  /-- Roots, wrap key and key slots. -/
  | keys
  /-- The life-cycle state. -/
  | life
  /-- The key request port. -/
  | keyPort
  /-- The key command and its result. -/
  | keyCmd
  /-- Tamper sources and TRNG health. -/
  | tamper
  /-- The oscillation engine. -/
  | osc
  /-- The islanding engine. -/
  | isl
  /-- Coppice. -/
  | cop
  /-- Firmware update, and the stored configuration of the other image. -/
  | upd
  /-- Event records in SRAM. -/
  | records
  /-- Event records in flash and on the way there. -/
  | recFlash
  /-- The recorder state and the last-gasp object. -/
  | recFault
  /-- Temperature, rails and life. -/
  | mon
  /-- The JTAG instruction. -/
  | jtag
  deriving DecidableEq, Repr

/-- State `t` in the parts listed, state `s` in every other part. The clock (elapsed and internal time, and what is left to
slew) is always that of `t`; the queue and the kind of part are always those of `s`. -/
def State.within (s : State) (ps : List Part) (t : State) : State :=
  { pending := s.pending
    variant := s.variant
    freeCount := if .free ∈ ps then t.freeCount else s.freeCount
    stats := if .stats ∈ ps then t.stats else s.stats
    sticky := if .stats ∈ ps then t.sticky else s.sticky
    ev := { latch := if .events ∈ ps then t.ev.latch else s.ev.latch, lastOut := if .events ∈ ps then t.ev.lastOut else s.ev.lastOut,
            held := if .events ∈ ps then t.ev.held else s.ev.held, fenced := if .fence ∈ ps then t.ev.fenced else s.ev.fenced,
            irq := if .irq ∈ ps then t.ev.irq else s.ev.irq }
    pace := if .pace ∈ ps then t.pace else s.pace
    power := if .power ∈ ps then t.power else s.power
    mode := { (if .mode ∈ ps then t.mode else s.mode) with
              pend := if .request ∈ ps then t.mode.pend else s.mode.pend, reqStatus := if .request ∈ ps then t.mode.reqStatus else s.mode.reqStatus }
    rst := if .reset ∈ ps then t.rst else s.rst
    jrn := { (if .journal ∈ ps then t.jrn else s.jrn) with
             cfgValid := if .stored ∈ ps then t.jrn.cfgValid else s.jrn.cfgValid, cfg := if .stored ∈ ps then t.jrn.cfg else s.jrn.cfg,
             cfgGen := if .stored ∈ ps then t.jrn.cfgGen else s.jrn.cfgGen }
    time := { (if .time ∈ ps then t.time else s.time) with elapsed := t.time.elapsed, tai := t.time.tai, slew := t.time.slew, frac := t.time.frac }
    cfg := { (if .config ∈ ps then t.cfg else s.cfg) with
             waiting := if .commits ∈ ps then t.cfg.waiting else s.cfg.waiting, lastGen := if .commits ∈ ps then t.cfg.lastGen else s.cfg.lastGen,
             lastAcc := if .commits ∈ ps then t.cfg.lastAcc else s.cfg.lastAcc, lastTc := if .commits ∈ ps then t.cfg.lastTc else s.cfg.lastTc,
             prev := if .previous ∈ ps then t.cfg.prev else s.cfg.prev, spent := if .previous ∈ ps then t.cfg.spent else s.cfg.spent }
    osr := { sessions := if .sessions ∈ ps then t.osr.sessions else s.osr.sessions, resp := if .sessions ∈ ps then t.osr.resp else s.osr.resp,
             notify := if .sessions ∈ ps then t.osr.notify else s.osr.notify, outbox := if .sessions ∈ ps then t.osr.outbox else s.osr.outbox,
             line := if .sessions ∈ ps then t.osr.line else s.osr.line,
             queue := if .commitQueue ∈ ps then t.osr.queue else s.osr.queue, checked := if .commitQueue ∈ ps then t.osr.checked else s.osr.checked,
             reports := if .commitQueue ∈ ps then t.osr.reports else s.osr.reports,
             failures := if .lockouts ∈ ps then t.osr.failures else s.osr.failures, lockouts := if .lockouts ∈ ps then t.osr.lockouts else s.osr.lockouts }
    store := { (if .store ∈ ps then t.store else s.store) with
               queues := if .queues ∈ ps then t.store.queues else s.store.queues, poolUsed := if .queues ∈ ps then t.store.poolUsed else s.store.poolUsed,
               poolHigh := if .queues ∈ ps then t.store.poolHigh else s.store.poolHigh, poolLow := if .queues ∈ ps then t.store.poolLow else s.store.poolLow,
               popped := if .queues ∈ ps then t.store.popped else s.store.popped, moves := if .queues ∈ ps then t.store.moves else s.store.moves }
    sched := { (if .sched ∈ ps then t.sched else s.sched) with desc := if .tasks ∈ ps then t.sched.desc else s.sched.desc }
    port := if .port ∈ ps then t.port else s.port
    acq := { (if .acq ∈ ps then t.acq else s.acq) with reader := if .reader ∈ ps then t.acq.reader else s.acq.reader }
    bus := if .bus ∈ ps then t.bus else s.bus
    ing := { (if .ingest ∈ ps then t.ing else s.ing) with
             slots := if .slots ∈ ps then t.ing.slots else s.ing.slots, unresolved := if .slots ∈ ps then t.ing.unresolved else s.ing.unresolved }
    chain := if .chain ∈ ps then t.chain else s.chain
    align := if .align ∈ ps then t.align else s.align
    hr := if .hr ∈ ps then t.hr else s.hr
    alm := { alarm := if .alarm ∈ ps then t.alm.alarm else s.alm.alarm, old := if .alarm ∈ ps then t.alm.old else s.alm.old, inbox := if .alarm ∈ ps then t.alm.inbox else s.alm.inbox,
             goose := if .goose ∈ ps then t.alm.goose else s.alm.goose, out := if .out ∈ ps then t.alm.out else s.alm.out }
    key := { (if .keys ∈ ps then t.key else s.key) with
             life := if .life ∈ ps then t.key.life else s.key.life,
             sym := if .keyPort ∈ ps then t.key.sym else s.key.sym, asym := if .keyPort ∈ ps then t.key.asym else s.key.asym,
             waiting := if .keyPort ∈ ps then t.key.waiting else s.key.waiting, lastReq := if .keyPort ∈ ps then t.key.lastReq else s.key.lastReq,
             answer := if .keyPort ∈ ps then t.key.answer else s.key.answer, uses := if .keyPort ∈ ps then t.key.uses else s.key.uses,
             block := if .keyCmd ∈ ps then t.key.block else s.key.block, result := if .keyCmd ∈ ps then t.key.result else s.key.result,
             cmd := if .keyCmd ∈ ps then t.key.cmd else s.key.cmd, erasing := if .keyCmd ∈ ps then t.key.erasing else s.key.erasing,
             remasked := if .keyCmd ∈ ps then t.key.remasked else s.key.remasked, maskedAt := if .keyCmd ∈ ps then t.key.maskedAt else s.key.maskedAt,
             lines := if .tamper ∈ ps then t.key.lines else s.key.lines,
             tamperNow := if .tamper ∈ ps then t.key.tamperNow else s.key.tamperNow, tamperSince := if .tamper ∈ ps then t.key.tamperSince else s.key.tamperSince,
             trngFail := if .tamper ∈ ps then t.key.trngFail else s.key.trngFail, trngBad := if .tamper ∈ ps then t.key.trngBad else s.key.trngBad,
             trngGood := if .tamper ∈ ps then t.key.trngGood else s.key.trngGood }
    osc := if .osc ∈ ps then t.osc else s.osc
    isl := if .isl ∈ ps then t.isl else s.isl
    cop := if .cop ∈ ps then t.cop else s.cop
    upd := if .upd ∈ ps then t.upd else s.upd
    rec_ := { (if .records ∈ ps then t.rec_ else s.rec_) with
              pend := if .recFlash ∈ ps then t.rec_.pend else s.rec_.pend, jcirc := if .recFlash ∈ ps then t.rec_.jcirc else s.rec_.jcirc,
              jperm := if .recFlash ∈ ps then t.rec_.jperm else s.rec_.jperm, pageFailed := if .recFlash ∈ ps then t.rec_.pageFailed else s.rec_.pageFailed,
              state := if .recFault ∈ ps then t.rec_.state else s.rec_.state, faults := if .recFault ∈ ps then t.rec_.faults else s.rec_.faults,
              gasp := if .recFault ∈ ps then t.rec_.gasp else s.rec_.gasp }
    mon := if .mon ∈ ps then t.mon else s.mon
    jtag := if .jtag ∈ ps then t.jtag else s.jtag }

/-- A command of a running device: `dt` passes, and then `f` happens, within the parts it may change. -/
def State.act (s : State) (ps : List Part) (dt : Nat) (f : State → State) : State := s.within ps (s.live dt f)

/-! ## Quality of the device's own time (R91, R92, R560) -/

/-- The accuracy class of an estimated error in ns (R91). -/
def accuracyClass (e : Nat) : Nat :=
  if e < 100 then 1 else if e < 1000 then 2 else if e < 10000 then 3 else if e < 100000 then 4
  else if e < 1000000 then 5 else if e < 10000000 then 6 else 7

/-- The device counts as in HOLDOVER for quality (R85). -/
def TimeU.inHoldover (t : TimeU) : Bool := t.state = .holdover || (t.state = .acquiring && t.switching)

/-- A clock fault: REF_FAULT, or one that a source reports (R91 bit 10). -/
def TimeU.faulty (t : TimeU) : Bool := t.state = .refFault || t.sources.any (fun p => p.2.fault)

/-- The estimated error (R560). In LOCKED it is the largest offset of the last 16 s, as these stand at the moment. -/
def State.errAt (s : State) : Nat :=
  let t := s.time
  if t.state = .locked then
    min (((t.offsets.filter (fun p => t.elapsed < p.1 + 16000000000)).foldl (fun m p => max m p.2.natAbs) 0) + (Table.getD t.sources t.source {}).inaccuracy) 0xFFFFFFFF
  else t.err

/-- Leap pending, occurred and direction for an instant (R91, R97): pending from 60 s before the leap to its start, occurred from
its start. -/
def TimeU.leapBits (t : TimeU) (ns : Nat) : List Bool :=
  let occurred := t.leapDone && decide (t.doneAt ≤ ns)
  let before := t.leapDone && decide (ns < t.doneAt) && decide (t.doneAt ≤ ns + 60000000000)
  let next := t.leapPend && decide (t.leapAt ≤ ns + 60000000000)
  [next || before, occurred, if next then t.leap = 2 else if t.leapDone then t.doneDel else t.leap = 2]

/-- The device's own time quality word (R91), its leap bits those of an instant. -/
def State.ownQualAt (s : State) (ns : Nat) : Qual :=
  let t := s.time
  BitVec.ofNat 16 (accuracyClass s.errAt + 8 * t.durClass +
    32 * flagsOf ([t.unlocked, t.inHoldover] ++ t.leapBits ns ++ [t.faulty || s.cop.bypass.contains 14]))

/-- The device's own time quality word at this moment. -/
def State.ownQual (s : State) : Qual := s.ownQualAt s.time.tai

end Sys2Proof.Machine
end

