-- ==== Sys2Proof/Machine/Queues.lean ====
section
/-! DEFINITION. The 512 hardware queues and the store's own steps (R369 to R387). -/
namespace Sys2Proof.Machine
open Sys2Proof

def poolSize : Nat := 33554432
def queueMax : Nat := 1048576
def queueOwn : Nat := 65536

/-- The channel of a granule of the store: any four consecutive ones lie on four different channels (R371). -/
def storeChannel (g : Nat) : Nat := (Config.channelOrder (Fin.ofNat 4 g)).val

/-! ## Items -/

/-- Who a queue's traffic is charged to (R379): a reserved path, or 5 + the leftover class of R375, where the archive queue has a
class of its own and the others count as service-core memory (DEDUCED, log entry 212). The hand-offs 137 to 168 are charged to
ingest, the first of the producing paths (DEDUCED, log entry 212). -/
def queueOwner (q : Nat) : Nat :=
  if q ≤ 95 then 0 else if q ≤ 119 then 3 else if q ≤ 135 then 1 else if q = 136 then 7 else if q ≤ 168 then 0 else if q ≤ 232 then 3
  else if q ≤ 248 then 4 else 10

def State.queue (s : State) (q : Nat) : Queue := Table.getD s.store.queues q {}
def State.setQueue (s : State) (q : Nat) (x : Queue) : State :=
  { s with store := { s.store with queues := Table.set s.store.queues q x {} } }
def State.qlen (s : State) (q : Nat) : Nat := (s.queue q).items.length

/-- A 48-bit count that no sticky flag object covers: it saturates, and the increment that finds it saturated raises the
unit's event, once (R430; log entry 10). `key` names the flag the model keeps. -/
def satCount (old n : Nat) : Nat := min (old + n) ctrMax

/-- Raise the saturation event of a record counter the first time an increment finds it saturated. -/
def satEvent (old n key ev inst param : Nat) (s : State) : State :=
  if old + n ≤ ctrMax || Table.getD s.sticky key 0 = 1 then s
  else raise ev inst param { s with sticky := Table.put s.sticky key 1 }

/-- Slots of four channels a path has in a frame: the five reserved paths in the order of R372, then the least that is left
over. -/
def pathSlots (p : Nat) : Nat := match p with | 0 => 512 | 1 => 32 | 2 => 160 | 3 => 144 | 4 => 256 | _ => 240

/-- The key of the model's flag for a record's counter. -/
def recKey (idx record off : Nat) : Nat := 2 ^ 40 + (idx * 65536 + record) * 256 + off

/-- One more in a counter of a stream's status record, at a byte offset: its saturation is told as that of any counter (R161, R430; log
entry 10). Of an SV stream record the parameter has bit 31 set (R163). -/
def ctxSat (k old off : Nat) (s : State) : State := satEvent old 1 (recKey 0x4180 k off) 0x38 k off s
def svSat (r old off : Nat) (s : State) : State := satEvent old 1 (recKey 0x4280 r off) 0x38 r (2 ^ 31 + off) s

/-- The pool's use after a change, its high-water mark, and EV_POOL_LOW at 90 %, armed again at 75 % (R387). -/
def setPool (used : Nat) (s : State) : State :=
  let s1 := { s with store := { s.store with poolUsed := used, poolHigh := max s.store.poolHigh used } }
  if !s.store.poolLow && poolSize * 9 ≤ used * 10 then
    raise 0xB3 0 used { s1 with store := { s1.store with poolLow := true } }
  else if s.store.poolLow && used * 4 ≤ poolSize * 3 then { s1 with store := { s1.store with poolLow := false } }
  else s1

/-- The queue is full, or its bank is fenced (R382, R491). -/
def State.queueFull (s : State) (q : Nat) : Bool :=
  let n := s.qlen q
  s.fenced 9 (q / 16) || queueMax ≤ n || (queueOwn < n && poolSize ≤ s.store.poolUsed)

/-- Where a new item goes: straight to the head while the middle and the tail are empty and the head has room, else to
the tail, whose oldest item then spills when it holds 16 (R380). -/
def Queue.place (x : Queue) (item : Bytes) : Queue :=
  let n := x.items.length
  let tail := n - x.head - x.middle
  if x.middle = 0 && tail = 0 && x.head < 16 then { x with items := x.items ++ [item], head := x.head + 1 }
  else if tail < 16 then { x with items := x.items ++ [item] }
  else { x with items := x.items ++ [item], middle := x.middle + 1 }

/-- Moves of `n` items between the register files of a queue and its middle are charged to the queue's owner, item by item on
consecutive granules from item `from_` on (R371, R380; log entry 212). -/
def chargeMoves (q from_ n : Nat) (s : State) : State :=
  { s with store := { s.store with moves := (List.range n).foldl (fun t i => Table.modify t (queueOwner q * 4 + storeChannel (from_ + i)) 0 (· + 1)) s.store.moves } }

/-- A push refused at a full queue: counted, with EV_RXQ_OVERFLOW or EV_QUEUE_FULL for the first until the queue has
drained to half of 1 048 576 items, or to half of what it held at the refusal (R120, R382). -/
def refusePush (q : Nat) (s : State) : State :=
  let x := s.queue q
  let s1 := s.setQueue q { x with refused := satCount x.refused 1, fullAt := some (x.fullAt.getD (if q ≤ 95 then queueMax else x.items.length)) }
  let s2 := satEvent x.refused 1 (recKey 0xF210 q 20) 0xB5 q 20 s1
  if x.fullAt.isSome then s2
  else if q ≤ 95 then raise 0x23 (q / 16) (q % 16) s2 else raise 0xB4 q x.items.length s2

/-- Offer an item, with the data it refers to, to a queue: taken, or refused when the queue is full (R382). For the receive
queues and the archive queue the queue writes its count into bytes 4 to 7 (R381). The answer says whether it was taken. -/
def enqueueData (q : Nat) (item data : Bytes) (s : State) : Bool × State :=
  let x := s.queue q
  if s.queueFull q then (false, refusePush q s)
  else
    let count := x.seq + 1
    let body := if q ≤ 95 || q = 136 then item.take 4 ++ toBE 4 count ++ item.drop 8 else item
    let y := { x.place body with data := x.data ++ [data] }
    let takes := queueOwn ≤ x.items.length && s.store.poolUsed < poolSize
    let z := { y with seq := count % 2 ^ 32, pushes := satCount x.pushes 1, high := max x.high y.items.length, pool := x.pool + b2n takes }
    let s1 := satEvent x.pushes 1 (recKey 0xF210 q 8) 0xB5 q 8 (chargeMoves q x.seq (y.middle - x.middle) (s.setQueue q z))
    (true, if takes then setPool (s.store.poolUsed + 1) s1 else s1)

/-- Offer an item that is all there is. -/
def enqueue (q : Nat) (item : Bytes) (s : State) : Bool × State := enqueueData q item [] s

/-- Refill the head from the middle while it holds fewer than 16 items (R380). -/
def Queue.refill (x : Queue) : Queue :=
  { x with head := x.head + min (16 - x.head) x.middle, middle := x.middle - min (16 - x.head) x.middle }

/-- Items that a refill moves. -/
def Queue.refills (x : Queue) : Nat := min (16 - x.head) x.middle

/-- The mark of a damaged item that waits in a queue; its sequence number is written when it is delivered. -/
def damagedMark : Bytes := [0x01#8]

/-- The item a pop delivers from a queue, with bytes 4 to 7 of a damaged item the last sequence plus one (R377), and the
queue after it. An empty queue gives the idle item (R383). -/
def Queue.pop (x : Queue) (damaged : Bool) : Bytes × Queue :=
  match x.items with
  | [] => ([0#8, 0#8, 0#8, 0#8] ++ toBE 4 (if x.fresh then 0 else x.last) ++ zeros 56, { x with idles := satCount x.idles 1 })
  | it :: rest =>
    let y := if x.head = 0 then x.refill else x
    let out := if damaged || it = damagedMark then [0x01#8, 0#8, 0#8, 0#8] ++ toBE 4 (x.last + 1) ++ zeros 56 else it
    let len := rest.length
    (out, { y with items := rest, data := y.data.drop 1, head := y.head - 1,
                   delivered := if damaged || it = damagedMark then x.delivered else satCount x.delivered 1,
                   last := if damaged || it = damagedMark then x.last else field it 4 4,
                   fresh := x.fresh && (damaged || it = damagedMark),
                   pool := if x.pool = 0 then 0 else x.pool - 1,
                   fullAt := match x.fullAt with
                     | none => none
                     | some n => if len * 2 ≤ n then none else some n })

/-- A consumer pops a queue (R383); a pop that finds the head empty waits for the refill (R384). -/
def popQueue (q : Nat) (damaged : Bool) (s : State) : State :=
  let x := s.queue q
  let (out, y) := x.pop damaged
  let s0 := chargeMoves q x.seq (if x.head = 0 && !x.items.isEmpty then x.refills else 0) (s.setQueue q y)
  let s1 := { s0 with store := { s0.store with popped := some (q, out) } }
  let s2 := if x.pool = 0 then s1 else setPool (s1.store.poolUsed - 1) s1
  match x.items with
  | [] => satEvent x.idles 1 (recKey 0xF210 q 26) 0xB5 q 26 s2
  | _ :: _ => satEvent (if y.delivered = x.delivered then 0 else x.delivered) 1 (recKey 0xF210 q 14) 0xB5 q 14 s2

/-- A queue's items are discarded, its pool items return at once, and what it gave out last stays. -/
def dropItems (q : Nat) (s : State) : State :=
  let x := s.queue q
  let s1 := s.setQueue q { x with items := [], data := [], head := 0, middle := 0, pool := 0, fullAt := none }
  if x.pool = 0 then s1 else setPool (s1.store.poolUsed - x.pool) s1

/-- Clear a queue; its pool items return at once, its counts stay (R385). -/
def clearQueue (q : Nat) (s : State) : State :=
  let s1 := dropItems q s
  s1.setQueue q { s1.queue q with fresh := true }

/-! ## Errors of the store (R377, R378) -/

/-- The channel of a place in a region; every region starts at a whole number of four granules (R370). -/
def errChannel (e : StoreErr) : Nat := storeChannel (e.offset / 64)

def State.errRec (s : State) (k : Nat) : ErrCount := Table.getD s.store.errs k {}

/-- Count corrected errors in a record of 0xF110.01. -/
def addCe (k n : Nat) (s : State) : State :=
  let e := s.errRec k
  let above := ctrMax < e.ce + n && !bit e.flags 0
  let s1 := { s with store := { s.store with errs := Table.set s.store.errs k { e with ce := min (e.ce + n) ctrMax, flags := e.flags + b2n above } {} } }
  when above (raise 0xB5 k 0) s1

/-- A corrected word: counted in its channel's and its region's record; when its channel's count within the scrubber's pass reaches
the threshold, EV_STORE_CE, once for the channel and pass (R377, R378). -/
def storeCe (e : StoreErr) (s : State) : State :=
  let c := errChannel e
  let s1 := addCe (4 + e.region) 1 (addCe c 1 s)
  let n := Table.getD s1.store.passCe c 0 + 1
  let s2 := { s1 with store := { s1.store with passCe := Table.put s1.store.passCe c n } }
  if s2.cf.u 0xF100 3 0 4 ≤ n && !s2.store.passTold.contains c then
    raise 0xB0 c n { s2 with store := { s2.store with passTold := c :: s2.store.passTold } }
  else s2

/-- Count uncorrectable errors. -/
def addUe (k n : Nat) (s : State) : State :=
  let e := s.errRec k
  let above := ctrMax < e.ue + n && !bit e.flags 1
  let s1 := { s with store := { s.store with errs := Table.set s.store.errs k { e with ue := min (e.ue + n) ctrMax, flags := e.flags + 2 * b2n above } {} } }
  when above (raise 0xB5 k 6) s1

/-- Count a row reported. -/
def addRow (k : Nat) (s : State) : State :=
  { s with store := { s.store with errs := Table.modify s.store.errs k {} (fun e => { e with rows := satBits 16 (e.rows + 1) }) } }

/-- An uncorrectable read: counted in its channel's and its region's record, named at 0xF100.04 and .05, EV_STORE_UE
(R377). What the reading unit then does is its own. -/
def storeUe (e : StoreErr) (s : State) : State :=
  let off := e.offset / 64 * 64
  let s1 := addUe (4 + e.region) 1 (addUe (errChannel e) 1 s)
  raise 0xB1 (errChannel e) (e.region * 2 ^ 24 + off / 1024)
    { s1 with store := { s1.store with ueOffset := regionBase e.region * 2 ^ 20 + off, ueId := (errChannel e) * 256 + e.region } }

/-- A row is reported to Coppice (R378). -/
def reportRow (channel region row : Nat) (s : State) : State :=
  let s1 := addRow (4 + region) (addRow channel s)
  raise 0xB2 channel row { s1 with store := { s1.store with rowsDue := if s1.store.rowsDue.contains (channel, row) then s1.store.rowsDue else s1.store.rowsDue ++ [(channel, row)] } }

end Sys2Proof.Machine
end

