-- ==== Sys2Proof/Machine/Sched.lean ====
section
/-! DEFINITION. The hardware task scheduler (R388 to R404) and its commands. -/
namespace Sys2Proof.Machine
open Sys2Proof

/-- Plane of a core: 0 data, 1 control, 2 management (R388). -/
def corePlane (k : Nat) : Nat := if k = 6 || k = 7 then 1 else if 16 ≤ k && k ≤ 23 then 2 else 0
/-- The core is general: it runs tunable tasks only (R388). -/
def coreGeneral (k : Nat) : Bool := !(k ≤ 3 || (8 ≤ k && k ≤ 11))

def State.task (s : State) (t : Nat) : Task := Table.getD s.sched.tasks t {}
def State.core (s : State) (k : Nat) : CoreU := Table.getD s.sched.cores k {}
def State.level (s : State) (l : Nat) : LevelU := Table.getD s.sched.levels l {}
def State.setTask (s : State) (t : Nat) (x : Task) : State :=
  { s with sched := { s.sched with tasks := Table.set s.sched.tasks t x {} } }
def State.setCore (s : State) (k : Nat) (x : CoreU) : State :=
  { s with sched := { s.sched with cores := Table.set s.sched.cores k x {} } }
def State.setLevel (s : State) (l : Nat) (x : LevelU) : State :=
  { s with sched := { s.sched with levels := Table.set s.sched.levels l x {} } }

/-- A task's tuning: the record of 0x9200.01 when one is live, else the descriptor's defaults (R391). Byte 15 of a
record in the configuration is 1 where a record has been committed; it reads as the reserved 0. -/
structure Tuning where
  base : Nat
  ceil : Nat
  affinity : Nat
  delivery : Nat
  quantum : Nat
  slice : Nat
  deriving DecidableEq, Repr

def tuningOf (c : Cf) (t : Nat) (d : TaskDesc) : Tuning :=
  let u := fun off n => c.u 0x9200 1 (16 * t + off) n
  if d.tunable && u 15 1 = 1 then
    { base := u 0 1, ceil := u 1 1, affinity := u 2 1, delivery := u 3 1, quantum := u 4 4, slice := u 8 4 }
  else { base := d.base, ceil := d.ceil, affinity := d.affinity, delivery := d.delivery, quantum := d.quantum, slice := d.slice }

/-- The cores of a task's affinity that are in service, of its own cluster, plane and class (R389), none where the affinity names no
such core; when it names some and every one is out of service, every in-service general core of its plane in its cluster (R399).
The flag says which. -/
def State.coresOf (s : State) (d : TaskDesc) (aff : Nat) : Bool × List Nat :=
  let mine := (span (8 * d.cluster) (8 * d.cluster + 8))
  let inService := fun k => (s.core k).state ≤ 1
  let named := mine.filter (fun k => bit aff (k - 8 * d.cluster) && corePlane k = d.plane && coreGeneral k = d.tunable)
  let use_ := named.filter inService
  if !named.isEmpty && named.all (fun k => (s.core k).state = 2) then
    (true, mine.filter (fun k => inService k && coreGeneral k && corePlane k = d.plane))
  else (false, use_)

/-- The affinity bits of a list of cores. -/
def affinityBits (cores : List Nat) : Nat := cores.foldl (fun acc k => acc + 2 ^ (k % 8)) 0

/-- Ready tasks at a level. -/
def State.readyAt (s : State) (l : Nat) : List Nat :=
  (s.sched.tasks.filter (fun p => p.2.state = 1 && p.2.level = l)).map (·.1)

/-- Histogram bin of a wait in microseconds (R403). -/
def waitBin (w : Nat) : Nat := if w < 2 then 0 else min (Nat.log2 w) 23

def addHist (h : Table Nat) (b : Nat) : Table Nat := Table.modify h b 0 (fun n => satCount n 1)

/-- The level's high-water mark follows the number of ready tasks. -/
def noteReady (l : Nat) (s : State) : State :=
  let x := s.level l
  s.setLevel l { x with high := max x.high (s.readyAt l).length }

/-- Saturation of a 48-bit count of a status record: record kind 1 task, 2 core, 3 level (R402, R404). -/
def schedSat (old n kind record off : Nat) (s : State) : State :=
  satEvent old n (recKey (0x9000 + kind) record off) 0xC4 record (kind * 2 ^ 28 + off) s

/-- A bin of a waiting-time histogram of a core or level takes a wait; a saturated bin stays at all ones and is told (R402, R403). -/
def binSat (h : Table Nat) (b kind record : Nat) (s : State) : State := schedSat (Table.getD h b 0) 1 kind record (32 + 6 * b) s

/-- A core's busy time grows to `ns`; its 48-bit count of milliseconds saturates (R402). -/
def busySat (k old ns : Nat) (s : State) : State := schedSat (old / 1000000) (ns / 1000000 - old / 1000000) 2 k 20 s

/-- Task `t` starts on core `k` (R394): its wait is measured and counted. -/
def dispatch (t k : Nat) (s : State) : State :=
  let x := s.task t
  let c := s.core k
  let l := s.level x.level
  let w := (s.elapsed - x.readyAt) / 1000
  let slice := match Table.find s.sched.desc t with | some d => (tuningOf s.cf t d).slice | none => 0
  let s1 := s.setTask t { x with state := 2, core := k, startAt := s.elapsed, slice := slice, longest := max x.longest (satBits 32 w), dispatches := satCount x.dispatches 1 }
  let s2 := s1.setCore k { c with state := 1, task := t, startAt := s.elapsed, dispatches := satCount c.dispatches 1, hist := addHist c.hist (waitBin w) }
  let s2a := s2.setLevel x.level { l with dispatches := satCount l.dispatches 1, hist := addHist l.hist (waitBin w) }
  let s3 := { s2a with sched := { s2a.sched with turn := t } }
  binSat l.hist (waitBin w) 3 x.level (binSat c.hist (waitBin w) 2 k
    (schedSat l.dispatches 1 3 x.level 4 (schedSat c.dispatches 1 2 k 8 (schedSat x.dispatches 1 1 t 12 s3))))

/-- The task on core `k` stops: the core's busy time is counted and the core is idle. -/
def freeCore (k : Nat) (s : State) : State :=
  let c := s.core k
  if c.state = 1 then busySat k c.busy (c.busy + (s.elapsed - c.startAt)) (s.setCore k { c with state := 0, task := 0xFFFF, busy := c.busy + (s.elapsed - c.startAt) }) else s

/-- Among candidates, the task's last core when it is one of them, else the lowest-numbered (R394, R395). -/
def pickCore (last : Nat) (cores : List Nat) : Option Nat :=
  if cores.contains last then some last else cores.head?

/-- The running task whose effective level is lowest on some cores, below a level: its core (R395). -/
def State.victim (s : State) (last level : Nat) (cores : List Nat) : Option Nat :=
  let busy := cores.filter (fun k => (s.core k).state = 1)
  let lv := fun k => (s.task (s.core k).task).level
  match busy.map lv with
  | [] => none
  | h :: r =>
    let low := r.foldl min h
    if low < level then pickCore last (busy.filter (fun k => lv k = low)) else none

/-- The task running on a core is pre-empted: ready again, with its level and its ready time (R395). -/
def preempt (k : Nat) (s : State) : State :=
  let t := (s.core k).task
  let x := s.task t
  let s1 := (freeCore k s).setTask t { x with state := 1, levelAt := s.elapsed, preempted := satCount x.preempted 1 }
  let c := s1.core k
  let s2 := s1.setCore k { c with preempts := satCount c.preempts 1 }
  noteReady x.level (schedSat c.preempts 1 2 k 14 (schedSat x.preempted 1 1 t 18 s2))

/-- A ready task looks for a core: an idle one of its affinity, else a victim when it is pre-emptive; the victim, ready again, then
looks for one itself (R394, R395). Each victim stands at a lower level than the one before, so `n` of 17 is enough. -/
def placeIn (n t : Nat) (s : State) : State :=
  match n, Table.find s.sched.desc t with
  | k + 1, some d =>
    let tu := tuningOf s.cf t d
    let x := s.task t
    let cores := (s.coresOf d tu.affinity).2
    match pickCore x.core (cores.filter (fun k => (s.core k).state = 0)) with
    | some c => dispatch t c s
    | none =>
      if tu.delivery = 1 && !s.cop.bypass.contains 13 then
        match s.victim x.core x.level cores with
        | some c => placeIn k (s.core c).task (dispatch t c (preempt c s))
        | none => s
      else s
  | _, _ => s
def placeTask (t : Nat) (s : State) : State := placeIn 17 t s

/-- A task that is neither ready nor running stands ready from a moment, at its base level (R392, R396). -/
def makeReady (t at_ : Nat) (s : State) : State :=
  match Table.find s.sched.desc t with
  | none => s
  | some d =>
    let b := (tuningOf s.cf t d).base
    noteReady b (s.setTask t { s.task t with state := 1, level := b, readyAt := at_, levelAt := at_, activeAt := at_ })

/-- A task becomes ready and looks for a core. -/
def readyFrom (t at_ : Nat) (s : State) : State :=
  if (Table.find s.sched.desc t).isSome && (s.task t).state = 0 then placeTask t (makeReady t at_ s) else s
def taskReady (t : Nat) (s : State) : State := readyFrom t s.elapsed s

/-- Cores have left or returned, or affinities have changed: each task whose affinity is all out of service takes the fallback, told
once; a ready task whose cores are others now looks for one (R399; for a commit log entry 197). -/
def refreshAffinity (ts : List Nat) (s : State) : State :=
  each ts (fun t st =>
    match Table.find st.sched.desc t with
    | none => st
    | some d =>
      let x := st.task t
      let (fb, cores) := st.coresOf d (tuningOf st.cf t d).affinity
      let st1 := if fb = x.fallback then st else when fb (raise 0xC3 t (affinityBits cores)) (st.setTask t { x with fallback := fb })
      when (x.state = 1) (placeTask t) st1) s
/-- The tasks of a cluster. -/
def State.clusterTasks (s : State) (c : Nat) : List Nat := (s.sched.desc.filter (fun p => p.2.cluster = c)).map (·.1)

/-- The tasks a work queue feeds: hardware queue 249 + w feeds one (R390). -/
def State.taskOfQueue (s : State) (q : Nat) : Option Nat :=
  (s.sched.desc.find? (fun p => p.2.byQueue && p.2.wq = some (q - 249))).map (·.1)

/-- A producer pushes an item, with the data it refers to (R382); on a task queue the task it feeds becomes ready (R392). -/
def pushData (q : Nat) (item data : Bytes) (s : State) : State :=
  let (ok, s1) := enqueueData q item data s
  s.within [.events, .stats, .queues, .sched]
    (if ok && 249 ≤ q && q ≤ 504 then
      match s1.taskOfQueue q with
      | some t => taskReady t s1
      | none => s1
    else s1)

/-- A producer pushes an item that is all there is. -/
def push (q : Nat) (item : Bytes) (s : State) : State := pushData q item [] s

/-- The tasks an event activates become ready when it is delivered (R392). -/
def eventTasks (id : Nat) (s : State) : State :=
  each ((s.sched.desc.filter (fun p => p.2.byEvent && p.2.event = id)).map (·.1)) taskReady s

/-- The next of some tasks in a round by number. -/
def roundRobin (last : Nat) (ts : List Nat) : Option Nat :=
  let least := fun (xs : List Nat) => match xs with | [] => none | h :: r => some (r.foldl min h)
  (least (ts.filter (fun t => last < t))).orElse (fun _ => least ts)

/-- The first ready task a free core may take: the highest level, then ready time, then task number (R393, R394); by the
fixed round-robin dispatcher while the scheduler is by-passed (R491). -/
def State.nextFor (s : State) (k : Nat) : Option Nat :=
  let may := s.sched.tasks.filter (fun p => p.2.state = 1 &&
    (match Table.find s.sched.desc p.1 with
     | none => false
     | some d => (s.coresOf d (tuningOf s.cf p.1 d).affinity).2.contains k))
  if s.cop.bypass.contains 13 then roundRobin s.sched.turn (may.map (·.1))
  else match may with
  | [] => none
  | h :: r => some (r.foldl (fun (b : Nat × Task) p =>
      if b.2.level < p.2.level || (b.2.level = p.2.level && (p.2.readyAt < b.2.readyAt || (p.2.readyAt = b.2.readyAt && p.1 < b.1))) then p else b) h).1

/-- A core that has become free takes its next task (R394). -/
def refillCore (k : Nat) (s : State) : State :=
  if (s.core k).state = 0 then
    match s.nextFor k with
    | some t => dispatch t k s
    | none => s
  else s

/-- The running task of core `k` yields (R392): back to its base level, ready again at once when work is pending: its work queue holds
an item, or `more` says that it stopped amid its work. The core takes its next task; a yielder that is ready then looks for another
core, or for a victim (R394, R395). -/
def yieldCore (k : Nat) (more : Bool) (s : State) : State :=
  let c := s.core k
  if c.state = 1 then
    let t := c.task
    let x := s.task t
    let s1 := freeCore k s
    match Table.find s.sched.desc t with
    | none => refillCore k (s1.setTask t { x with state := 0 })
    | some d =>
      let b := (tuningOf s.cf t d).base
      let work := more || (match d.wq with
        | some w => d.byQueue && s.qlen (249 + w) != 0
        | none => false)
      let s2 := if work then noteReady b (s1.setTask t { x with state := 1, level := b, readyAt := s.elapsed, levelAt := s.elapsed })
        else s1.setTask t { x with state := 0, level := b }
      let s3 := refillCore k s2
      when ((s3.task t).state = 1) (placeTask t) s3
  else s

/-- TASK_PERIOD (R392): the period has elapsed since the task's previous activation. Ready or running, the task is not
activated a second time: a periodic overrun is counted, and the first since the last clear raises an event (R404). -/
def taskPeriod (t : Nat) (s : State) : State :=
  match Table.find s.sched.desc t with
  | none => s
  | some d =>
    let x := s.task t
    if d.byPeriod && x.activeAt + d.period * 1000 ≤ s.elapsed then
      if x.state = 0 then readyFrom t (x.activeAt + d.period * 1000) s
      else if x.state = 3 then s
      else
        let s1 := schedSat x.overruns 1 1 t 24 (s.setTask t { x with overrun := true, overruns := satCount x.overruns 1, activeAt := x.activeAt + d.period * 1000 })
        if x.overrun then s1 else raise 0xC2 t d.period s1
    else s
def execTaskPeriod (dt t : Nat) (s : State) : Host.Outcome State Fault Refusal := .next (s.act [.events, .stats, .sched] dt (taskPeriod t))

/-- TASK_YIELD (R392): a running task finds no more work; the core takes its next task (R394). -/
def execTaskYield (dt k : Nat) (s : State) : Host.Outcome State Fault Refusal := .next (s.act [.events, .stats, .sched] dt (yieldCore k false))

/-- SLICE_EXPIRE (R392): a running task has run for its slice, and yields with work still pending: one with none has yielded before
(log entry 214). -/
def sliceExpire (k : Nat) (s : State) : State :=
  let c := s.core k
  match Table.find s.sched.desc c.task with
  | none => s
  | some _ => if c.state = 1 && (s.task c.task).startAt + (s.task c.task).slice * 1000 ≤ s.elapsed then yieldCore k true s else s
def execSliceExpire (dt k : Nat) (s : State) : Host.Outcome State Fault Refusal := .next (s.act [.events, .stats, .sched] dt (sliceExpire k))

/-- TASK_AGE_RISE (R396): a ready task that has stood at its level for its aging quantum rises one level, up to its
ceiling, keeping its ready time; at level 15 it raises EV_SCHED_AGED_TOP (R404). A pre-emptive task looks for a victim. -/
def taskAgeRise (t : Nat) (s : State) : State :=
  match Table.find s.sched.desc t with
  | none => s
  | some d =>
    let x := s.task t
    let tu := tuningOf s.cf t d
    if x.state = 1 && x.level < tu.ceil && x.levelAt + tu.quantum * 1000 ≤ s.elapsed then
      let nl := x.level + 1
      let s1 := s.setTask t { x with level := nl, levelAt := x.levelAt + tu.quantum * 1000, top := x.top || nl = 15 }
      let lv := s1.level nl
      let s2 := schedSat lv.rises 1 3 nl 10 (s1.setLevel nl { lv with rises := satCount lv.rises 1 })
      let s3 := noteReady nl s2
      placeTask t (if nl = 15 then raise 0xC0 t (satBits 32 ((s.elapsed - x.readyAt) / 1000)) s3 else s3)
    else s
def execTaskAgeRise (dt t : Nat) (s : State) : Host.Outcome State Fault Refusal := .next (s.act [.events, .stats, .sched] dt (taskAgeRise t))

/-- CORE_LOAD_UPDATE (R402, R404): a second has passed since the last; the share of it in which the core ran a task. -/
def coreLoadUpdate (k : Nat) (s : State) : State :=
  let c := s.core k
  let busy := c.busy + (if c.state = 1 then s.elapsed - c.startAt else 0)
  let len := s.elapsed - c.markAt
  if k < 32 && 1000000000 ≤ len then
    let mine := busy - c.markBusy
    let load := mine * 1000 / len
    let keep := ((mine, len) :: c.loads).take 60
    let limit := s.cf.u 0x9000 4 0 2
    let c1 := { c with busy := busy, startAt := if c.state = 1 then s.elapsed else c.startAt, markBusy := busy, markAt := s.elapsed, loads := keep, load := load }
    let t := busySat k c.busy busy s
    if limit < load && !c.loadRaised then raise 0xC5 k load (t.setCore k { c1 with loadRaised := true })
    else if load + 100 ≤ limit then t.setCore k { c1 with loadRaised := false }
    else t.setCore k c1
  else s
def execCoreLoadUpdate (dt k : Nat) (s : State) : Host.Outcome State Fault Refusal := .next (s.act [.events, .stats, .sched] dt (coreLoadUpdate k))

/-- Clear histograms, longest waits and high-water marks, and the flags kept since the last clear (R401). A high-water mark takes the
present number of ready tasks (log entry 82). -/
def schedClear (s : State) : State :=
  { s with sched := { s.sched with
      tasks := Table.mapVals s.sched.tasks (fun x => { x with longest := 0, overrun := false, top := false }),
      cores := Table.mapVals s.sched.cores (fun c => { c with hist := [] }),
      levels := s.sched.levels.map (fun p => (p.1, { p.2 with hist := [], high := (s.readyAt p.1).length })) } }

/-- The cores that a tuning's affinity names in the task's cluster. -/
def affinityCores (d : TaskDesc) (tu : Tuning) : List Nat := (span (8 * d.cluster) (8 * d.cluster + 8)).filter (fun k => bit tu.affinity (k - 8 * d.cluster))

/-- W_t in µs, 0xFFFFFFFF for a ceiling below 15, and A_t of a task under the live tuning (R397). -/
def State.bound (s : State) (t : Nat) : Nat × Nat :=
  match Table.find s.sched.desc t with
  | none => (0xFFFFFFFF, 0)
  | some d =>
    let tu := tuningOf s.cf t d
    let others := (s.sched.desc.map (fun p => (p.1, p.2, tuningOf s.cf p.1 p.2))).filter (fun p => p.1 != t && (affinityCores p.2.1 p.2.2).any (fun k => (affinityCores d tu).contains k))
    let smax := others.foldl (fun m p => max m p.2.2.slice) tu.slice
    (if tu.ceil = 15 then satBits 32 ((15 - tu.base) * tu.quantum + (others.length + 1) * (smax + 3)) else 0xFFFFFFFF, satBits 16 others.length)

/-- A commit at T_c: of the tuning table where `tuned`, when a ready task keeps its ready time and takes the lower of its new
ceiling and its new base plus the quanta it has waited (R398); one that comes to stand at level 15 has reached it (R402). -/
def retune (tuned : Bool) (s : State) : State :=
  let s1 := each (if tuned then s.sched.desc else []) (fun p st =>
    let x := st.task p.1
    let tu := tuningOf st.cf p.1 p.2
    let nl := min tu.ceil (tu.base + (st.elapsed - x.readyAt) / (1000 * max tu.quantum 1))
    if x.state = 1 && nl != x.level then noteReady nl (st.setTask p.1 { x with level := nl, levelAt := st.elapsed, top := x.top || nl = 15 }) else st) s
  refreshAffinity (s.sched.desc.map (·.1)) s1

/-- A core leaves service, to a test or a fence (R399): its running task is ready again as though pre-empted. -/
def coreOut (k : Nat) (s : State) : State :=
  let c := s.core k
  if c.state = 1 then
    let t := c.task
    let s1 := preempt k s
    refreshAffinity (s.clusterTasks (k / 8)) (placeTask t (s1.setCore k { s1.core k with state := 2 }))
  else refreshAffinity (s.clusterTasks (k / 8)) (s.setCore k { c with state := 2 })

/-- A core returns to service and takes a task. -/
def coreIn (k : Nat) (s : State) : State :=
  if Table.getD s.rst.status (0x0F + k / 8) 0 != 0 then s.setCore k { s.core k with state := 3 }
  else refreshAffinity (s.clusterTasks (k / 8)) (refillCore k (s.setCore k { s.core k with state := 0 }))

/-- A cluster enters reset (R399): its running tasks end, and its tasks become neither ready nor running. -/
def clusterDown (c : Nat) (s : State) : State :=
  let s1 := each (span (8 * c) (8 * c + 8)) (fun k st => let f := freeCore k st; if (f.core k).state = 2 then f else f.setCore k { f.core k with state := 3 }) s
  each s1.sched.desc (fun p st => if p.2.cluster = c then st.setTask p.1 { st.task p.1 with state := 3, fallback := false } else st) s1

/-- The cluster's reset completes: every task whose work queue is not empty is ready, and its cores are free, each of which takes
one (R394, R399). -/
def clusterUp (c : Nat) (s : State) : State :=
  let s1 := each (span (8 * c) (8 * c + 8)) (fun k st => if (st.core k).state = 3 then st.setCore k { st.core k with state := 0 } else st) s
  let s2 := each s1.sched.desc (fun p st => if p.2.cluster = c then st.setTask p.1 { st.task p.1 with state := 0 } else st) s1
  let s3 := each s2.sched.desc (fun p st =>
    match p.2.wq with
    | some w => if p.2.cluster = c && p.2.byQueue && st.qlen (249 + w) != 0 then makeReady p.1 st.elapsed st else st
    | none => st) s2
  refreshAffinity (s.clusterTasks c) (each (span (8 * c) (8 * c + 8)) refillCore s3)

end Sys2Proof.Machine
end

