-- ==== Sys2Proof/Machine/Acq.lean ====
section
/-! DEFINITION. The trigger and acquisition engine (R308 to R330) with the trigger bus it drives (R359 to R361): digital
inputs, trigger units, record groups, records, measurements; and their commands. -/
namespace Sys2Proof.Machine
open Sys2Proof

/-! ## Channels as the engine sees them -/

/-- Samples per second of a rate code (R151). -/
def svRate (code : Nat) : Nat := match code with | 0 => 4000 | 1 => 4800 | 2 => 12800 | _ => 14400

/-- The valid sampled-value stream record that names a channel (R165). -/
def svOfChannel (c : Cf) (ch : Nat) : Option Nat :=
  (c.recs 0x4200 1 64).find? (fun r => bit (c.u 0x4200 1 (64 * r) 1) 0 && c.u 0x4200 1 (64 * r + 16) 2 ≤ ch &&
    ch < c.u 0x4200 1 (64 * r + 16) 2 + c.u 0x4200 1 (64 * r + 18) 1)

/-- The input rate of a channel; 0 when no valid stream record names it. -/
def inputRate (c : Cf) (ch : Nat) : Nat :=
  match svOfChannel c ch with
  | some r => svRate (c.u 0x4200 1 (64 * r + 1) 1)
  | none => 0

def chanValid (c : Cf) (ch : Nat) : Bool := bit (c.u 0x5100 1 (32 * ch) 1) 0

/-- Filtered values per second of a channel (R170). -/
def chanRate (c : Cf) (ch : Nat) : Nat := inputRate c ch / max 1 (c.u 0x5100 1 (32 * ch + 2) 1)

/-! ## Moments -/

def Tick.before (a b : Tick) : Bool := genLater b.gen a.gen || (a.gen = b.gen && decide (a.t8 < b.t8))
def Tick.upTo (a b : Tick) : Bool := genLater b.gen a.gen || (a.gen = b.gen && decide (a.t8 ≤ b.t8))
def stampTick (t : Stamp) : Tick := ⟨t.gen, 8 * t.ns⟩

/-- The elapsed time, in 1/8 ns, of a moment of internal time, across the steps since (R79, R100). -/
def State.elapsed8 (s : State) (t : Tick) : Nat :=
  let sum := fun (g : Gen) => Table.getD s.time.stepSums g.toNat 0
  let back : Int := 8 * (s.time.tai : Int) - ((t.t8 : Int) + 8 * (sum s.time.gen - sum t.gen))
  (8 * (s.time.elapsed : Int) - back).toNat

/-! ## The engine -/

/-- The steps between two generations, and whether the timebase still keeps the earlier sum (R100, R237). -/
def State.stepsFrom (s : State) (a b : Gen) : Option Int :=
  if 255 < (s.time.gen - a).toNat then none else some (Table.getD s.time.stepSums b.toNat 0 - Table.getD s.time.stepSums a.toNat 0)

/-- A stamp in the counting of another generation, where the timebase still knows the steps between (R100). -/
def State.inGen (s : State) (t : Stamp) (g : Gen) : Stamp :=
  match s.stepsFrom t.gen g with
  | some d => ⟨g, ((t.ns : Int) + d).toNat⟩
  | none => t

/-- A moment in the counting of another generation. -/
def State.tickIn (s : State) (t : Tick) (g : Gen) : Tick :=
  match s.stepsFrom t.gen g with
  | some d => ⟨g, ((t.t8 : Int) + 8 * d).toNat⟩
  | none => t

/-- The engine runs: present, in OPERATE or DEGRADED, not in reset (R308, R309, R70). -/
def State.acqRuns (s : State) : Bool := s.hasAcq && s.mode.cur.full && Table.getD s.rst.status 0x0D 0 = 0

def State.din (s : State) (d : Nat) : Din := Table.getD s.acq.din d {}
def State.setDin (s : State) (d : Nat) (x : Din) : State := { s with acq := { s.acq with din := Table.set s.acq.din d x {} } }
def State.grp (s : State) (g : Nat) : GroupA := Table.getD s.acq.group g {}
def State.setGrp (s : State) (g : Nat) (x : GroupA) : State := { s with acq := { s.acq with group := Table.set s.acq.group g x {} } }
def State.unit (s : State) (u : Nat) : UnitT := Table.getD s.acq.unit u {}
def State.setUnit (s : State) (u : Nat) (x : UnitT) : State := { s with acq := { s.acq with unit := Table.set s.acq.unit u x {} } }
def State.rdr (s : State) (r : Nat) : Reader := Table.getD s.acq.reader r {}
def State.setRdr (s : State) (r : Nat) (x : Reader) : State := { s with acq := { s.acq with reader := Table.set s.acq.reader r x {} } }
def State.line (s : State) (l : Nat) : Line := Table.getD s.bus.line l {}
def State.setLine (s : State) (l : Nat) (x : Line) : State := { s with bus := { s.bus with line := Table.set s.bus.line l x {} } }

def dinInvert (c : Cf) (d : Nat) : Bool := bit (c.u 0x8300 1 (8 * d) 1) 1

/-- The level of an input at a time: after the last surviving edge at or before it (R312), after the invert bit. Before
any edge the ball is taken as low (log entry 20). -/
def State.dinAt (s : State) (t : Tick) (d : Nat) : Bool :=
  match s.acq.edges.find? (fun e => e.din = d && e.at_.upTo t) with
  | some e => e.level
  | none => dinInvert s.cf d

/-- The levels of DIN0 to DIN15 at a time, bit d for DINd. -/
def State.dinLevels (s : State) (t : Tick) : Nat := flagsOf ((List.range 16).map (s.dinAt t))

/-! ## Record groups (R313, R314) -/

def groupValid (c : Cf) (g : Nat) : Bool := bit (c.u 0x8100 1 (80 * g) 1) 0
def groupChans (c : Cf) (g : Nat) : List Nat := (List.range (c.u 0x8100 1 (80 * g + 1) 1)).map (fun i => c.u 0x8100 1 (80 * g + 16 + 2 * i) 2)
def groupPre (c : Cf) (g : Nat) : Nat := c.u 0x8100 1 (80 * g + 4) 4
def groupPost (c : Cf) (g : Nat) : Nat := c.u 0x8100 1 (80 * g + 8) 4
/-- F_a (R313). -/
def groupRate (c : Cf) (g : Nat) : Nat := match groupChans c g with | [] => 0 | ch :: _ => chanRate c ch

def roundUp64 (n : Nat) : Nat := (n + 63) / 64 * 64
/-- S (R314). -/
def groupSize (c : Cf) (g : Nat) : Nat :=
  let n := c.u 0x8100 1 (80 * g + 1) 1
  roundUp64 (128 + 256 + 48 * n + (groupPre c g + groupPost c g) * (4 + 4 * n) + 4096)

/-! ## Measurements (R328) -/

/-- The crossings of a level, rising or falling, placed by R318 with H = 0, in 1/8 ns. -/
def crossings (up : Bool) (level : F64) (ys : List (Nat × F64)) : List Nat :=
  match ys with
  | (t0, y0) :: (t1, y1) :: r =>
    let rest := crossings up level ((t1, y1) :: r)
    let hit := if up then f64le y0 level && f64lt level y1 else f64le level y0 && f64lt y1 level
    if hit then
      let a := if up then Num.add (n64 level) (Num.neg (n64 y0)) else Num.add (n64 y0) (Num.neg (n64 level))
      let b := if up then Num.add (n64 y1) (Num.neg (n64 y0)) else Num.add (n64 y0) (Num.neg (n64 y1))
      let k := Num.scaled 256 a b
      (8 * (t0 : Int) + nearestEven (8 * k * ((t1 : Int) - t0)) 256).toNat :: rest
    else rest
  | _ => []

def f64mean (xs : List F64) : F64 := f64div (f64sum xs) (f64ofInt xs.length)
def f64least (xs : List F64) : F64 := match xs with | [] => nan64 | h :: r => r.foldl f64min h
def f64most (xs : List F64) : F64 := match xs with | [] => nan64 | h :: r => r.foldl f64max h

/-- Of some times the one nearest to a given time, the earlier of two. -/
def nearestTo (t : Nat) (xs : List Nat) : Option Nat :=
  match xs with
  | [] => none
  | h :: r => some (r.foldl (fun (b x : Nat) => if ((x : Int) - t).natAbs < ((b : Int) - t).natAbs then x else b) h)

/-- One channel table entry of a record (R328): channel `ch`, the `i`-th of its rows. -/
def measure (rows : List Row) (trow : Row) (npost i ch : Nat) : Bytes :=
  let all := rows.map (fun r => (r, r.vals.getD i (0#32, 1#16, 0#16)))
  let conds := all.foldl (fun a p => a ||| p.2.2.1) 0#16
  let good := all.filter (fun p => !p.2.2.1.getLsbD 0)
  let ys := good.map (fun p => (p.1, f64of32 p.2.1))
  let v := ys.map (·.2)
  let lo := f64least v
  let hi := f64most v
  let pre := (ys.filter (fun p => p.1.no < trow.no)).map (·.2)
  let post := (ys.filter (fun p => trow.no ≤ p.1.no)).map (·.2)
  let base := if pre.isEmpty then lo else f64mean pre
  let k := (npost + 3) / 4
  let top := f64mean (v.drop (v.length - k))
  let seq := ys.map (fun p => (p.1.at_.ns, p.2))
  let ups := crossings true (f64mean v) seq
  let n := ups.length
  let first := ups.headD 0
  let last := ups.getLastD 0
  let hasPeriod := 2 ≤ n
  let period := if hasPeriod then f64ratio ((last : Int) - first) (8000000000 * (n - 1)) else nan64
  let above := if hasPeriod then (seq.filter (fun p => first ≤ 8 * p.1 && 8 * p.1 ≤ last)).map (·.2) else v
  let rms := f64sqrt (f64mean (above.map (fun y => f64mul y y)))
  let delta := f64sub top base
  let flat := f64le (f64abs delta) 0#64 || !f64finite delta
  let up := f64lt 0#64 delta
  let lvl := fun (num : Int) => crossings up (f64add base (f64mul (f64ratio num 10) delta)) seq
  let t50 := if flat then none else nearestTo (8 * trow.at_.ns) (lvl 5)
  let rise := match t50 with
    | none => none
    | some t =>
      match ((lvl 1).filter (· ≤ t)).getLast?, ((lvl 9).filter (t ≤ ·)).head? with
      | some a, some b => some (f64ratio ((b : Int) - a) 8000000000)
      | _, _ => none
  let peak := if up then f64most post else f64least post
  let overshoot := if flat || post.isEmpty then nan64 else f64div (f64mul (f64ofInt 100) (f64sub peak top)) delta
  let w := fun (x : F64) => toBE 4 (f32of64 x).toNat
  let fl := flagsOf [good.length < all.length, !hasPeriod, !hasPeriod, rise.isNone, !f64finite overshoot]
  toBE 2 ch ++ toBE 2 conds.toNat ++ w lo ++ w hi ++ w (f64div (f64sub hi lo) (f64ofInt 2)) ++ w rms ++ w period ++
    w (rise.getD nan64) ++ w overshoot ++ w base ++ w top ++ toBE 2 fl ++ zeros 6

/-! ## Records (R322 to R330) -/

/-- The edges of a record: inputs of the capture mask, within the rows' time span, oldest first (R327). -/
def State.edgesFor (s : State) (mask : Nat) (rows : List Row) : List DinEdge :=
  match rows.head?, rows.getLast? with
  | some a, some b => (s.acq.edges.filter (fun e => bit mask e.din && (stampTick a.at_).upTo e.at_ && e.at_.upTo (stampTick b.at_))).reverse
  | _, _ => []

/-- Replace a stored record. -/
def setRec (r : Rec) (s : State) : State :=
  { s with acq := { s.acq with recs := s.acq.recs.map (fun x => if x.seq = r.seq && x.group = r.group then r else x) } }

/-- The record of a group in capture. -/
def State.capture (s : State) (g : Nat) : Option Rec := s.acq.recs.find? (fun r => r.group = g && !r.captured)

/-- A sequence is at or after another (R431). -/
def seqFrom (a b : Seq) : Bool := a = b || seqLater a b

/-- The oldest sequence stored; when nothing is, the one the next record will have: the oldest reserved for waiting triggers, or
the next number. -/
def State.oldestSeq (s : State) : Seq :=
  match s.acq.recs with
  | r :: _ => r.seq
  | [] => ((List.range 16).filterMap (fun g => (s.grp g).seq)).foldl (fun a q => if seqLater a q then q else a) s.acq.nextSeq

/-- Records have lost their space: what each reader is told (R332, R333). -/
def loseRecords (lost : List Seq) (s : State) : State :=
  each (List.range 8) (fun r st =>
    let x := st.rdr r
    let mine := lost.filter (fun q => seqFrom q x.cur)
    let st1 := match mine.head?, mine.getLast? with
      | some a, some b =>
        let had := bit x.flags 0
        let y := { x with cur := st.oldestSeq, lost := satCount x.lost mine.length, first := if had then x.first else a, last := b,
                          flags := if had then x.flags else x.flags + 1 }
        let t := satEvent x.lost mine.length (recKey 0x8410 r 5) 0x96 0 5 (st.setRdr r y)
        if had then t else raise 0x92 r a.toNat t
      | _, _ => st
    let y := st1.rdr r
    if lost.contains y.mark && !bit y.flags 1 then raise 0x93 r y.mark.toNat (st1.setRdr r { y with flags := y.flags + 2 }) else st1) s

/-- Where a record of `size` bytes goes from `off` on (R330): at the start of the area when it would run past the end, and behind
a record not yet closed that is in its way; `n` bounds the tries, as at most 16 groups have such records in half the area. -/
def findRoom (recs : List Rec) (area size off n : Nat) : Nat :=
  match n with
  | 0 => off
  | k + 1 =>
    if area < off + size then findRoom recs area size 0 k
    else match recs.find? (fun r => !r.closed && decide (r.off < off + size ∧ off < r.off + r.size)) with
      | some r => findRoom recs area size (r.off + r.size) k
      | none => off

/-- The closed records whose space a record at an offset takes (R330): those it overlaps, and every older one, as space is taken
from the oldest. -/
def takenBy (recs : List Rec) (off size : Nat) : List Rec :=
  match recs with
  | [] => []
  | r :: rest =>
    let more := takenBy rest off size
    if r.closed && (!more.isEmpty || decide (r.off < off + size ∧ off < r.off + r.size)) then r :: more else more

/-- Room for a record (R330): its offset, the records whose space it takes, and the state without them. -/
def placeRecord (size : Nat) (s : State) : Nat × List Seq × State :=
  let off := findRoom s.acq.recs (s.cf.u 0x8000 2 0 2 * 1048576) size s.acq.writeAt 64
  let gone := (takenBy s.acq.recs off size).map (·.seq)
  (off, gone, countN 0x8080 6 gone.length { s with acq := { s.acq with recs := s.acq.recs.filter (fun r => !gone.contains r.seq), writeAt := off + size } })

/-- A captured record closes: measurements, edge list, closing mark (R328, R329). -/
def closeRecord (r : Rec) (s : State) : State :=
  let edges := s.edgesFor r.mask r.rows
  let table := ((List.range r.chans.length).map (fun i => measure r.rows r.trow r.npost i (r.chans.getD i 0))).flatten
  let y := { r with captured := true, closed := true, table := table, edges := edges.take 256, flags := r.flags + (if 256 < edges.length then 8 else 0) }
  let s1 := setRec y s
  let closes := s.elapsed :: s.acq.closes.filter (fun t => s.elapsed < t + 60000000000)
  let newest := if s.acq.recs.any (fun x => x.closed && seqLater x.seq r.seq) then s.acq.newest else r.seq
  raise 0x91 r.group r.seq.toNat (count 0x8080 2 { s1 with acq := { s1.acq with newest := newest, closes := closes } })

/-- A record in capture closes as truncated (R325). The group leaves capture for a state the caller sets. -/
def truncateCapture (g : Nat) (s : State) : State :=
  match s.capture g with
  | none => s
  | some r =>
    let s1 := closeRecord { r with flags := if bit r.flags 0 then r.flags else r.flags + 1 } s
    let x := s1.grp g
    raise 0x95 g r.seq.toNat (count 0x8080 5 (s1.setGrp g { x with state := 3, off := false, lastRow := some ((r.rows.getLast?.map (·.no)).getD r.trow.no) }))

/-- Triggers that still wait for their row make no record, and a disarming that waits for that record goes with them. -/
def dropPending (g : Nat) (s : State) : State :=
  let x := s.grp g
  countN 0x8080 3 x.pend.length (s.setGrp g { x with pend := [], seq := none, off := false })

/-- The first row of a group at or after a time (R322). -/
def GroupA.rowFor (x : GroupA) (t : Tick) : Option Row := (x.ring.reverse).find? (fun r => t.upTo (stampTick r.at_))

/-- List a trigger in a record in capture (R322, R323), when its row is within the record's rows; a row not yet written comes as
many row times after the newest one as it has rows to go, in that one's counting of time (R326). The answer says whether it was. -/
def listTrigger (s : State) (x : GroupA) (r : Rec) (t : Trig) : Option Rec :=
  let newest := x.ring.headD r.trow
  let within := match x.rowFor t.at_ with
    | some row => decide ((r.rows.headD r.trow).no ≤ row.no ∧ row.no < r.trow.no + r.npost)
    | none => decide ((s.tickIn t.at_ newest.at_.gen).t8 ≤ 8 * newest.at_.ns + (r.trow.no + r.npost - 1 - newest.no) * 8000000000 / max 1 r.rate)
  let onRow := match x.rowFor t.at_ with | some row => row.no = r.trow.no | none => false
  let cause := if onRow && !bit r.cause t.unit then r.cause + 2 ^ t.unit else r.cause
  if !within then none
  else if r.trigs.length < 8 then some { r with trigs := r.trigs ++ [t], cause := cause }
  else some { r with flags := if bit r.flags 2 then r.flags else r.flags + 4, cause := cause }

/-- Apply the listing rule to the record in capture: its sequence, when the trigger belongs to it. -/
def joinCapture (g : Nat) (t : Trig) (s : State) : Option Seq × State :=
  match s.capture g with
  | none => (none, count 0x8080 3 s)
  | some r =>
    match listTrigger s (s.grp g) r t with
    | none => (none, count 0x8080 3 s)
    | some r' => (some r.seq, when (r'.trigs.length = r.trigs.length) (count 0x8080 4) (setRec r' s))

/-- The last row of a record is written: the group is armed again, or disarmed (R322). -/
def captureEnd (g : Nat) (s : State) : State :=
  match s.capture g with
  | none => s
  | some r =>
    let x := s.grp g
    let next := if bit (s.cf.u 0x8100 1 (80 * g) 1) 1 || x.off then 3 else 1
    setRec { r with captured := true } (s.setGrp g { x with state := next, off := false, lastRow := some (r.trow.no + r.npost - 1) })

/-- A record takes its place in the order of sequences. -/
def storeRecord (r : Rec) (s : State) : State :=
  let later := fun (x : Rec) => seqLater x.seq r.seq
  { s with acq := { s.acq with recs := s.acq.recs.filter (fun x => !later x) ++ [r] ++ s.acq.recs.filter later } }

/-- RECORD_OPEN (R322, R324): the trigger row of the oldest waiting trigger of an armed group is in the ring. -/
def openRecord (g : Nat) (s : State) : State :=
  let x := s.grp g
  match x.pend, x.seq with
  | t :: rest, some q =>
    match x.rowFor t.at_ with
    | none => s
    | some trow =>
      if x.state = 1 && s.acqRuns then
        let c := s.cf
        let want := trow.no - groupPre c g
        let start1 := match x.lastRow with | some l => max want (l + 1) | none => want
        let oldest := (x.ring.getLast?.map (·.no)).getD trow.no
        let start := max start1 oldest
        let short := want < start || trow.no < groupPre c g
        let npost := groupPost c g
        let rows := (x.ring.filter (fun r => decide (start ≤ r.no ∧ r.no < trow.no + npost))).reverse
        let size := groupSize c g
        let (off, gone, s1) := placeRecord size s
        let r : Rec := { seq := q, group := g, flags := if short then 2 else 0, cause := 0, trow := trow, rate := groupRate c g, npost := npost,
                         chans := groupChans c g, mask := c.u 0x8100 1 (80 * g + 2) 2, trigs := [], rows := rows, edges := [],
                         cfgGen := (s.cfFor trow.at_).2, size := size, off := off }
        let s2 := loseRecords gone (storeRecord r s1)
        let s3 := count 0x8080 1 (s2.setGrp g { x with state := 2, pend := [], seq := none })
        let s4 := each (t :: rest) (fun u st => (joinCapture g u st).2) s3
        when (rows.any (fun r => r.no + 1 = trow.no + npost)) (captureEnd g) s4
      else s
  | _, _ => s
def execRecordOpen (dt g : Nat) (s : State) : Host.Outcome State Fault Refusal := .next (s.act [.events, .stats, .acq, .reader] dt (openRecord g))

/-- RECORD_CLOSE (R329): the oldest captured record of a group gets its measurements and its closing mark. -/
def recordClose (g : Nat) (s : State) : State :=
  match s.acq.recs.find? (fun r => r.group = g && r.captured && !r.closed) with
  | some r => closeRecord r s
  | none => s
def execRecordClose (dt g : Nat) (s : State) : Host.Outcome State Fault Refusal := .next (s.act [.events, .stats, .acq] dt (recordClose g))

/-- ROW_WRITE (R315): a row enters the group's ring and the record that takes it. -/
def writeRow (g : Nat) (at_ : Stamp) (vals : List (F32 × Cond × Qual)) (s : State) : State :=
  let x := s.grp g
  let row : Row := { no := x.next, at_ := at_, levels := s.dinLevels (stampTick at_), vals := vals }
  let s1 := s.setGrp g { x with ring := (row :: x.ring).take 131072, next := x.next + 1, part := x.part.filter (fun p => Stamp.before at_ p.1) }
  match s1.capture g with
  | none => s1
  | some r =>
    let s2 := setRec { r with rows := r.rows ++ [row] } s1
    when (row.no + 1 = r.trow.no + r.npost) (captureEnd g) s2

/-- The channels of a group and their rate: what its ring holds (R315). -/
def groupRing (c : Cf) (g : Nat) : Bool × List Nat × Nat := (groupValid c g, groupChans c g, groupRate c g)

/-- A filtered value reaches the engine: it joins the row of its instant in every group that takes its channel; a row
whose channels are all there is written. Rows left incomplete by a later one are dropped (log entry 21). A group that a commit
changes takes no value of an instant before T_c any more, and values from T_c on when the commit is in effect (R17, R315). -/
def acqValue (ch : Nat) (at_ : Stamp) (v : F32) (cond : Cond) (q : Qual) (s0 : State) : State :=
  let c := (s0.cfFor at_).1
  let moved := (List.range 16).any (fun g => groupRing c g != groupRing s0.cf g && (groupRing c g).2.1.contains ch)
  let s := if moved && !Stamp.before at_ s0.cfg.from_ then { s0 with acq := { s0.acq with early := s0.acq.early ++ [(ch, at_, v, cond, q)] } } else s0
  if s.acqRuns then
    each ((List.range 16).filter (fun g => groupRing c g = groupRing s.cf g && groupValid s.cf g && (groupChans s.cf g).contains ch && !s.fenced 8 (g / 4))) (fun g st =>
      let x := st.grp g
      let chans := groupChans st.cf g
      let mine := ((List.range chans.length).filter (fun i => chans.getD i 0xFFFF = ch)).map (fun i => (i, v, cond, q))
      let cells := (((x.part.find? (fun p => p.1 = at_)).map (·.2)).getD []) ++ mine
      if chans.length ≤ cells.length then
        let full := (List.range chans.length).map (fun i => ((cells.find? (fun p => p.1 = i)).map (·.2)).getD (0#32, 1#16, 0#16))
        writeRow g at_ full st
      else st.setGrp g { x with part := x.part.filter (fun p => p.1 != at_) ++ [(at_, cells)] }) s
  else s

/-! ## The trigger bus (R359) -/

/-- The role of the device (R340). -/
def State.hrRole (s : State) : Nat := s.cf.u 0xE000 1 0 1

/-- A drive merges into a line; the rising edge it emits, if any. Times in 1/8 ns. -/
def mergeDrive (l : Nat) (r n8 : Nat) (s : State) : Option LineEdge × State :=
  let x := s.line l
  if x.level then (none, count 0xE080 7 (s.setLine l { x with fall := max x.fall (r + n8) }))
  else
    let r1 := max r (x.last + 8)
    let e : LineEdge := ⟨l, true, ⟨s.time.gen, r1⟩⟩
    let s1 := s.setLine l { x with level := true, fall := max (r + n8) (r1 + 8) }
    (some e, if s.hrRole = 2 then { s1 with bus := { s1.bus with out := s1.bus.out ++ [e] } } else s1)

/-- A firing drives a line: a registered worker's drive goes up, any other's merges here. -/
def driveLine (l : Nat) (t : Tick) (s : State) : Option LineEdge × State :=
  if s.bus.remote then (none, { s with bus := { s.bus with drives := s.bus.drives ++ [(l, t)] } })
  else mergeDrive l t.t8 (8 * s.cf.u 0xE000 7 0 4) s

/-! ## Trigger units (R316 to R321) -/

structure UnitCf where
  flags : Nat
  group : Nat
  src   : Nat
  kind  : Nat
  num   : Nat
  ag    : Nat
  pol   : Nat
  width : Nat
  line  : Nat
  gmask : Nat
  gpat  : Nat
  hi    : F32
  lo    : F32
  hyst  : F32
  t1    : Nat
  t2    : Nat
  hold  : Nat
  deriving DecidableEq, Repr

def unitCf (c : Cf) (n : Nat) : UnitCf :=
  let u := fun off k => c.u 0x8200 1 (48 * n + off) k
  { flags := u 0 1, group := u 1 1, src := u 2 1, kind := u 3 1, num := u 4 2, ag := u 6 1, pol := u 7 1, width := u 8 1, line := u 9 1,
    gmask := u 10 2, gpat := u 12 2, hi := BitVec.ofNat 32 (u 16 4), lo := BitVec.ofNat 32 (u 20 4), hyst := BitVec.ofNat 32 (u 24 4),
    t1 := u 28 4, t2 := u 32 4, hold := u 36 4 }

/-- The valid units of a source, ascending; none takes a line that it drives itself (R321). -/
def unitsOf (c : Cf) (src num : Nat) : List (Nat × UnitCf) :=
  (((c.recs 0x8200 1 48).insertionSort (· ≤ ·)).map (fun n => (n, unitCf c n))).filter (fun (_, u) =>
    bit u.flags 0 && u.src = src && u.num = num && !(src = 5 && bit u.flags 3 && u.line = num))

/-- The units that test what a source gives at a moment: those whose record the configuration of that moment has too (R17). -/
def State.unitsAt (s : State) (src num : Nat) (t : Stamp) : List (Nat × UnitCf) :=
  let c := (s.cfFor t).1
  (unitsOf s.cf src num).filter (fun (n, u) => unitCf c n = u)

/-- The width qualifier holds for W in 1/8 ns (R319). -/
def widthOk (u : UnitCf) (w8 : Nat) : Bool :=
  match u.width with
  | 0 => true
  | 1 => w8 < 8 * u.t1
  | 2 => 8 * u.t1 < w8
  | 3 => 8 * u.t1 ≤ w8 && w8 ≤ 8 * u.t2
  | _ => w8 < 8 * u.t1 || 8 * u.t2 < w8

/-- A crossing: of L_lo or of L_hi, upward or downward, and when. -/
structure Crossing where
  lo  : Bool
  up  : Bool
  at_ : Tick

/-- What one crossing does to a pattern in progress (R319): the pattern after, and the trigger time and W of a completed one. `up` is
the direction the form begins with. Durations are measured on the elapsed-time counter, where `el` places a moment (R79). -/
def patCross (el : Tick → Nat) (u : UnitCf) (up : Bool) (p : List Tick) (e : Crossing) : List Tick × List (Tick × Nat) :=
  let ends := match p with
    | t0 :: _ => (([] : List Tick), if widthOk u (el e.at_ - el t0) then [(e.at_, el e.at_ - el t0)] else [])
    | [] => ([], [])
  match u.kind, e.lo, e.up == up with
  | 0, false, true => ([], [(e.at_, 0)])
  | 1, false, true | 2, true, true | 4, true, true => ([e.at_], [])
  | 2, false, true | 4, true, false => ([], [])
  | 1, false, false | 2, true, false | 4, false, true => ends
  | 3, false, true => (p ++ [{ e.at_ with t8 := e.at_.t8 + 8 * u.t1 }], [])
  | 3, false, false => ([], (p.filter (fun t => decide (el t ≤ el e.at_))).map (fun t => (t, 0)))
  | _, _, _ => (p, [])

/-- What one form of a unit does in one step (R319): the crossings in the order of their times, then the timeouts that are due. -/
def patStep (el : Tick → Nat) (u : UnitCf) (up : Bool) (p : List Tick) (es : List Crossing) (now : Tick) : List Tick × List (Tick × Nat) :=
  let (q, f) := es.foldl (fun (q, f) e => let (q', f') := patCross el u up q e; (q', f ++ f')) (p, [])
  let due := fun (t : Tick) => decide (el t ≤ el now)
  if u.kind = 3 then (q.filter (fun t => !due t), f ++ (q.filter due).map (fun t => (t, 0))) else (q, f)

/-- The two forms of a unit in one step: its state after, and what completed. A rising value crosses L_lo before L_hi, a falling one
L_hi before L_lo. -/
def unitStep (n : Nat) (u : UnitCf) (x : UnitT) (loU hiU loD hiD : Option Tick) (now : Tick) (v : F32) (s : State) : List (Nat × UnitCf × Trig) × State :=
  let es := loU.toList.map (⟨true, true, ·⟩) ++ hiU.toList.map (⟨false, true, ·⟩) ++ hiD.toList.map (⟨false, false, ·⟩) ++ loD.toList.map (⟨true, false, ·⟩)
  let mk : List (Tick × Nat) → List (Nat × UnitCf × Trig) := fun f =>
    f.map (fun (t, w) => (n, u, { unit := n, kind := u.kind, src := u.src, gate := bit u.flags 2, at_ := t, w8 := w, val := v }))
  let (p, f) := if u.pol = 1 then ([], []) else patStep s.elapsed8 u true x.pos es now
  let (q, g) := if u.pol = 0 then ([], []) else patStep s.elapsed8 u false x.neg es now
  let due := fun (t : List Tick) => match t with | t :: _ => if u.kind = 3 then (s.elapsed8 t + 7) / 8 else 0 | [] => 0
  (mk f ++ mk g, s.setUnit n { x with pos := p, neg := q, posDue := due p, negDue := due q })

/-- A crossing of level L by two successive values (R318): its position, in 1/8 ns. -/
def crossAt (l : F32) (t0 : Stamp) (y0 : F32) (t1 : Stamp) (y1 : F32) : Tick :=
  let up := Num.lt (n32 y0) (n32 y1)
  let a := if up then Num.add (n32 l) (Num.neg (n32 y0)) else Num.add (n32 y0) (Num.neg (n32 l))
  let b := if up then Num.add (n32 y1) (Num.neg (n32 y0)) else Num.add (n32 y0) (Num.neg (n32 y1))
  let k := Num.scaled 256 a b
  ⟨t1.gen, (8 * (t0.ns : Int) + nearestEven (8 * k * ((t1.ns : Int) - t0.ns)) 256).toNat⟩

/-- What a value does to the tracker of one level (R318): the tracker after, and the crossings up and down. -/
def crossStep (l h : F32) (x : Cross) (t0 : Stamp) (y0 : F32) (t1 : Stamp) (y1 : F32) : Cross × Option Tick × Option Tick :=
  let up := x.up && f32lt l y1
  let dn := x.dn && f32lt y1 l
  let below := Num.le (n32 y1) (Num.add (n32 l) (Num.neg (n32 h)))
  let above := Num.le (Num.add (n32 l) (n32 h)) (n32 y1)
  ({ up := (x.up && !up) || below, dn := (x.dn && !dn) || above }, (if up then some (crossAt l t0 y0 t1 y1) else none), (if dn then some (crossAt l t0 y0 t1 y1) else none))

/-- A value of a sampled source at a unit (R318): tested, or, with condition bit 0, clearing every pattern. -/
def unitValue (n : Nat) (u : UnitCf) (at_ : Stamp) (y : F32) (cond : Cond) (s : State) : List (Nat × UnitCf × Trig) × State :=
  let x := s.unit n
  if cond.getLsbD 0 then ([], s.setUnit n { fired := x.fired })
  else
    let v := if bit u.flags 1 then f32abs y else y
    let (t0, y0, h, l) := match x.prev with | some (t, w) => (s.inGen t at_.gen, w, x.hi, x.lo) | none => (at_, v, {}, {})
    let (hi, hu, hd) := crossStep u.hi u.hyst h t0 y0 at_ v
    let (lo, lu, ld) := crossStep u.lo u.hyst l t0 y0 at_ v
    unitStep n u { x with prev := some (at_, v), hi := hi, lo := lo } lu hu ld hd (stampTick at_) y s

/-- A trigger reaches its group (R322): the sequence of the record it belongs to, if any. -/
def groupTrigger (g : Nat) (t : Trig) (s : State) : Option Seq × State :=
  let x := s.grp g
  match x.state with
  | 1 =>
    match x.seq with
    | some q => (some q, s.setGrp g { x with pend := x.pend ++ [t] })
    | none =>
      let late := match x.rowFor t.at_, x.lastRow with | some r, some l => decide (r.no ≤ l) | _, _ => false
      if late then (none, count 0x8080 3 s)
      else
        let q := s.acq.nextSeq
        let s1 := s.setGrp g { x with pend := [t], seq := some q }
        (some q, { s1 with acq := { s1.acq with nextSeq := q + 1#32 } })
  | 2 => joinCapture g t s
  | _ => (none, count 0x8080 3 s)

/-- A completed pattern fires, unless its gate or its holdoff stops it (R320): the line it drives, the trigger, the event. -/
def fire (n : Nat) (u : UnitCf) (t : Trig) (s : State) : Option LineEdge × State :=
  let gateOk := !bit u.flags 2 || (s.dinLevels t.at_).land u.gmask = u.gpat
  let e8 := s.elapsed8 t.at_
  let held := match (s.unit n).fired with | some f => decide (f ≤ e8 ∧ e8 < f + 8000 * u.hold) | none => false
  if !gateOk || held then (none, s)
  else
    let s1 := s.setUnit n { s.unit n with fired := some e8 }
    let (edge, s2) := if bit u.flags 3 then driveLine u.line t.at_ s1 else (none, s1)
    let (q, s3) := groupTrigger u.group t s2
    (edge, raise 0x90 n (u.group * 2 ^ 24 + (match q with | some q => q.toNat % 2 ^ 24 | none => 0xFFFFFF)) s3)

/-- Firings of one decision, in group order, then unit order (R324). -/
def byGroup (fs : List (Nat × UnitCf × Trig)) : List (Nat × UnitCf × Trig) :=
  ((List.range 256).map (fun g => fs.filter (fun (_, u, _) => u.group = g))).flatten

/-- An edge of a digital source (R317): an edge to level 1 is an upward crossing. -/
def digitalEdge (src num : Nat) (level : Bool) (t : Tick) (s : State) : List (Nat × UnitCf × Trig) × State :=
  (s.unitsAt src num ⟨t.gen, t.t8 / 8⟩).foldl (fun (acc, st) (n, u) =>
    let (f, st1) := unitStep n u (st.unit n) none (if level then some t else none) none (if level then none else some t) t nan32 st
    (acc ++ f, st1)) ([], s)

/-- What a decision brings about: the firings, then the line edges they emit, which are decisions of their own. At most
16 lines can rise in one step, so `n` of 17 is enough. -/
def decideAll (n : Nat) (fs : List (Nat × UnitCf × Trig)) (s : State) : State :=
  match n with
  | 0 => s
  | k + 1 =>
    let (edges, s1) := (byGroup fs).foldl (fun (acc, st) (m, u, t) =>
      let (e, st1) := fire m u t st
      (acc ++ e.toList, st1)) (([], s) : List LineEdge × State)
    match edges with
    | [] => s1
    | _ =>
      let (more, s2) := edges.foldl (fun (acc, st) e => let (f, st1) := digitalEdge 5 e.line e.level e.at_ st; (acc ++ f, st1)) (([], s1) : List (Nat × UnitCf × Trig) × State)
      decideAll k more s2

/-- An edge of an input or a line reaches the trigger units. -/
def edgeToUnits (src num : Nat) (level : Bool) (t : Tick) (s : State) : State :=
  if s.acqRuns then let (f, s1) := digitalEdge src num level t s; s.within [.events, .stats, .acq, .bus] (decideAll 17 f s1) else s

/-- A value of a channel (source kind 1) or of a slot (kind 2, alignment group `ag`) reaches the trigger units. -/
def valueToUnits (src num ag : Nat) (at_ : Stamp) (y : F32) (cond : Cond) (s : State) : State :=
  if s.acqRuns then
    let us := (s.unitsAt src num at_).filter (fun (_, u) => src != 2 || u.ag = ag)
    let (f, s1) := us.foldl (fun (acc, st) (n, u) => let (f, st1) := unitValue n u at_ y cond st; (acc ++ f, st1)) (([], s) : List (Nat × UnitCf × Trig) × State)
    s.within [.events, .stats, .acq, .bus] (decideAll 17 f s1)
  else s

/-- A comparator's change is offered (R176, R317): polarity 0 fires on activation, 1 on release. -/
def comparatorToUnits (k : Nat) (active : Bool) (at_ : Stamp) (s : State) : State := edgeToUnits 4 k active (stampTick at_) s

/-- A line falls at its fall time (R359), and the edge goes to the units and, from a manager, into the headers. -/
def lineFall (l : Nat) (s : State) : State :=
  let x := s.line l
  let e : LineEdge := ⟨l, false, ⟨s.time.gen, x.fall⟩⟩
  let s1 := s.setLine l { x with level := false, last := x.fall }
  let s2 := if s.hrRole = 2 then { s1 with bus := { s1.bus with out := s1.bus.out ++ [e] } } else s1
  edgeToUnits 5 l false e.at_ s2

/-- TRIGGER_LINE_FALL (R359): own time has reached the fall time of a line at level 1. -/
def triggerLineFall (l : Nat) (s : State) : State :=
  if (s.line l).level && (s.line l).fall ≤ 8 * s.time.tai && !s.bus.remote then lineFall l s else s
def execTriggerLineFall (dt l : Nat) (s : State) : Host.Outcome State Fault Refusal := .next (s.act [.events, .stats, .acq, .bus] dt (triggerLineFall l))

/-! ## Digital inputs (R310 to R312) -/

def dinEnabled (c : Cf) (d : Nat) : Bool := d < 16 && bit (c.u 0x8300 1 (8 * d) 1) 0
/-- The glitch filter in 1/8 ns; at least the 5 ns within which two edges discard each other. -/
def dinFilter8 (c : Cf) (d : Nat) : Nat := max 40 (8000 * c.u 0x8300 1 (8 * d + 2) 2)

/-- DIN_EDGE (R36, R312): an edge, stamped from the island with the TDC's fraction of a nanosecond. It waits for its filter time,
unless it and the waiting edge before it discard each other; what lies between two edges is elapsed time, of the edges as they
came, before the delay correction (R79). -/
def dinEdge (d : Nat) (level : Bool) (frac : Nat) (s : State) : State :=
  if s.acqRuns && dinEnabled s.cf d then
    let x := s.din d
    let t : Tick := ⟨s.time.gen, (8 * (s.time.tai : Int) + (frac % 8 : Nat) - 8 * s.cf.i 0x8300 1 (8 * d + 4) 4).toNat⟩
    let lv := level != dinInvert s.cf d
    let e8 := 8 * s.elapsed + frac % 8
    match x.pend.getLast? with
    | some (pl, _, p8) =>
      let sep := e8 - p8
      if sep < 40 || (pl != lv && sep < dinFilter8 s.cf d) then
        let first := match x.lastDiscard with | some e => decide (e + 1000000000 ≤ s.elapsed) | none => true
        let s1 := countN 0x8080 7 2 (s.setDin d { x with pend := x.pend.dropLast, lastDiscard := some s.elapsed })
        when first (raise 0x94 d (satBits 32 (sep / 8))) s1
      else s.setDin d { x with pend := x.pend ++ [(lv, t, e8)] }
    | none => s.setDin d { x with pend := [(lv, t, e8)] }
  else s
def execDinEdge (dt d : Nat) (level : Bool) (frac : Nat) (s : State) : Host.Outcome State Fault Refusal := .next (s.act [.events, .stats, .acq] dt (dinEdge d level frac))

/-- A surviving edge gives the rows from its time on their level: in the rings, and in records not yet closed (R312, R315). -/
def relevel (d : Nat) (lv : Bool) (t : Tick) (s : State) : State :=
  let row := fun (r : Row) => if t.upTo (stampTick r.at_) && bit r.levels d != lv then { r with levels := if lv then r.levels + 2 ^ d else r.levels - 2 ^ d } else r
  { s with acq := { s.acq with
      group := Table.mapVals s.acq.group (fun x => { x with ring := x.ring.map row })
      recs := s.acq.recs.map (fun r => if r.closed then r else { r with rows := r.rows.map row }) } }

/-- DIN_EDGE_ACCEPT (R312): the oldest waiting edge has survived its filter time, and the 5 ns in which another edge discards it; it keeps its TDC time. -/
def dinEdgeAccept (d : Nat) (s : State) : State :=
  let x := s.din d
  match x.pend with
  | (lv, t, e8) :: rest =>
    if s.acqRuns && e8 + dinFilter8 s.cf d ≤ 8 * s.elapsed then
      let s1 := relevel d lv t (s.setDin d { x with level := lv, pend := rest })
      edgeToUnits 3 d lv t { s1 with acq := { s1.acq with edges := ⟨d, lv, t⟩ :: s1.acq.edges } }
    else s
  | [] => s
def execDinEdgeAccept (dt d : Nat) (s : State) : Host.Outcome State Fault Refusal := .next (s.act [.events, .stats, .acq, .bus] dt (dinEdgeAccept d))

/-- TRIGGER_TIMEOUT (R319): a timeout of a digital source is due on the elapsed-time counter. -/
def triggerTimeout (n : Nat) (s : State) : State :=
  let u := unitCf s.cf n
  if s.acqRuns && n < 64 && bit u.flags 0 && u.kind = 3 && (u.src = 3 || u.src = 5) then
    let x := s.unit n
    let mk := fun (p : List Tick) (due : Nat) => match p with
      | t :: _ => if due ≤ s.elapsed then [(n, u, ({ unit := n, kind := 3, src := u.src, gate := bit u.flags 2, at_ := t, w8 := 0, val := nan32 } : Trig))] else []
      | [] => []
    let a := mk x.pos x.posDue
    let b := mk x.neg x.negDue
    decideAll 17 (a ++ b) (s.setUnit n { x with pos := if a.isEmpty then x.pos else [], neg := if b.isEmpty then x.neg else [] })
  else s
def execTriggerTimeout (dt n : Nat) (s : State) : Host.Outcome State Fault Refusal := .next (s.act [.events, .stats, .acq, .bus] dt (triggerTimeout n))

/-! ## Starting, stopping, commits (R309, R315, R325, R330) -/

/-- The engine stops: captures close as truncated, waiting triggers make no record. -/
def acqStop (s : State) : State :=
  each (List.range 16) (fun g st => let t := dropPending g (truncateCapture g st); t.setGrp g { t.grp g with state := 0, part := [] })
    { s with acq := { s.acq with unit := [], early := [], din := Table.mapVals s.acq.din (fun x => { x with pend := [] }) } }

/-- The engine runs again: every valid group is armed. -/
def acqStart (s : State) : State :=
  each (List.range 16) (fun g st => if groupValid st.cf g then st.setGrp g { st.grp g with state := 1 } else st) s

/-- All of a record's bytes in a table, to see whether a commit changed it. -/
def recChanged (o n : Cf) (idx sub size k : Nat) : Bool := o.bytes idx sub (size * k) size != n.bytes idx sub (size * k) size

/-- Values that came before the commit they belong to join their rows. -/
def takeEarly (s : State) : State :=
  each s.acq.early (fun (ch, at_, v, cond, q) st => acqValue ch at_ v cond q st) { s with acq := { s.acq with early := [] } }

/-- A commit at T_c. -/
def acqCommit (o : Cf) (s : State) : State :=
  let n := s.cf
  let s1 := each (List.range 16) (fun g st =>
    let ch := recChanged o n 0x8100 1 80 g
    let ring := groupChans o g != groupChans n g || groupRate o g != groupRate n g
    if ch || (ring && groupValid n g) then
      let t := dropPending g (truncateCapture g st)
      let x := t.grp g
      t.setGrp g { x with state := if groupValid n g && t.acqRuns then 1 else 0, ring := if ring then [] else x.ring, part := if ring then [] else x.part }
    else st) s
  let s2 := each ((List.range 64).filter (recChanged o n 0x8200 1 48)) (fun u st => st.setUnit u {}) s1
  if o.u 0x8000 2 0 2 != n.u 0x8000 2 0 2 then
    let s3 := each (List.range 16) (fun g st =>
      when ((st.grp g).state = 2 && groupValid n g && st.acqRuns) (fun t => t.setGrp g { t.grp g with state := 1 }) (truncateCapture g st)) s2
    let gone := s3.acq.recs.map (·.seq)
    takeEarly (loseRecords gone { s3 with acq := { s3.acq with recs := [], writeAt := 0 } })
  else takeEarly s2

end Sys2Proof.Machine
end

