-- ==== Sys2Proof/Machine/Align.lean ====
section
/-! DEFINITION. Alignment of reporting instants (R192 to R219): members and their standing, opening, provisional and
final closes, late arrivals, learned latency, steps and resets; and its commands. A Hedgerow worker w is the member
0x8000 + w (R356). -/
namespace Sys2Proof.Machine
open Sys2Proof

/-! ## Stream contexts as alignment sees them (R135, R161, R195) -/

def State.ctx (s : State) (k : Nat) : Ctx := Table.getD s.ing.ctx k {}
def State.setCtx (s : State) (k : Nat) (x : Ctx) : State := { s with ing := { s.ing with ctx := Table.set s.ing.ctx k x {} } }
/-- A field of a stream context record. -/
def ctxF (c : Cf) (k off n : Nat) : Nat := c.u 0x4100 1 (32 * k + off) n
def ctxValid (c : Cf) (k : Nat) : Bool := bit (ctxF c k 0 1) 0
def ctxLocal (c : Cf) (k : Nat) : Bool := ctxF c k 1 1 = 2
/-- A field of an estimator record (R177). -/
def estF (c : Cf) (e off n : Nat) : Nat := c.u 0x5300 1 (32 * e + off) n

/-- The state code of a context under a configuration (R17, R161): 0 DISABLED, 1 NO_CFG, 2 ACTIVE, 3 PENDING. -/
def State.ctxState (s : State) (c : Cf) (k : Nat) : Nat :=
  if !ctxValid c k then 0
  else if ctxLocal c k then 2
  else if (s.ctx k).pending.isSome then 3
  else if (s.ctx k).accepted.isSome then 2 else 1

/-- DATA_RATE of a configuration frame: the two bytes before CHK. -/
def cfgRate (b : Bytes) : Int := signedOf 2 (field b (b.length - 4) 2)

/-- The accepted reporting rate of a context under a configuration; 0 when it has none (R139, R161). -/
def State.ctxRate (s : State) (c : Cf) (k : Nat) : Nat :=
  if ctxLocal c k then estF c (ctxF c k 18 2) 1 1
  else match (s.ctx k).accepted with
    | some b => (cfgRate b).toNat
    | none => 0

def State.wkr (s : State) (w : Nat) : Worker := Table.getD s.hr.worker w {}
def State.setWkr (s : State) (w : Nat) (x : Worker) : State := { s with hr := { s.hr with worker := Table.set s.hr.worker w x {} } }

/-! ## Instants (R195) -/

/-- Instant number `k` of a second, in ns. -/
def instantNs (rate k : Nat) : Nat := (2 * k * 1000000000 + rate) / (2 * rate)

/-- The first instant of a rate after `t`. -/
def nextInstant (rate t : Nat) : Nat :=
  let sec := t / 1000000000
  let r := t % 1000000000
  match (span (r * rate / 1000000000) (r * rate / 1000000000 + 3)).find? (fun k => decide (k < rate ∧ r < instantNs rate k)) with
  | some k => sec * 1000000000 + instantNs rate k
  | none => (sec + 1) * 1000000000

def isInstant (rate t : Nat) : Bool := rate != 0 && (t = 0 || nextInstant rate (t - 1) = t)

/-! ## Groups and members -/

def State.grpG (s : State) (g : Nat) : GroupG := Table.getD s.align.group g {}
def State.setGrpG (s : State) (g : Nat) (x : GroupG) : State := { s with align := { s.align with group := Table.set s.align.group g x {} } }
def agF (c : Cf) (g off n : Nat) : Nat := c.u 0x6100 1 (32 * g + off) n
def agFlag (c : Cf) (g b : Nat) : Bool := bit (agF c g 0 1) b
def agRate (c : Cf) (g : Nat) : Nat := agF c g 1 1

/-- The member contexts of a group, ascending (R193). -/
def memberCtxs (c : Cf) (g : Nat) : List Nat :=
  let key := 0x6180 * 256 + (g + 1)
  let bytes := c.mem.filter (fun p => p.1 / 2 ^ 24 = key)
  ((bytes.map (fun p => ((List.range 8).filter (fun b => p.2.getLsbD b)).map (fun b => (511 - p.1 % 2 ^ 24) * 8 + b))).flatten).insertionSort (· ≤ ·)

/-- The member workers of a group on a manager, ascending (R356). -/
def memberWorkers (c : Cf) (g : Nat) : List Nat :=
  if c.u 0xE000 1 0 1 = 2 then (List.range 16).filter (fun w => bit (c.u 0xE110 (g + 1) 0 2) w) else []

def isMember (c : Cf) (g who : Nat) : Bool :=
  if 0x8000 ≤ who then (memberWorkers c g).contains (who - 0x8000)
  else bit ((Memory.read c.v c.mem (cfgAddr 0x6180 (g + 1) (511 - who / 8))).toNat) (who % 8)

def wkF (c : Cf) (w off n : Nat) : Nat := c.u 0xE100 1 (32 * w + off) n

/-- A member is expected in a set at a rate, under the configuration that serves the set (R17, R195, R356). -/
def State.expects (s : State) (c : Cf) (rate who : Nat) : Bool :=
  if 0x8000 ≤ who then
    bit (wkF c (who - 0x8000) 0 1) 0 && (s.wkr (who - 0x8000)).rate != 0 && (s.wkr (who - 0x8000)).rate % rate = 0
  else 2 ≤ s.ctxState c who && s.ctxRate c who != 0 && s.ctxRate c who % rate = 0

/-- An expected member is awaited. -/
def State.awaits (s : State) (c : Cf) (g who : Nat) : Bool :=
  if 0x8000 ≤ who then
    let st := (s.wkr (who - 0x8000)).state
    st = 2 || (st = 3 && agFlag c g 3)
  else s.ctxState c who = 2 && (!(s.ctx who).lost || agFlag c g 3)

/-- Alignment runs: sets form in this mode, and it is not in reset (R57, R214). -/
def State.aligns (s : State) : Bool := s.forming && Table.getD s.rst.status 9 0 = 0

/-- The instant at which no further set opens, once the stop instant has passed (R58). -/
def State.stopNs (s : State) : Option Nat :=
  match s.mode.pend with
  | some p => if s.forming && p.target = .standby then some p.atNs else none
  | none => none

/-! ## Learned latency (R203, R204) -/

def latBin (ns : Int) : Nat :=
  let l := (ns / 1000000).toNat
  if l < 128 then l else if l < 512 then 128 + (l - 128) / 4 else min 255 (224 + (l - 512) / 16)

def latEdge (b : Nat) : Nat := if b < 128 then b + 1 else if b < 224 then 128 + 4 * (b - 127) else 512 + 16 * (b - 223)

def Table.total (t : Table Nat) : Nat := t.foldl (fun a p => a + p.2) 0

def Latency.count (x : Latency) : Nat := Table.total x.cur + Table.total x.prev

/-- The upper edge of the smallest bin whose cumulative count reaches ceil(q N / 1000); 0 with no arrivals. -/
def Latency.quantile (x : Latency) (q : Nat) : Nat :=
  let need := (q * x.count + 999) / 1000
  let cum := fun b => (x.cur.foldl (fun a p => if p.1 ≤ b then a + p.2 else a) 0) + (x.prev.foldl (fun a p => if p.1 ≤ b then a + p.2 else a) 0)
  if x.count = 0 then 0 else match (List.range 256).find? (fun b => need ≤ cum b) with | some b => latEdge b | none => latEdge 255

def State.lat (s : State) (who : Nat) : Latency := Table.getD s.align.lat who {}

/-- Record a latency (R203), and roll the epoch when it is full (R204). -/
def recordLatency (who : Nat) (tr : Stamp) (s : State) : State :=
  let l : Int := (s.time.tai : Int) - tr.ns
  if s.time.unlocked || tr.gen != s.time.gen || 2000000000 < l then s
  else
    let x := s.lat who
    let cur := Table.modify x.cur (latBin l) 0 (fun n => satBits 32 (n + 1))
    let last := satBits 16 (l / 1000000).toNat
    let full := s.cf.u 0x6000 1 0 4 ≤ Table.total cur
    let y : Latency := if full then { cur := [], prev := cur, last := last } else { x with cur := cur, last := last }
    { s with align := { s.align with lat := Table.set s.align.lat who y {} } }

def clearLatency (who : Nat) (s : State) : State := { s with align := { s.align with lat := Table.drop s.align.lat who } }

/-- d_i (R198). -/
def State.deadline (s : State) (c : Cf) (g who : Nat) : Nat :=
  let df := agF c g 2 2
  let fixed := if 0x8000 ≤ who then (bit (wkF c (who - 0x8000) 0 1) 3, wkF c (who - 0x8000) 2 2)
    else (bit (c.u 0x6200 1 (8 * who + 1) 1) 1, c.u 0x6200 1 (8 * who + 2) 2)
  if fixed.1 then min fixed.2 df
  else if !agFlag c g 1 then df
  else if (s.lat who).count < 200 then df
  else min df (max (agF c g 6 2) ((s.lat who).quantile (agF c g 8 2) + agF c g 10 2))

/-- EV_ALIGN_DEADLINE for a member whose d_i has moved by 5 ms since it was last reported (R205); the first d_i is the
reference (log entry 31). -/
def tellDeadline (g who d : Nat) (s : State) : State :=
  let key := who * 16 + g
  let s1 := { s with align := { s.align with told := Table.put s.align.told key d } }
  match Table.find s.align.told key with
  | none => s1
  | some old =>
    if 5 ≤ ((d : Int) - old).natAbs then
      raise 0x54 g ((if 0x8000 ≤ who then 2 ^ 31 + (who - 0x8000) * 2 ^ 16 else who * 2 ^ 16) + d) s1
    else s

/-! ## Opening (R197, R198, R209) -/

/-- The standing of a member at the opening (R195), with its deadline. -/
def State.standing (s : State) (c : Cf) (g who : Nat) (step : Bool) : Member :=
  let e := s.expects c (agRate c g) who
  let here := who < 0x8000 && ctxLocal c who
  { who := who, here := here, expected := e, awaited := e && s.awaits c g who && !(step && here),
    required := e && (if 0x8000 ≤ who then bit (wkF c (who - 0x8000) 0 1) 2 else bit (c.u 0x6200 1 (8 * who + 1) 1) 0),
    weight := if 0x8000 ≤ who then wkF c (who - 0x8000) 1 1 else c.u 0x6200 1 (8 * who) 1,
    d := s.deadline c g who }

/-- The set of an instant opens, with its base. -/
def openSet (g tr : Nat) (step : Bool) (s : State) : State :=
  let at_ : Stamp := ⟨s.time.gen, tr⟩
  let c := (s.cfFor at_).1
  let members := (memberCtxs c g ++ (memberWorkers c g).map (· + 0x8000)).map (fun w => s.standing c g w step)
  let x := s.grpG g
  let base : Int := if step then s.elapsed else (s.elapsed : Int) + tr - s.time.tai
  let o : OpenSet := { at_ := at_, base := base, seq := x.next, step := step, rate := agRate c g, members := members }
  let y := { x with open_ := x.open_ ++ [o], next := x.next + 1#32, opened := true, high := at_, awaited := (members.filter (·.awaited)).length }
  each (members.filter (·.expected)) (fun m st => tellDeadline g m.who m.d st) (s.setGrpG g y)

/-! ## Closing (R199 to R202, R206 to R208) -/

def OpenSet.present (o : OpenSet) (who : Nat) : Bool := o.came.any (fun p => p.1 = who)
/-- Contributors that arrived after the provisional close (R201); a member that is not expected counts for nothing (R195). -/
def OpenSet.after (o : OpenSet) : Nat := (o.came.filter (fun p => p.2 && o.members.any (fun m => m.who = p.1 && m.expected))).length
/-- Awaited members that have not arrived. -/
def OpenSet.lacking (o : OpenSet) : List Member := o.members.filter (fun m => m.awaited && !o.present m.who)
def msNs (ms : Nat) : Int := 1000000 * (ms : Int)

/-- The moment and the cause of the final close, as the arrivals stand (R199). -/
def OpenSet.closeAt (o : OpenSet) (df : Nat) : Int × Nat :=
  let fin := o.base + msNs df
  match o.lacking with
  | [] => if df = 0 then (fin, 2) else (o.base, 0)
  | ms =>
    let d := ms.foldl (fun a m => max a m.d) 0
    if d < df then (o.base + msNs d, 1) else (fin, 2)

/-- What a member contributed for an instant. -/
def State.contribution (s : State) (who tr : Nat) : Option Contribution :=
  (Table.getD s.align.hist who []).find? (fun x => x.at_.ns = tr)

/-- The state code of a member at a close (R206). -/
def State.memberCode (s : State) (o : OpenSet) (cause : Nat) (m : Member) : Nat :=
  if !m.expected then 7
  else if o.present m.who then
    match s.contribution m.who o.at_.ns with
    | some x => if x.vals.any (·.valid) then 0 else 1
    | none => 1
  else if o.step && m.here then 6
  else if cause = 4 then 5
  else if m.who < 0x8000 && s.ctxState (s.cfFor o.at_).1 m.who = 3 then 3
  else if !m.awaited && (if m.who < 0x8000 then (s.ctx m.who).lost else (s.wkr (m.who - 0x8000)).state = 3) then 4
  else 2

/-- The worst quality word of some contributors; its leap bits are the device's own (R94). -/
def worstQual (own : Qual) (qs : List Qual) : Qual :=
  let n := qs.map (·.toNat)
  let hi := fun (a b : Nat) => n.foldl (fun m q => max m (bits q a b)) 0
  let any := fun (b : Nat) => n.any (fun q => bit q b)
  BitVec.ofNat 16 (hi 2 0 + 8 * hi 4 3 + 32 * b2n (any 5) + 64 * b2n (any 6) + 128 * bits own.toNat 9 7 + 1024 * b2n (any 10))

/-- The set item (R208). -/
def closeItem (g : Nat) (c : Close) (ref1 ref2 : Nat) : Bytes :=
  toBE 1 c.kind ++ toBE 1 g ++ toBE 1 c.cause ++ toBE 1 c.flags ++ toBE 4 c.seq.toNat ++ stampBytes c.at_ ++ toBE 2 c.qual.toNat ++
    toBE 2 c.conf ++ toBE 4 c.cfgGen.toNat ++ toBE 2 c.expected ++ toBE 2 c.present ++ toBE 2 c.missing ++ toBE 2 c.after ++
    toBE 4 c.decUs ++ toBE 8 ref1 ++ toBE 8 ref2 ++ toBE 4 c.seq.toNat ++ zeros 4

/-- The close of a set as its members stand (R202, R206 to R208), before it is published. A confirmation carries the values of the
provisional close (R201). -/
def State.buildClose (s : State) (_g : Nat) (o : OpenSet) (kind cause : Nat) (decAt : Int) : Close :=
  let held := if kind = 0x22 then o.prov else none
  let states := o.members.map (fun m => (m.who, match held with
    | some k => if m.expected && o.present m.who then Table.getD k.states m.who 1 else s.memberCode o cause m
    | none => s.memberCode o cause m))
  let here := o.members.filter (fun m => m.expected && o.present m.who)
  let parts := here.map (fun m => (m.who, (s.contribution m.who o.at_.ns).getD ⟨o.at_, [], 0#16⟩))
  let vals := match held with | some k => k.vals | none => (parts.map (fun p => p.2.vals)).flatten
  let x := (o.members.filter (·.expected)).foldl (fun a m => a + m.weight) 0
  let p := (o.members.filter (fun m => m.expected && states.any (fun q => q.1 = m.who && q.2 = 0))).foldl (fun a m => a + m.weight) 0
  let quals := match held with | some k => k.quals | none => parts.map (fun p => (p.1, p.2.qual))
  let corrects := o.prov.isSome && kind = 0x21
  let flags := flagsOf [kind = 0x20, corrects, cause = 4, o.step, quals.any (fun q => q.2.getLsbD 5), vals.any (fun v => !v.valid)]
  { pub := 0, kind := kind, cause := cause, flags := flags, seq := o.seq, at_ := o.at_, rate := o.rate,
    qual := worstQual (s.ownQualAt o.at_.ns) (quals.map (·.2)), conf := if x = 0 then 0 else 1000 * p / x, cfgGen := (s.cfFor o.at_).2,
    expected := (o.members.filter (·.expected)).length, present := here.length, missing := o.lacking.length,
    after := o.after, decUs := ((decAt - o.base) / 1000).toNat, item := [], states := states, quals := quals,
    vals := vals, decAt := decAt.toNat }

/-- Slot values as the set area holds them: 12 bytes each (R207). -/
def slotBytes (vs : List Slotted) : Bytes :=
  (vs.map (fun v => toBE 4 v.val.toNat ++ toBE 2 v.cond.toNat ++ toBE 2 v.qual.toNat ++ toBE 2 v.slot ++ toBE 2 v.ctx)).flatten

/-- The bytes of a close as Hedgerow sends it: the item, then its slot values (R345). -/
def closeBytes (c : Close) : Bytes := c.item ++ slotBytes c.vals

/-- A final close of the uplink group goes up, or is discarded while the manager is lost (R354). -/
def uplinkClose (g : Nat) (c : Close) (s : State) : State :=
  let c0 := (s.cfFor c.at_).1
  if s.hrRole = 1 && c0.u 0xE000 3 0 1 = g && s.hasHr && (c.kind = 0x21 || c.kind = 0x22) then
    if s.hr.state = 3 then { s with hr := { s.hr with up := s.hr.up.orderedInsert (fun a b => a.at_ ≤ b.at_) { at_ := c.at_.ns, rate := c.rate, bytes := closeBytes c } } }
    else if s.hr.state = 4 then count 0xE080 6 (satEvent s.hr.discarded 1 (recKey 0xE300 0 30) 0xA5 0 30 { s with hr := { s.hr with discarded := satCount s.hr.discarded 1 } })
    else s
  else s

/-- The latest instant of some closes. -/
def newestAt (cs : List Close) (t : Stamp) : Stamp := cs.foldl (fun a c => if Stamp.before a c.at_ then c.at_ else a) t

/-- The set area keeps a close beside the newest instant: those of the last 2 s, also across a step (R207). -/
def inArea (newest : Stamp) (c : Close) : Bool :=
  decide (newest.ns ≤ c.at_.ns + 2000000000) && (c.at_.gen = newest.gen || decide (c.at_.ns ≤ newest.ns + 2000000000))

/-- A close is published (R207, R208): its item, its place in the set area, the consumers that take it at once. -/
def publish (g : Nat) (c0 : Close) (s : State) : State :=
  let (n, s1) := s.takeFree
  let (m, s2) := s1.takeFree
  let x := s2.grpG g
  let item := closeItem g c0 (Config.free64 n).toNat (Config.free64 m).toNat
  let c := { c0 with pub := x.pubs + 1, item := item }
  let keep := x.closes.filter (inArea (newestAt x.closes c.at_))
  let s3 := push (120 + g) item (s2.setGrpG g { x with pubs := x.pubs + 1, closes := c :: keep })
  if c.kind = 0x20 then s3
  else uplinkClose g c (each c.vals (fun v st => valueToUnits 2 v.slot g c.at_ v.val v.cond st) s3)

/-- Replace or remove an open set. -/
def putOpen (g : Nat) (o : OpenSet) (s : State) : State :=
  let x := s.grpG g
  s.setGrpG g { x with open_ := x.open_.map (fun y => if y.seq = o.seq then o else y) }
def dropOpen (g : Nat) (o : OpenSet) (s : State) : State :=
  let x := s.grpG g
  s.setGrpG g { x with open_ := x.open_.filter (fun y => y.seq != o.seq) }

/-- SET_FINAL_CLOSE (R199, R201, R211, R214). -/
def finalClose (g : Nat) (o : OpenSet) (cause : Nat) (decAt : Int) (s : State) : State :=
  let after := o.after
  let kind := if o.prov.isSome && after = 0 then 0x22 else 0x21
  let c := s.buildClose g o kind cause decAt
  let s1 := publish g c (dropOpen g o s)
  let s2 := match cause with | 0 => count 0x6080 1 s1 | 1 => count 0x6080 2 s1 | 2 => count 0x6080 3 s1 | _ => s1
  let s3 := if kind = 0x22 then count 0x6080 6 s2
    else if o.prov.isSome then raise 0x52 g after (count 0x6080 5 s2) else s2
  match o.lacking with
  | m :: _ =>
    if cause = 1 || cause = 2 then raise 0x50 g (c.missing * 65536 + (if 0x8000 ≤ m.who then 2 ^ 15 + (m.who - 0x8000) else m.who)) s3 else s3
  | [] => s3

/-- The conditions of a provisional close hold (R200). -/
def State.provisionalOk (s : State) (g : Nat) (c : Cf) (o : OpenSet) (decAt : Int) : Bool :=
  o.members.all (fun m => !m.required || o.present m.who) && agF c g 12 2 ≤ (s.buildClose g o 0x20 3 decAt).conf

/-- SET_PROVISIONAL_CLOSE (R200): the set stays open. -/
def provisionalClose (g : Nat) (o : OpenSet) (decAt : Int) (s : State) : State :=
  let c := s.buildClose g o 0x20 3 decAt
  count 0x6080 4 (publish g c (putOpen g { o with prov := some c } s))

/-- The deadlines of a set that have passed, in their order (R199, R200): the provisional one, then the close. -/
def advanceSet (g : Nat) (seq : Seq) (s : State) : State :=
  match (s.grpG g).open_.find? (fun o => o.seq = seq) with
  | none => s
  | some o =>
    let c := (s.cfFor o.at_).1
    let (t, cause) := o.closeAt (agF c g 2 2)
    let p := o.base + msNs (agF c g 4 2)
    let s1 :=
      if agFlag c g 2 && o.prov.isNone && !o.lostRaised && p ≤ s.elapsed && p < t then
        if s.provisionalOk g c o p then provisionalClose g o p s
        else count 0x6080 0x0B (raise 0x53 g (s.buildClose g o 0x20 3 p).conf (putOpen g { o with lostRaised := true } s))
      else s
    if t ≤ s.elapsed then
      match (s1.grpG g).open_.find? (fun o => o.seq = seq) with
      | some o1 => finalClose g o1 cause t s1
      | none => s1
    else s1

/-- An arrival in an open set (R199): deadlines first, then the arrival. False: the set had closed before it. -/
def arriveOpen (g who : Nat) (seq : Seq) (s : State) : Bool × State :=
  let s1 := advanceSet g seq s
  match (s1.grpG g).open_.find? (fun o => o.seq = seq) with
  | none => (false, s1)
  | some o0 =>
    if o0.present who then (true, s1)
    else
      let o := { o0 with came := o0.came ++ [(who, o0.prov.isSome)] }
      let s2 := putOpen g o s1
      let c := (s2.cfFor o.at_).1
      let e : Int := s2.elapsed
      let done := o.lacking.isEmpty
      (true,
        if e < o.base then s2
        else if done then finalClose g o 0 e s2
        else if o.lacking.all (fun m => o.base + msNs m.d ≤ e) then finalClose g o 1 e s2
        else if agFlag c g 2 && o.prov.isNone && o.base + msNs (agF c g 4 2) ≤ e then
          (if s2.provisionalOk g c o e then provisionalClose g o e s2
           else if o.lostRaised then s2
           else count 0x6080 0x0B (raise 0x53 g (s2.buildClose g o 0x20 3 e).conf (putOpen g { o with lostRaised := true } s2)))
        else s2)

/-- The set item that a late item repeats (R208): that of the set's close, and where none is held any more, or there was none, the
instant and its configuration with the other fields free (log entry 207). -/
def lateSource (g : Nat) (tr : Stamp) (s : State) : Bytes × State :=
  match (s.grpG g).closes.find? (fun c => c.at_.ns = tr.ns && c.kind != 0x20) with
  | some c => (c.item, s)
  | none =>
    let (n, s1) := s.takeFree
    let (m, s2) := s1.takeFree
    let f := fun (k : Nat) => toBE 8 (Config.free64 k).toNat
    let seq := (f n).take 4
    (toBE 1 0x20 ++ toBE 1 g ++ slice (f n) 4 2 ++ seq ++ stampBytes tr ++ (f m).take 4 ++ toBE 4 (s.cfFor tr).2.toNat ++ zeros 2 ++
      slice (f m) 2 6 ++ zeros 4 ++ f m ++ zeros 8 ++ seq ++ zeros 4, s2)

/-- LATE_ARRIVAL (R210): with bit 4 of the group set, an item and the late values go to the archive queue. -/
def lateArrival (g who : Nat) (tr : Stamp) (vals : List Slotted) (s : State) : State :=
  let s1 := raise 0x51 g who (count 0x6080 7 s)
  if agFlag (s1.cfFor tr).1 g 4 then
    let lat := (((s1.time.tai : Int) - tr.ns) / 1000).toNat
    let (item, s2) := lateSource g tr s1
    let (n, s3) := s2.takeFree
    let it := toBE 1 0x23 ++ slice item 1 27 ++ toBE 2 who ++ slice item 30 6 ++ toBE 4 lat ++ slice item 40 8 ++
      toBE 8 (Config.free64 n).toNat ++ item.drop 56
    let (ok, s4) := enqueueData 136 it (slotBytes vals) s3
    if ok then count 0x6080 8 s4 else count 0x6080 9 s4
  else s1

/-- The instant is that of a set still open: its values are wanted at the close (R207). -/
def State.instantOpen (s : State) (t : Nat) : Bool := s.align.group.any (fun p => p.2.open_.any (fun o => o.at_.ns = t))

/-- The generation in which a group opened the set of an instant, so far as that can be told (R203): of an instant that a backward
step left behind (R212) it is an earlier one. -/
def State.openGen (s : State) (g tr : Nat) : Option Gen :=
  let x := s.grpG g
  match x.open_.find? (fun o => o.at_.ns = tr) with
  | some o => some o.at_.gen
  | none =>
    match x.closes.find? (fun c => c.at_.ns = tr) with
    | some c => some c.at_.gen
    | none => if (match x.blocked with | some b => decide (tr ≤ b) | none => false) then some (s.time.gen - 1#16) else none

/-- A contributor has arrived (R196, R203, R210, R212): in each group it is a member of, its open set, or a set it opens,
or a late arrival. -/
def arrive (who tr : Nat) (vals : List Slotted) (q : Qual) (s : State) : State :=
  let at_ : Stamp := ⟨s.time.gen, tr⟩
  let old := (Table.getD s.align.hist who []).filter (fun x => (decide (s.time.tai ≤ x.at_.ns + 2000000000) || s.instantOpen x.at_.ns) && x.at_.ns != tr)
  let s1 := { s with align := { s.align with hist := Table.put s.align.hist who (⟨at_, vals, q⟩ :: old) } }
  let c := (s.cfFor at_).1
  let mine := (List.range 16).filter (fun g => agFlag c g 0 && !s.fenced 4 (g / 4) && isMember c g who && isInstant (agRate c g) tr && s.expects c (agRate c g) who)
  let unserved := s.cfg.prev.isNone && Stamp.before at_ s.cfg.from_
  let seen := if mine.isEmpty || !s1.forming then s1
    else recordLatency who ⟨((mine.filterMap (fun g => s1.openGen g tr)).head?).getD s1.time.gen, tr⟩ s1
  s.within [.events, .stats, .free, .queues, .sched, .acq, .bus, .align, .hr] (each mine (fun g st =>
    let x := st.grpG g
    match x.open_.find? (fun o => o.at_.ns = tr) with
    | some o => if st.aligns then
        let (ok, st1) := arriveOpen g who o.seq st
        if ok then st1 else lateArrival g who at_ vals st1
      else lateArrival g who at_ vals st
    | none =>
      let reached := decide (tr ≤ x.upto)
      let old := match x.blocked with | some b => decide (tr ≤ b) | none => false
      let closed := x.closes.any (fun c => c.at_.ns = tr && c.kind != 0x20)
      let stopped := match st.stopNs with | some t => decide (t ≤ tr) | none => false
      if old then lateArrival g who at_ vals (count 0x6080 0x0A st)
      else if closed then lateArrival g who at_ vals st
      else if !st.forming then st
      else if !st.aligns then lateArrival g who at_ vals st
      else if reached || stopped || unserved || tr < st.mode.formFrom then st
      else
        let (ok, st1) := arriveOpen g who x.next (openSet g tr false st)
        if ok then st1 else lateArrival g who at_ vals st1) seen)

/-! ## Commands and what other units bring about -/

/-- The next instant of a group to be reached, under the configuration that serves it (R17, R215). -/
def State.groupNext (s : State) (g : Nat) : Option Nat :=
  if s.aligns && g < 16 && !s.fenced 4 (g / 4) then
    (s.earliest (fun c f => if agFlag c g 0 then
      some ⟨s.time.gen, nextInstant (agRate c g) (s.serveFrom f (max (s.grpG g).upto (s.mode.formFrom - 1)))⟩ else none)).map (·.1.ns)
  else none

/-- SET_OPEN (R197): internal time has reached the group's next instant. A set opened earlier by an arrival is only
tested (R199). -/
def setOpen (g : Nat) (s : State) : State :=
  match s.groupNext g with
  | none => s
  | some t =>
    let stopped := match s.stopNs with | some n => decide (n ≤ t) | none => false
    if s.time.tai < t || stopped then s
    else
      let x := s.grpG g
      let s1 := s.setGrpG g { x with upto := t }
      match x.open_.find? (fun o => o.at_.ns = t) with
      | some o => advanceSet g o.seq s1
      | none =>
        if x.closes.any (fun c => c.at_.ns = t && c.kind != 0x20) then s1 else advanceSet g x.next (openSet g t false s1)
def execSetOpen (dt g : Nat) (s : State) : Host.Outcome State Fault Refusal := .next (s.act [.events, .stats, .free, .queues, .sched, .acq, .bus, .align, .hr] dt (setOpen g))

/-- SET_DEADLINE (R199): a per-stream or final deadline of an open set. -/
def execSetDeadline (dt g : Nat) (seq : Seq) (s : State) : Host.Outcome State Fault Refusal := .next (s.act [.events, .stats, .free, .queues, .sched, .acq, .bus, .align, .hr] dt (advanceSet g seq))

/-- SET_PROVISIONAL_DEADLINE (R200): E_r + D_p of an open set. -/
def execSetProvisionalDeadline (dt g : Nat) (seq : Seq) (s : State) : Host.Outcome State Fault Refusal := .next (s.act [.events, .stats, .free, .queues, .sched, .acq, .bus, .align, .hr] dt (advanceSet g seq))

/-- The instants of a rate after `a`, up to `b`; `n` bounds their number. -/
def instantsUpTo (rate a b n : Nat) : List Nat :=
  match n with
  | 0 => []
  | k + 1 => let t := nextInstant rate a; if t ≤ b then t :: instantsUpTo rate t b k else []

/-- A step of internal time from `old` (R212, R213). -/
def alignStep (old : Nat) (s : State) : State :=
  s.within [.events, .stats, .free, .queues, .sched, .acq, .bus, .align, .hr] (each (List.range 16) (fun g st =>
    let x := st.grpG g
    if st.time.tai ≤ old then
      if x.opened then st.setGrpG g { x with upto := max x.upto x.high.ns, blocked := some (max x.high.ns (x.blocked.getD 0)) } else st
    else if st.aligns && agFlag st.cf g 0 && !st.fenced 4 (g / 4) then
      let lo := max (max x.upto (st.time.tai - 2000000001)) (st.mode.formFrom - 1)
      let stopped := fun (t : Nat) => match st.stopNs with | some n => decide (n ≤ t) | none => false
      let ts := (instantsUpTo (agRate st.cf g) lo st.time.tai 512).filter (fun t => !(x.open_.any (fun o => o.at_.ns = t)) && !stopped t)
      let st1 := each ts (fun t s1 => advanceSet g (s1.grpG g).next (openSet g t true s1)) (st.setGrpG g { x with upto := st.time.tai })
      when (!ts.isEmpty) (raise 0x57 g ts.length) st1
    else st.setGrpG g { x with upto := max x.upto st.time.tai }) s)

/-- An alignment reset (R70, R214): the open sets close, and the history goes. -/
def alignReset (s : State) : State :=
  let s1 := each (List.range 16) (fun g st =>
    let st1 := each (st.grpG g).open_ (fun o s1 => finalClose g o 4 s1.elapsed s1) st
    let x := st1.grpG g
    st1.setGrpG g { x with upto := if x.opened then max x.upto x.high.ns else x.upto }) s
  { s1 with align := { s1.align with hist := [] } }

/-- Instants reached while alignment was in reset are not opened afterwards (log entry 32). -/
def alignResume (s : State) : State :=
  each (List.range 16) (fun g st => let x := st.grpG g; st.setGrpG g { x with upto := max x.upto st.time.tai }) s

/-- Sets form from an instant on (R58). -/
def alignStart (from_ : Nat) (s : State) : State :=
  each (List.range 16) (fun g st => let x := st.grpG g; st.setGrpG g { x with upto := max x.upto (from_ - 1) })
    { s with mode := { s.mode with formFrom := from_ } }

/-- EV_ALIGN_RATE_MISMATCH for an accepted member (R195). -/
def tellMismatch (who : Nat) (s : State) : State :=
  each ((List.range 16).filter (fun g => agFlag s.cf g 0 && isMember s.cf g who && s.ctxRate s.cf who % agRate s.cf g != 0)) (fun g st => raise 0x55 g who st) s

/-- The rate of a member worker does not fit a group under a configuration (R356). -/
def State.workerMisfit (s : State) (c : Cf) (g w : Nat) : Bool :=
  agFlag c g 0 && (memberWorkers c g).contains w && bit (wkF c w 0 1) 0 && (s.wkr w).rate % agRate c g != 0

/-- A commit at T_c (R136, R139, R195, R204, R356). A local context is accepted as its record turns valid or moves, or the rate of its
estimators changes; a worker that no longer fits a group is told. -/
def alignCommit (o : Cf) (s : State) : State :=
  let n := s.cf
  let ks := dedup (o.recs 0x4100 1 32 ++ n.recs 0x4100 1 32)
  let s1 := each ks (fun k st =>
    let moved := o.bytes 0x4100 1 (32 * k + 1) 7 != n.bytes 0x4100 1 (32 * k + 1) 7 || o.bytes 0x4100 1 (32 * k + 13) 7 != n.bytes 0x4100 1 (32 * k + 13) 7
    let st1 := when moved (clearLatency k) st
    when (ctxValid n k && ctxLocal n k && (moved || !ctxValid o k || s.ctxRate o k != s.ctxRate n k)) (tellMismatch k) st1) s
  each (List.range 16) (fun g st => each ((List.range 16).filter (fun w => s.workerMisfit n g w && !s.workerMisfit o g w))
    (fun w st1 => raise 0x55 g (0x8000 + w) st1) st) s1

/-- Every set of before an instant has opened and reached its final close (R19). -/
def State.closedBefore (s : State) (tc : Stamp) : Bool :=
  s.align.group.all (fun p => p.2.open_.all (fun o => !Stamp.before o.at_ tc)) &&
    (List.range 16).all (fun g => match s.groupNext g with | some t => !Stamp.before ⟨s.time.gen, t⟩ tc | none => true)

/-! ## Closes as the consumers take them (R17) -/

/-- Of the alignment groups that the configurations in force name, what each serves itself, with its group. -/
def State.ofGroups {α : Type} (s : State) (ag : Cf → Option Nat) (part : GroupG → List α) (at_ : α → Stamp) : List (Nat × α) :=
  (s.serving.map (fun (c, gen, _) => match ag c with
    | some g => ((part (s.grpG g)).filter (fun x => (s.cfFor (at_ x)).2 = gen)).map (fun x => (g, x))
    | none => [])).flatten

/-- The next final close after an instant, of the group that the configuration of each close names, of those a test keeps; none
while an earlier set is open (R221, R269). -/
def State.nextFinal (s : State) (ag : Cf → Option Nat) (after : Option Stamp) (keep : Nat → Close → Bool) : Option Close :=
  let later := fun (t : Stamp) => match after with | some a => decide (a.ns < t.ns) | none => true
  let cs := (s.ofGroups ag (·.closes) (·.at_)).filter (fun p => p.2.kind != 0x20 && later p.2.at_ && keep p.1 p.2)
  match (cs.map (·.2)).foldl (fun (b : Option Close) c => match b with | some y => if c.at_.ns < y.at_.ns then some c else b | none => some c) none with
  | none => none
  | some c => if (s.ofGroups ag (·.open_) (·.at_)).any (fun p => later p.2.at_ && p.2.at_.ns < c.at_.ns) then none else some c

/-- Closes published so far, by group. -/
def State.pubsNow (s : State) : Table Nat := (s.align.group.map (fun p => (p.1, p.2.pubs))).filter (fun p => p.2 != 0)

/-- The first close in publishing order that a consumer has not seen, of those a test takes, with its group; the group of an
older configuration comes first. -/
def State.nextPub (s : State) (ag : Cf → Option Nat) (seen : Table Nat) (takes : Close → Bool) : Option (Nat × Close) :=
  let cs := (s.ofGroups ag (·.closes) (·.at_)).filter (fun p => Table.getD seen p.1 0 < p.2.pub && takes p.2)
  cs.head?.map (fun h => (cs.filter (fun p => p.1 = h.1)).foldl (fun b p => if p.2.pub < b.2.pub then p else b) h)

end Sys2Proof.Machine
end

