-- ==== Sys2Proof/Machine/Elementary.lean ====
section
/-! DEFINITION. The elementary functions in binary64: each is computed on fixed point of 300 fraction bits and rounded once. The spec
bounds the results that rest on them and does not state their bits (R187, R248; DESIGN CHOICE, log entry 163). -/
namespace Sys2Proof
open Sys2Proof

/-- One in fixed point. -/
def fixOne : Int := 2 ^ 300

/-- pi with 1400 fraction bits, cut, in two parts of 700 bits. -/
def piFine : Nat :=
  0x3243f6a8885a308d313198a2e03707344a4093822299f31d0082efa98ec4e6c89452821e638d01377be5466cf34e90c6cc0ac29b7c97c50dd3f84d5b5b54709179216d5d98979fb1bd1310ba698dfb5ac2ffd72dbd01adfb * 2 ^ 700 +
  0x7b8e1afed6a267e96ba7c9045f12c7f9924a19947b3916cf70801f2e2858efc16636920d871574e69a458fea3f4933d7e0d95748f728eb658718bcd5882154aee7b54a41dc25a59b59c30d5392af26013c5d1b023286085
/-- pi with 300 fraction bits, cut. -/
def piFixed : Nat := piFine / 2 ^ 1100

/-- A finite number in fixed point, cut. -/
def fixOf (x : F64) : Int :=
  match n64 x with
  | .fin s m e => Num.signed s (if 0 ≤ e + 300 then m * 2 ^ (e + 300).toNat else m / 2 ^ (-(e + 300)).toNat)
  | _ => 0

/-- A fixed-point value rounded to binary64. -/
def ofFix (v : Int) : F64 := b64 (Num.ofInt v (-300))

/-- The cosine series: `k` terms done, `x2` the square of the angle. -/
def cosSeries (fuel : Nat) (x2 : Int) (k : Int) (term acc : Int) : Int :=
  match fuel with
  | 0 => acc
  | m + 1 =>
    let t := -(term * x2 / fixOne) / ((2 * k + 1) * (2 * k + 2))
    cosSeries m x2 (k + 1) t (acc + t)

/-- The cosine of a fixed-point angle between -2 pi and 2 pi. -/
def cosFix (x : Int) : Int := cosSeries 90 (x * x / fixOne) 0 fixOne fixOne

/-- An angle reduced to one turn. -/
def turnFix (x : F64) : Int := (fixOf x * 2 ^ 1100 % (2 * (piFine : Int))) / 2 ^ 1100

def f64cos (x : F64) : F64 := if f64finite x then ofFix (cosFix (turnFix x)) else b64 .nan
def f64sin (x : F64) : F64 :=
  if !f64finite x then b64 .nan
  else if f64lt (f64abs x) (b64 (Num.ofInt 1 (-100))) then x else ofFix (cosFix (turnFix x - (piFixed : Int) / 2))

/-- The series of the inverse tangent (`sign` -1) and of the inverse hyperbolic tangent (`sign` 1). -/
def atanSeries (fuel : Nat) (sign z2 k power acc : Int) : Int :=
  match fuel with
  | 0 => acc
  | m + 1 => atanSeries m sign z2 (k + 2) (sign * (power * z2 / fixOne)) (acc + power / k)

/-- tan(a / 2) of tan a, for a value from 0 to 1. -/
def halfTan (z : Int) : Int := z * fixOne / (fixOne + isqrt (fixOne * fixOne + z * z).toNat 302)

/-- The inverse tangent of a fixed-point value from 0 to 1. -/
def atanFix (z : Int) : Int :=
  let t := halfTan (halfTan (halfTan z))
  8 * atanSeries 60 (-1) (t * t / fixOne) 1 t 0

/-- arg (x + j y), above -pi and up to pi; 0 for 0. -/
def f64atan2 (y x : F64) : F64 :=
  let (a, b) := Num.pair (n64 y) (n64 x)
  if !f64finite y || !f64finite x then b64 .nan
  else if a = 0 && b = 0 then 0#64
  else if 0 < b && a.natAbs * 2 ^ 60 < b.natAbs then f64div y x
  else
    let m := if a.natAbs ≤ b.natAbs then atanFix ((a.natAbs : Int) * fixOne / b.natAbs) else (piFixed : Int) / 2 - atanFix ((b.natAbs : Int) * fixOne / a.natAbs)
    let h := if 0 ≤ b then m else (piFixed : Int) - m
    ofFix (if a < 0 then -h else h)

/-- ln of m / n for values up to two apart. -/
def lnFix (m n : Nat) : Int :=
  let z := ((m : Int) - n) * fixOne / (m + n : Nat)
  2 * atanSeries 100 1 (z * z / fixOne) 1 z 0

/-- ln x. -/
def f64ln (x : F64) : F64 :=
  match n64 x with
  | .nan => b64 .nan
  | .inf s => if s then b64 .nan else x
  | .fin s m e =>
    if m = 0 then b64 (.inf true) else if s then b64 .nan
    else ofFix ((e + (Nat.log2 m : Nat)) * lnFix 2 1 + lnFix m (2 ^ Nat.log2 m))

/-- The exponential series. -/
def expSeries (fuel : Nat) (x : Int) (k : Int) (term acc : Int) : Int :=
  match fuel with
  | 0 => acc
  | m + 1 =>
    let t := term * x / fixOne / k
    expSeries m x (k + 1) t (acc + t)

/-- 2 to the power of `n / d`. -/
def f64exp2 (n : Int) (d : Nat) : F64 :=
  let frac := (n % (d : Int)) * lnFix 2 1 / d
  b64 (Num.ofInt (expSeries 80 frac 1 fixOne fixOne) (n / (d : Int) - 300))

/-- cos(2 pi n / d), correctly rounded (R239). -/
def cosTurn (n d : Nat) : F64 :=
  b64 (Num.ofInt (nearestDiv (cosFix (2 * piFixed * (n % d) / d)) (2 ^ 40)) (-260))
/-- sin(2 pi n / d), correctly rounded. -/
def sinTurn (n d : Nat) : F64 := cosTurn (4 * (n % d) + 3 * d) (4 * d)

end Sys2Proof
end

