-- ==== Sys2Proof/Machine/Slots.lean ====
section
/-! DEFINITION. What a measurement block holds, and how the signal map turns it into slot values and arrivals (R150,
R155 to R158, R196). Also how a decision is handed to the alarm unit (R281, R282). -/
namespace Sys2Proof.Machine
open Sys2Proof

def f64pi : F64 := 0x400921FB54442D18#64
def f64two : F64 := f64ofInt 2
def f64twoPi : F64 := f64mul f64two f64pi

/-- An angle wrapped to the range above -pi and up to pi (R157), by whole turns of F64 2 pi; one that is not finite stays so. -/
def wrapAngle (a : F64) : F64 :=
  if !f64lt f64pi a && f64lt (f64neg f64pi) a then a
  else
    let (x, turn) := Num.pair (n64 a) (n64 f64twoPi)
    let y := Num.ofInt (-((x + turn / 2) / max 1 turn)) 0
    let b := b64 (Num.add (n64 a) (Num.mul y (n64 f64twoPi)))
    if f64finite b && f64le b (f64neg f64pi) then f64pi else b

/-- One quantity of a block in SI units, with its condition and quality. -/
structure Quant where
  val  : F64
  cond : Cond
  qual : Qual
  deriving DecidableEq, Repr

/-- One phasor: magnitude, angle, real and imaginary parts. -/
structure Phas where
  mag  : F64
  ang  : F64
  re   : F64
  im   : F64
  cond : Cond
  qual : Qual
  deriving DecidableEq, Repr

/-- A phasor from its rectangular or its polar form. -/
def phasRect (re im : F64) (cond : Cond) (q : Qual) : Phas :=
  { mag := f64sqrt (f64add (f64mul re re) (f64mul im im)), ang := f64atan2 im re, re := re, im := im, cond := cond, qual := q }
def phasPolar (mag ang : F64) (cond : Cond) (q : Qual) : Phas :=
  { mag := mag, ang := ang, re := f64mul mag (f64cos ang), im := f64mul mag (f64sin ang), cond := cond, qual := q }

/-- A PMU block of a context, as a frame or an estimator gives it. -/
structure Block where
  phasors : List Phas
  freq    : Quant
  rocof   : Quant
  analogs : List Quant
  digitals : List Quant
  qual    : Qual
  deriving DecidableEq, Repr

/-- A quantity of a block by kind and index, with the negate bit (R155, R157). -/
def Block.quantity (b : Block) (kind i : Nat) (neg : Bool) : Option Quant :=
  let s := fun (x : F64) => if neg then f64neg x else x
  match kind with
  | 0 => (b.phasors[i]?).map (fun p => ⟨p.mag, p.cond, p.qual⟩)
  | 1 => (b.phasors[i]?).map (fun p => ⟨wrapAngle (if neg then f64add p.ang f64pi else p.ang), p.cond, p.qual⟩)
  | 2 => (b.phasors[i]?).map (fun p => ⟨s p.re, p.cond, p.qual⟩)
  | 3 => (b.phasors[i]?).map (fun p => ⟨s p.im, p.cond, p.qual⟩)
  | 4 => if i = 0 then some b.freq else none
  | 5 => if i = 0 then some { b.rocof with val := s b.rocof.val } else none
  | 6 => (b.analogs[i]?).map (fun q => { q with val := s q.val })
  | 7 => b.digitals[i]?
  | _ => none

/-- A valid entry of the signal map (R155). -/
structure MapRec where
  ctx   : Nat
  block : Nat
  neg   : Bool
  kind  : Nat
  index : Nat
  slot  : Nat
  scale : F32
  mask  : Nat
  deriving DecidableEq, Repr

/-- The valid entries of the signal map, in record order. -/
def mapRecs (c : Cf) : List MapRec :=
  (((c.recs 0x4300 1 16).insertionSort (· ≤ ·)).filter (fun r => bit (c.u 0x4300 1 (16 * r) 2) 15)).map (fun r =>
    let u := fun off n => c.u 0x4300 1 (16 * r + off) n
    { ctx := u 0 2 % 4096, block := u 2 1, neg := bit (u 3 1) 0, kind := u 4 2 / 4096, index := u 4 2 % 4096, slot := u 6 2 % 8192,
      scale := BitVec.ofNat 32 (u 8 4), mask := u 12 2 })

/-- Write slots (R158). -/
def writeSlots (vs : List Slotted) (at_ : Stamp) (s : State) : State :=
  let gen := (s.cfFor at_).2
  { s with ing := { s.ing with slots := vs.foldl (fun t v => Table.put t v.slot ⟨v, at_, gen⟩) s.ing.slots } }

/-- The slot values a block of a context gives through the signal map of a configuration (R157, R158). -/
def mapBlock (c : Cf) (ctx block : Nat) (b : Block) : List Slotted :=
  ((mapRecs c).filter (fun m => m.ctx = ctx && m.block = block)).filterMap (fun m =>
    match b.quantity m.kind m.index m.neg with
    | none => none
    | some q =>
      let v := f32of64 (f64mul (f64of32 m.scale) q.val)
      let cond := if f64finite q.val && f32finite v then q.cond else q.cond ||| 1#16
      some { slot := m.slot, ctx := ctx, val := v, cond := cond, qual := q.qual, valid := cond &&& BitVec.ofNat 16 m.mask = 0#16 })

/-- The alarms whose source is of a kind and instance (R282). -/
def alarmsOf (c : Cf) (kind inst : Nat) : List Nat :=
  ((c.recs 0x7810 1 16).insertionSort (· ≤ ·)).filter (fun a => a < 512 && bit (c.u 0x7810 1 (16 * a) 1) 0 && c.u 0x7810 1 (16 * a + 1) 1 = kind && c.u 0x7810 1 (16 * a + 2) 2 = inst)

/-- A decision of a source is handed to its alarms, as the configuration of its instant names them (R17); the alarm unit applies
it in a step of its own (R283). -/
def handDecision (kind inst : Nat) (final : Bool) (d : Decision) (s : State) : State :=
  { s with alm := { s.alm with inbox := s.alm.inbox ++ (alarmsOf (s.cfFor d.at_).1 kind inst).map (fun a => ⟨a, final, d⟩) } }

/-! ## UTC (R96 to R98) -/

/-- The UTC offset of a TAI second: the one in force, on the far side of the last leap the one before it, and from the next
leap on the one after it (R97). -/
def TimeU.offsetAt (t : TimeU) (sec : Int) : Int :=
  if t.leapDone && sec < (t.doneAt / 1000000000 : Nat) then (if t.doneDel then t.utc + 1 else t.utc - 1)
  else if (t.leapAt / 1000000000 : Nat) ≤ sec then (match t.leap with | 1 => t.utc + 1 | 2 => t.utc - 1 | _ => t.utc)
  else t.utc

/-- The SOC of a TAI second: in an inserted second that of 23:59:59 again (R97). -/
def State.socOf (s : State) (sec : Nat) : Nat := (sec - s.time.offsetAt sec).toNat

/-- The TAI second of an SOC (R98): of the offsets in force around the known leaps, the one that is in force at the second it
gives. The SOC of 23:59:59 on a day of an insertion names two seconds: its leap-occurred bit says which. -/
def State.taiOf (s : State) (soc : Nat) (occurred : Bool) : Nat :=
  let u := s.time.utc
  let fits := ([u - 1, u, u + 1].map (fun o => (soc : Int) + o)).filter (fun t => t - s.time.offsetAt t = soc)
  ((if occurred then fits.getLast? else fits.head?).getD ((soc : Int) + u)).toNat

end Sys2Proof.Machine
end

