-- ==== Sys2Proof/Machine/Hr.lean ====
section
/-! DEFINITION. Hedgerow (R340 to R368): lanes, cycles, registration, delay, offset, uplink, trigger bus relay; and its
commands. -/
namespace Sys2Proof.Machine
open Sys2Proof

/-- Element `i` of a list set to `v`. -/
def listSet {α : Type} (xs : List α) (i : Nat) (v : α) : List α :=
  (List.range (max xs.length (i + 1))).map (fun k => if k = i then v else xs.getD k v)
def State.setHr (s : State) (h : HrU) : State := { s with hr := h }

/-- Hedgerow runs (R363, R70); while its reset's status reads 2, workers register (R556). -/
def State.hrRuns (s : State) (role : Nat) : Bool :=
  s.hasHr && s.hrRole = role && s.mode.cur.configures && Table.getD s.rst.status 0x0E 0 != 1

def State.lossNs (s : State) : Nat := s.cf.u 0xE000 8 0 1 * 100000
def State.myNumber (s : State) : Nat := s.cf.u 0xE000 2 0 1
def wkValid (c : Cf) (w : Nat) : Bool := w < 16 && bit (wkF c w 0 1) 0
/-- A_s of a lane (R365). -/
def wkAsym (c : Cf) (w lane : Nat) : Int := c.i 0xE100 1 (32 * w + 16 + 4 * lane) 4

/-- Number `b` comes after number `a`, as frames are numbered (R344). -/
def seqAfter (a b : Nat) : Bool := let d := (b + 2 ^ 32 - a) % 2 ^ 32; decide (0 < d ∧ d < 2 ^ 31)

/-- Forget the copies received from a source. -/
def forgetSource (src : Nat) (s : State) : State := s.setHr { s.hr with rx := Table.keep s.hr.rx (fun k _ => k / 256 != src) }

/-- A copy of a frame is received (R350, R367): counted by its CRC; the answer says whether it is the first good copy. `both`: the
second copy is of use too and is not discarded. A number missing on both lanes is counted; a lane that this source has not been heard
on for the loss time brings nothing any more. -/
def takeCopy (src type lane seq : Nat) (crcOk both : Bool) (s : State) : Bool × State :=
  if !crcOk then (false, count 0xE080 2 s)
  else
    let key := src * 256 + type
    let x := Table.getD s.hr.rx key {}
    let other := 1 - lane
    let up := if src = 0x10 then s.hr.laneUp.getD other false else match (s.wkr src).burstAt.getD other none with
      | some t => decide (s.elapsed < t + s.lossNs)
      | none => false
    let brought := fun (n : Nat) => match x.last.getD other none with
      | some l => !seqAfter l n && !x.gaps.contains (other, n)
      | none => false
    let own := match x.last.getD lane none with | some l => !seqAfter l seq && !x.gaps.contains (lane, seq) | none => false
    let skipped := match x.last.getD lane none with
      | some l => if seqAfter l seq then (span 1 (min 257 ((seq + 2 ^ 32 - l) % 2 ^ 32))).map (fun k => (l + k) % 2 ^ 32) else []
      | none => []
    let open_ := skipped.filter (fun n => !brought n)
    let late := if up then [] else (x.gaps.filter (fun g => g.1 = lane && g.2 != seq)).map (·.2)
    let gone := open_.filter (fun n => !up || x.gaps.contains (other, n)) ++ late
    let kept := x.gaps.filter (fun g => !(g.1 = other && (gone.contains g.2 || g.2 = seq)) && !(g.1 = lane && (g.2 = seq || late.contains g.2)))
    let gaps := kept ++ (open_.filter (fun n => !gone.contains n)).map (fun n => (lane, n))
    let last := match x.last.getD lane none with | some l => if seqAfter l seq then seq else l | none => seq
    let y : HrSeen := { last := (List.range 2).map (fun i => if i = lane then some last else x.last.getD i none), gaps := gaps.drop (gaps.length - 512) }
    let s1 := countN 0xE080 4 gone.length (count 0xE080 1 (s.setHr { s.hr with rx := Table.set s.hr.rx key y {} }))
    if brought seq || own then (false, if both then s1 else count 0xE080 3 s1) else (true, s1)

/-- The next sequence number of a frame type from this device (R344). -/
def takeSeq (type : Nat) (s : State) : Nat × State :=
  let n := Table.getD s.hr.txSeq type 0
  (n, s.setHr { s.hr with txSeq := Table.set s.hr.txSeq type ((n + 1) % 2 ^ 32) 0 })

/-- A frame on the wire (R344). -/
def hrFrame (src type seq : Nat) (payload : Bytes) : Bytes :=
  let b := toBE 1 type ++ toBE 1 src ++ toBE 2 payload.length ++ toBE 4 seq ++ payload
  b ++ toBE 4 (crc32 b)

/-- The level of H0_BURST_EN or H1_BURST_EN (R341): high while the lane transmits, which a manager does continuously and a worker
in its bursts; low in power hold. -/
def State.burstEnable (s : State) (lane : Nat) : Bool :=
  let (a, b) := s.hr.pulse.getD lane (0, 0)
  s.runs && s.hasHr && !s.fenced 18 lane && (s.hrRuns 2 || (s.hrRuns 1 && a ≤ s.elapsed && s.elapsed < b))

/-- A worker's state changes on the manager (R351). -/
def setWkState (w st : Nat) (s : State) : State :=
  let x := s.wkr w
  if x.state = st then s else raise 0xA1 w st (s.setWkr w { x with state := st })

/-- A worker's own state changes (R351). -/
def setMgrState (st : Nat) (s : State) : State := if s.hr.state = st then s else raise 0xA2 0 st (s.setHr { s.hr with state := st })

/-- Every line at level 1 falls at the moment (R361). -/
def forcedFalls (s : State) : State :=
  each ((List.range 16).filter (fun l => (s.line l).level)) (fun l st =>
    let t : Tick := ⟨st.time.gen, 8 * st.time.tai⟩
    edgeToUnits 5 l false t (count 0xE080 8 (st.setLine l { st.line l with level := false, last := 8 * st.time.tai }))) s

/-- A lane has received something valid: it is up (R351). -/
def laneSeen (lane : Nat) (s : State) : State :=
  let up := s.hr.laneUp.getD lane false
  let s1 := s.setHr { s.hr with laneUp := listSet s.hr.laneUp lane true, laneAt := listSet s.hr.laneAt lane (some s.elapsed) }
  when (!up) (raise 0xA0 lane 1) s1

/-! ## Manager: cycles, bursts, registration -/

/-- The valid workers that are not registered. -/
def State.unregistered (s : State) : List Nat := (List.range 16).filter (fun w => wkValid s.cf w && (s.wkr w).state != 2)

/-- An edge in a cycle header (R345). -/
def edgeBytes (e : LineEdge) : Bytes :=
  toBE 1 e.line ++ toBE 1 (b2n e.level) ++ toBE 1 (e.at_.t8 % 8) ++ [0#8] ++ time80 (e.at_.t8 / 8) ++ zeros 2

/-- The payload of a cycle header on a lane (R345). A worker that no EqD has been assigned has 0 there (log entry 208). -/
def State.headerBytes (s : State) (lane c m : Nat) (invited : Option Nat) (quiet : Bool) (edges : List LineEdge) : Bytes :=
  let u := c % 16
  let x := s.wkr u
  let ident := match invited with | some w => wkF s.cf w 8 8 | none => 0
  toBE 2 c ++ toBE 2 s.time.gen.toNat ++ time80 m ++ toBE 2 s.ownQual.toNat ++ toBE 1 (invited.getD 0xFF) ++ toBE 1 (b2n quiet) ++ toBE 8 ident ++
    toBE 1 u ++ [0#8] ++ toBE 4 (x.eqd.getD lane 0) ++ toBEi 4 (x.down.getD lane 0) ++ toBE 2 edges.length ++ (edges.map edgeBytes).flatten

/-- The EqD of every lane that has been ranged has gone out (R348). -/
def Worker.informed (x : Worker) : Bool :=
  x.ranged && x.told.any id && [0, 1].all (fun l => (x.rts.getD l none).isNone || x.told.getD l false)

/-- The header of the cycle before announced no bursts for it (R347): a discovery window is open. -/
def State.windowOpen (s : State) (m : Nat) : Bool :=
  s.hr.m + 100000 = m && (match s.hr.frames with | f :: _ => (f.bytes.getD 25 0#8).getLsbD 0 | [] => false)

/-- The header to worker `w` carries its EqD of each lane (R343, R349): in force from the burst of that cycle on. -/
def Worker.sendEqd (x : Worker) (m : Nat) : Worker :=
  { x with sent := [0, 1].map (fun l =>
      let (b, e, t) := x.sent.getD l (0, 0, 0)
      if x.eqd.getD l 0 = e then (b, e, t) else (e, x.eqd.getD l 0, m)) }

/-- EqD in force for the burst of the cycle that began at M. -/
def Worker.eqdAt (x : Worker) (lane m : Nat) : Nat := let (b, e, t) := x.sent.getD lane (0, 0, 0); if t ≤ m then e else b

/-- CYCLE_START (R343, R347): own time has reached a new cycle. A worker whose EqD went out in the cycle before is
registered from this one (R348). -/
def cycleStart (s : State) : State :=
  let m := s.time.tai / 100000 * 100000
  if s.hrRuns 2 && m != s.hr.m then
    let s1 := each ((List.range 16).filter (fun w => (s.wkr w).informed)) (fun w st =>
      setWkState w 2 ((forgetSource w st).setWkr w { st.wkr w with ranged := false, told := [false, false], bursts := [[], []], burstAt := [some st.elapsed, some st.elapsed] })) s
    let c := m % 1000000000 / 100000
    let un := s1.unregistered
    let quiet := !un.isEmpty && (c % 100 = 97 || (97 < c % 100 && s.windowOpen m))
    let invited := if c % 100 = 0 && s.windowOpen m then (match un.find? (s1.hr.nextInvite ≤ ·) with | some w => some w | none => un.head?) else none
    let edges := s1.bus.out.take 64
    let (q, s2) := takeSeq 1 s1
    let s2 := match invited with | some w => s2.setWkr w { s2.wkr w with rts := [none, none], ranged := false, told := [false, false], eqd := [0, 0] } | none => s2
    let frames := [0, 1].map (fun l => ({ seq := q, lane := some l, bytes := hrFrame 0x10 1 q (s2.headerBytes l c m invited quiet edges) } : HrFrame))
    let u := c % 16
    let x := if wkValid s2.cf u then (s2.wkr u).sendEqd m else s2.wkr u
    let s3 := s2.setWkr u (if x.ranged then { x with told := x.rts.map Option.isSome } else x)
    { s3 with hr := { s3.hr with cycle := c, m := m, asked := (invited.map (fun w => (w, m))).orElse (fun _ => s3.hr.asked), nextInvite := (match invited with | some w => w + 1 | none => s3.hr.nextInvite), frames := frames },
              bus := { s3.bus with out := s3.bus.out.drop 64 } }
  else s
def execCycleStart (dt : Nat) (s : State) : Host.Outcome State Fault Refusal := .next (s.act [.events, .bus, .hr] dt cycleStart)

/-- RANGING_RESPONSE (R348): the response of the invited worker on one lane, stamped from the island (R36); the second copy gives the
arrival on its lane and is discarded else (R350). `seq`: its sequence number, none when its CRC fails. -/
def rangingResponse (w identity lane : Nat) (seq : Option Nat) (s : State) : State :=
  if s.hrRuns 2 && lane < 2 && w < 16 && !s.fenced 18 lane then
    let s1 := (takeCopy w 0x14 lane (seq.getD 0) seq.isSome false s).2
    match s.hr.asked with
    | none => s1
    | some (who, m) =>
      if seq.isSome && wkValid s.cf w && (s.wkr w).state != 2 && who = w && identity = wkF s.cf w 8 8 then
        let x := s1.wkr w
        let rts := listSet x.rts lane (some (s.time.tai - m - 6000))
        let rt := fun (l : Nat) => rts.getD l none
        let far := [0, 1].any (fun l => match rt l with
          | some r => decide (200000 < (r : Int) + wkAsym s.cf w l ∨ 200000 < (r : Int) - wkAsym s.cf w l)
          | none => false)
        if far then
          let most := [0, 1].foldl (fun a l => max a ((rt l).getD 0)) 0
          raise 0xA4 w (2 * 2 ^ 24 + satBits 16 (most / 1000)) (s1.setWkr w { x with reach := true, ranged := false, rts := rts })
        else
          s1.setWkr w { x with reach := false, ranged := true, rts := rts,
                               eqd := [0, 1].map (fun l => match rt l with | some r => 250000 - r | none => x.eqd.getD l 0),
                               down := [0, 1].map (fun l => match rt l with | some r => ((r : Int) + wkAsym s.cf w l) / 2 | none => x.down.getD l 0) }
      else s1
  else s
def execRangingResponse (dt w identity lane : Nat) (seq : Option Nat) (s : State) : Host.Outcome State Fault Refusal :=
  .next (s.act [.events, .stats, .hr] dt (rangingResponse w identity lane seq))

/-- M of the cycle that a burst of worker `w` arriving at `t` belongs to: its due arrival is M + 250 µs + w × 6 µs (R343). -/
def burstCycle (t w : Nat) : Nat := (t - (250000 + 6000 * w) + 50000) / 100000 * 100000

/-- BURST_RECEIVE (R36, R349, R351): a burst's arrival, stamped from the island, against M of its cycle. A valid burst, one with a
frame whose CRC is good, keeps its lane up (DEDUCED, log entry 192). Each of the last 16 bursts counts less the EqD it was sent
under; when the average under the EqD assigned last departs by more than 8 ns from its due value, EqD is set anew (log entry 40). -/
def burstReceive (lane w : Nat) (valid : Bool) (s : State) : State :=
  if s.hrRuns 2 && lane < 2 && w < 16 && (s.wkr w).state = 2 && !s.fenced 18 lane then
    let s1 := when valid (laneSeen lane) s
    let x := s1.wkr w
    let m := burstCycle s.time.tai w
    let bs := (((s.time.tai : Int) - m - x.eqdAt lane m) :: x.bursts.getD lane []).take 16
    let rt := nearestDiv (bs.foldl (· + ·) 0) bs.length - 6000 * w
    let down := (rt + wkAsym s.cf w lane) / 2
    let off := 8 < (rt + x.eqd.getD lane 0 - 250000).natAbs
    s1.setWkr w { x with bursts := listSet x.bursts lane bs, burstAt := listSet x.burstAt lane (some s.elapsed),
                         down := listSet x.down lane down, eqd := if off then listSet x.eqd lane (250000 - rt).toNat else x.eqd }
  else s
def execBurstReceive (dt lane w : Nat) (valid : Bool) (s : State) : Host.Outcome State Fault Refusal := .next (s.act [.events, .hr] dt (burstReceive lane w valid))

/-- Frames of a registered worker are taken. -/
def State.takesFrom (s : State) (w : Nat) : Bool := s.hrRuns 2 && w < 16 && (s.wkr w).state = 2

/-- A copy of a worker's frame is counted (R350, R367); of a registered worker, the first good one has its effect. -/
def fromWorker (type : Nat) (rx : HrRx) (f : State → State) (s : State) : State :=
  if s.hrRuns 2 && rx.worker < 16 && rx.lane < 2 && !s.fenced 18 rx.lane then
    let (first, s1) := takeCopy rx.worker type rx.lane rx.seq rx.crcOk false s
    if first && s.takesFrom rx.worker then f s1 else s1
  else s

/-- DRIVE_FRAME (R359): converted to manager time as t - o_w, and merged. -/
def driveFrame (w line rise8 len : Nat) (s : State) : State :=
  if line < 16 then
    let (e, s1) := mergeDrive line ((rise8 : Int) - 8 * (s.wkr w).offset).toNat (8 * len) s
    match e with
    | some e => edgeToUnits 5 e.line e.level e.at_ s1
    | none => s1
  else s
def execDriveFrame (dt : Nat) (rx : HrRx) (line riseNs8 lenNs : Nat) (s : State) : Host.Outcome State Fault Refusal :=
  .next (s.act [.events, .stats, .acq, .bus, .hr] dt (fromWorker 0x10 rx (driveFrame rx.worker line riseNs8 lenNs)))

/-- o_w as the parameter of EV_HR_OFFSET: an I32, saturating. -/
def offsetParam (o : Int) : Nat := ofBE (toBEi 4 (max (-2147483648) (min 2147483647 o)))

/-- OFFSET_REPORT (R353). -/
def offsetReport (w : Nat) (o : Int) (usable : Bool) (s : State) : State :=
  let x := s.wkr w
  let lim := s.cf.u 0xE000 6 0 4
  let y := { x with offset := o }
  if !usable then s.setWkr w y
  else if bit (wkF s.cf w 0 1) 1 && lim < o.natAbs then
    let s1 := s.setWkr w { y with above := true, clearSince := none }
    when (!x.above) (raise 0xA3 w (offsetParam o)) s1
  else s.setWkr w { y with clearSince := if x.above && 2 * o.natAbs ≤ lim then some (x.clearSince.getD s.elapsed) else none }
def execOffsetReport (dt : Nat) (rx : HrRx) (offset : Int) (usable : Bool) (_qual _gen : BitVec 16) (s : State) : Host.Outcome State Fault Refusal :=
  .next (s.act [.events, .stats, .hr] dt (fromWorker 0x11 rx (offsetReport rx.worker offset usable)))

/-- OFFSET_CLEAR (R353): usable offsets have stayed at or below half the limit for 1 s. -/
def offsetClear (w : Nat) (s : State) : State :=
  let x := s.wkr w
  match x.clearSince with
  | some t => if x.above && t + 1000000000 ≤ s.elapsed then raise 0xA3 w (offsetParam x.offset) (s.setWkr w { x with above := false, clearSince := none }) else s
  | none => s
def execOffsetClear (dt w : Nat) (s : State) : Host.Outcome State Fault Refusal := .next (s.act [.events, .hr] dt (offsetClear w))

/-- The values of a worker's close in manager slots (R353, R357). -/
def State.uplinkVals (s : State) (c : Cf) (w : Nat) (vs : List SlotVal) : List Slotted :=
  let recs := ((c.recs 0xE200 1 8).insertionSort (· ≤ ·)).filter (fun r => bit (c.u 0xE200 1 (8 * r) 2) 15 && c.u 0xE200 1 (8 * r) 2 % 16 = w)
  recs.filterMap (fun r =>
    (vs.find? (fun v => v.slot = c.u 0xE200 1 (8 * r + 2) 2 % 8192)).map (fun v =>
      ({ slot := c.u 0xE200 1 (8 * r + 4) 2 % 8192, ctx := 0x8000 + w, val := v.val, cond := v.cond,
         qual := if (s.wkr w).above then v.qual ||| 0x20#16 else v.qual, valid := !v.cond.getLsbD 0 } : Slotted)))

/-- The slot values that follow the item of a close (R207, R345). -/
def closeVals (b : Bytes) : List SlotVal :=
  (List.range ((b.length - 64) / 12)).map (fun i =>
    let f := fun (off n : Nat) => field b (64 + 12 * i + off) n
    { val := BitVec.ofNat 32 (f 0 4), cond := BitVec.ofNat 16 (f 4 2), qual := BitVec.ofNat 16 (f 6 2), slot := f 8 2, ctx := f 10 2 })

/-- A worker's close has arrived whole (R356, R363). It carries its reporting instant in the worker's time, and is taken in the
manager's own generation. -/
def workerClose (w rate : Nat) (b : Bytes) (s : State) : State :=
  let tr := field b 10 6 * 1000000000 + field b 16 4
  let at_ : Stamp := ⟨s.time.gen, tr⟩
  let c := (s.cfFor at_).1
  let x := s.wkr w
  let bad := (List.range 16).filter (fun g => agFlag c g 0 && isMember c g (0x8000 + w) && rate % agRate c g != 0)
  let s1 := count 0xE080 5 (satEvent x.received 1 (recKey 0xE280 w 30) 0xA5 0 (w * 40 + 30) (s.setWkr w { x with frags := none, rate := rate, received := satCount x.received 1 }))
  let s2 := if x.rate != rate then each bad (fun g st => raise 0x55 g (0x8000 + w) st) s1 else s1
  if !s2.forming then count 0xE080 6 s2
  else
    let vals := s2.uplinkVals c w (closeVals b)
    arrive (0x8000 + w) tr vals (worstQual (s2.ownQualAt tr) (vals.map (·.qual))) (writeSlots vals at_ s2)

/-- SET_FRAGMENT (R350, R356): fragment `i` of a close has the number of the first one plus `i`. The last fragment to arrive is the
worker's arrival. -/
def setFragment (w seq : Nat) (f : Fragment) (s : State) : State :=
  if f.index < f.count then
    let x := s.wkr w
    let base := (seq + 2 ^ 32 - f.index) % 2 ^ 32
    let old := match x.frags with | some (q, fs) => if q = base then fs else [] | none => []
    let fs := (f.index, f.chunk) :: old.filter (fun p => p.1 != f.index)
    if fs.length < f.count then s.setWkr w { x with frags := some (base, fs) }
    else workerClose w f.rate ((List.range f.count).map (fun i => ((fs.find? (fun p => p.1 = i)).map (·.2)).getD [])).flatten s
  else s
def execSetFragment (dt : Nat) (rx : HrRx) (f : Fragment) (s : State) : Host.Outcome State Fault Refusal := .next (s.act [.events, .stats, .free, .queues, .sched, .acq, .bus, .slots, .align, .hr] dt (fromWorker 0x12 rx (setFragment rx.worker rx.seq f)))

/-- SUMMARY_FRAME (R345, R363): the latest summary of its kind replaces the one before as a whole. -/
def summaryFrame (w : Nat) (x : Summary) (s : State) : State :=
  if 1 ≤ x.kind && x.kind ≤ 4 then
    s.setHr { s.hr with summary := Table.put s.hr.summary (w * 8 + x.kind) (toBE 1 x.kind ++ toBE 2 x.num ++ [0#8] ++ x.body) }
  else s
def execSummaryFrame (dt : Nat) (rx : HrRx) (x : Summary) (s : State) : Host.Outcome State Fault Refusal := .next (s.act [.events, .stats, .hr] dt (fromWorker 0x13 rx (summaryFrame rx.worker x)))

/-- WORKER_LOST (R351): no burst on either lane for the loss time. -/
def workerLost (w : Nat) (s : State) : State :=
  let x := s.wkr w
  let silent := x.burstAt.all (fun t => match t with | some t => decide (t + s.lossNs ≤ s.elapsed) | none => true)
  if s.takesFrom w && silent then
    setWkState w 3 ((forgetSource w s).setWkr w { x with frags := none, bursts := [[], []], clearSince := none }) else s
def execWorkerLost (dt w : Nat) (s : State) : Host.Outcome State Fault Refusal := .next (s.act [.events, .hr] dt (workerLost w))

/-- LANE_LOSS (R351). -/
def laneLoss (lane : Nat) (s : State) : State :=
  let silent := match s.hr.laneAt.getD lane none with | some t => decide (t + s.lossNs ≤ s.elapsed) | none => true
  if (s.hrRuns 1 || s.hrRuns 2) && s.hr.laneUp.getD lane false && silent then
    raise 0xA0 lane 0 (s.setHr { s.hr with laneUp := listSet s.hr.laneUp lane false })
  else s
def execLaneLoss (dt lane : Nat) (s : State) : Host.Outcome State Fault Refusal := .next (s.act [.events, .hr] dt (laneLoss lane))

/-! ## Worker -/

/-- A worker registers, or its line source changes back (R361): the lines at level 1 fall at that moment, and what a fall makes a unit
drive goes the new way. -/
def toRemote (on : Bool) (s : State) : State := forcedFalls { s with bus := { s.bus with remote := on, drives := [] } }

/-- The samples of o_w (R36, R352), in ns: the receive stamp, taken from the island, less M and d_down. -/
def offsetSample (lane : Nat) (h : CycleHeader) (s : State) : State :=
  let use_ := if s.hr.laneUp.getD 0 false then 0 else 1
  if lane != use_ || s.hr.state != 3 then s
  else
    let calm := fun (t : Option Nat) => match t with | some t => decide (t + 1000000000 ≤ s.elapsed) | none => true
    let ok := !s.time.unlocked && !h.qual.getLsbD 5 && calm s.hr.stepAt && calm s.hr.mgrStepAt
    let x : Int := (s.time.tai : Int) - (h.mNs + s.hr.down.getD lane 0 : Nat)
    let xs := if ok then (x :: s.hr.samples).take 16 else s.hr.samples
    let o := if ok then nearestDiv (xs.foldl (· + ·) 0) xs.length else s.hr.offset
    s.setHr { s.hr with samples := xs, offset := o, usable := ok }

/-- The payload of a ranging response (R345). -/
def State.rangeBytes (s : State) : Bytes := toBE 8 Config.hrIdentity.toNat ++ toBE 1 s.myNumber

/-- What only the first good copy of a header gives: registration, invitation, burst flag, line edges. A generation other than that
of the header before is a step of the manager's time; `fresh`: no header came before. A registered worker that is invited has been lost
to the manager: it answers, and registers again under the EqD it is then sent (R348, R351). -/
def headerFirst (fresh : Bool) (h : CycleHeader) (s : State) : State :=
  let lanes := [0, 1].filter (fun l => s.hr.laneUp.getD l false)
  let s1 := if (s.hr.state = 2 || s.hr.state = 3) && s.hr.answered && !lanes.isEmpty && lanes.all (fun l => s.hr.eqdSeen.getD l false) then
      toRemote true (setMgrState 3 (s.setHr { s.hr with answered := false, samples := [], usable := false })) else s
  let s2 := s1.setHr { s1.hr with frames := [], mgrStepAt := if fresh then none else if h.gen != s1.hr.mgrGen then some s1.elapsed else s1.hr.mgrStepAt,
                                  mgrGen := h.gen, mgrUnlocked := h.qual.getLsbD 5 }
  let s3 := if h.invited = some s2.myNumber then
      if h.identity = Config.hrIdentity.toNat then s2.setHr { s2.hr with invSeq := some h.seq, idBad := false, answered := true, eqdSeen := [false, false] }
      else raise 0xA4 s2.myNumber (2 ^ 24) (s2.setHr { s2.hr with idBad := true })
    else s2
  if s3.hr.state = 3 then
    each h.edges (fun (l, lv, t8) st =>
      let t : Tick := ⟨st.time.gen, ((t8 : Int) + 8 * st.hr.offset).toNat⟩
      edgeToUnits 5 l lv t (st.setLine l { level := lv, fall := 0, last := t.t8 })) s3
  else s3

/-- The burst that answers a header on a lane (R343): it starts EqD and w × 6 µs after the header's receive stamp. -/
def oweBurst (lane : Nat) (h : CycleHeader) (s : State) : State :=
  if s.hr.state = 3 && !h.noBursts && s.hr.eqdSeen.getD lane false then
    s.setHr { s.hr with dues := s.hr.dues ++ [⟨lane, h.seq, s.elapsed + s.hr.eqd.getD lane 0 + 6000 * s.myNumber, h.mNs / 100000⟩] }
  else s

/-- The ranging response on a lane (R348): it starts 6 µs after the lane's header, and has arrived within 1 µs of its start
(R347). -/
def answer (lane seq : Nat) (s : State) : State :=
  if s.hr.invSeq = some seq then
    let (q, t) := if s.hr.frames.isEmpty then takeSeq 0x14 s else ((s.hr.frames.headD ⟨0, none, []⟩).seq, s)
    t.setHr { t.hr with frames := t.hr.frames ++ [{ seq := q, lane := some lane, bytes := hrFrame s.myNumber 0x14 q t.rangeBytes }],
                        pulse := listSet t.hr.pulse lane (s.elapsed + 6000, s.elapsed + 7000) }
  else s

/-- CYCLE_HEADER_RECEIVE (R343, R348, R350, R352, R360). A header that addresses this worker with an EqD of 0 assigns none: the least
is 50 µs, as no round trip passes 200 µs (log entry 208). -/
def headerReceive (lane : Nat) (h : CycleHeader) (s : State) : State :=
  if !(s.hrRuns 1 && lane < 2) || s.fenced 18 lane then s
  else if !h.crcOk then (takeCopy 0x10 1 lane h.seq false true s).2
  else
    let (first, s1) := takeCopy 0x10 1 lane h.seq true true (laneSeen lane s)
    let s2 := if s1.hr.state = 2 || s1.hr.state = 3 then s1 else setMgrState 2 (s1.setHr { s1.hr with answered := false })
    let s3 := when first (headerFirst (s.hr.state = 1) h) s2
    let s4 := if h.worker = s3.myNumber && h.eqd != 0 && (s3.hr.answered || s3.hr.state = 3) && s3.hr.invSeq != some h.seq then
        s3.setHr { s3.hr with eqd := listSet s3.hr.eqd lane h.eqd, down := listSet s3.hr.down lane h.dDown, eqdSeen := listSet s3.hr.eqdSeen lane true } else s3
    offsetSample lane h (answer lane h.seq (oweBurst lane h s4))
def execCycleHeaderReceive (dt lane : Nat) (h : CycleHeader) (s : State) : Host.Outcome State Fault Refusal := .next (s.act [.events, .stats, .acq, .bus, .hr] dt (headerReceive lane h))

/-- The frames of a burst in the order of R346, within 6500 bytes: `room` bytes are left. -/
def State.fillDrives (s : State) (ds : List (Nat × Tick)) (room : Nat) : List Bytes × List (Nat × Tick) × Nat :=
  match ds with
  | [] => ([], [], room)
  | (l, t) :: r =>
    if room < 32 then ([], (l, t) :: r, room)
    else
      let body := toBE 1 l ++ toBE 1 (t.t8 % 8) ++ zeros 2 ++ toBE 2 t.gen.toNat ++ time80 (t.t8 / 8) ++ toBE 4 (s.cf.u 0xE000 7 0 4)
      let (bs, rest, left) := s.fillDrives r (room - 32)
      (body :: bs, rest, left)

/-- Fragment count of a close. -/
def fragCount (n : Nat) : Nat := (n + 6471) / 6472

/-- Set fragments that fit; `n` bounds their number. The closes left, and how many were sent whole. -/
def fillFrags (up : List UpClose) (room n : Nat) : List Bytes × List UpClose × Nat × Nat :=
  match n with
  | 0 => ([], up, 0, room)
  | k + 1 =>
    match up with
    | [] => ([], [], 0, room)
    | u :: r =>
      let total := fragCount u.bytes.length
      let chunk := slice u.bytes (6472 * u.sent) 6472
      let size := 20 + chunk.length
      if room < size then ([], u :: r, 0, room)
      else
        let body := toBE 2 u.sent ++ toBE 2 total ++ toBE 1 u.rate ++ zeros 3 ++ chunk
        let whole := total ≤ u.sent + 1
        let (bs, left, done, room') := fillFrags (if whole then r else { u with sent := u.sent + 1 } :: r) (room - size) k
        (body :: bs, left, done + b2n whole, room')

/-- Summaries that fit. -/
def fillSums (ss : List (Nat × Nat × Bytes)) (room : Nat) : List Bytes × List (Nat × Nat × Bytes) :=
  match ss with
  | [] => ([], [])
  | (k, n, b) :: r =>
    if room < 16 + b.length then ([], (k, n, b) :: r)
    else
      let (bs, rest) := fillSums r (room - (16 + b.length))
      ((toBE 1 k ++ toBE 2 n ++ [0#8] ++ b) :: bs, rest)

/-- Number frames of a type. -/
def numbered (type : Nat) (bodies : List Bytes) (s : State) : List HrFrame × State :=
  bodies.foldl (fun (fs, st) b => let (q, st1) := takeSeq type st; (fs ++ [{ seq := q, bytes := hrFrame s.myNumber type q b }], st1)) ([], s)

/-- The closes that may go up: ascending, up to one before which a set is still open (R354). -/
def State.upReady (s : State) : List UpClose :=
  s.hr.up.takeWhile (fun u => !((s.grpG (s.cf.u 0xE000 3 0 1)).open_.any (fun o => decide (o.at_.ns < u.at_))))

/-- The frames of a burst are put together (R346, R350, R354): the same for both lanes. The first burst of every 16 cycles holds an
offset report (log entry 209). -/
def fillBurst (seq cyc : Nat) (s : State) : State :=
  let h := s.hr
  let (ds, drives, r1) := s.fillDrives s.bus.drives 6500
  let rep := h.reported != some (cyc / 16) && 21 ≤ r1
  let body := toBEi 4 h.offset ++ toBE 2 s.ownQual.toNat ++ toBE 2 s.time.gen.toNat ++ toBE 1 (b2n h.usable)
  let (fs, up, done, r3) := fillFrags s.upReady (if rep then r1 - 21 else r1) 400
  let (ss, sums) := fillSums h.sums r3
  let (f1, s1) := numbered 0x10 ds s
  let (f2, s2) := if rep then numbered 0x11 [body] s1 else ([], s1)
  let (f3, s3) := numbered 0x12 fs s2
  let (f4, s4) := numbered 0x13 ss s3
  let s5 := countN 0xE080 5 done (satEvent h.sent done (recKey 0xE300 0 24) 0xA5 0 24 s4)
  { s5 with hr := { s5.hr with up := up ++ h.up.drop s.upReady.length, sums := sums, reported := if rep then some (cyc / 16) else h.reported, builtFor := some seq, sent := satCount h.sent done, frames := f1 ++ f2 ++ f3 ++ f4 },
            bus := { s5.bus with drives := drives } }

/-- WORKER_BURST (R341, R343): a registered worker's oldest burst on a lane, at its time. It lasts 6 µs. -/
def workerBurst (lane : Nat) (s : State) : State :=
  match s.hr.dues.find? (fun d => d.lane = lane) with
  | none => s
  | some d =>
    if s.hrRuns 1 && lane < 2 && s.hr.state = 3 && !s.fenced 18 lane && d.at_ ≤ s.elapsed then
      let s1 := s.setHr { s.hr with dues := s.hr.dues.erase d, pulse := listSet s.hr.pulse lane (s.elapsed, s.elapsed + 6000) }
      let fresh := match s1.hr.builtFor with | some q => seqAfter q d.seq | none => true
      when fresh (fillBurst d.seq d.cyc) s1
    else s
def execWorkerBurst (dt lane : Nat) (s : State) : Host.Outcome State Fault Refusal := .next (s.act [.events, .stats, .bus, .hr] dt (workerBurst lane))

/-- A summary is replaced on a registered worker (R354). -/
def sendSummary (kind num : Nat) (body : Bytes) (s : State) : State :=
  if s.hasHr && s.hrRole = 1 && s.hr.state = 3 && bit (s.cf.u 0xE000 4 0 1) (kind - 1) then s.setHr { s.hr with sums := s.hr.sums ++ [(kind, num, body)] } else s

/-- MANAGER_LOST (R351, R354, R361, R363): both lanes are down. -/
def managerLost (s : State) : State :=
  if s.hrRuns 1 && (s.hr.state = 2 || s.hr.state = 3) && s.hr.laneUp.all (!·) then
    let was := s.hr.state = 3
    let n := s.hr.up.length
    let s1 := countN 0xE080 6 n (satEvent s.hr.discarded n (recKey 0xE300 0 30) 0xA5 0 30 ((forgetSource 0x10 s).setHr { (forgetSource 0x10 s).hr with up := [], sums := [], dues := [], eqdSeen := [false, false], builtFor := none, answered := false, usable := false, samples := [], discarded := satCount s.hr.discarded n }))
    let s2 := when was (toRemote false) s1
    setMgrState 4 s2
  else s
def execManagerLost (dt : Nat) (s : State) : Host.Outcome State Fault Refusal := .next (s.act [.events, .stats, .acq, .bus, .hr] dt managerLost)

/-! ## Reset, start, commits (R70, R340) -/

/-- The states of workers and of this device follow role and records. -/
def hrInit (s : State) : State :=
  let s1 := each (List.range 16) (fun w st =>
    let want := s.hrRole = 2 && wkValid s.cf w
    let x := st.wkr w
    if want then (if x.state = 0 then setWkState w 1 st else st)
    else if x.state = 0 then st else setWkState w 0 (st.setWkr w { received := x.received, state := x.state })) s
  setMgrState (if s.hrRole = 1 && s.hasHr then max 1 s1.hr.state else 0) s1

/-- A worker begins unregistered, or not configured (R351). -/
def dropWorker (w : Nat) (s : State) : State :=
  let x := s.wkr w
  setWkState w (if s.hrRole = 2 && wkValid s.cf w then 1 else 0) (s.setWkr w { received := x.received, state := x.state })

/-- A Hedgerow reset: link state and delay measurement (R70). What was up or registered is so no more (R351). -/
def hrReset (s : State) : State :=
  let s1 := when s.bus.remote (toRemote false) s
  let s2 := each (s1.hr.worker.map (·.1)) dropWorker s1
  let s3 := each ([0, 1].filter (fun l => s.hr.laneUp.getD l false)) (fun l => raise 0xA0 l 0) s2
  let s4 := setMgrState (if s.hrRole = 1 && s.hasHr then 1 else 0) s3
  hrInit (s4.setHr { s4.hr with laneUp := [false, false], laneAt := [none, none], m := 0, cycle := 0, asked := none, nextInvite := 0, answered := false,
                                invSeq := none, dues := [], builtFor := none, pulse := [(0, 0), (0, 0)], rx := [], down := [0, 0], eqd := [0, 0], eqdSeen := [false, false],
                                samples := [], usable := false, idBad := false, up := [], sums := [], frames := [], reported := none })

/-- A commit at T_c: a change of role clears what a reset of Hedgerow does (R340); a changed worker record begins unregistered. -/
def hrCommit (o : Cf) (s : State) : State :=
  let n := s.cf
  if o.u 0xE000 1 0 1 != n.u 0xE000 1 0 1 then hrReset s
  else
    hrInit (each ((List.range 16).filter (fun w => wkValid o w != wkValid n w || o.bytes 0xE100 1 (32 * w + 8) 8 != n.bytes 0xE100 1 (32 * w + 8) 8))
      dropWorker s)

end Sys2Proof.Machine
end

