-- ==== Sys2Proof/Machine/Crypto.lean ====
section
/-! DEFINITION. The functions of the key engine (R30, R414, R415, R440, R444, R445, R451, R470): SHA-256 and HMAC (FIPS 180-4, RFC 2104),
AES-256 (FIPS 197) and its Galois/Counter Mode (NIST SP 800-38D), ECDSA over P-384 (FIPS 186-5). The standards are named by the
spec; their constants are theirs (log entry 215). Words are natural numbers below a power of two. -/
namespace Sys2Proof.Machine
open Sys2Proof

/-! ## SHA-256 -/

/-- The round constants of SHA-256. -/
def shaConst : List Nat :=
  [0x428A2F98, 0x71374491, 0xB5C0FBCF, 0xE9B5DBA5, 0x3956C25B, 0x59F111F1, 0x923F82A4, 0xAB1C5ED5] ++
  [0xD807AA98, 0x12835B01, 0x243185BE, 0x550C7DC3, 0x72BE5D74, 0x80DEB1FE, 0x9BDC06A7, 0xC19BF174] ++
  [0xE49B69C1, 0xEFBE4786, 0x0FC19DC6, 0x240CA1CC, 0x2DE92C6F, 0x4A7484AA, 0x5CB0A9DC, 0x76F988DA] ++
  [0x983E5152, 0xA831C66D, 0xB00327C8, 0xBF597FC7, 0xC6E00BF3, 0xD5A79147, 0x06CA6351, 0x14292967] ++
  [0x27B70A85, 0x2E1B2138, 0x4D2C6DFC, 0x53380D13, 0x650A7354, 0x766A0ABB, 0x81C2C92E, 0x92722C85] ++
  [0xA2BFE8A1, 0xA81A664B, 0xC24B8B70, 0xC76C51A3, 0xD192E819, 0xD6990624, 0xF40E3585, 0x106AA070] ++
  [0x19A4C116, 0x1E376C08, 0x2748774C, 0x34B0BCB5, 0x391C0CB3, 0x4ED8AA4A, 0x5B9CCA4F, 0x682E6FF3] ++
  [0x748F82EE, 0x78A5636F, 0x84C87814, 0x8CC70208, 0x90BEFFFA, 0xA4506CEB, 0xBEF9A3F7, 0xC67178F2]

/-- Rotation of a 32-bit word to the right. -/
def rotr (n x : Nat) : Nat := x / 2 ^ n + x * 2 ^ (32 - n) % 2 ^ 32

/-- The eight working words. -/
structure Sha where
  a : Nat
  b : Nat
  c : Nat
  d : Nat
  e : Nat
  f : Nat
  g : Nat
  h : Nat
  deriving DecidableEq, Repr

/-- The words before the first block. -/
def Sha.start : Sha := ⟨0x6A09E667, 0xBB67AE85, 0x3C6EF372, 0xA54FF53A, 0x510E527F, 0x9B05688C, 0x1F83D9AB, 0x5BE0CD19⟩

/-- One round, with its constant and its word of the schedule. -/
def Sha.round (x : Sha) (k w : Nat) : Sha :=
  let s1 := (rotr 6 x.e).xor ((rotr 11 x.e).xor (rotr 25 x.e))
  let ch := (x.e.land x.f).xor ((x.e.xor 0xFFFFFFFF).land x.g)
  let t1 := x.h + s1 + ch + k + w
  let s0 := (rotr 2 x.a).xor ((rotr 13 x.a).xor (rotr 22 x.a))
  let maj := (x.a.land x.b).xor ((x.a.land x.c).xor (x.b.land x.c))
  ⟨(t1 + s0 + maj) % 2 ^ 32, x.a, x.b, x.c, (x.d + t1) % 2 ^ 32, x.e, x.f, x.g⟩

/-- The rounds whose constants are `ks`; `w` holds the next 16 words of the schedule. -/
def Sha.rounds (ks w : List Nat) (x : Sha) : Sha :=
  match ks with
  | [] => x
  | k :: rest =>
    let w1 := w.getD 1 0
    let w14 := w.getD 14 0
    let s0 := (rotr 7 w1).xor ((rotr 18 w1).xor (w1 / 2 ^ 3))
    let s1 := (rotr 17 w14).xor ((rotr 19 w14).xor (w14 / 2 ^ 10))
    Sha.rounds rest (w.drop 1 ++ [(s1 + w.getD 9 0 + s0 + w.headD 0) % 2 ^ 32]) (x.round k (w.headD 0))

/-- The words after a block of 64 bytes. -/
def Sha.block (x : Sha) (b : Bytes) : Sha :=
  let y := Sha.rounds shaConst ((List.range 16).map (fun i => field b (4 * i) 4)) x
  ⟨(x.a + y.a) % 2 ^ 32, (x.b + y.b) % 2 ^ 32, (x.c + y.c) % 2 ^ 32, (x.d + y.d) % 2 ^ 32,
   (x.e + y.e) % 2 ^ 32, (x.f + y.f) % 2 ^ 32, (x.g + y.g) % 2 ^ 32, (x.h + y.h) % 2 ^ 32⟩

def Sha.blocks (n : Nat) (b : Bytes) (x : Sha) : Sha :=
  match n with
  | 0 => x
  | k + 1 => Sha.blocks k (b.drop 64) (x.block (b.take 64))

/-- SHA-256 of a message, as 32 bytes. -/
def sha256 (m : Bytes) : Bytes :=
  let n := m.length
  let p := m ++ [0x80#8] ++ zeros ((119 - n % 64) % 64) ++ toBE 8 (8 * n)
  let x := Sha.blocks (p.length / 64) p Sha.start
  toBE 4 x.a ++ toBE 4 x.b ++ toBE 4 x.c ++ toBE 4 x.d ++ toBE 4 x.e ++ toBE 4 x.f ++ toBE 4 x.g ++ toBE 4 x.h

/-- HMAC-SHA-256 of a message under a 256-bit key. -/
def hmac (key : BitVec 256) (m : Bytes) : Bytes :=
  let k := toBE 32 key.toNat ++ zeros 32
  sha256 (k.map (fun b => b ^^^ 0x5C#8) ++ sha256 (k.map (fun b => b ^^^ 0x36#8) ++ m))

/-! ## AES-256 -/

/-- The S-box of AES, entry i in bits 8i + 7 to 8i. -/
def sboxTable : Nat :=
  0x75B227EBE28012079A059618C323C7041531D871F1E5A534CCF73F362693FDB7C072A49CAFA2D4ADF04759FA7DC982CA76ABD7FE2B670130C56F6BF27B777C63 +
  0xD2F3FF1021DAB6BCF5389D928F40A351A89F3C507F02F94585334D43FBAAEFD0CF584C4A39BECB6A5BB1FC20ED00D153842FE329B3D63B52A05A6E1B1A2C8309 * 2 ^ 512 +
  0x08AE7A65EAF4566CA94ED58D6D37C8E779E4959162ACD3C25C2406490A3A32E0DB0B5EDE14B8EE4688902A22DC4F816073195D643D7EA7C41744975FEC130CCD * 2 ^ 1024 +
  0x16BB54B00F2D99416842E6BF0D89A18CDF2855CEE9871E9B948ED9691198F8E19E1DC186B95735610EF6034866B53E708A8BBD4B1F74DDE8C6B4A61C2E2578BA * 2 ^ 1536
/-- Its inverse, entry i in bits 8i + 7 to 8i. -/
def invSboxTable : Nat :=
  0x25D18B6D49A25B76B224D92866A12E084EC3FA420B954CEE3D23C2A632947B54CBE9DEC444438E3487FF2F9B8239E37CFBD7F3819EA340BF38A53630D56A0952 +
  0x6B8A130103BDAFC1020F3FCA8F1E2CD00645B3B80558E4F70AD3BC8C00ABD890849D8DA75746155EDAB9EDFD5048706C92B6655DCC5CA4D41698688664F6F872 * 2 ^ 512 +
  0xF45ACD78FEC0DB9A2079D2C64B3E56FC1BBE18AA0E62B76F89C5291D711AF1476EDF751CE837F9E28535ADE72274AC9673E6B4F0CECFF297EADC674F4111913A * 2 ^ 1024 +
  0x7D0C2155631469E126D677BA7E042B17619953833CBBEBC8B0F52AAE4D3BE0A0EF9CC9939F7AE52D0D4AB519A97F51605FEC8027591012B131C7078833A8DD1F * 2 ^ 1536

def subByte (x : Nat) : Nat := sboxTable / 2 ^ (8 * x) % 256
def invSubByte (x : Nat) : Nat := invSboxTable / 2 ^ (8 * x) % 256

/-- Multiplication by x in the field of AES. -/
def xtime (a : Nat) : Nat := if 128 ≤ a then (2 * a - 256).xor 0x1B else 2 * a

/-- The bytes of a 32-bit word, and the S-box on each. -/
def bytes4 (w : Nat) : List Nat := [w / 2 ^ 24 % 256, w / 2 ^ 16 % 256, w / 2 ^ 8 % 256, w % 256]
def word4 (a b c d : Nat) : Nat := ((a * 256 + b) * 256 + c) * 256 + d
def subWord (w : Nat) : Nat := word4 (subByte (w / 2 ^ 24 % 256)) (subByte (w / 2 ^ 16 % 256)) (subByte (w / 2 ^ 8 % 256)) (subByte (w % 256))

/-- Eight more words of the key schedule, from the eight before them and a round constant. -/
def nextKeys (k : List Nat) (rcon : Nat) : List Nat :=
  let g := fun (i : Nat) => k.getD i 0
  let r := subWord (g 7 * 256 % 2 ^ 32 + g 7 / 2 ^ 24)
  let a0 := (g 0).xor (r.xor (rcon * 2 ^ 24))
  let a1 := (g 1).xor a0
  let a2 := (g 2).xor a1
  let a3 := (g 3).xor a2
  let a4 := (g 4).xor (subWord a3)
  let a5 := (g 5).xor a4
  let a6 := (g 6).xor a5
  [a0, a1, a2, a3, a4, a5, a6, (g 7).xor a6]

/-- The key schedule from eight words on, one step for each round constant. -/
def keySchedule (rcons k : List Nat) : List Nat :=
  match rcons with
  | [] => k
  | r :: rest => k ++ keySchedule rest (nextKeys k r)

/-- The 15 round keys of AES-256, four words each. -/
def roundKeys (key : BitVec 256) : List (List Nat) :=
  let w := keySchedule [1, 2, 4, 8, 16, 32, 64] ((List.range 8).map (fun i => key.toNat / 2 ^ (32 * (7 - i)) % 2 ^ 32))
  (List.range 15).map (fun i => (w.drop (4 * i)).take 4)

/-- A column of the state after ShiftRows and SubBytes: byte i comes from column c + i. -/
def shiftSub (sub : Nat → Nat) (dir : Nat) (s : List Nat) (c : Nat) : List Nat :=
  (List.range 4).map (fun i => sub (s.getD ((c + dir * i) % 4) 0 / 2 ^ (8 * (3 - i)) % 256))

/-- MixColumns on a column, and its inverse. -/
def mixColumn (b : List Nat) : Nat :=
  let g := fun (i : Nat) => b.getD i 0
  let t := (g 0).xor ((g 1).xor ((g 2).xor (g 3)))
  let m := fun (i j : Nat) => (g i).xor (t.xor (xtime ((g i).xor (g j))))
  word4 (m 0 1) (m 1 2) (m 2 3) (m 3 0)
def invMixColumn (b : List Nat) : Nat :=
  let g := fun (i : Nat) => b.getD i 0
  let u := xtime (xtime ((g 0).xor (g 2)))
  let v := xtime (xtime ((g 1).xor (g 3)))
  mixColumn [(g 0).xor u, (g 1).xor v, (g 2).xor u, (g 3).xor v]

def addKey (s k : List Nat) : List Nat := (List.range 4).map (fun i => (s.getD i 0).xor (k.getD i 0))

/-- The rounds after the first key addition. -/
def aesRounds (ks : List (List Nat)) (s : List Nat) : List Nat :=
  match ks with
  | [] => s
  | [k] => addKey ((List.range 4).map (fun c => let b := shiftSub subByte 1 s c; word4 (b.getD 0 0) (b.getD 1 0) (b.getD 2 0) (b.getD 3 0))) k
  | k :: rest => aesRounds rest (addKey ((List.range 4).map (fun c => mixColumn (shiftSub subByte 1 s c))) k)

/-- The inverse rounds, keys from the last but one to the first. -/
def aesInvRounds (ks : List (List Nat)) (s : List Nat) : List Nat :=
  match ks with
  | [] => s
  | [k] => addKey ((List.range 4).map (fun c => let b := shiftSub invSubByte 3 s c; word4 (b.getD 0 0) (b.getD 1 0) (b.getD 2 0) (b.getD 3 0))) k
  | k :: rest => aesInvRounds rest ((addKey ((List.range 4).map (fun c => let b := shiftSub invSubByte 3 s c; word4 (b.getD 0 0) (b.getD 1 0) (b.getD 2 0) (b.getD 3 0))) k).map (fun w => invMixColumn (bytes4 w)))

def words4 (n : Nat) : List Nat := (List.range 4).map (fun i => n / 2 ^ (32 * (3 - i)) % 2 ^ 32)
def ofWords (w : List Nat) : Nat := w.foldl (fun a x => a * 2 ^ 32 + x) 0

/-- AES-256 of a block of 128 bits, under round keys; and its inverse. -/
def aesBlock (ks : List (List Nat)) (b : Nat) : Nat := ofWords (aesRounds (ks.drop 1) (addKey (words4 b) (ks.headD [])))
def aesInverse (ks : List (List Nat)) (b : Nat) : Nat :=
  let r := ks.reverse
  ofWords (aesInvRounds (r.drop 1) (addKey (words4 b) (r.headD [])))

/-! ## Galois/Counter Mode -/

/-- The product in GF(2^128) of a value with another whose bits are taken from the first on. -/
def ghashMul (n x : Nat) (z v : Nat) : Nat :=
  match n with
  | 0 => z
  | k + 1 => ghashMul k x (if x / 2 ^ k % 2 = 1 then z.xor v else z) (if v % 2 = 1 then (v / 2).xor (0xE1 * 2 ^ 120) else v / 2)

/-- GHASH over blocks of 16 bytes; a last short one is filled with zeros. -/
def ghash (n h y : Nat) (b : Bytes) : Nat :=
  match n with
  | 0 => y
  | k + 1 => ghash k h (ghashMul 128 (y.xor (ofBE (fit 16 (b.take 16)))) 0 h) (b.drop 16)

/-- The key stream over `n` blocks from a counter block on, applied to the bytes. -/
def ctrStream (ks : List (List Nat)) (n ctr : Nat) (b : Bytes) : Bytes :=
  match n with
  | 0 => []
  | k + 1 => (b.take 16).zipWith (· ^^^ ·) (toBE 16 (aesBlock ks ctr)) ++ ctrStream ks k (ctr / 2 ^ 32 * 2 ^ 32 + (ctr + 1) % 2 ^ 32) (b.drop 16)

/-- The tag of a ciphertext and its additional data, under a 12-byte initialisation vector. -/
def gcmTag (key : BitVec 256) (iv aad ct : Bytes) : Bytes :=
  let ks := roundKeys key
  let h := aesBlock ks 0
  let y := ghash ((aad.length + 15) / 16) h 0 aad
  let y := ghash ((ct.length + 15) / 16) h y ct
  let y := ghash 1 h y (toBE 8 (8 * aad.length) ++ toBE 8 (8 * ct.length))
  toBE 16 (y.xor (aesBlock ks (ofBE (fit 12 iv) * 2 ^ 32 + 1)))

/-- Encryption and decryption, which are one. -/
def gcmStream (key : BitVec 256) (iv b : Bytes) : Bytes := ctrStream (roundKeys key) ((b.length + 15) / 16) (ofBE (fit 12 iv) * 2 ^ 32 + 2) b

/-- AES-256-GCM of a plaintext: the ciphertext and then its tag of 16 bytes. -/
def gcmSeal (key : BitVec 256) (iv aad pt : Bytes) : Bytes :=
  let ct := gcmStream key iv pt
  ct ++ gcmTag key iv aad ct

/-- The plaintext of a ciphertext with its tag, when the tag verifies. -/
def gcmOpen (key : BitVec 256) (iv aad sealed_ : Bytes) : Option Bytes :=
  let ct := sealed_.take (sealed_.length - 16)
  if 16 ≤ sealed_.length && gcmTag key iv aad ct = sealed_.drop (sealed_.length - 16) then some (gcmStream key iv ct) else none

/-! ## ECDSA over P-384 -/

def p384P : Nat := 2 ^ 384 - 2 ^ 128 - 2 ^ 96 + 2 ^ 32 - 1
def p384B : Nat := 0xB3312FA7E23EE7E4988E056BE3F82D19181D9C6EFE8141120314088F5013875AC656398D8A2ED19D2A85C8EDD3EC2AEF
def p384N : Nat := 0xFFFFFFFFFFFFFFFFFFFFFFFFFFFFFFFFFFFFFFFFFFFFFFFFC7634D81F4372DDF581A0DB248B0A77AECEC196ACCC52973
def p384X : Nat := 0xAA87CA22BE8B05378EB1C71EF320AD746E1D3B628BA79B9859F741E082542A385502F25DBF55296C3A545E3872760AB7
def p384Y : Nat := 0x3617DE4A96262C6F5D9E98BF9292DC29F8F41DBD289A147CE9DA3113B5F0B8C00A60B1CE1D7E819D7A431D7C90EA0E5F

/-- A point in Jacobian coordinates; z = 0 is the point at infinity. -/
structure Point where
  x : Nat
  y : Nat
  z : Nat
  deriving DecidableEq, Repr

/-- The difference modulo p of two values below it. -/
def subP (a b : Nat) : Nat := (a + p384P - b) % p384P

/-- Twice a point, on a curve with a = -3. -/
def Point.double (q : Point) : Point :=
  let d := q.z * q.z % p384P
  let g := q.y * q.y % p384P
  let b := q.x * g % p384P
  let al := 3 * (subP q.x d * ((q.x + d) % p384P) % p384P) % p384P
  let x := subP (al * al % p384P) (8 * b % p384P)
  let yz := (q.y + q.z) % p384P
  ⟨x, subP (al * subP (4 * b % p384P) x % p384P) (8 * g * g % p384P), subP (subP (yz * yz % p384P) g) d⟩

/-- The sum of two points. -/
def Point.add (q r : Point) : Point :=
  if q.z = 0 then r else if r.z = 0 then q
  else
    let z1 := q.z * q.z % p384P
    let z2 := r.z * r.z % p384P
    let u1 := q.x * z2 % p384P
    let u2 := r.x * z1 % p384P
    let s1 := q.y * r.z % p384P * z2 % p384P
    let s2 := r.y * q.z % p384P * z1 % p384P
    if u1 = u2 then (if s1 = s2 then q.double else ⟨1, 1, 0⟩)
    else
      let h := subP u2 u1
      let rr := subP s2 s1
      let hh := h * h % p384P
      let hhh := h * hh % p384P
      let v := u1 * hh % p384P
      let x := subP (subP (rr * rr % p384P) hhh) (2 * v % p384P)
      ⟨x, subP (rr * subP v x % p384P) (s1 * hhh % p384P), h * (q.z * r.z % p384P) % p384P⟩

/-- u1 G + u2 Q from bit n - 1 down, onto what stands before. -/
def Point.mul2 (n u1 u2 : Nat) (g q gq acc : Point) : Point :=
  match n with
  | 0 => acc
  | k + 1 =>
    let a := acc.double
    let b1 := u1 / 2 ^ k % 2
    let b2 := u2 / 2 ^ k % 2
    Point.mul2 k u1 u2 g q gq (if b1 = 1 then (if b2 = 1 then a.add gq else a.add g) else if b2 = 1 then a.add q else a)

/-- A power modulo m, over the `n` low bits of the exponent. -/
def powMod (n b e m acc : Nat) : Nat :=
  match n with
  | 0 => acc
  | k + 1 => powMod k (b * b % m) (e / 2) m (if e % 2 = 1 then acc * b % m else acc)

/-- 97 bytes are an uncompressed point on P-384. -/
def onP384 (b : Bytes) : Bool :=
  let x := field b 1 48
  let y := field b 49 48
  b.length = 97 && field b 0 1 = 4 && x < p384P && y < p384P && y * y % p384P = (x * x * x + p384B + 3 * (p384P - x)) % p384P

/-- An ECDSA P-384 signature, r then s in 48 bytes each, over the SHA-256 of a message verifies with a point. -/
def ecdsaVerify (point m sig : Bytes) : Bool :=
  let r := field sig 0 48
  let s := field sig 48 48
  if !onP384 point || sig.length != 96 || r = 0 || s = 0 || p384N ≤ r || p384N ≤ s then false
  else
    let w := powMod 384 s (p384N - 2) p384N 1
    let u1 := ofBE (sha256 m) * w % p384N
    let u2 := r * w % p384N
    let g : Point := ⟨p384X, p384Y, 1⟩
    let q : Point := ⟨field point 1 48, field point 49 48, 1⟩
    let t := Point.mul2 384 u1 u2 g q (g.add q) ⟨1, 1, 0⟩
    let zi := powMod 384 t.z (p384P - 2) p384P 1
    t.z != 0 && (t.x * zi % p384P * zi % p384P) % p384N = r

end Sys2Proof.Machine
end

