-- ==== Sys2Proof/Machine/Packet.lean ====
section
/-! DEFINITION. Frames as bytes: tags and EtherType (R108), IPv4 and its checksums (R119), reassembly, and the frames an offloaded
send becomes (R123, R124). Field places inside IPv4, UDP and TCP headers are those of the protocols the manual names (log entry
187). -/
namespace Sys2Proof.Machine
open Sys2Proof

/-- Bytes with a run of them written over at an offset. -/
def overlay (b : Bytes) (off : Nat) (x : Bytes) : Bytes := b.take off ++ x ++ b.drop (off + x.length)

/-- The length of a frame, FCS included (R108). -/
def frameLen (b : Bytes) : Nat := b.length + 4

/-- Tags counted: an outer 0x8100 or 0x88A8, then an inner 0x8100 (R108). -/
def tagCount (b : Bytes) : Nat :=
  if field b 12 2 = 0x8100 || field b 12 2 = 0x88A8 then (if field b 16 2 = 0x8100 then 2 else 1) else 0

/-- The 16-bit field after the last counted tag (R108, R112). -/
def frameType (b : Bytes) : Nat := field b (12 + 4 * tagCount b) 2

/-- The outer TCI of a tagged frame. -/
def outerTci (b : Bytes) : Option Nat := if tagCount b = 0 then none else some (field b 14 2)

/-! ## IPv4 (R119) -/

/-- The sum of the 16-bit words of some bytes. -/
def sum16 (b : Bytes) : Nat :=
  match b with
  | x :: y :: r => x.toNat * 256 + y.toNat + sum16 r
  | [x] => x.toNat * 256
  | [] => 0

/-- The ones' complement sum of some bytes. -/
def inetSum (b : Bytes) : Nat :=
  let n := sum16 b
  let m := n % 65536 + n / 65536
  m % 65536 + m / 65536

/-- The pseudo-header of a UDP or TCP checksum. -/
def pseudo (src dst proto len : Nat) : Bytes := toBE 4 src ++ toBE 4 dst ++ toBE 2 proto ++ toBE 2 len

/-- An IPv4 packet in a frame. -/
structure Ip where
  hdr      : Bytes
  hdrOk    : Bool
  ident    : Nat
  more     : Bool
  offset   : Nat
  proto    : Nat
  src      : Nat
  dst      : Nat
  body     : Bytes
  deriving DecidableEq, Repr

/-- Where a frame's network header begins. -/
def ipAt (b : Bytes) : Nat := 14 + 4 * tagCount b

/-- Length of the IPv4 header there. -/
def ipLen (b : Bytes) : Nat := 4 * (field b (ipAt b) 1 % 16)

/-- The IPv4 packet of a frame. -/
def ipOf (b : Bytes) : Option Ip :=
  if frameType b = 0x0800 then
    let h := slice b (ipAt b) (ipLen b)
    some { hdr := h, hdrOk := field h 0 1 / 16 = 4 && 20 ≤ h.length && h.length = ipLen b && inetSum h = 65535,
           ident := field h 4 2, more := bit (field h 6 2) 13, offset := 8 * (field h 6 2 % 8192), proto := field h 9 1,
           src := field h 12 4, dst := field h 16 4, body := slice b (ipAt b + ipLen b) (field h 2 2 - ipLen b) }
  else none

def Ip.fragment (i : Ip) : Bool := i.more || i.offset != 0

/-- The UDP or TCP checksum of a datagram is good; a UDP checksum of 0 counts as absent and passes. -/
def sumGood (proto src dst : Nat) (body : Bytes) : Bool :=
  (proto = 17 && field body 6 2 = 0) || inetSum (pseudo src dst proto body.length ++ body) = 65535

/-- UDP or TCP. -/
def Ip.checked (i : Ip) : Bool := i.proto = 17 || i.proto = 6

/-- The datagram that fragments make, once they leave no gap before its end. -/
def joinParts (parts : List (Nat × Bytes)) (n : Nat) : Option Bytes :=
  let sorted := parts.insertionSort (fun a b => a.1 ≤ b.1)
  let all := sorted.foldl (fun (acc : Option Bytes) p => acc.bind (fun b => if p.1 ≤ b.length then some (b ++ p.2.drop (b.length - p.1)) else none)) (some [])
  all.bind (fun b => if n ≤ b.length then some (b.take n) else none)

/-! ## Frames of an offloaded send (R123, R124) -/

/-- An IPv4 header with its total length, identification, flags and offset, and header checksum filled in. -/
def ipFill (h : Bytes) (total ident frag : Nat) : Bytes :=
  let h1 := overlay (overlay (overlay (overlay h 2 (toBE 2 total)) 4 (toBE 2 ident)) 6 (toBE 2 frag)) 10 (zeros 2)
  overlay h1 10 (toBE 2 (65535 - inetSum h1))

/-- The parts of a template: what stands before the IPv4 header, that header, and the TCP or UDP header. -/
def offHead (t : Bytes) : Bytes × Bytes × Bytes := (t.take (ipAt t), slice t (ipAt t) (ipLen t), t.drop (ipAt t + ipLen t))

/-- The TCP flags that stay on a segment: FIN and PSH on the last only, CWR on the first only. -/
def tcpFlags (f : Nat) (first last : Bool) : Nat :=
  f - (if last then 0 else b2n (bit f 0) + 8 * b2n (bit f 3)) - (if first then 0 else 128 * b2n (bit f 7))

/-- The frame of one segment of a TCP send. -/
def tcpFrame (x : OffloadSend) (i off take : Nat) (last : Bool) : Bytes :=
  let (eth, ip, tcp) := offHead x.template
  let h1 := overlay (overlay (overlay tcp 4 (toBE 4 (field tcp 4 4 + off))) 13 (toBE 1 (tcpFlags (field tcp 13 1) (i = 0) last))) 16 (zeros 2)
  let body := h1 ++ slice x.payload off take
  let sum := 65535 - inetSum (pseudo (field ip 12 4) (field ip 16 4) 6 body.length ++ body)
  eth ++ ipFill ip (ip.length + body.length) (field ip 4 2 + i) (field ip 6 2) ++ overlay body 16 (toBE 2 sum)

/-- The UDP datagram of a send: its header with length and checksum, a computed 0 sent as 0xFFFF. -/
def udpBody (x : OffloadSend) : Bytes :=
  let (_, ip, udp) := offHead x.template
  let body := overlay (overlay udp 4 (toBE 2 (udp.length + x.payload.length))) 6 (zeros 2) ++ x.payload
  let sum := 65535 - inetSum (pseudo (field ip 12 4) (field ip 16 4) 17 body.length ++ body)
  overlay body 6 (toBE 2 (if sum = 0 then 65535 else sum))

/-- The IPv4 options whose copied flag is set; `n` bounds their number. -/
def copiedOptions (o : Bytes) (n : Nat) : Bytes :=
  match n with
  | 0 => []
  | k + 1 =>
    match o with
    | [] => []
    | t :: r =>
      if t = 0#8 then [] else if t = 1#8 then copiedOptions r k
      else
        let len := max 2 (field r 0 1)
        (if t.getLsbD 7 then o.take len else []) ++ copiedOptions (o.drop len) k

/-- The IPv4 header of a later fragment. -/
def laterHeader (ip : Bytes) : Bytes :=
  let o := copiedOptions (ip.drop 20) 40
  let h := ip.take 20 ++ fit ((o.length + 3) / 4 * 4) o
  overlay h 0 (toBE 1 (64 + h.length / 4))

/-- The frame of one fragment of a UDP send. -/
def udpFragment (x : OffloadSend) (body hdr : Bytes) (off take : Nat) (more : Bool) : Bytes :=
  let (eth, ip, _) := offHead x.template
  eth ++ ipFill hdr (hdr.length + take) (field ip 4 2) (off / 8 + 8192 * b2n more) ++ slice body off take

/-- A UDP send in one frame. -/
def udpFrame (x : OffloadSend) : Bytes :=
  let (eth, ip, _) := offHead x.template
  eth ++ ipFill ip (ip.length + (udpBody x).length) (field ip 4 2) (field ip 6 2) ++ udpBody x

end Sys2Proof.Machine
end

