-- ==== Sys2Proof/Machine/Transmit.lean ====
section
/-! DEFINITION. What a port runs as, its statistics, and the transmit classes every unit sends through (R103, R105, R110, R113,
R122, R133, R562). -/
namespace Sys2Proof.Machine
open Sys2Proof

def State.prt (s : State) (p : Nat) : Port := Table.getD s.port p {}
def State.setPort (s : State) (p : Nat) (x : Port) : State := { s with port := Table.set s.port p x {} }

/-- One field of a port's configuration object 0x2010+n. -/
def portF (c : Cf) (p sub n : Nat) : Nat := c.u (0x2010 + p) sub 0 n
def State.pcfg (s : State) (p sub n : Nat) : Nat := portF s.cf p sub n

/-- The port that runs in QUICKSET (R9, R484). -/
def State.recoveryPort (s : State) : Nat := byPart s.variant 5 5 3

/-- The port holds the management role (R107); in QUICKSET the recovery port does (R484). -/
def State.isMgmt (s : State) (p : Nat) : Bool :=
  if s.mode.cur = .quickset then p = s.recoveryPort else p < s.ports && bit (s.cf.u 0x2000 1 0 1) p

/-- The mode a port runs in, and its autonegotiation (R103): in QUICKSET 1000BASE-X with it on the recovery port, and every other
port as a disabled one (R484, R562). -/
def State.portMode (s : State) (p : Nat) : Nat := if s.mode.cur = .quickset then (if p = s.recoveryPort then 2 else 0) else s.pcfg p 1 1
def State.portAn (s : State) (p : Nat) : Bool := s.mode.cur = .quickset || s.pcfg p 2 1 = 1

/-- The port is present and not disabled (R103, R562). -/
def State.portActive (s : State) (p : Nat) : Bool := p < s.ports && s.portMode p != 0

/-- The port runs: active, and not in reset (R70). -/
def State.portRuns (s : State) (p : Nat) : Bool := s.portActive p && Table.getD s.rst.status (p + 1) 0 = 0

/-- A port statistic: not kept in QUICKSET (R562). -/
def tallyN (p sub n : Nat) (s : State) : State := if s.mode.cur = .quickset then s else countN (0x2080 + p) sub n s
def tally (p sub : Nat) (s : State) : State := tallyN p sub 1 s

/-- The base of the part's addresses: a multiple of 8, unicast, universally administered (R132): those bits of the OTP value are
0. -/
def macBase : Nat := Config.macBase.toNat / 2 ^ 42 * 2 ^ 42 + Config.macBase.toNat % 2 ^ 40 / 8 * 8
/-- The unicast address of a port (R132). -/
def portMac (p : Nat) : Nat := macBase + p

/-- Longest frame of a port for a tag count (R109, R110). -/
def longest (c : Cf) (p tags : Nat) : Nat :=
  let j := portF c p 3 2
  if j = 0 then 1518 + 4 * min tags 2 else j
def State.maxFrame (s : State) (p tags : Nat) : Nat := longest s.cf p tags

/-- The item of a frame in a transmit class. No rule gives it a layout: byte 0 the type 0x11, 1 port, 2 class, 3 bit 0
transmit stamp requested, 4 to 7 length, 8 PTP message type, 9 domain, 10 to 11 sequenceId (log entry 11). -/
def txItem (p cls length : Nat) (stamp : Option (Nat × Nat × Nat)) : Bytes :=
  match stamp with
  | none => fit 64 ([0x11#8, BitVec.ofNat 8 p, BitVec.ofNat 8 cls, 0#8] ++ toBE 4 length)
  | some (k, d, q) => fit 64 ([0x11#8, BitVec.ofNat 8 p, BitVec.ofNat 8 cls, 1#8] ++ toBE 4 length ++ toBE 1 k ++ toBE 1 d ++ toBE 2 q)

/-- A frame as it is sent: padded to 64 bytes with its FCS (R113). -/
def padFrame (b : Bytes) : Bytes := b ++ zeros (60 - b.length)

/-- Bytes that no rule states, of a numbered frame (log entry 185). -/
def freeRun (k off n : Nat) : Bytes := (List.range n).map (fun i => Config.frameByte k (off + i))

/-- What stands before the UDP or TCP header of a datagram the device sends untagged: next hop, type of service, identification, time
to live and own address are free (log entry 185). -/
def ipHead (k p proto dst : Nat) (own : Bytes := freeRun k 10 4) : Bytes :=
  freeRun k 0 6 ++ toBE 6 (portMac p) ++ toBE 2 0x0800 ++ [0x45#8] ++ freeRun k 6 1 ++ zeros 2 ++ freeRun k 7 2 ++ zeros 2 ++ freeRun k 9 1 ++ toBE 1 proto ++
    zeros 2 ++ own ++ toBE 4 dst

/-- The templates of a UDP datagram, and of a TCP segment with PSH and ACK, whose sequence state is free. -/
def udpTemplate (k p dst from_ rem : Nat) (own : Bytes := freeRun k 10 4) : Bytes := ipHead k p 17 dst own ++ toBE 2 from_ ++ toBE 2 rem ++ zeros 4
def tcpTemplate (k p dst : Nat) (from_ : Bytes) (rem : Nat) : Bytes := ipHead k p 6 dst ++ from_ ++ toBE 2 rem ++ freeRun k 16 8 ++ [0x50#8, 0x18#8] ++ freeRun k 24 2 ++ zeros 4

/-- A frame is offered to a transmit class (R122): discarded and counted while the link is down, in a port reset too (R105), and
dropped when it is longer than the port sends (R113; log entry 186). No transmit class feeds a task. -/
def portSend (p cls : Nat) (b : Bytes) (stamp : Option (Nat × Nat × Nat)) (s : State) : State :=
  let fr := padFrame b
  if !s.portActive p || s.maxFrame p (tagCount fr) < frameLen fr then s
  else if (s.prt p).up then (enqueueData (96 + 4 * p + cls) (txItem p cls (frameLen fr) stamp) fr s).2
  else tally p 0x13 s

end Sys2Proof.Machine
end

