-- ==== Sys2Proof/Machine/KeyPort.lean ====
section
/-! DEFINITION. The key store request port (R29 to R33, R446, R447): keys by handle, the two lanes and three classes; what a request
computes; and KEY_REQUEST. -/
namespace Sys2Proof.Machine
open Sys2Proof

def State.kslot (s : State) (n : Nat) : KeySlot := Table.getD s.key.slots n {}
def State.setKslot (s : State) (n : Nat) (x : KeySlot) : State := { s with key := { s.key with slots := Table.set s.key.slots n x {} } }

/-- The key of a pair of shares (R449). -/
def Shares.key (x : Shares) : BitVec 256 := x.a ^^^ x.b

/-- The kind of key that serves an operation (R446), by its usage bit and, of GOOSE, whether it is AES. -/
def usageKind (usage : Nat) (aes : Bool) : Nat := match usage with | 2 => if aes then 1 else 2 | 3 => 3 | 4 => 5 | 5 => 4 | _ => 2

/-- The port finds the key fit for the operation (R446, R447): usage numbers from 16 up stand for an operation without a key. From step 1
of R464 every request is refused, until the erase of the key area ends (log entry 218). -/
def State.keyFit (s : State) (handle usage : Nat) (aes : Bool := false) : Bool :=
  !s.key.erasing && (16 ≤ usage || ((s.kslot handle).state = 1 && (s.kslot handle).kind = usageKind usage aes && bit (s.kslot handle).usage usage))

/-- A request is served: counted for its class and its slot (R447, R467). -/
def keyServed (cls handle usage : Nat) (s : State) : State :=
  let s1 := count 0xA080 (cls + 1) s
  if 16 ≤ usage then s1
  else { s1 with key := { s1.key with uses := Table.modify s1.key.uses handle 0 (fun n => satCount n 1) } }

/-- The port answers BUSY: the key engine is fenced (R491), or, but for class A, the port is in reset (R70). -/
def State.portBusy (s : State) (cls : Nat) : Bool := s.fenced 12 0 || (cls != 0 && Table.getD s.rst.status 0x15 0 != 0)

/-- A unit's own request. Its command comes when the port has answered: the wait for a lane lies before it (log entry 170). BUSY,
KEY_REVOKED, or OK. -/
def keyUse (cls handle usage : Nat) (aes : Bool) (s : State) : Nat × State :=
  if s.portBusy cls then (stBusy, s)
  else if s.keyFit handle usage aes then (stOk, keyServed cls handle usage s)
  else (stRevoked, count 0xA080 4 s)

/-- The KDF of R444. -/
def kdf (k : BitVec 256) (label context : Bytes) : BitVec 256 := BitVec.ofNat 256 (ofBE (hmac k (toBE 4 1 ++ label ++ [0#8] ++ context ++ toBE 4 0x100)))

/-- What a request gives (R30): its status and its result, under the key it found at the port. A tag or signature presented is
verified; else the tag is the result. A session key that is derived anew stays in the key store (R29). -/
def KeyJob.serve (j : KeyJob) : Nat × Bytes :=
  let r := j.req
  let tagged := fun (t : Bytes) => match r.mac with
    | some m => if m = t then (stOk, []) else (stRejected, [])
    | none => (stOk, t)
  match r.op with
  | .gooseHmac => tagged (hmac j.mat.key r.data)
  | .gooseGcm => tagged (gcmTag j.mat.key r.iv r.data [])
  | .session _ => tagged ((hmac j.mat.key r.data).take 16)
  | .rekey _ => (stOk, [])
  | .chunkHash => tagged (sha256 r.data)
  | .manifestVerify => if ecdsaVerify j.point r.data (r.mac.getD []) then (stOk, []) else (stRejected, [])

/-- KEY_REQUEST (R30, R447). -/
def keyRequest (r : KeyReq) (s : State) : State :=
  let answer := fun (st : Nat) (t : State) => { t with key := { t.key with answer := some (r, st, []) } }
  if s.portBusy r.cls then answer stBusy s
  else if !s.keyFit r.handle r.usage (r.op = .gooseGcm) then answer stRevoked (count 0xA080 4 s)
  else
    let k := { s.key with answer := none }
    let j : KeyJob := { req := r, mat := (s.kslot r.handle).mat, point := (s.kslot r.handle).point }
    if r.asym && k.asym.isNone then { s with key := { k with asym := some j } }
    else if !r.asym && k.sym.isNone then { s with key := { k with sym := some j } }
    else { s with key := { k with waiting := k.waiting ++ [j] } }
def execKeyRequest (dt : Nat) (r : KeyReq) (s : State) : Host.Outcome State Fault Refusal := .next (s.act [.events, .stats, .keyPort] dt (keyRequest r))

/-- The request a free lane takes next (R30): the highest class, then round robin from the requester served last. -/
def nextRequest (k : KeyU) (asym : Bool) : Option KeyJob :=
  let mine := k.waiting.filter (fun r => r.req.asym = asym)
  match (List.range 3).find? (fun c => mine.any (fun r => r.req.cls = c)) with
  | none => none
  | some c =>
    let cs := mine.filter (fun r => r.req.cls = c)
    let least := fun (rs : List KeyJob) => rs.foldl (fun (b : Option KeyJob) r => match b with
      | some y => if r.req.requester < y.req.requester then some r else b
      | none => some r) none
    match Table.find k.lastReq c with
    | some l => (least (cs.filter (fun r => l < r.req.requester))).orElse (fun _ => least cs)
    | none => least cs

/-- The lane's request ends with its outcome, and the next one starts (R31 to R33). DESIGN CHOICE (log entry 169): the key of a
request is looked at as it reaches the port; a request that waits while its key is revoked is served all the same. -/
def laneDone (asym : Bool) (s : State) : State :=
  match (if asym then s.key.asym else s.key.sym) with
  | none => s
  | some j =>
    let r := j.req
    let s1 := keyServed r.cls r.handle r.usage s
    let k := { s1.key with answer := some (r, j.serve.1, j.serve.2), lastReq := Table.put s1.key.lastReq r.cls r.requester }
    let n := nextRequest k asym
    let w := match n with | some x => k.waiting.erase x | none => k.waiting
    { s1 with key := if asym then { k with asym := n, waiting := w } else { k with sym := n, waiting := w } }

/-- A reset of the port (R70): class B and C requests that wait return BUSY; class A goes on. -/
def keyPortReset (s : State) : State :=
  let gone := s.key.waiting.filter (fun r => r.req.cls != 0)
  { s with key := { s.key with waiting := s.key.waiting.filter (fun r => r.req.cls = 0),
                               answer := match gone.getLast? with | some r => some (r.req, stBusy, []) | none => s.key.answer } }

end Sys2Proof.Machine
end

