-- ==== Sys2Proof/Machine/Osrider.lean ====
section
/-! DEFINITION. Osrider (R405 to R439): which objects are absent or out of reach, sessions, acceptance of messages,
responses, direct writes, staging, notifications; and their commands. -/
namespace Sys2Proof.Machine
open Sys2Proof

/-! ## Absence and reach -/

/-- The object belongs to an absent unit (R4, R5, R8, R340). -/
def objAbsent (v idx sub : Nat) : Bool :=
  let page := idx / 256
  (1 ≤ v && page / 8 = 0x0D && page ≥ 0x68) ||
  (2 ≤ v && 0x80 ≤ page && page ≤ 0x87) || (2 ≤ v && 0xE0 ≤ page && page ≤ 0xEF) ||
  (v = 1 && (idx = 0xE100 || idx = 0xE110 || idx = 0xE200 || idx = 0xE280 || page = 0xE5)) ||
  ([0x2010, 0x2040, 0x2080, 0x3020].any (fun b => b + byPart v 6 6 4 ≤ idx && idx < b + 6)) ||
  ((idx = 0x1121 || idx = 0x1122) && ((2 ≤ v && (sub = 5 || sub = 6 || sub = 0x0D || sub = 0x0E)) || (1 ≤ v && sub = 0x0A)))

/-- A record of a table belongs to an absent unit (R4). -/
def recAbsent (v idx r : Nat) : Bool :=
  match idx with
  | 0x4100 => byPart v 4096 2048 1024 ≤ r
  | 0x6200 => byPart v 4096 2048 1024 ≤ r
  | 0x5100 => byPart v 1024 512 256 ≤ r
  | 0x5400 => 4 * byPart v 1024 512 256 ≤ r
  | 0x5300 => byPart v 256 128 64 ≤ r
  | 0x7A00 => byPart v 256 128 64 ≤ r
  | 0xF400 => eventAbsent v r 0
  | _ => false

/-- The kinds of access: READ and DESCRIBE, WRITE, staging. -/
inductive Reach where
  | look | write | stage
  deriving DecidableEq, Repr

/-- The session reaches an object in this mode (R55, R435, R484, R558). -/
def State.reaches (s : State) (uart : Bool) (k : Reach) (idx sub : Nat) : Bool :=
  match s.mode.cur with
  | .provision => idx / 512 = 0x08 || idx / 4096 = 0x0A || idx / 4096 = 0x0F
  | .zeroized => k = .look && (idx / 512 = 0x08 || idx / 4096 = 0x0D || (idx = 0xA000 && [1, 2, 3, 7, 8].contains sub))
  | .quickset =>
    idx = 0x1000 || (idx = 0x1100 && (sub = 1 || (4 ≤ sub && sub ≤ 0x0B))) || (idx = 0xA000 && 1 ≤ sub && sub ≤ 4) ||
    idx = 0xB000 || idx = 0xB100 || idx = 0xB110 || idx = 0xB120 || (idx = 0xD000 && k = .look)
  | _ => !uart || idx / 512 = 0x08 || [2, 3, 0x0A, 0x0C, 0x0D, 0x0F].contains (idx / 4096)

/-! ## Sessions -/

def State.session (s : State) (sid : Nat) : Option Session := s.osr.sessions.find? (fun x => x.id = sid)
def State.setSession (s : State) (x : Session) : State :=
  { s with osr := { s.osr with sessions := s.osr.sessions.map (fun y => if y.id = x.id then x else y) } }
def viaUart (v : Via) : Bool := v = .uart
def Session.uart (x : Session) : Bool := x.via = .uart
/-- The port that Osrider uses in QUICKSET (R484). -/
def State.quickPort (s : State) : Nat := byPart s.variant 5 5 3

/-- The port holds the management role and is not disabled (R103, R107). -/
def State.osrPort (s : State) (p : Nat) : Bool := p < s.ports && bit (s.cf.u 0x2000 1 0 1) p && s.cf.u (0x2010 + p) 1 0 1 != 0

/-- A datagram by this way reaches the server: a management port that runs, from a source that is not locked out, and
service core cluster 0 not in reset (R107, R411, R417, R416). -/
def State.viaOk (s : State) (v : Via) : Bool :=
  Table.getD s.rst.status 0x0F 0 = 0 &&
  (match v with
   | .uart => true
   | .port p ip _ =>
     (if s.mode.cur = .quickset then p = s.quickPort
      else s.osrPort p && Table.getD s.rst.status (p + 1) 0 = 0) &&
     (match Table.find s.osr.lockouts ip with | some t => t ≤ s.elapsed | none => true))

/-- A staging area that is not frozen is discarded (R428). -/
def dropStage (x : Session) (s : State) : State :=
  match x.stage with
  | some a => if a.frozen then s
    else raise 0x09 (x.id % 65536) x.id (count 0x1080 6 (match s.session x.id with | some y => s.setSession { y with stage := none } | none => s))
  | none => s

/-- A session ends (R416, R428). -/
def endSession (sid : Nat) (s : State) : State :=
  match s.session sid with
  | none => s
  | some x =>
    let s1 := dropStage x s
    let s2 := { s1 with osr := { s1.osr with sessions := s1.osr.sessions.filter (fun y => y.id != sid) } }
    raise 0x0A (sid % 65536) (x.role * 256) s2

/-- Every session ends (R70, R416). -/
def endSessions (s : State) : State := each (s.osr.sessions.map (·.id)) endSession s

/-- The session ID of a new session: a free value whose low 16 bits are not zero and not those of an open session or of
one whose commit is held (R439). -/
def State.newSid (s : State) (n : Nat) : Nat :=
  let used := s.osr.sessions.map (fun x => x.id % 65536) ++ s.osr.queue.map (fun q => q.sid % 65536) ++ (s.osr.checked.toList.map (fun q => q.sid % 65536))
  let f := (Config.free32 n).toNat
  let low := ((List.range 32).map (fun i => (f + i) % 65536)).find? (fun l => l != 0 && !used.contains l)
  f / 65536 * 65536 + low.getD 1

/-- The device sets flag bit 2 (R416). -/
def Session.due (x : Session) (s : State) : Bool :=
  x.dueAt.isSome || x.keyAt + s.cf.u 0x1050 6 0 4 * 1000000000 ≤ s.elapsed || 2 ^ 30 ≤ x.rx || 2 ^ 30 ≤ x.tx

/-! ## Messages the device sends (R411, R412, R414, R415, R433, R434) -/

/-- A key as two shares under a fresh mask. -/
def freshShares (k : BitVec 256) (s : State) : Shares × State :=
  let (n, s1) := s.takeFree
  (⟨Config.free256 n, k ^^^ Config.free256 n⟩, s1)

/-- The key of a session, from its credential key, the two nonces and its ID (R414). -/
def State.sessionKey (s : State) (slot : Nat) (client device : Bytes) (sid : Nat) : BitVec 256 :=
  kdf (Table.getD s.key.slots slot {}).mat.key (ascii "OSRIDER SESSION") (fit 16 client ++ device ++ toBE 4 sid)

/-- Bytes 0 to 15 of a message (R412). -/
def msgHead (type flags sid seq len tag : Nat) : Bytes :=
  [0x01#8] ++ toBE 1 type ++ toBE 2 flags ++ toBE 4 sid ++ toBE 4 seq ++ toBE 2 len ++ toBE 2 tag

/-- A message of a session to its client: encrypted and authenticated under the session key (R415); with neither, and a tag of
zeros, in a session without one (DEDUCED, log entry 196). -/
def sealed (x : Session) (type flags seq tag : Nat) (payload : Bytes) : Bytes :=
  let n := payload.length
  if x.anon then msgHead type flags x.id seq n tag ++ payload ++ zeros 16
  else
    let h := msgHead type (flags + 2) x.id seq n tag
    h ++ gcmSeal x.key.key (toBE 4 x.id ++ toBE 4 1 ++ toBE 4 seq) h payload

/-- What the tag of a message of a session verifies under (R415, R416): no key, the session's key, or the key before its last
REKEY. -/
inductive Auth where
  | bad | current | previous
  deriving DecidableEq, Repr

/-- The tag of a client's message of a session, over its header as the additional data and its payload (R415). Flag bit 1 is set, and
bit 0 in a response (R412). -/
def clientTag (k : BitVec 256) (m : Msg) (type : Nat) (payload : Bytes) : Bytes :=
  (gcmSeal k (toBE 4 m.sid ++ toBE 4 0 ++ toBE 4 m.seq) (msgHead type (if type = 0x31 then 3 else 2) m.sid m.seq payload.length m.tag) payload).drop payload.length

/-- The key that a message's tag verifies under; a session without a key asks for none (R415, R416, R434; log entry 196). -/
def Session.authOf (x : Session) (m : Msg) (type : Nat) (payload : Bytes) : Auth :=
  if x.anon || clientTag x.key.key m type payload = toBE 16 m.mac.toNat then .current
  else match x.oldKey with
    | some k => if clientTag k.key m type payload = toBE 16 m.mac.toNat then .previous else .bad
    | none => .bad

/-- The tag of an OPEN and of its answer, over bytes 0 to 15 + L, under the named slot's key (R414). -/
def State.openTag (s : State) (slot : Nat) (b : Bytes) : Bytes := (hmac (s.kslot slot).mat.key b).take 16

/-- Bytes 0 to 15 + L of an OPEN, the first message of its direction (R412, R413). -/
def openBytes (o : OpenMsg) : Bytes :=
  msgHead 1 0 0 1 20 o.tag ++ toBE 2 o.slot ++ toBE 1 o.role ++ zeros 1 ++ fit 16 o.nonce

/-- The tag of an OPEN is 16 zero bytes; or it verifies under the slot it names. -/
def openTagZero (o : OpenMsg) : Bool := o.mac = 0#128
def State.tagOk (s : State) (o : OpenMsg) : Bool := s.openTag o.slot (openBytes o) = toBE 16 o.mac.toNat

/-- The answer to an OPEN, tagged as the OPEN is (R412, R414). -/
def openAnswer (s : State) (o : OpenMsg) (payload : Bytes) : Bytes :=
  let b := msgHead 1 1 0 1 payload.length o.tag ++ payload
  b ++ (if openTagZero o then zeros 16 else s.openTag o.slot b)

/-- A message as it goes out on the UART (R434). -/
def uartFrame (m : Bytes) : Bytes :=
  let esc := (m ++ toBE 4 (crc32 m)).flatMap (fun b => if b = 0x7E#8 || b = 0x7D#8 then [0x7D#8, b ^^^ 0x20#8] else [b])
  [0x7E#8] ++ esc ++ [0x7E#8]

/-- The end of a UART frame that starts at `t`: ten bits a byte at 115 200 baud (R433). -/
def uartEnd (t : Nat) (b : Bytes) : Nat := t + b.length * 10 * 1000000000 / 115200

/-- A message leaves the server: for a port, whose link when down discards it (R105), or on the UART behind what that still sends. -/
def mail (v : Via) (m : Bytes) (s : State) : State :=
  match v with
  | .port p _ _ =>
    if s.portActive p && !(s.prt p).up then tally p 0x13 s else { s with osr := { s.osr with outbox := s.osr.outbox ++ [(v, m)] } }
  | .uart =>
    let rest := s.osr.line.filter (fun f => s.elapsed < uartEnd f.1 f.2)
    let at_ := rest.foldl (fun a f => max a (uartEnd f.1 f.2)) s.elapsed
    { s with osr := { s.osr with line := rest ++ [(at_, uartFrame m)] } }

/-- Level of UART_TX (R433): high-impedance (none) in power hold, and while the outputs are as in it (R50, R53, R538); a start bit, eight data bits, least significant first, and a stop
bit of each byte sent; else high. -/
def State.uartTx (s : State) : Option Bool :=
  if s.power.phase.held then none
  else match s.osr.line.find? (fun f => f.1 ≤ s.elapsed && s.elapsed < uartEnd f.1 f.2) with
    | none => some true
    | some f =>
      let k := (s.elapsed - f.1) * 115200 / 1000000000
      some (if k % 10 = 0 then false else if k % 10 = 9 then true else bit (field f.2 (k / 10) 1) (k % 10 - 1))

/-- The device's own address: 169.254.0.1 in QUICKSET without a stored configuration that verifies (R484); no object of the spec holds the
other one, and it is free (log entry 185). -/
def State.ownAddr (s : State) (k : Nat) : Bytes := if s.mode.cur = .quickset && !s.jrn.cfgValid then toBE 4 0xA9FE0001 else freeRun k 10 4

/-- Messages for a port are offered to its class 3, each as one UDP datagram from port 4860 (R122, R411). -/
def postMail (p : Nat) (s : State) : State :=
  let mine := fun (m : Via × Bytes) => match m.1 with | .port q _ _ => decide (q = p) | .uart => false
  each (s.osr.outbox.filter mine)
    (fun m st => match m.1 with
      | .port _ ip udp =>
        let (k, st1) := st.takeFree
        portSend p 3 (udpFrame { template := udpTemplate k p ip 4860 udp (st.ownAddr k), payload := m.2, mss := 0 }) none st1
      | .uart => st)
    { s with osr := { s.osr with outbox := s.osr.outbox.filter (fun m => !mine m) } }

/-- A response goes out (R412): its sequence number, flags and status byte. -/
def respond (x : Session) (type tag status : Nat) (body : Bytes) (s : State) : State :=
  let y := (s.session x.id).getD x
  let s1 := s.setSession { y with txSeq := (y.txSeq + 1) % 2 ^ 32, tx := y.tx + 1 }
  let due := !x.anon && x.due s
  mail x.via (sealed y type (1 + 4 * b2n due) y.txSeq tag (toBE 1 status ++ body))
    { s1 with osr := { s1.osr with resp := some { sid := x.id, type := type, tag := tag, seq := y.txSeq, status := status, body := body, rekey := due } } }

/-- No response goes out. -/
def noResp (s : State) : State := { s with osr := { s.osr with resp := none } }

/-- A sequence number is new (R415): above the highest accepted, or within the 64 below it and not accepted before. -/
def seqNew (hi : Nat) (seen : List Nat) (q : Nat) : Bool := hi < q || (q != hi && hi ≤ q + 64 && q != 0 && !seen.contains q)

/-- The highest number and the accepted ones below it, after accepting one. -/
def seqTake (hi : Nat) (seen : List Nat) (q : Nat) : Nat × List Nat :=
  if hi < q then (q, (hi :: seen).filter (fun n => q ≤ n + 64)) else (hi, q :: seen)

/-- The credential of a session still stands (R416, R447). -/
def State.credOk (s : State) (x : Session) : Bool := x.anon || s.keyFit x.slot (x.role - 1)

/-- The class B request that a message of a session makes of the port, in either direction (R30, R447): its status. -/
def sessionUse (x : Session) (s : State) : Nat × State := if x.anon then (stOk, s) else keyUse 1 x.slot (x.role - 1) false s

/-- Acceptance of a session's message (R415 to R417): dropped without reply and counted, answered KEY_REVOKED with the
session closed, or accepted. Replies go where the message came from (R411). While the port answers BUSY nothing can be
authenticated, and the message is dropped (DEDUCED, log entry 216). -/
def acceptMsg (m : Msg) (type : Nat) (payload : Bytes) (s : State) : Option Session × State :=
  let s0 := noResp s
  if !s0.viaOk m.via then (none, s0)
  else
    match s0.session m.sid with
    | none => (none, count 0x1080 2 s0)
    | some x =>
      let auth := x.authOf m type payload
      if !x.anon && s0.portBusy 1 then (none, s0)
      else if x.uart != viaUart m.via || auth = .bad then (none, count 0x1080 2 s0)
      else
        let old := auth = .previous
        let live := match x.oldUntil with | some t => decide (s0.elapsed < t) | none => false
        if old && !live then (none, count 0x1080 2 s0)
        else if !(if old then seqNew x.oldHi x.oldSeen m.seq else seqNew x.hi x.seen m.seq) then (none, count 0x1080 3 s0)
        else
          let (h, l) := if old then seqTake x.oldHi x.oldSeen m.seq else seqTake x.hi x.seen m.seq
          let y := if old then { x with oldHi := h, oldSeen := l, lastAt := s0.elapsed, rx := x.rx + 1, via := m.via }
            else { x with hi := h, seen := l, lastAt := s0.elapsed, rx := x.rx + 1, via := m.via }
          let (st, s1) := sessionUse y (count 0x1080 1 (s0.setSession y))
          if st = stOk then (some y, s1) else (none, endSession m.sid (respond y type m.tag stRevoked [] s1))

/-- A message of a session: accepted, then answered with a status and a body. -/
def onMsg (m : Msg) (type : Nat) (payload : Bytes) (f : Session → State → Nat × Bytes × State) (s : State) : State :=
  match acceptMsg m type payload s with
  | (none, s1) => s1
  | (some x, s1) =>
    let (st, body, s2) := f x s1
    respond x type m.tag st body s2

/-! ## Direct writes (R420) -/

/-- RWS objects that a session without authentication may write whatever its role: key commands, of which IMPORT_CLEAR is left to it
(R450), and life-cycle requests (R459). -/
def anonMay (x : Session) (idx sub : Nat) : Bool := x.anon && ((idx = 0xA200 && sub = 1) || (idx = 0xA000 && sub = 4))

/-- The payload of a message that names an object, with what follows (R413). -/
def objPayload (idx sub : Nat) (rest : Bytes) : Bytes := toBE 2 idx ++ toBE 1 sub ++ rest

/-- The payload of a READ (R413). -/
def readPayload (idx sub off maxLen : Nat) : Bytes := objPayload idx sub (zeros 1 ++ toBE 4 off ++ toBE 2 maxLen)

/-- Checks of a WRITE before its object's own effect: the status and the applied value. -/
def State.checkWrite (s : State) (x : Session) (idx sub : Nat) (v : Bytes) : Nat × Nat :=
  let n := ofBE v
  if !s.reaches x.uart .write idx sub then (stRejected, n)
  else match objAt s.variant idx sub with
    | none => (stRejected, n)
    | some o =>
      if objAbsent s.variant idx sub then (stAbsent, n)
      else if !o.direct || o.acc = .ro || (o.acc = .rws && x.role != 2 && !anonMay x idx sub) then (stRejected, n)
      else if typeSize o.ty != 0 && v.length != typeSize o.ty then (stRejected, n)
      else match o.rule with
        | .rej => if o.lo ≤ (n : Int) && (n : Int) ≤ o.hi then (stOk, n) else (stRejected, n)
        | .clamp => if (n : Int) < o.lo then (stClamped, o.lo.toNat) else if o.hi < (n : Int) then (stClamped, o.hi.toNat) else (stOk, n)
        | .mask k => if n.land k = n then (stOk, n) else (stClamped, n.land k)
        | _ => (stOk, n)

/-- A WRITE: its checks, then its effect with the applied value, which may answer another status. -/
def onWrite (m : Msg) (idx sub : Nat) (v : Bytes) (f : Session → Nat → State → Nat × State) (s : State) : State :=
  onMsg m 0x12 (objPayload idx sub (zeros 1 ++ v)) (fun x s1 =>
    let (st, n) := s1.checkWrite x idx sub v
    if st = stOk || st = stClamped then
      let (r, s2) := f x n s1
      let fin := if r = stOk then st else r
      (fin, if fin = stClamped then toBE v.length n else [], s2)
    else (st, [], s1)) s

/-- A write that always takes its value. -/
def okWrite (f : Nat → State → State) (_x : Session) (n : Nat) (s : State) : Nat × State := (stOk, f n s)

/-- Writing 1 to a sticky flag clears it (R430). -/
def clearSticky (idx sub n : Nat) (s : State) : State :=
  let k := idx * 256 + sub
  let old := Table.getD s.sticky k 0
  { s with sticky := Table.set s.sticky k (old.xor (old.land n)) 0 }

/-- The object holds sticky saturated flags. -/
def isSticky (idx sub : Nat) : Bool :=
  match stickyOf idx 1 with
  | some (k, _) => k = idx * 256 + sub
  | none => false

/-- Clear the sticky flags of 0xF110.01 (R386). -/
def clearStoreSticky (s : State) : State :=
  { s with store := { s.store with errs := Table.mapVals s.store.errs (fun e => { e with flags := 0 }) } }

/-- STICKY_FLAG_CLEAR (R430, R386). -/
def stickyWrite (idx sub : Nat) (_x : Session) (n : Nat) (s : State) : Nat × State :=
  if isSticky idx sub then (stOk, clearSticky idx sub n s)
  else if idx = 0xF100 && sub = 9 then (stOk, clearStoreSticky s)
  else (stRejected, s)
def execStickyFlagClear (dt : Nat) (m : Msg) (idx sub : Nat) (v : List (BitVec 8)) (s : State) : Host.Outcome State Fault Refusal :=
  .next (s.act [.events, .stats, .sessions, .store, .keyPort] dt (onWrite m idx sub v (stickyWrite idx sub)))

/-! ## Opening and closing (R414 to R417, R434, R484, R558) -/

/-- The key store reads READY (R465). -/
def State.keyReady (s : State) : Bool := s.key.inForce.isSome && !s.key.trngFail && !s.key.destroyed

/-- An OPEN with a zero tag is taken without authentication. -/
def State.anonOk (s : State) (uart : Bool) : Bool :=
  match s.mode.cur with
  | .provision | .zeroized => true
  | .quickset => uart || !s.keyReady
  | _ => false

/-- An authentication failure (R417). -/
def authFail (v : Via) (s : State) : State :=
  let ip := match v with | .uart => 0 | .port _ ip _ => ip
  let s1 := raise 0x0B 0 ip (count 0x1080 2 s)
  match v with
  | .uart => s1
  | .port _ ip _ =>
    let fs := s.elapsed :: (Table.getD s.osr.failures ip []).filter (fun t => s.elapsed < t + 60000000000)
    if s.cf.u 0x1050 8 0 1 ≤ fs.length then
      { s1 with osr := { s1.osr with failures := Table.drop s1.osr.failures ip, lockouts := Table.put s1.osr.lockouts ip (s.elapsed + 60000000000) } }
    else { s1 with osr := { s1.osr with failures := Table.put s1.osr.failures ip fs } }

/-- The answer BUSY to an OPEN. -/
def openBusy (o : OpenMsg) (s : State) : State :=
  mail o.via (openAnswer s o (toBE 1 stBusy)) { s with osr := { s.osr with resp := some { sid := 0, type := 1, tag := o.tag, seq := 1, status := stBusy, body := [] } } }

/-- No further session fits (R416, R434, R484): one on the UART; on the ports eight, of which one without
authentication, or one in QUICKSET. -/
def State.sessionsFull (s : State) (uart anon : Bool) : Bool :=
  let mine := s.osr.sessions.filter (fun x => x.uart = uart)
  if uart || s.mode.cur = .quickset then !mine.isEmpty
  else 8 ≤ mine.length || (anon && mine.any (·.anon))

/-- The OPEN's tag verifies under a credential key that serves Osrider and permits the role, where the mode authenticates sessions. -/
def State.openFit (s : State) (o : OpenMsg) : Bool :=
  s.tagOk o && (!s.anonOk (viaUart o.via) || s.mode.cur = .provision) && (o.role = 1 || o.role = 2) && s.keyFit o.slot (o.role - 1) &&
    (s.mode.cur != .quickset || o.role = 2)

/-- OPEN (R414). Its tag is checked by a class B request, which the port serves, or answers KEY_REVOKED (R447). While the port answers
BUSY there is no reply (DEDUCED, log entry 216). -/
def openSession (o : OpenMsg) (s : State) : State :=
  let s0 := noResp s
  let uart := viaUart o.via
  let anon := openTagZero o && s0.anonOk uart && (o.role = 1 || o.role = 2)
  if !s0.viaOk o.via || (!anon && s0.portBusy 1) then s0
  else
    let use_ := if anon || !(o.role = 1 || o.role = 2) then s0 else (keyUse 1 o.slot (o.role - 1) false s0).2
    if !(anon || s0.openFit o) then authFail o.via use_
    else if s0.key.trngFail || s0.sessionsFull uart anon then openBusy o use_
    else
      let (n, s1) := use_.takeFree
      let (n2, s2) := s1.takeFree
      let sid := s0.newSid n
      let nonce := toBE 8 (Config.free64 n).toNat ++ toBE 8 (Config.free64 n2).toNat
      let (key, s2) := if anon then (({} : Shares), s2) else freshShares (s0.sessionKey o.slot o.nonce nonce sid) s2
      let x : Session := { id := sid, role := o.role, slot := if anon then 0 else o.slot, anon := anon, via := o.via, lastAt := s.elapsed, keyAt := s.elapsed,
                           key := key, txSeq := 2 }
      let s3 := { s2 with osr := { s2.osr with sessions := s2.osr.sessions ++ [x] } }
      let s4 := raise 0x0A (sid % 65536) (1 + o.role * 256) (count 0x1080 4 (count 0x1080 1 s3))
      let body := toBE 4 sid ++ nonce ++ toBE 1 o.role
      mail o.via (openAnswer s0 o (toBE 1 stOk ++ body)) { s4 with osr := { s4.osr with resp := some { sid := sid, type := 1, tag := o.tag, seq := 1, status := stOk, body := body } } }
def execOpen (dt : Nat) (m : OpenMsg) (s : State) : Host.Outcome State Fault Refusal := .next (s.act [.events, .stats, .free, .sessions, .lockouts, .keyPort] dt (openSession m))

/-- CLOSE (R416): answered, and the session ends. -/
def closeMsg (m : Msg) (s : State) : State :=
  match acceptMsg m 2 [] s with
  | (none, s1) => s1
  | (some x, s1) => endSession x.id (respond x 2 m.tag stOk [] s1)
def execClose (dt : Nat) (m : Msg) (s : State) : Host.Outcome State Fault Refusal := .next (s.act [.events, .stats, .sessions, .keyPort] dt (closeMsg m))

/-- KEEPALIVE (R413). -/
def execKeepalive (dt : Nat) (m : Msg) (s : State) : Host.Outcome State Fault Refusal :=
  .next (s.act [.events, .stats, .sessions, .keyPort] dt (onMsg m 3 [] (fun _ t => (stOk, [], t))))

/-- REKEY (R416): the response goes under the old key and number; then the numbers restart in both directions, and the old
key is taken for 2 s. A session without a key has none to change. -/
def rekey (m : Msg) (client : Bytes) (s : State) : State :=
  match acceptMsg m 4 (fit 16 client) s with
  | (none, s1) => s1
  | (some x, s1) =>
    if x.anon then respond x 4 m.tag stRejected [] s1
    else if s1.key.trngFail then respond x 4 m.tag stBusy [] s1
    else
      let (n, s2) := s1.takeFree
      let (n2, s3) := s2.takeFree
      let nonce := toBE 8 (Config.free64 n).toNat ++ toBE 8 (Config.free64 n2).toNat
      let (key, s4) := freshShares (s1.sessionKey x.slot client nonce x.id) s3
      let s5 := respond { x with dueAt := none, keyAt := s1.elapsed, rx := 0, tx := 0 } 4 m.tag stOk nonce s4
      s5.setSession { x with oldKey := some x.key, key := key, oldHi := x.hi, oldSeen := x.seen,
                             oldUntil := some (s1.elapsed + 2000000000), hi := 0, seen := [], rx := 0, tx := 0, txSeq := 1, keyAt := s1.elapsed, dueAt := none }
def execRekey (dt : Nat) (m : RekeyMsg) (s : State) : Host.Outcome State Fault Refusal := .next (s.act [.events, .stats, .free, .sessions, .keyPort] dt (rekey m.head m.nonce))

/-- A message type (R413). -/
def isMsgType (n : Nat) : Bool := [1, 2, 3, 4, 0x10, 0x11, 0x12, 0x20, 0x21, 0x22, 0x23, 0x24, 0x30, 0x31].contains n

/-- A datagram is no Osrider message: too short or too long, an unknown version or type, or a payload length that disagrees (R411). -/
def badDatagram (b : Bytes) : Bool :=
  b.length < 32 || 1472 < b.length || field b 0 1 != 1 || !isMsgType (field b 1 1) || field b 12 2 + 32 != b.length

/-- MALFORMED_DATAGRAM (R411), on a port that serves Osrider, from a source that is not locked out (R417). A datagram that is a message
is that message's command, not this one. -/
def malformed (d : Datagram) (s : State) : State :=
  if s.viaOk d.via && !viaUart d.via && badDatagram d.bytes then noResp (count 0x1080 8 s) else s
def execMalformedDatagram (dt : Nat) (d : Datagram) (s : State) : Host.Outcome State Fault Refusal := .next (s.act [.events, .stats, .sessions] dt (malformed d))

/-- The bytes of a UART frame as sent (R434); a 0x7D with nothing after it gives nothing. -/
def unescape (b : Bytes) : Bytes :=
  match b with
  | [] => []
  | [x] => if x = 0x7D#8 then [] else [x]
  | x :: y :: r => if x = 0x7D#8 then (y ^^^ 0x20#8) :: unescape r else x :: unescape (y :: r)

/-- The CRC-32 at the end of a UART frame fails. -/
def badUartFrame (b : Bytes) : Bool :=
  let u := unescape b
  u.length < 4 || crc32 (u.take (u.length - 4)) != field u (u.length - 4) 4

/-- UART_FRAME_CRC_FAIL (R434): a frame whose CRC holds is its message's command, not this one. -/
def uartBad (b : Bytes) (s : State) : State := if s.viaOk .uart && badUartFrame b then noResp (count 0x1080 9 s) else s
def execUartFrameCrcFail (f : UartRx) (s : State) : Host.Outcome State Fault Refusal :=
  .next (s.act [.events, .stats, .sessions] f.dt (uartBad f.bytes))

/-! ## Session timers -/

/-- SESSION_IDLE_TIMEOUT (R416). -/
def idleTimeout (sid : Nat) (s : State) : State :=
  match s.session sid with
  | some x => if x.lastAt + s.cf.u 0x1050 3 0 2 * 1000000000 ≤ s.elapsed then endSession sid s else s
  | none => s
def execSessionIdleTimeout (dt sid : Nat) (s : State) : Host.Outcome State Fault Refusal := .next (s.act [.events, .stats, .sessions] dt (idleTimeout sid))

/-- REKEY_DUE (R416): the interval or the number of messages is reached. -/
def rekeyDue (sid : Nat) (s : State) : State :=
  match s.session sid with
  | some x =>
    if !x.anon && x.dueAt.isNone && x.due s then
      let t := x.keyAt + s.cf.u 0x1050 6 0 4 * 1000000000
      s.setSession { x with dueAt := some (if 2 ^ 30 ≤ x.rx || 2 ^ 30 ≤ x.tx then min t s.elapsed else t) }
    else s
  | none => s
def execRekeyDue (dt sid : Nat) (s : State) : Host.Outcome State Fault Refusal := .next (s.act [.sessions] dt (rekeyDue sid))

/-- REKEY_DEADLINE (R416): 60 s after the flag without a REKEY. -/
def rekeyDeadline (sid : Nat) (s : State) : State :=
  match s.session sid with
  | some x => (match x.dueAt with
    | some t => if t + 60000000000 ≤ s.elapsed then endSession sid s else s
    | none => s)
  | none => s
def execRekeyDeadline (dt sid : Nat) (s : State) : Host.Outcome State Fault Refusal := .next (s.act [.events, .stats, .sessions] dt (rekeyDeadline sid))

/-- OLD_KEY_EXPIRE (R416). -/
def oldKeyExpire (sid : Nat) (s : State) : State :=
  match s.session sid with
  | some x => (match x.oldUntil with
    | some t => if t ≤ s.elapsed then s.setSession { x with oldUntil := none, oldKey := none, oldSeen := [], oldHi := 0 } else s
    | none => s)
  | none => s
def execOldKeyExpire (dt sid : Nat) (s : State) : Host.Outcome State Fault Refusal := .next (s.act [.sessions] dt (oldKeyExpire sid))

/-- AUTH_LOCKOUT_END (R417). -/
def lockoutEnd (ip : Nat) (s : State) : State :=
  match Table.find s.osr.lockouts ip with
  | some t => if t ≤ s.elapsed then { s with osr := { s.osr with lockouts := Table.drop s.osr.lockouts ip } } else s
  | none => s
def execAuthLockoutEnd (dt ip : Nat) (s : State) : Host.Outcome State Fault Refusal := .next (s.act [.lockouts] dt (lockoutEnd ip))

/-- SNAPSHOT_EXPIRE (R419). -/
def snapshotExpire (sid : Nat) (s : State) : State :=
  match s.session sid with
  | some x => (match x.snap with
    | some p => if p.readAt + 10000000000 ≤ s.elapsed then s.setSession { x with snap := none } else s
    | none => s)
  | none => s
def execSnapshotExpire (dt sid : Nat) (s : State) : Host.Outcome State Fault Refusal := .next (s.act [.sessions] dt (snapshotExpire sid))

/-- STAGING_TIMEOUT (R428). -/
def stagingTimeout (sid : Nat) (s : State) : State :=
  match s.session sid with
  | some x => (match x.stage with
    | some a => if !a.frozen && a.lastAt + s.cf.u 0x1050 2 0 2 * 1000000000 ≤ s.elapsed then dropStage x s else s
    | none => s)
  | none => s
def execStagingTimeout (dt sid : Nat) (s : State) : Host.Outcome State Fault Refusal := .next (s.act [.events, .stats, .sessions] dt (stagingTimeout sid))

/-! ## Staging (R421 to R423) -/

/-- A STAGE_WRITE, STAGE_OPEN or STAGE_COMMIT has been sent: the staging timeout starts again (R428). -/
def touchStage (x : Session) (s : State) : Session × State :=
  match x.stage with
  | some a => if a.frozen then (x, s) else let y := { x with stage := some { a with lastAt := s.elapsed } }; (y, s.setSession y)
  | none => (x, s)

/-- STAGE_OPEN (R421). -/
def stageOpen (x : Session) (s : State) : Nat × Bytes × State :=
  if s.mode.cur = .quickset || s.mode.cur = .zeroized then (stRejected, [], s)
  else match x.stage with
    | some _ => (stBusy, [], (touchStage x s).2)
    | none => (stOk, [], s.setSession { x with stage := some { lastAt := s.elapsed } })
def execStageOpen (dt : Nat) (m : Msg) (s : State) : Host.Outcome State Fault Refusal := .next (s.act [.events, .stats, .sessions, .keyPort] dt (onMsg m 0x20 [] stageOpen))

/-- Put a run of bytes into staged cells. -/
def putCells (cells : List Host.Cell) (a : Nat) (v : Bytes) : List Host.Cell :=
  match v with
  | [] => cells
  | b :: r => putCells (Table.put cells a b) (a + 1) r

/-- The DOMAIN rules of a staged write (R422). -/
def domainOk (o : Obj) (have_ off len : Nat) : Bool :=
  if o.recSize = 0 then off ≤ have_
  else off % o.recSize = 0 && len % o.recSize = 0 && off + len ≤ o.recSize * o.recCount

/-- STAGE_WRITE (R421, R422). -/
def stageWrite (idx sub off : Nat) (v : Bytes) (x0 : Session) (s0 : State) : Nat × Bytes × State :=
  let (x, s) := touchStage x0 s0
  match x.stage with
  | none => (stRejected, [], s)
  | some a =>
    if a.frozen then (stBusy, [], s)
    else if v.isEmpty || 1280 < v.length || !s.reaches x.uart .stage idx sub then (stRejected, [], s)
    else match objAt s.variant idx sub with
      | none => (stRejected, [], s)
      | some o =>
        if objAbsent s.variant idx sub then (stAbsent, [], s)
        else if o.direct || !(o.acc = .rw || (o.acc = .rws && x.role = 2)) then (stRejected, [], s)
        else
          let cells := putCells a.cells (cfgAddr idx sub off) v
          if o.ty = 11 && !domainOk o (stagedOf a.cells idx sub).length off v.length then (stRejected, [], s)
          else if 2 ^ 24 < off + v.length || 2 ^ 24 < cells.length then (stRejected, [], s)
          else (stOk, [], s.setSession { x with stage := some { a with cells := cells, lastAt := s.elapsed } })
def execStageWrite (dt : Nat) (m : Msg) (idx sub off : Nat) (v : List (BitVec 8)) (s : State) : Host.Outcome State Fault Refusal :=
  .next (s.act [.events, .stats, .sessions, .keyPort] dt (onMsg m 0x21 (objPayload idx sub (zeros 1 ++ toBE 4 off ++ v)) (stageWrite idx sub off v)))

/-- STAGE_ABORT (R423, R558). -/
def stageAbort (x : Session) (s : State) : Nat × Bytes × State :=
  if s.mode.cur = .zeroized then (stRejected, [], s)
  else match x.stage with
  | none => (stRejected, [], s)
  | some a => if a.frozen then (stBusy, [], s) else (stOk, [], s.setSession { x with stage := none })
def execStageAbort (dt : Nat) (m : Msg) (s : State) : Host.Outcome State Fault Refusal := .next (s.act [.events, .stats, .sessions, .keyPort] dt (onMsg m 0x23 [] stageAbort))

/-- STAGE_COMMIT (R423, R67, R476, R558): the area is frozen and queued; the response goes out at the acceptance (R426). -/
def stageCommit (m : Msg) (s : State) : State :=
  match acceptMsg m 0x22 [] s with
  | (none, s1) => s1
  | (some x0, s0) =>
    let (x, s1) := touchStage x0 s0
    match (if s1.mode.cur = .zeroized then none else x.stage) with
    | none => respond x 0x22 m.tag stRejected [] s1
    | some a =>
      if a.frozen || 4 ≤ s1.osr.queue.length || s1.power.failState != 0 || s1.upd.state = 3 then respond x 0x22 m.tag stBusy [] s1
      else
        let s2 := s1.setSession { x with stage := some { a with frozen := true, lastAt := s1.elapsed } }
        { s2 with osr := { s2.osr with queue := s2.osr.queue ++ [⟨x.id, x.role, m.tag, a.cells, m.via⟩] } }
def execStageCommit (dt : Nat) (m : Msg) (s : State) : Host.Outcome State Fault Refusal := .next (s.act [.events, .stats, .sessions, .commitQueue, .keyPort] dt (stageCommit m))

/-! ## Reports (R426, R427) -/

def entryBytes (e : Entry) : Bytes :=
  toBE 2 e.idx ++ toBE 1 e.sub ++ toBE 1 e.outcome ++ toBE 4 e.record ++ toBE 2 e.off ++ toBE 1 e.len ++ toBE 1 e.reason ++ toBE 8 e.staged ++ toBE 8 e.live ++ zeros 4

def Report.outcomes (r : Report) (k : Nat) : Nat := (r.entries.filter (fun e => e.outcome = k)).length

def reportHeader (r : Report) : Bytes :=
  toBE 4 r.gen.toNat ++ toBE 4 r.sid ++ stampBytes r.acc ++ stampBytes r.tc ++ toBE 4 r.entries.length ++ toBE 4 (r.outcomes 0) ++
    toBE 4 (r.outcomes 1) ++ toBE 4 (r.outcomes 2) ++ toBE 4 r.unchanged ++ zeros 12

def reportBytes (r : Report) : Bytes := reportHeader r ++ (r.entries.map entryBytes).flatten

/-- REPORT_READ (R418, R426, R558). -/
def reportRead (gen : BitVec 32) (off maxLen : Nat) (_x : Session) (s : State) : Nat × Bytes × State :=
  if maxLen = 0 || 1280 < maxLen || s.mode.cur = .zeroized then (stRejected, [], s)
  else match s.osr.reports.find? (fun r => r.gen = gen) with
    | none => (stRejected, [], s)
    | some r => (stOk, slice (reportBytes r) off maxLen, s)
def execReportRead (dt : Nat) (m : Msg) (gen : BitVec 32) (offset maxLen : Nat) (s : State) : Host.Outcome State Fault Refusal :=
  .next (s.act [.events, .stats, .sessions, .keyPort] dt (onMsg m 0x24 (toBE 4 gen.toNat ++ toBE 4 offset ++ toBE 2 maxLen) (reportRead gen offset maxLen)))

/-! ## Notifications (R432) -/

/-- SUBSCRIBE. Values other than 0 and 1 are refused; turning off empties the session's queue. -/
def subscribe (on : Nat) (x : Session) (s : State) : Nat × Bytes × State :=
  if 1 < on || s.mode.cur = .zeroized then (stRejected, [], s)
  else if on = 1 then (stOk, [], s.setSession { x with subscribed := true })
  else (stOk, [], s.setSession { x with subscribed := false, queue := [] })
def execSubscribe (dt : Nat) (m : Msg) (on : Nat) (s : State) : Host.Outcome State Fault Refusal := .next (s.act [.events, .stats, .sessions, .keyPort] dt (onMsg m 0x30 (toBE 1 on) (subscribe on)))

/-- An event joins the queue of a subscribed session; at 1024 the oldest is dropped. -/
def notifySession (e : Ev) (x : Session) (s : State) : State :=
  if x.queue.length < 1024 then s.setSession { x with queue := x.queue ++ [e] }
  else count 0x1080 7 (s.setSession { x with queue := x.queue.drop 1 ++ [e], lost := true })

/-- An event is handed to the notification target. -/
def notifyAll (e : Ev) (s : State) : State := each (s.osr.sessions.filter (·.subscribed)) (notifySession e) s

/-- An event record of a NOTIFY (R432). -/
def notifyRecord (e : Ev) : Bytes := toBE 1 e.id ++ zeros 1 ++ toBE 2 e.inst ++ stampBytes e.stamp ++ toBE 4 e.param.toNat ++ toBE 2 e.rep ++ zeros 2

/-- A NOTIFY goes out, or goes out again. -/
def mailNotify (x : Session) (seq : Nat) (recs : List Ev) (lost : Bool) (s : State) : State :=
  mail x.via (sealed x 0x31 (8 * b2n lost) seq 0 (toBE 1 recs.length ++ zeros 1 ++ (recs.map notifyRecord).flatten))
    { s with osr := { s.osr with notify := some (x.id, seq, recs, lost) } }

/-- NOTIFY_SEND: none outstanding, up to 32 records; none while the session's credential is refused (R447, R456). -/
def notifySend (sid : Nat) (s0 : State) : State :=
  match s0.session sid with
  | some x =>
    if x.out.isNone && !x.queue.isEmpty then
      let (st, s) := sessionUse x s0
      if st = stOk then
        let recs := x.queue.take 32
        let s1 := s.setSession { x with queue := x.queue.drop 32, out := some ⟨x.txSeq, recs, 0, s.elapsed, x.lost⟩, txSeq := (x.txSeq + 1) % 2 ^ 32, tx := x.tx + 1, lost := false }
        mailNotify x x.txSeq recs x.lost s1
      else s
    else s0
  | none => s0
def execNotifySend (dt sid : Nat) (s : State) : Host.Outcome State Fault Refusal := .next (s.act [.events, .stats, .sessions, .keyPort] dt (notifySend sid))

/-- NOTIFY_RETRANSMIT: sent again every 200 ms up to the count at 0x1050.07, then dropped; not sent while the session's credential is
refused, though the attempt counts. -/
def notifyRetransmit (sid : Nat) (s : State) : State :=
  match s.session sid with
  | some x => (match x.out with
    | some o =>
      if o.sentAt + 200000000 ≤ s.elapsed then
        if o.tries < s.cf.u 0x1050 7 0 1 then
          let (st, s0) := sessionUse x s
          let s1 := s0.setSession { x with out := some { o with tries := o.tries + 1, sentAt := s.elapsed } }
          if st = stOk then mailNotify x o.seq o.recs o.lost s1 else s1
        else countN 0x1080 7 o.recs.length (s.setSession { x with out := none, lost := true })
      else s
    | none => s)
  | none => s
def execNotifyRetransmit (dt sid : Nat) (s : State) : Host.Outcome State Fault Refusal := .next (s.act [.events, .stats, .sessions, .keyPort] dt (notifyRetransmit sid))

/-- NOTIFY_ACK: the client's NOTIFY response; it is not answered. -/
def notifyAck (m : Msg) (echo : Nat) (s : State) : State :=
  match acceptMsg m 0x31 (toBE 4 echo) s with
  | (none, s1) => s1
  | (some x, s1) => (match x.out with
    | some o => if o.seq = echo then s1.setSession { x with out := none } else s1
    | none => s1)
def execNotifyAck (dt : Nat) (m : Msg) (echo : Nat) (s : State) : Host.Outcome State Fault Refusal := .next (s.act [.events, .stats, .sessions, .keyPort] dt (notifyAck m echo))

end Sys2Proof.Machine
end

