-- ==== Sys2Proof/Machine/Alarm.lean ====
section
/-! DEFINITION. The alarm unit (R281 to R287): decisions, provisional values and their resolution, latch, frozen states,
event pulses; and its commands. -/
namespace Sys2Proof.Machine
open Sys2Proof

/-- A field of an alarm record (R281). -/
def alF (c : Cf) (a off n : Nat) : Nat := c.u 0x7810 1 (16 * a + off) n
def alFlag (c : Cf) (a b : Nat) : Bool := bit (alF c a 0 1) b

/-- The valid alarms, ascending. -/
def validAlarms (c : Cf) : List Nat := ((c.recs 0x7810 1 16).insertionSort (· ≤ ·)).filter (fun a => a < 512 && alFlag c a 0)

def State.alarm (s : State) (a : Nat) : Alarm := Table.getD s.alm.alarm a {}
def State.setAlarm (s : State) (a : Nat) (x : Alarm) : State := { s with alm := { s.alm with alarm := Table.set s.alm.alarm a x {} } }

/-- The alarm that decisions of an instant go to: the one of before the last T_c, where that changed it (R17). -/
def State.alarmFor (s : State) (a : Nat) (t : Stamp) : Alarm :=
  if s.beforeChange t then (Table.find s.alm.old a).getD (s.alarm a) else s.alarm a
def State.setAlarmFor (s : State) (a : Nat) (t : Stamp) (x : Alarm) : State :=
  if s.beforeChange t && (Table.find s.alm.old a).isSome then { s with alm := { s.alm with old := Table.put s.alm.old a x } } else s.setAlarm a x

/-- The unit works: no fence has taken it, and no zeroization is done or in progress (R61, R491). -/
def State.alarmRuns (s : State) : Bool := !s.fenced 7 0 && s.mode.cur != .zeroized

/-- v is held above v_f by the latch (R285). -/
def Alarm.latched (x : Alarm) : Bool := !x.prov && decide (x.vf < x.v)

/-- Status byte 1 (R305). -/
def Alarm.flags (x : Alarm) : Nat := flagsOf [x.prov, x.frozen, x.latched, x.above, x.withdrawn, x.corrected]

/-- A status record of 0x7818.01 (R305). -/
def Alarm.bytes (x : Alarm) : Bytes :=
  toBE 1 x.v ++ toBE 1 x.flags ++ toBE 2 x.conf ++ toBE 4 x.seq ++ stampBytes x.at_ ++ toBE 4 x.setSeq.toNat ++ toBE 1 x.vf ++ zeros 7

/-- A field of a publication record (R288). -/
def gpF (c : Cf) (p off n : Nat) : Nat := c.u 0x7900 1 (32 * p + off) n

/-- The valid publications, ascending. -/
def validPubs (c : Cf) : List Nat := ((c.recs 0x7900 1 32).insertionSort (· ≤ ·)).filter (fun p => p < 64 && bit (gpF c p 0 1) 0)

/-- The members of a publication: their places in the member table, when valid, and the alarm or slot each names. -/
def pubMembers (c : Cf) (p : Nat) : List (Nat × Nat) :=
  ((span (gpF c p 12 2) (gpF c p 12 2 + gpF c p 14 1)).filter (fun m => bit (c.u 0x7910 1 (8 * m) 2) 15)).map (fun m => (m, c.u 0x7910 1 (8 * m) 2 % 8192))

/-- A change of an alarm at an instant waits for the next frame of every alarm publication that names it, as the configuration of
that instant has them (R17, R291). -/
def markDirty (c : Cf) (a : Nat) (t : Stamp) (s : State) : State :=
  each ((validPubs c).filter (fun p => !bit (gpF c p 0 1) 1)) (fun p st =>
    each ((pubMembers c p).filter (fun m => m.2 = a)) (fun m st1 =>
      { st1 with alm := { st1.alm with goose := Table.modify st1.alm.goose p {} (fun x => { x with dirty := x.dirty ++ [m.1], of_ := t }) } }) st) s

/-- An alarm change at an instant under its configuration (R287): sequence number, count, event, frames and the summary of a worker
(R354). -/
def alarmChanged (c : Cf) (a : Nat) (t : Stamp) (x : Alarm) (s : State) : State :=
  let y := { x with seq := (x.seq + 1) % 2 ^ 32 }
  let s1 := count 0x7880 1 (s.setAlarmFor a t y)
  let s2 := when (alFlag c a 3) (raise 0x80 a (y.v * 2 ^ 24 + y.flags * 2 ^ 16 + y.conf)) s1
  sendSummary 4 a y.bytes (markDirty c a t s2)

/-- The entry of the latest decision instant. -/
def latestOf (ps : List (Stamp × Nat)) : Option (Stamp × Nat) :=
  match ps with
  | [] => none
  | p :: r => some (r.foldl (fun b q => if Stamp.before b.1 q.1 then q else b) p)

/-- What R300 looks back on: the value the alarm had after a decision. Frames look back on instants of the last few seconds, and on
the latest one before them (log entry 205). -/
def Alarm.remember (x : Alarm) (at_ : Stamp) : Alarm :=
  let late := fun (p : Stamp × Nat) => !Stamp.before p.1 at_ || (p.1.gen = at_.gen && decide (at_.ns ≤ p.1.ns + 4000000000))
  { x with past := (at_, x.v) :: ((x.past.filter (fun p => p.1 != at_ && late p)) ++ (latestOf (x.past.filter (fun p => !late p))).toList) }

/-- A change of v that no decision brings, an acknowledgement or a release, counts from the latest decision instant on (R300, log
entry 205). -/
def Alarm.revise (x : Alarm) : Alarm :=
  match latestOf x.past with
  | some p => { x with past := (p.1, x.v) :: x.past.filter (fun q => q.1 != p.1) }
  | none => { x with past := [(x.at_, x.v)] }

/-- The value of the latest decision instant at or before `t`; 0 before the first. -/
def Alarm.valueAt (x : Alarm) (t : Stamp) : Nat := (latestOf (x.past.filter (fun p => !Stamp.before t p.1))).elim 0 (·.2)

/-- Whole reports from `a` to `b` at a rate (R283). -/
def reportsBetween (rate a b : Nat) : Nat := ((b - a) * rate + 500000000) / 1000000000

/-- A provisional decision (R283) under the configuration of its instant (R17); one that is taken clears the frozen flag (R286). -/
def provisional (a : Nat) (d : Decision) (s : State) : State :=
  let c := (s.cfFor d.at_).1
  let x := s.alarmFor a d.at_
  if !s.alarmRuns then s
  else if !alFlag c a 2 || d.conf < alF c a 6 2 then count 0x7880 6 s
  else if x.v < d.value then
    let y := { x with v := d.value, prov := true, frozen := false, conf := d.conf, tp := d.at_, tpEl := d.el, at_ := d.at_, setSeq := d.setSeq, qual := d.qual, above := d.above }
    alarmChanged c a d.at_ (y.remember d.at_) (count 0x7880 2 s)
  else if x.frozen then alarmChanged c a d.at_ ({ x with frozen := false }.remember d.at_) s
  else s.setAlarmFor a d.at_ (x.remember d.at_)

/-- The withdrawal hold of a provisional value has passed at a decision of its source (R283): at t_p or later, and H_w reports later
on the elapsed-time counter, which a step of internal time leaves alone (R79). -/
def holdPassed (hw : Nat) (x : Alarm) (d : Decision) : Bool :=
  !Stamp.before d.at_ x.tp && decide (hw ≤ reportsBetween d.rate 0 (d.el - x.tpEl).toNat)

/-- How a final decision resolves a provisional value (R283). -/
inductive Resolved where
  | no | confirmed | corrected | withdrawn
  deriving DecidableEq, Repr

/-- A final decision (R283, R285, R286) under the configuration of its instant (R17). The latch holds the highest final value since the last acknowledgement. -/
def finalDecision (a : Nat) (d : Decision) (s : State) : State :=
  let c := (s.cfFor d.at_).1
  let x := s.alarmFor a d.at_
  if !s.alarmRuns then s
  else
    let peak := if alFlag c a 1 then max x.peak d.value else d.value
    let due := holdPassed (alF c a 8 1) x d
    let res : Resolved := if !x.prov then .no else if x.v ≤ d.value then .confirmed
      else if due then (if d.value = 0 then .withdrawn else .corrected) else .no
    let v := if !x.prov then max peak d.value
      else match res with
        | .no => x.v
        | .confirmed => d.value
        | _ => max peak d.value
    let prov := x.prov && res = Resolved.no
    let y := { x with v := v, vf := d.value, prov := prov, frozen := false, peak := peak,
                      withdrawn := if res = Resolved.no then x.withdrawn else decide (res = Resolved.withdrawn), corrected := if res = Resolved.no then x.corrected else decide (res = Resolved.corrected) }
    if v = x.v && prov = x.prov && !x.frozen then s.setAlarmFor a d.at_ (y.remember d.at_)
    else
      let z := { y with conf := d.conf, at_ := d.at_, setSeq := d.setSeq, qual := d.qual, above := if v = d.value then d.above else x.above }
      let s1 := match res with
        | .no => s
        | .confirmed => count 0x7880 3 s
        | .corrected => count 0x7880 4 s
        | .withdrawn => count 0x7880 5 s
      let s2 := alarmChanged c a d.at_ (z.remember d.at_) s1
      if res = Resolved.corrected || res = Resolved.withdrawn then raise 0x81 a (x.v * 2 ^ 24 + d.value * 2 ^ 16 + b2n (res = Resolved.withdrawn)) s2 else s2

/-- An alarm has the same source under two configurations. -/
def sameSource (o n : Cf) (a : Nat) : Bool := alFlag o a 0 && alFlag n a 0 && o.bytes 0x7810 1 (16 * a + 1) 5 = n.bytes 0x7810 1 (16 * a + 1) 5

/-- A decision for an instant that a commit still to take effect serves, for an alarm that it changes: it waits for that (R17). -/
def State.tooEarly (s : State) (w : Waiting) : Bool :=
  s.cfg.waiting.any (fun k => !Stamp.before w.d.at_ k.tc) && !sameSource (s.cfFor w.d.at_).1 s.cf w.alarm

/-- The oldest decision that waits for an alarm is applied. -/
def takeDecision (final : Bool) (a : Nat) (s : State) : State :=
  match s.alm.inbox.find? (fun w => w.alarm = a) with
  | none => s
  | some w =>
    if w.final != final || s.tooEarly w then s
    else
      let s1 := { s with alm := { s.alm with inbox := s.alm.inbox.erase w } }
      if final then finalDecision a w.d s1 else provisional a w.d s1

/-- ALARM_PROVISIONAL_DECISION (R283). -/
def execAlarmProvisionalDecision (dt a : Nat) (s : State) : Host.Outcome State Fault Refusal := .next (s.act [.events, .stats, .hr, .alarm, .goose] dt (takeDecision false a))

/-- ALARM_FINAL_REPORT (R283). -/
def execAlarmFinalReport (dt a : Nat) (s : State) : Host.Outcome State Fault Refusal := .next (s.act [.events, .stats, .hr, .alarm, .goose] dt (takeDecision true a))

/-- A source freezes the conditions it has passed on (R286). -/
def freezeAlarms (which : Nat → Nat → Bool) (s : State) : State :=
  if !s.alarmRuns then s
  else each ((validAlarms s.cf).filter (fun a => which (alF s.cf a 1 1) (alF s.cf a 2 2) && !(s.alarm a).frozen))
    (fun a st => alarmChanged st.cf a st.now { st.alarm a with frozen := true } st) s

/-- Alarms of one island subject take over the frozen states of another's (R272): pairs of the subject that held them and the
one that has the same anchor now. An alarm takes the state of the first alarm of the same kind. -/
def inheritAlarms (moves : List (Nat × Nat)) (s : State) : State :=
  each moves (fun (m, n) st => each [1, 2, 3, 4] (fun k st1 =>
    match (alarmsOf s.cf k m).head? with
    | none => st1
    | some a => each (alarmsOf s.cf k n) (fun b st2 =>
        let old := st2.alarm b
        let x := { s.alarm a with seq := old.seq, past := old.past }.revise
        if x.v = old.v && x.prov = old.prov && x.frozen = old.frozen then st2.setAlarm b x else alarmChanged s.cf b st2.now x st2) st1) st) s

/-! ## Kind 9 (R282) -/

/-- A decision of the event kind. -/
def State.pulseDecision (s : State) (value : Nat) (at_ : Stamp) : Decision := { value := value, at_ := at_, qual := s.ownQual }

/-- An event reaches the GOOSE target: its alarms, as the configuration of its instant has them, take 1, and their pulses start
afresh. -/
def alarmEvent (e : Ev) (s : State) : State :=
  let c := (s.cfFor e.stamp).1
  each ((validAlarms c).filter (fun a => alF c a 1 1 = 9 && alF c a 2 2 % 256 = e.id && (alF c a 4 2 = 0xFFFF || alF c a 4 2 = e.inst)))
    (fun a st =>
      let st1 := finalDecision a (st.pulseDecision 1 e.stamp) st
      st1.setAlarmFor a e.stamp { st1.alarmFor a e.stamp with pulse := some (st.elapsed + alF c a 12 2 * 1000000, e.stamp) }) s

/-- ALARM_PULSE_END (R282): the decision instant is the last event's, later by the pulse length. -/
def pulseEnd (a : Nat) (s : State) : State :=
  match ((s.alarm a).pulse <|> ((Table.find s.alm.old a).bind (·.pulse))) with
  | some (t, at_) =>
    if t ≤ s.elapsed then
      let at' : Stamp := { at_ with ns := at_.ns + alF (s.cfFor at_).1 a 12 2 * 1000000 }
      let s1 := s.setAlarmFor a at_ { s.alarmFor a at_ with pulse := none }
      finalDecision a (s1.pulseDecision 0 at') s1
    else s
  | none => s
def execAlarmPulseEnd (dt a : Nat) (s : State) : Host.Outcome State Fault Refusal := .next (s.act [.events, .stats, .hr, .alarm, .goose] dt (pulseEnd a))

/-! ## Acknowledgement and release (R285, R286) -/

/-- Acknowledge one alarm: v becomes v_f, and the latch lets go. A PROVISIONAL flag stands until its own resolution (DEDUCED, log
entry 191). -/
def acknowledge (a : Nat) (s : State) : State :=
  let x := s.alarm a
  let y := { x with peak := x.vf }
  if x.v = x.vf then s.setAlarm a y else alarmChanged s.cf a s.now { y with v := x.vf }.revise s

/-- ALARM_ACKNOWLEDGE: 0x7820.01. -/
def ackWrite (_x : Session) (a : Nat) (s : State) : Nat × State :=
  if a = 0xFFFF then (stOk, each (validAlarms s.cf) acknowledge s)
  else if 512 ≤ a then (stRejected, s)
  else (stOk, when ((validAlarms s.cf).contains a) (acknowledge a) s)
def execAlarmAcknowledge (dt : Nat) (m : Msg) (v : List (BitVec 8)) (s : State) : Host.Outcome State Fault Refusal :=
  .next (s.act [.events, .stats, .sessions, .hr, .alarm, .goose, .keyPort] dt (onWrite m 0x7820 1 v ackWrite))

/-- Release one frozen alarm. -/
def release (a : Nat) (s : State) : State :=
  let x := s.alarm a
  if x.frozen then alarmChanged s.cf a s.now { x with frozen := false, prov := false, v := x.vf, peak := x.vf }.revise s else s

/-- RELEASE_FROZEN_ALARMS: 0x7800.05. -/
def execReleaseFrozenAlarms (dt : Nat) (m : Msg) (v : List (BitVec 8)) (s : State) : Host.Outcome State Fault Refusal :=
  .next (s.act [.events, .stats, .sessions, .hr, .alarm, .goose, .keyPort] dt (onWrite m 0x7800 5 v (okWrite (fun _ t => each (validAlarms t.cf) release t))))

/-! ## Modes and commits -/

/-- The oscillation engine stops (R286): it runs in OPERATE and DEGRADED. -/
def oscAlarmsFreeze (s : State) : State := freezeAlarms (fun k _ => 5 ≤ k && k ≤ 7) s
/-- The other sources stop (R286): they run in SAFE as well. -/
def setAlarmsFreeze (s : State) : State := freezeAlarms (fun k _ => k ≤ 4 || k = 8) s

/-- The commit that has just taken effect is the first of its T_c: what it replaces is the configuration held for sets before. -/
def State.firstOfTc (s : State) (o : Cf) : Bool := match s.cfg.prev with | some (m, _, _) => m = o.mem | none => true

/-- At T_c an alarm that is new, gone or of another source starts at 0; a value or a flag that falls is an alarm change (R287). While
the previous configuration is held the alarm also stands as it was, for decisions of before T_c (R17). -/
def alarmCommit (o : Cf) (s : State) : State :=
  let n := s.cf
  let held := s.cfg.prev.isSome
  let s0 := if s.firstOfTc o then { s with alm := { s.alm with old := [] } } else s
  each ((dedup (validAlarms o ++ validAlarms n)).filter (fun a => !sameSource o n a)) (fun a st =>
    let x := st.alarm a
    let m := st.alm
    let keeps := held && alFlag o a 0 && (Table.find m.old a).isNone
    let st1 := { st with alm := { m with inbox := m.inbox.filter (fun w => w.alarm != a || st.servedBefore w.d.at_), old := if keeps then Table.put m.old a x else m.old } }
    if x.v != 0 || x.prov || x.frozen then alarmChanged n a s.cfg.from_ { seq := x.seq } st1 else st1.setAlarm a { seq := x.seq }) s0

end Sys2Proof.Machine
end

