-- ==== Sys2Proof/Machine/Chain.lean ====
section
/-! DEFINITION. The filter, decimation and phasor estimation chain (R164 to R191): filtered values, comparators,
estimators; and ESTIMATOR_REPORT. -/
namespace Sys2Proof.Machine
open Sys2Proof

def State.chan (s : State) (c : Nat) : Chan := Table.getD s.chain.chan c {}
def State.setChan (s : State) (c : Nat) (x : Chan) : State := { s with chain := { s.chain with chan := Table.set s.chain.chan c x {} } }
def State.comp (s : State) (k : Nat) : Comp := Table.getD s.chain.comp k {}
def State.setComp (s : State) (k : Nat) (x : Comp) : State := { s with chain := { s.chain with comp := Table.set s.chain.comp k x {} } }
def State.est (s : State) (e : Nat) : Est := Table.getD s.chain.est e {}
def State.setEst (s : State) (e : Nat) (x : Est) : State := { s with chain := { s.chain with est := Table.set s.chain.est e x {} } }

/-- The chain runs (R57, R70). -/
def State.chainRuns (s : State) : Bool := s.forming && Table.getD s.rst.status 8 0 = 0

def chF (c : Cf) (ch off n : Nat) : Nat := c.u 0x5100 1 (32 * ch + off) n
def chF32 (c : Cf) (ch off : Nat) : F32 := BitVec.ofNat 32 (chF c ch off 4)
/-- The coefficient set of a channel: tap count, group delay in force (R166, R167), taps as raw 24-bit integers. -/
def setN (c : Cf) (k : Nat) : Nat := c.u 0x5200 (k + 1) 0 2
def setG (c : Cf) (k : Nat) : Nat := if setN c k = 0 then 0 else c.u 0x5200 (k + 1) 2 4
def tap (c : Cf) (k i : Nat) : Int := c.i 0x5200 (k + 1) (8 + 4 * i) 4

/-! ## Filtered values (R168 to R173) -/

/-- The raw sample `j` before the newest; before the first one, 0 with condition bit 0 (R168). -/
def rawAt (rs : List Raw) (j : Nat) : Int × Cond × Option Qual :=
  match rs[j]? with
  | some r => (r.x, r.cond, some r.qual)
  | none => (0, 1#16, none)

/-- acc[n] (R168, R169). -/
def firSum (c : Cf) (ch : Nat) (rs : List Raw) : Int :=
  let k := chF c ch 1 1
  let i := chF c ch 4 2
  let f := chF c ch 6 2
  (List.range (setN c k)).foldl (fun a m =>
    a + tap c k m * ((1024 - (f : Int)) * (rawAt rs (m + i)).1 + (f : Int) * (rawAt rs (m + i + 1)).1)) 0

/-- p, then y (R169). -/
def firValue (acc : Int) (scale : F32) : F32 := f32of64 (f64mul (b64 (Num.ofInt acc (-32))) (f64of32 scale))

/-- G in ns, to the nearest (R167, R171; log entry 22). -/
def groupDelayNs (c : Cf) (ch rate : Nat) : Int := nearestDiv ((setG c (chF c ch 1 1) : Int) * 1000000000) (1024 * max 1 rate)

/-- What a channel's filtering depends on: its record and its coefficient set (R173). -/
def chanContent (c : Cf) (ch : Nat) : Bytes :=
  let k := chF c ch 1 1
  c.bytes 0x5100 1 (32 * ch) 32 ++ c.bytes 0x5200 (k + 1) 0 (8 + 4 * setN c k)

/-- A comparator's test of a value (R175): whether it meets the activate and the release condition. -/
def compMeets (c : Cf) (k : Nat) (y : F32) : Bool × Bool :=
  let mode := c.u 0x5400 1 (16 * k) 1
  let l : F32 := BitVec.ofNat 32 (c.u 0x5400 1 (16 * k + 8) 4)
  let h : F32 := BitVec.ofNat 32 (c.u 0x5400 1 (16 * k + 12) 4)
  let v := n32 (if 3 ≤ mode then f32abs y else y)
  if mode = 1 || mode = 3 then (Num.lt (n32 l) v, Num.lt v (Num.add (n32 l) (Num.neg (n32 h))))
  else (Num.lt v (n32 l), Num.lt (Num.add (n32 l) (n32 h)) v)

/-- The record of a comparator. -/
def compRec (c : Cf) (k : Nat) : Bytes := c.bytes 0x5400 1 (16 * k) 16

/-- A comparator returns to inactive without an event (R176). -/
def compSilent (k : Nat) (s : State) : State :=
  let s1 := s.setComp k {}
  if (s.comp k).active then handDecision 8 k true { value := 0, at_ := s.now, qual := s.ownQual } s1 else s1

/-- The record under which a comparator tests a value has changed and its change is not in effect yet: it goes inactive with the
first value of the new record (R176). -/
def compMove (c : Cf) (k : Nat) (s : State) : State :=
  let r := compRec c k
  if r = compRec s.cf k || (s.comp k).under = some r then s
  else
    let s1 := compSilent k s
    s1.setComp k { s1.comp k with under := some r }

/-- A comparator tests a filtered value (R175, R176). -/
def compTest (c : Cf) (k : Nat) (at_ : Stamp) (y : F32) (cond : Cond) (q : Qual) (s : State) : State :=
  if c.u 0x5400 1 (16 * k) 1 = 0 then s
  else
    let x := s.comp k
    if cond.getLsbD 0 then s.setComp k { x with runA := 0, runB := 0 }
    else
      let (a, b) := compMeets c k y
      let runA := if a then x.runA + 1 else 0
      let runB := if b then x.runB + 1 else 0
      let turns := if x.active then decide (c.u 0x5400 1 (16 * k + 4) 2 ≤ runB) else decide (c.u 0x5400 1 (16 * k + 2) 2 ≤ runA)
      if turns then
        let act := !x.active
        let flags := c.u 0x5400 1 (16 * k + 1) 1
        let s1 := s.setComp k { x with active := act, runA := 0, runB := 0, at_ := at_ }
        let s2 := when (bit flags 0) (raise 0x40 (k / 4) (k % 4 + 256 * b2n act)) s1
        let s3 := handDecision 8 k true { value := b2n act, at_ := at_, qual := q } s2
        when (bit flags 1) (comparatorToUnits k act at_) s3
      else s.setComp k { x with runA := runA, runB := runB }

/-- A comparator meets a filtered value. One that still comes under a record that T_c has replaced is not tested: at T_c the comparator
went inactive (R176). -/
def compStep (c : Cf) (old : Bool) (k : Nat) (at_ : Stamp) (y : F32) (cond : Cond) (q : Qual) (s : State) : State :=
  if old && compRec c k != compRec s.cf k then s else compTest c k at_ y cond q (compMove c k s)

/-- FILTERED_VALUE (R168 to R176): the newest raw sample of a channel completes a value. -/
def filtered (ch : Nat) (s : State) : State :=
  let x := s.chan ch
  match x.raw with
  | [] => s
  | n :: _ =>
    let c := (s.cfFor n.at_).1
    let k := chF c ch 1 1
    let rate := inputRate c ch
    let m := chF c ch 2 1
    if !chanValid c ch || rate = 0 || m = 0 || n.cnt % m != 0 || setN c k = 0 || s.fenced 2 (ch / 32) then s
    else
      let span_ := (span (chF c ch 4 2) (chF c ch 4 2 + setN c k + 1)).map (rawAt x.raw)
      let cond := span_.foldl (fun a p => a ||| p.2.1) 0#16
      let qs := span_.filterMap (·.2.2)
      let q := worstQual n.qual (if qs.isEmpty then [n.qual] else qs)
      let y0 := firValue (firSum c ch x.raw) (chF32 c ch 8)
      let bad := !f32finite y0
      let s0 := when bad (count 0x5000 4) s
      let y := if bad then 0#32 else y0
      let cw := if bad then cond ||| 1#16 else cond
      let at_ : Stamp := ⟨n.at_.gen, ((n.at_.ns : Int) - groupDelayNs c ch rate).toNat⟩
      let late := match x.lastY with | some l => !Stamp.before l at_ | none => false
      if late then count 0x5000 3 s0
      else
        let era := if x.content = chanContent c ch then x.era else x.era + 1
        let old := s.beforeChange n.at_
        let s1 := s0.setChan ch { x with era := era, content := chanContent c ch, ys := (⟨at_, y, cw, q, era⟩ :: x.ys).take 16384, lastY := some at_, firstY := some (x.firstY.getD at_) }
        let s2 := each (List.range 4) (fun j st => compStep c old (4 * ch + j) at_ y cw q st) s1
        valueToUnits 1 ch 0 at_ y cw (acqValue ch at_ y cw q s2)

/-- A raw sample reaches its channel (R152, R164). -/
def rawSample (ch : Nat) (r : Raw) (s : State) : State :=
  if s.chainRuns && ch < s.channels then
    let x := s.chan ch
    s.within [.events, .stats, .acq, .bus, .chain, .alarm] (filtered ch (s.setChan ch { x with raw := (r :: x.raw).take 4096 }))
  else s

/-- A stream loss: the next sample of these channels is a first one (R168). -/
def chainLoss (chs : List Nat) (s : State) : State :=
  each chs (fun ch st => st.setChan ch { st.chan ch with raw := [], firstY := none }) s

/-- A chain reset (R70): delay lines, comparator and estimator state. -/
def chainReset (s : State) : State :=
  let s1 := each (s.chain.comp.map (·.1)) compSilent s
  { s1 with chain := { s1.chain with chan := [], est := [] } }

/-- The chain starts again on entry to a mode that runs it: its delay lines begin afresh (log entry 23), and f_t stays
(DEDUCED, log entry 232). -/
def chainStart (s : State) : State := { s with chain := { s.chain with chan := [] } }

/-- A commit at T_c (R173, R176, R184): comparators and estimators that already met an instant of it keep what they are. -/
def chainCommit (o : Cf) (s : State) : State :=
  let n := s.cf
  let s1 := each (s.chain.comp.map (·.1)) (fun k st =>
    if compRec o k = compRec n k then st
    else if (st.comp k).under = some (compRec n k) then st.setComp k { st.comp k with under := none } else compSilent k st) s
  each (s1.chain.est.map (·.1)) (fun e st =>
    if recChanged o n 0x5300 1 32 e && (st.est e).under != some (n.bytes 0x5300 1 (32 * e) 32) then st.setEst e { last := (st.est e).last } else st) s1

/-! ## Phasor estimators (R177 to R186) -/

/-- A complex number in F64. -/
abbrev Cx := F64 × F64
def Cx.add (a b : Cx) : Cx := (f64add a.1 b.1, f64add a.2 b.2)
def Cx.mul (a b : Cx) : Cx := (f64sub (f64mul a.1 b.1) (f64mul a.2 b.2), f64add (f64mul a.1 b.2) (f64mul a.2 b.1))
def Cx.scale (k : F64) (a : Cx) : Cx := (f64mul k a.1, f64mul k a.2)
def Cx.above (a : Cx) (k : F64) : Cx := (f64div a.1 k, f64div a.2 k)
/-- exp(j t). -/
def Cx.turn (t : F64) : Cx := (f64cos t, f64sin t)
def Cx.abs (a : Cx) : F64 := f64sqrt (f64add (f64mul a.1 a.1) (f64mul a.2 a.2))
/-- a / b. -/
def Cx.div (a b : Cx) : Cx := Cx.above (Cx.mul a (b.1, f64neg b.2)) (f64add (f64mul b.1 b.1) (f64mul b.2 b.2))
/-- exp(j 2 pi / 3). -/
def cxA : Cx := (f64neg (f64ratio 1 2), f64div (f64sqrt (f64ofInt 3)) f64two)
/-- The positive sequence of three (R182). -/
def posSeq (x y z : Cx) : Cx := Cx.above (Cx.add x (Cx.add (Cx.mul cxA y) (Cx.mul (Cx.mul cxA cxA) z))) (f64ofInt 3)

/-- T_w as a fraction of a second (R179): class P 2 / f0, class M 4 / F_rep. -/
structure Window where
  num : Nat
  den : Nat
  deriving DecidableEq, Repr

def estF0 (c : Cf) (e : Nat) : Nat := if bit (estF c e 0 1) 2 then 60 else 50
def estWindow (c : Cf) (e : Nat) : Window := if bit (estF c e 0 1) 1 then ⟨4, estF c e 1 1⟩ else ⟨2, estF0 c e⟩
def estChans (c : Cf) (e : Nat) : List Nat := (List.range (estF c e 2 1)).map (fun i => estF c e (8 + 2 * i) 2)
def estValid (c : Cf) (e : Nat) : Bool := bit (estF c e 0 1) 0

/-- abs(tau) < T_w / 2. -/
def Window.holds (w : Window) (tau : Int) : Bool := tau.natAbs * 2 * w.den < w.num * 1000000000

/-- The sums of a channel over its window (R180): Z, Z', Z'', W, the worst quality and OR of conditions, and whether the
window is broken (R186). -/
structure Sums where
  z  : Cx
  z1 : Cx
  z2 : Cx
  w  : F64
  cond : Cond
  qual : Qual
  deriving DecidableEq, Repr

/-- The offsets and values of a channel's window for `tr`, in ascending order of offset (R179). -/
def windowOf (c : Cf) (ch : Nat) (w : Window) (tr : Nat) (gen : Gen) (ys : List Filt) : List (Int × Filt) :=
  let cc := c.i 0x5100 1 (32 * ch + 20) 4
  (((ys.filter (fun y => y.at_.gen = gen)).map (fun y => ((y.at_.ns : Int) - cc - tr, y))).filter (fun p => w.holds p.1)).reverse

/-- The window is broken (R186): it reaches before the channel's first value since start, reset or stream loss, has a gap of more than
1.5 decimated periods, or spans a change. A window that was complete before a loss does not reach past it. -/
def windowBroken (c : Cf) (ch : Nat) (w : Window) (tr : Nat) (gen : Gen) (x : Chan) (win : List (Int × Filt)) : Bool :=
  let cc := c.i 0x5100 1 (32 * ch + 20) 4
  let rate := max 1 (chanRate c ch)
  let tau := fun (t : Stamp) => (t.ns : Int) - cc - tr
  let oldest := match (x.ys.filter (fun y => y.at_.gen = gen)).getLast? with | some y => w.holds (tau y.at_) | none => true
  let full := match win.getLast? with | some p => !w.holds (p.1 + 1000000000 / (rate : Int)) | none => false
  let lost := match x.firstY with | some f => f.gen = gen && (w.holds (tau f) || (decide (0 < tau f) && !full)) | none => false
  let before := oldest || lost
  let gaps := (win.zip win.tail).any (fun (a, b) => 2 * (b.1 - a.1) * rate > 3 * 1000000000)
  let eras := (win.zip win.tail).any (fun (a, b) => a.2.era != b.2.era)
  win.isEmpty || before || gaps || eras

/-- The sums of R180 over a window, with the tracked frequency. -/
def sumsOf (w : Window) (ft : F64) (own : Qual) (broken : Bool) (win : List (Int × Filt)) : Sums :=
  let tw := f64ratio w.num w.den
  let terms := win.map (fun (tau, y) =>
    let sec := f64ratio tau 1000000000
    let a := f64div (f64mul f64twoPi sec) tw
    let w0 := f64mul (f64ratio 1 2) (f64add (f64ofInt 1) (f64cos a))
    let w1 := f64neg (f64mul (f64div f64pi tw) (f64sin a))
    let w2 := f64neg (f64mul (f64div (f64mul f64two (f64mul f64pi f64pi)) (f64mul tw tw)) (f64cos a))
    let e := Cx.turn (f64neg (f64mul (f64mul f64twoPi ft) sec))
    let v := f64of32 y.y
    (w0, Cx.scale (f64mul w0 v) e, Cx.scale (f64mul w1 v) e, Cx.scale (f64mul w2 v) e))
  let cond := win.foldl (fun a p => a ||| p.2.cond) 0#16
  { z := terms.foldl (fun a t => Cx.add a t.2.1) (0#64, 0#64), z1 := terms.foldl (fun a t => Cx.add a t.2.2.1) (0#64, 0#64),
    z2 := terms.foldl (fun a t => Cx.add a t.2.2.2) (0#64, 0#64), w := terms.foldl (fun a t => f64add a t.1) 0#64,
    cond := if broken then cond ||| 1#16 else cond, qual := worstQual own (win.map (·.2.qual)) }

/-- g_i (R168). -/
def interpGain (c : Cf) (ch : Nat) (f : F64) : F64 :=
  let mu := f64ratio (chF c ch 6 2) 1024
  let one := f64ofInt 1
  let turn := f64sub one (f64cos (f64div (f64mul f64twoPi f) (f64ofInt (inputRate c ch))))
  f64sqrt (f64sub one (f64mul (f64mul f64two (f64mul mu (f64sub one mu))) turn))

/-- H (R181). -/
def hannGain (x : F64) : F64 :=
  let px := f64mul f64pi x
  if f64le (f64abs x) 0#64 then f64ofInt 1
  else f64div (f64div (f64sin px) px) (f64sub (f64ofInt 1) (f64mul x x))

/-- X of a channel (R181). -/
def phasorOf (c : Cf) (ch f0 tr : Nat) (ft h : F64) (x : Sums) : Cx :=
  let k := f64of32 (chF32 c ch 12)
  let alpha := f64of32 (chF32 c ch 16)
  let rho := f64mul f64twoPi (f64ratio ((f0 * (tr % 1000000000) % 1000000000 : Nat) : Int) 1000000000)
  let z := Cx.scale (f64mul (f64div (f64sqrt f64two) x.w) k) x.z
  Cx.above (Cx.mul (Cx.mul z (Cx.turn alpha)) (Cx.turn (f64neg rho))) (f64mul (interpGain c ch ft) h)

/-- The instant an estimator reports next under a configuration (R179, R186). -/
def State.estNext (s : State) (e : Nat) (c : Cf) (from_ : Stamp) : Option Stamp :=
  let chs := estChans c e
  let rate := estF c e 1 1
  match chs.head? with
  | none => none
  | some ch =>
    match (s.chan ch).ys with
    | [] => none
    | y :: _ =>
      let gen := y.at_.gen
      let firsts := chs.map (fun k => (((s.chan k).ys.filter (fun v => v.at_.gen = gen)).getLast?.map (·.at_.ns)).getD 0)
      let start := firsts.foldl max 0
      let after := match (s.est e).last with
        | some l => if l.gen = gen then l.ns else max l.ns (start - 1)
        | none => start - 1
      if estValid c e then some ⟨gen, nextInstant rate (if from_.gen = gen then max after (from_.ns - 1) else after)⟩ else none

/-- The window of an instant is complete: each channel's next value would fall outside it. -/
def State.windowDone (s : State) (c : Cf) (w : Window) (tr : Stamp) (ch : Nat) : Bool :=
  match (s.chan ch).ys.find? (fun y => y.at_.gen = tr.gen) with
  | none => false
  | some y =>
    let tau : Int := (y.at_.ns : Int) - c.i 0x5100 1 (32 * ch + 20) 4 - tr.ns
    let next := tau + 1000000000 / (max 1 (chanRate c ch) : Nat)
    0 ≤ next && !w.holds next

/-- A block of a local context is written (R139, R196): its slots, and the arrival when it is the context's last. -/
def localBlock (k j : Nat) (at_ : Stamp) (b : Block) (s : State) : State :=
  let c := (s.cfFor at_).1
  let vals := mapBlock c k j b
  let s1 := writeSlots vals at_ s
  let x := s1.ctx k
  let part := (x.parts.find? (fun p => p.at_ = at_)).getD ⟨at_, [], [], 0#16⟩
  let p : LocalPart := { part with blocks := j :: part.blocks, vals := part.vals ++ vals, qual := worstQual (s1.ownQualAt at_.ns) (if part.blocks.isEmpty then [b.qual] else [part.qual, b.qual]) }
  let rest := x.parts.filter (fun p => p.at_ != at_ && decide (at_.ns ≤ p.at_.ns + 2000000000))
  if (List.range (ctxF c k 16 1)).all (fun i => p.blocks.contains i) then
    let wasLost := x.lost
    let s2 := ctxSat k x.delivered 8 <| s1.setCtx k { x with parts := rest, delivered := satCount x.delivered 1, lastAt := s1.elapsed, lost := false }
    arrive k at_.ns p.vals p.qual (when wasLost (raise 0x34 k 0) s2)
  else s1.setCtx k { x with parts := p :: rest }

/-- ESTIMATOR_REPORT (R179 to R186): the window of the estimator's next instant is complete. 0/0 is a NaN (DESIGN
CHOICE, log entry 231). -/
def estimatorReport (e : Nat) (s : State) : State :=
  match (if s.chainRuns && e < s.estimators && !s.fenced 3 (e / 16) then s.earliest (s.estNext e) else none) with
  | none => s
  | some (tr, c) =>
    let chs := estChans c e
    let under := c.bytes 0x5300 1 (32 * e) 32
    let w := estWindow c e
    if !(chs.all (s.windowDone c w tr)) then s
    else
      let x0 := s.est e
      let x : Est := if x0.under = some under || x0.under.isNone then x0 else { last := x0.last }
      let f0 := estF0 c e
      let ft := if x.tracked then x.ft else f64ofInt f0
      let flags := estF c e 0 1
      let sums := chs.map (fun ch =>
        let win := windowOf c ch w tr.ns tr.gen (s.chan ch).ys
        sumsOf w ft (s.ownQualAt tr.ns) (windowBroken c ch w tr.ns tr.gen (s.chan ch) win) win)
      let at3 := fun (i : Nat) => sums.getD i ⟨(0#64, 0#64), (0#64, 0#64), (0#64, 0#64), 0#64, 1#16, 0#16⟩
      let refNo := estF c e 3 1
      let refSums : Sums := if refNo = 8 then
          { z := posSeq (at3 0).z (at3 1).z (at3 2).z, z1 := posSeq (at3 0).z1 (at3 1).z1 (at3 2).z1, z2 := posSeq (at3 0).z2 (at3 1).z2 (at3 2).z2,
            w := (at3 0).w, cond := (at3 0).cond ||| (at3 1).cond ||| (at3 2).cond, qual := worstQual (s.ownQualAt tr.ns) [(at3 0).qual, (at3 1).qual, (at3 2).qual] }
        else at3 refNo
      let df := f64div (f64neg (Cx.div refSums.z1 refSums.z).2) f64twoPi
      let dx := f64mul df (f64ratio w.num w.den)
      let wide := !f64le (f64abs dx) (f64ratio 1 2)
      let h := if wide then f64ofInt 1 else hannGain dx
      let xs := (List.range chs.length).map (fun i => phasorOf c (chs.getD i 0) f0 tr.ns ft h (at3 i))
      let xAt := fun (i : Nat) => xs.getD i (0#64, 0#64)
      let refMag := Cx.abs (if refNo = 8 then posSeq (xAt 0) (xAt 1) (xAt 2) else xAt refNo)
      let low := f64lt refMag (f64of32 (BitVec.ofNat 32 (estF c e 4 4)))
      let f := if low then ft else f64add ft df
      let rocof := if low then 0#64 else f64div (Cx.div refSums.z2 refSums.z).2 f64twoPi
      let lim := fun (t : Nat) => f64ratio t 10
      let outside := !low && !f64le (f64abs (f64sub f (f64ofInt f0))) (lim 50)
      let extra : Cond := if wide || outside then 0x40#16 else 0#16
      let lowBit : Cond := if low then 0x40#16 else 0#16
      let three := fun (a b d : Nat) => ((at3 a).cond ||| (at3 b).cond ||| (at3 d).cond, worstQual (s.ownQualAt tr.ns) [(at3 a).qual, (at3 b).qual, (at3 d).qual])
      let chanPh := (List.range chs.length).map (fun i => phasRect (xAt i).1 (xAt i).2 ((at3 i).cond ||| extra) (at3 i).qual)
      let seqPh := fun (on : Bool) (a b d : Nat) => if on then
          (let v := posSeq (xAt a) (xAt b) (xAt d); [phasRect v.1 v.2 ((three a b d).1 ||| extra) (three a b d).2]) else []
      let fq : Quant := ⟨f, refSums.cond ||| extra ||| lowBit, refSums.qual⟩
      let b : Block := { phasors := chanPh ++ seqPh (bit flags 3) 0 1 2 ++ seqPh (bit flags 4) 3 4 5, freq := fq,
                         rocof := { fq with val := rocof }, analogs := [], digitals := [],
                         qual := worstQual (s.ownQualAt tr.ns) (refSums.qual :: sums.map (·.qual)) }
      let invalid := fq.cond.getLsbD 0 || b.phasors.any (fun p => p.cond.getLsbD 0)
      let clampF := f64max (f64sub (f64ofInt f0) (f64ofInt 5)) (f64min (f64add (f64ofInt f0) (f64ofInt 5)) f)
      let back := f64le (f64abs (f64sub f (f64ofInt f0))) (lim 49)
      let y : Est := { ft := if invalid || low then ft else clampF, tracked := x.tracked || !(invalid || low), lastF := f, range := outside, low := low,
                       invalid := invalid, held := if outside then true else if back then false else x.held, last := some tr, under := some under }
      let s1 := when invalid (count 0x5000 5) (s.setEst e y)
      let s2 := when (outside && !x.held) (raise 0x41 e ((Num.nearest (Num.mul (n64 f) (Num.ofInt 1000 0))) % 4294967296).toNat) s1
      let s3 := when (low && !x.low) (raise 0x42 e (f32of64 refMag).toNat) s2
      each ((List.range s3.contexts).filter (fun k => ctxValid c k && ctxLocal c k && ctxF c k 18 2 ≤ e && e < ctxF c k 18 2 + ctxF c k 16 1))
        (fun k st => localBlock k (e - ctxF c k 18 2) tr b st) s3
def execEstimatorReport (dt e : Nat) (s : State) : Host.Outcome State Fault Refusal := .next (s.act [.events, .stats, .free, .queues, .sched, .acq, .bus, .ingest, .slots, .chain, .align, .hr] dt (estimatorReport e))

end Sys2Proof.Machine
end

