-- ==== Sys2Proof/Machine/Port.lean ====
section
/-! DEFINITION. Ethernet ports: link, frame checks, filter, receive queues, transmit classes, offloads, pause, hardware
timestamps (R103 to R134), and their commands. -/
namespace Sys2Proof.Machine
open Sys2Proof

/-! ## Hardware timestamps (R128 to R130) -/

/-- The 16 bytes of a timestamp queue entry (R129). -/
def tsBytes (e : TsEntry) : Bytes := toBE 1 (128 * b2n e.tx + e.kind % 16) ++ toBE 1 e.domain ++ toBE 2 e.seqId ++ stampBytes e.stamp

/-- A frame that needs a timestamp queue entry (R128, R130): the entry, or, with 64 held, none, counted, and one event
for each burst. -/
def addTs (p : Nat) (e : TsEntry) (s : State) : Bool × State :=
  let x := s.prt p
  if x.tsq.length < 64 then (true, s.setPort p { x with tsq := x.tsq ++ [e] })
  else
    let s1 := tally p 0x1A s
    (false, if x.tsBurst then s1
      else raise 0x22 p ((if e.tx then 2 ^ 31 else 0) + e.seqId % 65536) (s1.setPort p { x with tsBurst := true }))

/-- The timebase removes an entry when it reads it; a burst closes at 32 entries or fewer (R128, R130). -/
def takeTs (p : Nat) (pick : TsEntry → Bool) (s : State) : Option TsEntry × State :=
  let x := s.prt p
  match x.tsq.find? pick with
  | none => (none, s)
  | some e =>
    let q := x.tsq.erase e
    (some e, s.setPort p { x with tsq := q, tsBurst := x.tsBurst && 32 < q.length })

/-- The stamp of a PTP event frame at a port, corrected for the fixed PCS and SerDes delay, which a received frame has behind it
and a sent one before it, and for the asymmetry at 0x3020+n.04 (R128; log entry 12). -/
def eventStamp (p : Nat) (tx : Bool) (s : State) : Stamp :=
  ⟨s.time.gen, ((s.time.tai : Int) + (if tx then (Config.txDelay p : Int) else -(Config.rxDelay p : Int)) - s.cf.i (0x3020 + p) 4 0 4).toNat⟩

/-- FRAME_TRANSMIT (R122): the frame in progress is finished and counted; unless the port is paused, the next starts
from the highest class that is not empty. A frame that requests a stamp gets its entry as it starts (R128). -/
def frameTransmit (p : Nat) (s0 : State) : State :=
  let s := postMail p s0
  if s.portRuns p && (s.prt p).up then
    let x := s.prt p
    let s1 := match x.sending with
      | some b => tallyN p 0x12 (frameLen b) (tally p 0x11 (s.setPort p { x with sending := none }))
      | none => s
    if x.pauseEnd.isSome then s1
    else
      match (List.range 4).find? (fun c => s1.qlen (96 + 4 * p + c) != 0) with
      | none => s1
      | some c =>
        let item := (s1.queue (96 + 4 * p + c)).items.headD []
        let body := (s1.queue (96 + 4 * p + c)).data.headD []
        let s2 := popQueue (96 + 4 * p + c) false s1
        let s3 := s2.setPort p { s2.prt p with sending := some body }
        if field item 3 1 = 1 then
          (addTs p { tx := true, kind := field item 8 1, domain := field item 9 1, seqId := field item 10 2, stamp := eventStamp p true s3 } s3).2
        else s3
  else s
def execFrameTransmit (dt p : Nat) (s : State) : Host.Outcome State Fault Refusal := .next (s.act [.events, .stats, .free, .sessions, .queues, .port] dt (frameTransmit p))

/-! ## Transmit offloads (R123, R124) -/

/-- The segments of a TCP send: each of at most the MSS, and of what `fits` the port's frame; `n` bounds their number. -/
def tcpCut (x : OffloadSend) (fits i off n : Nat) : List Piece :=
  match n with
  | 0 => []
  | k + 1 =>
    let left := x.payload.length - off
    let take := min left (min x.mss fits)
    let last := left ≤ min x.mss fits
    let piece : Piece := { frame := tcpFrame x i off take last, offset := off, payload := take }
    if last then [piece] else piece :: tcpCut x fits (i + 1) (off + take) k

/-- Room for payload behind a template in a frame of the port. -/
def State.room (s : State) (p : Nat) (t : Bytes) : Nat := s.maxFrame p (tagCount t) - t.length - 4

/-- TCP_SEND_OFFLOAD (R123). A send with an MSS of 0 has no segmentation and is refused with the others. A send of 0 bytes is one
segment, and counts as one at .14 (DESIGN CHOICE, log entry 182). In a port reset its frames are discarded with the link down (R105). -/
def tcpSend (cls p : Nat) (x : OffloadSend) (s : State) : State :=
  if s.portActive p then
    if 65536 < x.payload.length || 128 < x.template.length || x.mss = 0 then tally p 0x16 s
    else
      let fits := s.room p x.template
      let cut := tcpCut x fits 0 0 (x.payload.length + 1)
      let reduced := (cut.filter (fun c => fits < min x.mss (x.payload.length - c.offset))).length
      let s1 := tallyN p 0x17 reduced (tallyN p 0x14 cut.length (s.setPort p { s.prt p with cut := cut }))
      each cut (fun c st => portSend p cls c.frame none st) s1
  else s
def execTcpSendOffload (dt p : Nat) (x : OffloadSend) (s : State) : Host.Outcome State Fault Refusal := .next (s.act [.events, .stats, .queues, .port] dt (tcpSend 3 p x))

/-- The fragments of a UDP datagram `body`: the first behind the header `hdr`, the others behind `later`; a frame holds `max_`
bytes, of which `eth` stand before the IPv4 header. -/
def udpCut (x : OffloadSend) (max_ eth : Nat) (body hdr later : Bytes) (off n : Nat) : List Piece :=
  match n with
  | 0 => []
  | k + 1 =>
    let room := max_ - eth - hdr.length - 4
    let left := body.length - off
    let last := left ≤ room
    let take := if last then left else room / 8 * 8
    let piece : Piece := { frame := udpFragment x body hdr off take (!last), offset := off, payload := take }
    if last then [piece] else piece :: udpCut x max_ eth body later later (off + take) k

/-- UDP_SEND_OFFLOAD (R124): whole when it fits one frame; as IPv4 fragments when DF is 0; refused otherwise. -/
def udpSend (cls p : Nat) (x : OffloadSend) (s : State) : State :=
  if s.portActive p then
    let n := x.payload.length
    let (eth, ip, _) := offHead x.template
    if n ≤ s.room p x.template && n ≤ 65507 then
      let piece : Piece := { frame := udpFrame x, offset := 0, payload := n + 8 }
      portSend p cls piece.frame none (s.setPort p { s.prt p with cut := [piece] })
    else if 65507 < n || bit (field ip 6 2) 14 then tally p 0x16 s
    else
      let cut := udpCut x (s.maxFrame p (tagCount x.template)) eth.length (udpBody x) ip (laterHeader ip) 0 (n + 9)
      let s1 := tallyN p 0x15 cut.length (s.setPort p { s.prt p with cut := cut })
      each cut (fun c st => portSend p cls c.frame none st) s1
  else s
def execUdpSendOffload (dt p : Nat) (x : OffloadSend) (s : State) : Host.Outcome State Fault Refusal := .next (s.act [.events, .stats, .queues, .port] dt (udpSend 3 p x))

/-! ## Flow control (R125 to R127) -/

/-- `quanta` pause quanta at a rate, in ns (R125). The 51.2 ns of a quantum at 10 Gb/s are cut to whole ns of the sum (DESIGN CHOICE,
log entry 184). -/
def pauseNs (rate quanta : Nat) : Nat :=
  match rate with
  | 1 => quanta * 512 / 10 | 2 => quanta * 512 | 3 => quanta * 5120 | 4 => quanta * 51200 | _ => 0

/-- The pause episode ends at an elapsed time; only then is the time it lasted counted at .19, in whole microseconds (R133; DESIGN
CHOICE, log entry 178). -/
def endPause (p at_ : Nat) (s : State) : State :=
  let x := s.prt p
  if x.pauseEnd.isSome then
    tallyN p 0x19 ((at_ - x.episode) / 1000) (s.setPort p { x with pauseEnd := none })
  else s

/-- A MAC control frame (R125, R126): a PAUSE is accepted, and honoured where that is enabled; any other is dropped and counted. -/
def macControl (p dst opcode quanta : Nat) (s : State) : State :=
  if (dst = 0x0180C2000001 || dst = portMac p) && opcode = 1 then
    let s1 := tally p 0x0C s
    let x := s1.prt p
    if s1.pcfg p 5 1 = 1 && x.holdoff.isNone then
      if quanta = 0 then endPause p s1.elapsed s1
      else s1.setPort p { x with pauseEnd := some (s1.elapsed + pauseNs x.rate quanta), episode := if x.pauseEnd.isSome then x.episode else s1.elapsed }
    else s1
  else tally p 0x0D s

/-- PAUSE_RECEIVE (R125, R126). The frame is a 64-byte frame of R109. -/
def pauseReceive (p dst opcode quanta : Nat) (s : State) : State :=
  if s.portRuns p && (s.prt p).up then macControl p dst opcode quanta (tallyN p 2 64 (tally p 1 s)) else s
def execPauseReceive (dt p dst opcode quanta : Nat) (s : State) : Host.Outcome State Fault Refusal := .next (s.act [.events, .stats, .port] dt (pauseReceive p dst opcode quanta))

/-- PAUSE_EXPIRE (R125): the pause time has run out. -/
def pauseExpire (p : Nat) (s : State) : State :=
  match (s.prt p).pauseEnd with
  | some t => if t ≤ s.elapsed then endPause p t s else s
  | none => s
def execPauseExpire (dt p : Nat) (s : State) : Host.Outcome State Fault Refusal := .next (s.act [.events, .stats, .port] dt (pauseExpire p))

/-- PAUSE_WATCHDOG_TRIP (R126): the episode has lasted for the limit at 0x2010+n.06. -/
def pauseTrip (p : Nat) (s : State) : State :=
  let x := s.prt p
  let due := x.episode + s.pcfg p 6 2 * 1000000
  match x.pauseEnd with
  | some t =>
    if due ≤ s.elapsed && due ≤ t then
      let len := (s.elapsed - x.episode) / 1000
      let s1 := endPause p s.elapsed s
      let s2 := s1.setPort p { s1.prt p with holdoff := some (s.elapsed + s.pcfg p 7 2 * 1000000) }
      tally p 0x18 (raise 0x21 p len s2)
    else s
  | none => s
def execPauseWatchdogTrip (dt p : Nat) (s : State) : Host.Outcome State Fault Refusal := .next (s.act [.events, .stats, .port] dt (pauseTrip p))

/-- PAUSE_HOLDOFF_END (R126). -/
def pauseHoldoffEnd (p : Nat) (s : State) : State :=
  match (s.prt p).holdoff with
  | some t => if t ≤ s.elapsed then s.setPort p { s.prt p with holdoff := none } else s
  | none => s
def execPauseHoldoffEnd (dt p : Nat) (s : State) : Host.Outcome State Fault Refusal := .next (s.act [.port] dt (pauseHoldoffEnd p))

/-! ## Link (R103 to R105) -/

/-- Autonegotiation completes in modes 2 and 3 while it is enabled (R103). -/
def State.negotiates (s : State) (p : Nat) : Bool := (s.portMode p = 2 || s.portMode p = 3) && s.portAn p

/-- The rate code of a link that comes up: that of the port's mode, and in SGMII with autonegotiation the PHY's (R103). -/
def State.linkRate (s : State) (p told : Nat) : Nat :=
  match s.portMode p with
  | 1 => 1
  | 3 => if s.portAn p then (if 3 ≤ told && told ≤ 4 then told else 2) else 2
  | 5 => 3
  | 6 => 4
  | _ => 2

/-- LINK_UP (R104, R105): the link comes up, or is held down when the PHY or partner reports half duplex in negotiation,
which is told each time (DESIGN CHOICE, log entry 226). -/
def linkUp (p rate : Nat) (half : Bool) (s : State) : State :=
  if s.portRuns p && !(s.prt p).up && !s.fenced 17 p then
    let x := s.prt p
    if half && s.negotiates p then raise 0x20 p 32 (s.setPort p { x with up := false, rate := 0, an := false, half := true })
    else
      let r := s.linkRate p rate
      raise 0x20 p (1 + 2 * r) (s.setPort p { x with up := true, rate := r, an := s.negotiates p, half := false })
  else s
def execLinkUp (dt p rate : Nat) (half : Bool) (s : State) : Host.Outcome State Fault Refusal := .next (s.act [.events, .port] dt (linkUp p rate half))

/-- The link goes down (R105): the frames queued for transmit, and the Osrider messages about to be, are discarded and counted; receive
queues keep theirs, and no queue is cleared (R385). A frame in progress is
cut off, and counts neither as sent nor as discarded (DESIGN CHOICE, log entry 181). -/
def dropLink (p : Nat) (s : State) : State :=
  let x := s.prt p
  if x.up then
    let mine := fun (m : Via × Bytes) => match m.1 with | .port q _ _ => decide (q = p) | .uart => false
    let n := (List.range 4).foldl (fun a c => a + s.qlen (96 + 4 * p + c)) (s.osr.outbox.filter mine).length
    let s0 := { s with osr := { s.osr with outbox := s.osr.outbox.filter (fun m => !mine m) } }
    let s1 := each (List.range 4) (fun c st => dropItems (96 + 4 * p + c) st) s0
    let s2 := s1.setPort p { x with up := false, rate := 0, an := false, sending := none }
    raise 0x20 p 0 (tally p 0x1B (tallyN p 0x13 n s2))
  else s
def linkDown (p : Nat) (s : State) : State := if s.portRuns p then dropLink p s else s
def execLinkDown (dt p : Nat) (s : State) : Host.Outcome State Fault Refusal := .next (s.act [.events, .stats, .sessions, .queues, .port] dt (linkDown p))

/-- What a port reset clears (R70): MAC and PCS state, receive and timestamp queues, pause and holdoff. -/
def clearPort (p : Nat) (s : State) : State :=
  let s1 := each (List.range 16) (fun q st => clearQueue (16 * p + q) st) (dropLink p (endPause p s.elapsed s))
  s1.setPort p { s1.prt p with up := false, rate := 0, an := false, half := false, pauseEnd := none, holdoff := none,
                               tsq := [], tsBurst := false, sending := none, reasm := [] }

/-- At T_c a change of mode, autonegotiation or maximum frame length retrains a port's link, which interrupts the port as a port
reset does (R106). -/
def portsCommit (old : Cf) (s : State) : State :=
  each (List.range s.ports) (fun p st =>
    if [(1, 1), (2, 1), (3, 2)].any (fun f => portF old p f.1 f.2 != st.pcfg p f.1 f.2) then clearPort p st else st) s

/-! ## Receive path (R108 to R121) -/

/-- Destination class (R114). -/
def destClass (p dst : Nat) : Nat :=
  if dst = portMac p then 0 else if dst = 0xFFFFFFFFFFFF then 2 else if bit dst 40 then 1 else 3

/-- A filter entry lets a frame through its enabled comparisons (R115, R116). -/
def filterHits (e tags : Nat) (outer : Option Nat) (type cls : Nat) : Bool :=
  bit e 63 &&
  (match bits e 58 57 with | 0 => true | 1 => tags = 0 | 2 => tags != 0 | _ => false) &&
  (!bit e 62 || (match outer with | some tci => tci % 4096 = bits e 55 44 | none => false)) &&
  (!bit e 61 || (match outer with | some tci => bits tci 15 13 = bits e 43 41 | none => false)) &&
  (!bit e 60 || type = bits e 39 24) && (!bit e 59 || cls = bits e 23 22)

/-- The first entry that decides a frame: its subindex and value (R116). -/
def filterFor (c : Cf) (p : Nat) (b : Bytes) : Option (Nat × Nat) :=
  ((span 1 65).map (fun k => (k, c.u (0x2040 + p) k 0 8))).find? (fun (_, e) =>
    filterHits e (tagCount b) (outerTci b) (frameType b) (destClass p (field b 0 6)))

/-- The consumer code of a receive queue (R118). -/
def consumerOf (c : Cf) (p q : Nat) : Nat := bits (portF c p 9 8) (4 * q + 3) (4 * q)

/-- The frames a consumer takes (R118); none takes a frame with a third tag or a length field (R112). -/
def consumerTakes (code : Nat) (b : Bytes) : Bool :=
  let type := frameType b
  !(tagCount b = 2 && type = 0x8100) && 0x05DC < type &&
    match code with
    | 1 => type = 0x88BA
    | 2 => true
    | 3 => type = 0x88F7
    | 4 => type = 0x0800 || type = 0x0806
    | _ => false

/-- A consumer runs in this mode: in CONFIGURE, and while the data plane is stopped, only the timebase and, on a port with the
management role, the IP path (R57, R562). -/
def State.takes (s : State) (p code : Nat) : Bool :=
  s.mode.cur.ingests || code = 3 || (code = 4 && s.isMgmt p)

/-- messageType, domainNumber and sequenceId of a PTP event message (R128). -/
def ptpEvent (b : Bytes) : Option (Nat × Nat × Nat) :=
  let o := ipAt b
  if frameType b = 0x88F7 && field b o 1 % 16 ≤ 3 then some (field b o 1 % 16, field b (o + 4) 1, field b (o + 30) 2) else none

/-- The item of a received frame (R121); the queue writes bytes 4 to 7. -/
def rxItem (p q entry : Nat) (b : Bytes) (tsOk : Bool) (tsIdx : Nat) (buffer : BitVec 64) (s : State) : Bytes :=
  let tags := tagCount b
  let ip := match ipOf b with
    | some i => 8 * b2n i.hdrOk + 16 * b2n (!i.fragment && i.checked && sumGood i.proto i.src i.dst i.body) + 32 * b2n i.fragment
    | none => 0
  [0x10#8] ++ toBE 1 p ++ toBE 1 q ++ toBE 1 entry ++ zeros 4 ++ stampBytes s.now ++ toBE 2 s.ownQual.toNat ++ toBE 2 (frameLen b) ++
    toBE 2 (b2n tsOk + 2 * tags + ip + 64 * destClass p (field b 0 6)) ++ toBE 2 ((outerTci b).getD 0) ++
    toBE 2 (if tags = 2 then field b 18 2 else 0) ++ toBE 2 (frameType b) ++ toBE 8 buffer.toNat ++ toBE 2 tsIdx ++ zeros 22

/-- The destination port is in the ingest listening list (R119, R160). -/
def listens (c : Cf) (port : Nat) : Bool := port != 0 && (List.range 16).any (fun i => c.u 0x4000 (i + 1) 0 2 = port)

/-- Why a whole UDP datagram is dropped (R107, R119), as its counter: a bad checksum, also of a reassembled one that is not for the
ingest listening list (DESIGN CHOICE, log entry 211), or an Osrider datagram off the management role. -/
def State.udpDrops (s : State) (p src dst : Nat) (body : Bytes) : Option Nat :=
  if !sumGood 17 src dst body then some 0x0F else if field body 2 2 = 4860 && !s.isMgmt p then some 0x10 else none

/-- A whole UDP datagram that is not dropped: one to the ingest listening list goes to stream ingest, with the receive stamp of the
frame that completed it (R119, R141). -/
def udpArrives (p src : Nat) (body : Bytes) (s : State) : State :=
  if listens s.cf (field body 2 2) && s.mode.cur.ingests then
    { s with ing := { s.ing with direct := s.ing.direct ++ [(s.now, ⟨0, src, p, field body 2 2, body.drop 8⟩)] } }
  else s

/-- A fragment (R119): it joins the datagram of its addresses, protocol and identification (DESIGN CHOICE, log entry 183), which goes
on when it is whole. A datagram past 65 535 bytes, or one more than 64 in progress, is refused and counted once, whatever fragments of
it follow. -/
def fragment (p : Nat) (i : Ip) (s : State) : Bool × State :=
  let x := s.prt p
  let mine := fun (r : Reasm) => r.src = i.src && r.dst = i.dst && r.proto = i.proto && r.ident = i.ident && decide (s.elapsed < r.start + 2000000000)
  let kept := x.reasm.filter (fun r => !r.refused || decide (s.elapsed < r.start + 2000000000))
  let rest := kept.filter (fun r => !mine r)
  let old : Reasm := (kept.find? mine).getD { src := i.src, dst := i.dst, proto := i.proto, ident := i.ident, start := s.elapsed }
  let full := (kept.find? mine).isNone && 64 ≤ (kept.filter (fun r => !r.refused)).length
  if old.refused then (false, s)
  else if full || 65535 < i.hdr.length + i.offset + i.body.length then
    (false, tally p 0x1D (s.setPort p { x with reasm := rest ++ [{ old with parts := [], refused := true }] }))
  else
    let r := { old with parts := old.parts ++ [(i.offset, i.body)], total := if i.more then old.total else some (i.offset + i.body.length) }
    match r.total.bind (joinParts r.parts) with
    | some body =>
      let s1 := s.setPort p { x with reasm := rest }
      if i.proto != 17 then (true, s1)
      else match s1.udpDrops p i.src i.dst body with
        | some k => (false, tally p k s1)
        | none => (true, udpArrives p i.src body s1)
    | none => (true, s.setPort p { x with reasm := rest ++ [r] })

/-- Why the IP path drops a frame by itself (R107, R119), as its counter. -/
def State.ipDrops (s : State) (p : Nat) (i : Ip) : Option Nat :=
  if !i.hdrOk then some 0x0E
  else if i.fragment then none
  else if i.proto = 17 then s.udpDrops p i.src i.dst i.body
  else if i.proto = 6 && !sumGood 6 i.src i.dst i.body then some 0x0F else none

/-- What the IP path does with a frame that has room (R119), and whether the frame goes on. -/
def ipTakes (p : Nat) (i : Ip) (s : State) : Bool × State :=
  if i.fragment then fragment p i s else (true, if i.proto = 17 then udpArrives p i.src i.body s else s)

/-- Bytes of received frames a port holds in its 256 MiB of region 0x2 (R370). -/
def State.portBuffer (s : State) (p : Nat) : Nat :=
  (List.range 16).foldl (fun a q => (s.queue (16 * p + q)).data.foldl (fun n b => n + frameLen b) a) 0

/-- A frame steered to a queue (R118 to R121, R128, R130), under the configuration of its stamp (R106). A consumer drops what it does
not take (log entry 177). The timestamp queue index is the entry's place in the queue as it is made (DESIGN CHOICE, log entry 179). -/
def steer (c : Cf) (p q entry : Nat) (b : Bytes) (s : State) : State :=
  let code := consumerOf c p q
  if code = 0 then tally p 0x0A s
  else if !s.takes p code || !consumerTakes code b then s
  else
    let ip := if code = 4 then ipOf b else none
    match ip.bind (s.ipDrops p) with
    | some k => tally p k s
    | none =>
    if s.queueFull (16 * p + q) || 268435456 < s.portBuffer p + frameLen b then refusePush (16 * p + q) (tally p 0x0B s)
    else
      let (goes, s1) := match ip with | some i => ipTakes p i s | none => (true, s)
      if !goes then s1
      else
        let (tsOk, tsIdx, s2) := match ptpEvent b with
          | some (k, d, sq) =>
            if code = 3 then
              let (ok, st) := addTs p { tx := false, kind := k, domain := d, seqId := sq, stamp := eventStamp p false s1 } s1
              (ok, if ok then (s1.prt p).tsq.length else 0xFFFF, st)
            else (false, 0xFFFF, s1)
          | none => (true, 0xFFFF, s1)
        let (n, s3) := s2.takeFree
        (enqueueData (16 * p + q) (rxItem p q entry b tsOk tsIdx (Config.free64 n) s3) b s3).2

/-- FRAME_RECEIVE (R108 to R121): size, damage and FCS checks in order, destination class, filter, steering. -/
def frameReceive (p : Nat) (f : Frame) (s : State) : State :=
  if s.portRuns p && (s.prt p).up then
    let b := f.bytes
    let c := (s.cfFor s.now).1
    let s1 := tallyN p 6 f.pcsErrors s
    if frameLen b ≤ 63 then tally p 3 s1
    else if longest c p (tagCount b) < frameLen b then tally p 4 s1
    else if !f.fcsOk || (f.pcsInside && f.pcsErrors != 0) then tally p 5 s1
    else
      let s2 := tallyN p 2 (frameLen b) (tally p 1 s1)
      if frameType b = 0x8808 then macControl p (field b 0 6) (if tagCount b = 0 then field b 14 2 else 0) (field b 16 2) s2
      else if destClass p (field b 0 6) = 3 && portF c p 4 1 != 1 then tally p 7 s2
      else
        match filterFor c p b with
        | some (k, e) => if bit e 21 then tally p 9 s2 else steer c p (bits e 19 16) k b s2
        | none =>
          let act := portF c p 8 1
          if act = 16 then tally p 8 s2 else steer c p act 0 b s2
  else s
def execFrameReceive (dt p : Nat) (f : Frame) (s : State) : Host.Outcome State Fault Refusal := .next (s.act [.events, .stats, .free, .queues, .port, .ingest] dt (frameReceive p f))

/-- IP_REASSEMBLY_TIMEOUT (R119): a datagram not complete within 2 s is dropped and counted. -/
def reassemblyTimeout (p src ident : Nat) (s : State) : State :=
  let x := s.prt p
  let late := fun (r : Reasm) => r.src = src && r.ident = ident && decide (r.start + 2000000000 ≤ s.elapsed)
  let n := (x.reasm.filter (fun r => late r && !r.refused)).length
  if x.reasm.any late then tallyN p 0x1D n (s.setPort p { x with reasm := x.reasm.filter (fun r => !late r) }) else s
def execIpReassemblyTimeout (dt p src ident : Nat) (s : State) : Host.Outcome State Fault Refusal := .next (s.act [.events, .stats, .port] dt (reassemblyTimeout p src ident))

/-! ## Consumers (R118, R383) -/

/-- A consumer pops a queue; the archive service writes the frame of a receive queue of its own to the archive queue as received. Whose
the queue is, the configuration of the frame's stamp says (R106). -/
def consumerPop (q : Nat) (damaged : Bool) (s : State) : State :=
  let x := s.queue q
  let s1 := popQueue q damaged s
  match x.items, s1.store.popped with
  | _ :: _, some (_, item) =>
    if q ≤ 95 && consumerOf (s.cfFor (stampAt (x.items.headD []) 8)).1 (q / 16) (q % 16) = 2 && !s.fenced 9 (q / 16) && item.take 1 = [0x10#8] then (enqueueData 136 item (x.data.headD []) s1).2 else s1
  | _, _ => s1

end Sys2Proof.Machine
end

