-- ==== Sys2Proof/Machine/Ingest.lean ====
section
/-! DEFINITION. Stream ingest (R135 to R163): C37.118 frames, source configurations and quarantine, commands to sources,
sampled values, the signal map's resolution; and its commands. The layouts of C37.118 configuration and data frames are
those of the standard the manual names (log entry 24). -/
namespace Sys2Proof.Machine
open Sys2Proof

/-! ## Source configurations -/

/-- One PMU block of a configuration: FORMAT, counts, per phasor a factor and an angle offset, per analog a factor and an
offset, nominal frequency. The factors of CFG-2 are for integers only: there a floating value is taken as it is (R157). -/
structure Pmu where
  fmt  : Nat
  ph   : Nat
  an   : Nat
  dg   : Nat
  phas : List (F64 × F64)
  anal : List (F64 × F64)
  f0   : Nat
  good : Bool
  deriving DecidableEq, Repr

/-- A configuration frame as parsed: TIME_BASE, blocks, DATA_RATE, and the byte spans of STN, CHNAM and CFG_CNT. -/
structure CfgP where
  base  : Nat
  pmus  : List Pmu
  rate  : Int
  spans : List (Nat × Nat)
  deriving DecidableEq, Repr

def f64of32At (b : Bytes) (off : Nat) : F64 := f64of32 (BitVec.ofNat 32 (field b off 4))
def microUnit (n : Int) : F64 := f64ratio n 100000
def signed24 (n : Nat) : Int := if n % 2 ^ 24 < 2 ^ 23 then ((n % 2 ^ 24 : Nat) : Int) else ((n % 2 ^ 24 : Nat) : Int) - 16777216

/-- A block of a CFG-1 or CFG-2 frame: the block, its spans, and where the next begins. -/
def pmuTwo (b : Bytes) (o : Nat) : Pmu × List (Nat × Nat) × Nat :=
  let fmt := field b (o + 18) 2
  let ph := field b (o + 20) 2
  let an := field b (o + 22) 2
  let dg := field b (o + 24) 2
  let names := 16 * (ph + an + 16 * dg)
  let u := o + 26 + names
  let pu := (List.range ph).map (fun i => field b (u + 4 * i) 4)
  let au := (List.range an).map (fun i => field b (u + 4 * ph + 4 * i) 4)
  let e := u + 4 * (ph + an + dg)
  ({ fmt := fmt, ph := ph, an := an, dg := dg, phas := pu.map (fun (w : Nat) => (if bit fmt 1 then f64ofInt 1 else microUnit ((w % 2 ^ 24 : Nat) : Int), 0#64)),
     anal := au.map (fun w => (if bit fmt 2 then f64ofInt 1 else microUnit (signed24 w), 0#64)), f0 := if bit (field b e 2) 0 then 50 else 60,
     good := pu.all (fun w => w / 2 ^ 24 ≤ 1) && (bit fmt 2 || au.all (fun w => w % 2 ^ 24 != 0)) },
   [(o, 16), (o + 26, names), (e + 2, 2)], e + 4)

/-- Skip `n` names of a CFG-3 frame, each a length byte and its characters. -/
def skipNames (b : Bytes) (o n : Nat) : Nat :=
  match n with
  | 0 => o
  | k + 1 => skipNames b (o + 1 + field b o 1) k

/-- A block of a CFG-3 frame. -/
def pmuThree (b : Bytes) (o : Nat) : Pmu × List (Nat × Nat) × Nat :=
  let a := o + 1 + field b o 1
  let fmt := field b (a + 18) 2
  let ph := field b (a + 20) 2
  let an := field b (a + 22) 2
  let dg := field b (a + 24) 2
  let u := skipNames b (a + 26) (ph + an + 16 * dg)
  let ps := (List.range ph).map (fun i => (f64of32At b (u + 12 * i + 4), f64of32At b (u + 12 * i + 8)))
  let as := (List.range an).map (fun i => (f64of32At b (u + 12 * ph + 8 * i), f64of32At b (u + 12 * ph + 8 * i + 4)))
  let e := u + 12 * ph + 8 * an + 4 * dg + 21
  ({ fmt := fmt, ph := ph, an := an, dg := dg, phas := ps, anal := as, f0 := if bit (field b e 2) 0 then 50 else 60,
     good := (ps ++ as).all (fun p => f64finite p.1 && f64finite p.2) },
   [(o, a - o), (a + 26, u - (a + 26)), (e + 2, 2)], e + 4)

/-- `n` blocks from an offset; none when the frame ends before them. -/
def pmusFrom (b : Bytes) (three : Bool) (o n : Nat) : Option (List Pmu × List (Nat × Nat) × Nat) :=
  match n with
  | 0 => some ([], [], o)
  | k + 1 =>
    let (p, sp, next) := if three then pmuThree b o else pmuTwo b o
    if b.length < next + 4 then none
    else match pmusFrom b three next k with
      | some (ps, sps, e) => some (p :: ps, sp ++ sps, e)
      | none => none

/-- Parse a configuration frame of kind CFG-2 or CFG-3; none when its layout does not fit its size. -/
def parseCfg (three : Bool) (b : Bytes) : Option CfgP :=
  let h := if three then 16 else 14
  let n := field b (h + 4) 2
  match pmusFrom b three (h + 6) n with
  | some (ps, sps, e) =>
    if e + 4 = b.length then some { base := field b h 4 % 2 ^ 24, pmus := ps, rate := signedOf 2 (field b e 2), spans := sps } else none
  | none => none

/-- A configuration without SOC, FRACSEC and CHK (R142). -/
def cfgStrip (b : Bytes) : Bytes := b.take 6 ++ (b.drop 14).dropLast.dropLast
/-- The fingerprint (R144). -/
def fingerprint (b : Bytes) : Nat := crc16 (slice b 4 2 ++ (b.drop 14).dropLast.dropLast)

/-- A configuration without some spans, and without FRAMESIZE, which follows from them, SOC, FRACSEC and CHK. -/
def withoutSpans (b : Bytes) (spans : List (Nat × Nat)) : Bytes :=
  ((b.zip (List.range b.length)).filter (fun (_, i) =>
    !(i = 2 || i = 3 || (6 ≤ i && i < 14) || b.length ≤ i + 2 || spans.any (fun (o, n) => o ≤ i && i < o + n)))).map (·.1)

/-- The two differ only in STN, CHNAM and CFG_CNT (R143), whose names have any length in CFG-3. -/
def nameOnly (three : Bool) (a b : Bytes) : Bool :=
  match parseCfg three a, parseCfg three b with
  | some p, some q => withoutSpans a p.spans = withoutSpans b q.spans
  | _, _ => false

/-- Why a pending configuration cannot be accepted: bits 2 to 4 of byte 1 of the status record (R145, R161). -/
def cfgFaults (p : CfgP) (blocks : Nat) : Nat :=
  4 * b2n (decide (blocks < p.pmus.length)) + 8 * b2n (!(10 ≤ p.rate && p.rate ≤ 240)) + 16 * b2n (!(p.base != 0 && p.pmus.all (·.good)))

def ctxThree (c : Cf) (k : Nat) : Bool := ctxF c k 13 1 = 1

/-- The same of a pending frame: one whose layout does not fit its size gives a format the device cannot convert (log entry 110). -/
def frameFaults (c : Cf) (k : Nat) (b : Bytes) : Nat :=
  match parseCfg (ctxThree c k) b with
  | some p => cfgFaults p (ctxF c k 16 1)
  | none => 16

/-- A pending configuration can be accepted under a configuration of the device (R145). -/
def acceptable (c : Cf) (k : Nat) (b : Bytes) : Bool := frameFaults c k b = 0

/-- A value of 0x4010 names a pending configuration that can be accepted (R145). -/
def State.acceptsValue (s : State) (c : Cf) (v : Nat) : Bool :=
  match (s.ctx (v / 65536)).pending with
  | some b => fingerprint b = v % 65536 && acceptable c (v / 65536) b
  | none => false

/-- The size of a data frame under a configuration (R140, check 7). -/
def pmuBytes (p : Pmu) : Nat :=
  2 + p.ph * (if bit p.fmt 1 then 8 else 4) + (if bit p.fmt 3 then 8 else 4) + p.an * (if bit p.fmt 2 then 4 else 2) + 2 * p.dg
def dataSize (p : CfgP) : Nat := 16 + p.pmus.foldl (fun a x => a + pmuBytes x) 0

/-! ## Data blocks (R149, R150, R157) -/

/-- The quality word of a block (R149). -/
def blockQual (stat frac ver : Nat) : Qual :=
  let code := bits frac 27 24
  let fromCode := if code ≤ 3 then 1 else if code ≤ 8 then code - 2 else 7
  let acc := if ver = 2 && bits stat 8 6 != 0 then bits stat 8 6 else fromCode
  BitVec.ofNat 16 (acc + 8 * bits stat 5 4 + 32 * b2n (bit stat 13 || bit stat 12 || code = 15) +
    128 * b2n (bit frac 28) + 256 * b2n (bit frac 29) + 512 * b2n (bit frac 30) + 1024 * b2n (code = 15))

/-- The condition word of a block (R150). -/
def blockCond (stat : Nat) (q : Qual) : Cond :=
  let e := stat / 2 ^ 14 % 4
  BitVec.ofNat 16 (flagsOf [e = 3, e = 1, e = 2, bit stat 9, q.getLsbD 5, bit stat 12, false, false, bit stat 11])

/-- One phasor of a data frame. -/
def phasorAt (p : Pmu) (b : Bytes) (o i : Nat) (cond : Cond) (q : Qual) : Phas :=
  let (k, th) := p.phas.getD i (0#64, 0#64)
  let float := bit p.fmt 1
  let x := f64mul k (if float then f64of32At b (o + 8 * i) else f64ofInt (if bit p.fmt 0 then (field b (o + 4 * i) 2 : Int) else signedOf 2 (field b (o + 4 * i) 2)))
  let y := if float then (if bit p.fmt 0 then f64of32At b (o + 8 * i + 4) else f64mul k (f64of32At b (o + 8 * i + 4)))
    else if bit p.fmt 0 then f64ratio (signedOf 2 (field b (o + 4 * i + 2) 2)) 10000
    else f64mul k (f64ofInt (signedOf 2 (field b (o + 4 * i + 2) 2)))
  if bit p.fmt 0 then phasPolar x (f64add y th) cond q
  else if f64le (f64abs th) 0#64 then phasRect x y cond q
  else
    let v := Cx.mul (x, y) (Cx.turn th)
    phasRect v.1 v.2 cond q

/-- A block of a data frame at an offset. -/
def blockAt (p : Pmu) (b : Bytes) (o frac ver : Nat) : Block :=
  let stat := field b o 2
  let q := blockQual stat frac ver
  let cond := blockCond stat q
  let o1 := o + 2
  let o2 := o1 + p.ph * (if bit p.fmt 1 then 8 else 4)
  let w := if bit p.fmt 3 then 4 else 2
  let o3 := o2 + 2 * w
  let aw := if bit p.fmt 2 then 4 else 2
  let o4 := o3 + p.an * aw
  let fl := bit p.fmt 3
  let freq := if fl then f64of32At b o2 else f64add (f64ofInt p.f0) (f64ratio (signedOf 2 (field b o2 2)) 1000)
  let roc := if fl then f64of32At b (o2 + w) else f64ratio (signedOf 2 (field b (o2 + w) 2)) 100
  let anal := (List.range p.an).map (fun i =>
    let (k, off) := p.anal.getD i (0#64, 0#64)
    f64add off (f64mul k (if bit p.fmt 2 then f64of32At b (o3 + 4 * i) else f64ofInt (signedOf 2 (field b (o3 + 2 * i) 2)))))
  { phasors := (List.range p.ph).map (fun i => phasorAt p b o1 i cond q), freq := ⟨freq, cond, q⟩, rocof := ⟨roc, cond, q⟩,
    analogs := anal.map (fun v => ⟨v, cond, q⟩), digitals := (List.range p.dg).map (fun i => ⟨f64ofInt (field b (o4 + 2 * i) 2), cond, q⟩), qual := q }

/-- The blocks of a data frame. -/
def blocksOf (ps : List Pmu) (b : Bytes) (o frac ver : Nat) : List Block :=
  match ps with
  | [] => []
  | p :: r => blockAt p b o frac ver :: blocksOf r b (o + pmuBytes p) frac ver

/-! ## Running, commands to sources (R138) -/

/-- Ingest runs (R57, R70). -/
def State.ingestRuns (s : State) : Bool := s.mode.cur.ingests && Table.getD s.rst.status 7 0 = 0

/-- A C37.118.2 command frame (R138): version, IDCODE, the device's SOC and a free FRACSEC, the command (log entry 185). -/
def commandFrame (ver id cmd k : Nat) (s : State) : Bytes :=
  let b := [0xAA#8] ++ toBE 1 (64 + ver) ++ toBE 2 18 ++ toBE 2 id ++ toBE 4 (s.socOf (s.time.tai / 1000000000)) ++ freeRun k 100 4 ++ toBE 2 cmd
  b ++ toBE 2 (crc16 b)

/-- A command frame to a source (R138): from the first of the context's ports that is up, in class 3; for a TCP context
only over its connection (log entry 25). -/
def sourceCmd (c : Cf) (k cmd : Nat) (s : State) : State :=
  let x := s.ctx k
  let tcp := ctxF c k 1 1 = 1
  let ver := x.version.getD (if ctxThree c k then 2 else 1)
  let known := ctxF c k 4 4 != 0 || x.src.isSome
  if !s.mode.cur.ingests || (tcp && !x.tcp) || !known || ctxF c k 1 1 = 2 then s
  else
    let ports := (List.range 6).filter (fun p => tcp || bit (ctxF c k 12 1) p)
    let p := (ports.find? (fun p => s.portRuns p && (s.prt p).up)).getD (ports.headD 0)
    let (n, s1) := s.takeFree
    let dst := if ctxF c k 4 4 != 0 then ctxF c k 4 4 else x.src.getD 0
    let sent : SentCmd := { ctx := k, tcp := tcp, dst := dst, local_ := if tcp then 0 else ctxF c k 10 2, remote := ctxF c k 8 2, bytes := commandFrame ver (ctxF c k 2 2) cmd n s }
    let head := if tcp then tcpTemplate n p dst (freeRun n 14 2) sent.remote else udpTemplate n p dst sent.local_ sent.remote
    let x : OffloadSend := { template := head, payload := sent.bytes, mss := 1460 }
    portSend p 3 (if tcp then tcpFrame x 0 0 18 true else udpFrame x) none { s1 with ing := { s1.ing with sent := s1.ing.sent ++ [sent] } }

/-- "Send CFG-2" or "send CFG-3", and "turn on transmission". -/
def sourceStart (k : Nat) (s : State) : State :=
  if bit (ctxF s.cf k 0 1) 1 then
    let s1 := sourceCmd s.cf k 2 (sourceCmd s.cf k (if ctxThree s.cf k then 6 else 5) s)
    s1.setCtx k { s1.ctx k with lastReq := some s1.elapsed }
  else s

/-- A configuration request: after check 7 at once (R140), for STAT bit 10 once per retry interval (R147). -/
def sourceAsk (k : Nat) (always : Bool) (s : State) : State :=
  let x := s.ctx k
  let due := always || match x.asked with | some t => decide (t + s.cf.u 0x4000 0x14 0 2 * 1000000000 ≤ s.elapsed) | none => true
  if bit (ctxF s.cf k 0 1) 1 && due then
    let s1 := sourceCmd s.cf k (if ctxThree s.cf k then 6 else 5) s
    s1.setCtx k { s1.ctx k with asked := some s1.elapsed }
  else s

/-- A command that sends starts a new list of the frames it sent. -/
def freshSent (s : State) : State := { s with ing := { s.ing with sent := [] } }

/-- A context is enabled (R138, R143): it waits for its first configuration, its timeout begins, and over TCP its connection is
opened. -/
def enableCtx (k : Nat) (s : State) : State :=
  let x := s.ctx k
  sourceStart k (s.setCtx k { x with first := false, lost := false, lastAt := s.elapsed, trying := ctxF s.cf k 1 1 = 1 && !x.tcp })

/-! ## The signal map's resolution (R156) -/

def pmuHas (p : Pmu) (kind i : Nat) : Bool :=
  if kind ≤ 3 then i < p.ph else if kind ≤ 5 then i = 0 else if kind = 6 then i < p.an else i < p.dg

/-- An entry is resolved. -/
def State.resolved (s : State) (m : MapRec) : Bool :=
  let c := s.cf
  if !ctxValid c m.ctx || ctxF c m.ctx 16 1 ≤ m.block then false
  else if ctxLocal c m.ctx then
    let e := ctxF c m.ctx 18 2 + m.block
    let n := estF c e 2 1 + b2n (bit (estF c e 0 1) 3) + b2n (bit (estF c e 0 1) 4)
    estValid c e && (if m.kind ≤ 3 then decide (m.index < n) else m.kind ≤ 5 && m.index = 0)
  else match (s.ctx m.ctx).accepted with
    | none => false
    | some b =>
      match parseCfg (ctxThree c m.ctx) b with
      | some p => match p.pmus[m.block]? with | some x => pmuHas x m.kind m.index | none => false
      | none => false

/-- Resolve the map again (R156). Its event has instance 0 (DESIGN CHOICE, log entry 227). -/
def resolveMap (s : State) : State :=
  let n := ((mapRecs s.cf).filter (fun m => !s.resolved m)).length
  let s1 := { s with ing := { s.ing with unresolved := n } }
  when (n != 0 && s.ing.unresolved = 0) (raise 0x35 0 n) s1

/-! ## C37.118 frames (R137, R140) -/

/-- The context a frame matches (R137). -/
def State.matchCtx (s : State) (x : C37Rx) : Option Nat :=
  let c := s.cf
  let id := field x.bytes 4 2
  let fits := fun (addr k : Nat) => ctxValid c k && ctxF c k 1 1 = x.transport && ctxF c k 2 2 = id && ctxF c k 4 4 = addr &&
    (x.transport != 0 || (bit (ctxF c k 12 1) x.port && ctxF c k 10 2 = x.via))
  let ks := ((c.recs 0x4100 1 32).insertionSort (· ≤ ·)).filter (· < s.contexts)
  match ks.find? (fits x.src) with
  | some k => some k
  | none => ks.find? (fits 0)

/-- A frame goes to the archive (R135, R140). No rule gives the item a layout: type 0x30, context, transport, source,
frame length; the frame is its data (log entry 13). A full queue drops it. -/
def archiveFrame (k : Nat) (x : C37Rx) (s : State) : State :=
  (enqueueData 136 (fit 64 ([0x30#8] ++ toBE 1 x.transport ++ toBE 2 k ++ zeros 4 ++ toBE 4 x.src ++ toBE 4 x.bytes.length ++ stampBytes s.now)) x.bytes s).2

/-- The connection of a context is lost, which is counted, or could not be opened (R138; log entry 210): it is tried again at the retry
interval. -/
def tcpLost (k : Nat) (s : State) : State :=
  let x := s.ctx k
  if x.tcp then count 0x4080 0x15 (s.setCtx k { x with tcp := false, lastReq := some s.elapsed })
  else if x.trying then s.setCtx k { x with trying := false, lastReq := some s.elapsed } else s

/-- A frame on TCP fails check 1 or 2: the connection it came on is closed (R141). -/
def closeFraming (x : C37Rx) (s : State) : State := when (x.transport = 1) (tcpLost x.via) s

/-- A pending configuration is accepted (R143, R145). -/
def acceptCfg (k : Nat) (since : Option Stamp) (s : State) : State :=
  let x := s.ctx k
  match x.pending with
  | none => s
  | some b =>
    let s1 := s.setCtx k { x with accepted := some b, pending := none, bound := none, statChange := false, since := since }
    resolveMap (tellMismatch k (raise 0x31 k (k * 65536 + fingerprint b) s1))

/-- A CFG frame of the selected kind (R142, R143, R146). EV_CFG_REVERTED carries the fingerprint withdrawn (DESIGN CHOICE, log entry 228). -/
def takeCfg (k : Nat) (b : Bytes) (s : State) : State :=
  let x := s.ctx k
  let three := ctxThree s.cf k
  let flags := ctxF s.cf k 0 1
  let isAcc : Bool := match x.accepted with | some a => decide (cfgStrip a = cfgStrip b) | none => false
  let isPend : Bool := match x.pending with | some a => decide (cfgStrip a = cfgStrip b) | none => false
  let first := !x.first
  if isAcc then
    match x.pending with
    | some old => raise 0x32 k (k * 65536 + fingerprint old) (s.setCtx k { x with pending := none, bound := none, first := true })
    | none => s.setCtx k { x with first := true }
  else
    let s1 := s.setCtx k { x with pending := some b, bound := if isPend then x.bound else none, first := true }
    let auto := acceptable s.cf k b &&
      ((first && bit flags 2) || (bit flags 4 && (match x.accepted with | some a => nameOnly three a b | none => false)))
    if auto then acceptCfg k none s1 else raise 0x30 k (k * 65536 + fingerprint b) s1

/-- The data time of a frame in TAI ns (R98, R148). -/
def State.dataTime (s : State) (soc frac base : Nat) : Nat :=
  s.taiOf soc (bit frac 29) * 1000000000 + (nearestDiv ((frac % 2 ^ 24 : Nat) * 1000000000) (max 1 base)).toNat

/-- The reporting instant nearest to a time. -/
def nearInstant (rate t : Nat) : Nat :=
  let b := nextInstant rate t
  let a := match (List.range (t % 1000000000 * rate / 1000000000 + 2)).reverse.find? (fun k => decide (k < rate) && decide (instantNs rate k ≤ t % 1000000000)) with
    | some k => t / 1000000000 * 1000000000 + instantNs rate k
    | none => t / 1000000000 * 1000000000
  if b - t < t - a then b else a

/-- The receive stamp of a frame, in the generation of now: of a datagram handed over by the IP path, that of its last frame; else of
now (R141). -/
def State.rxNs (s : State) (x : C37Rx) : Nat :=
  match s.ing.direct.find? (fun d => d.2 = x) with
  | some d => (s.inGen d.1 s.time.gen).ns
  | none => s.time.tai

/-- Which of checks 7 to 12 a data frame received at `rx` fails first, as its counter; 0 for none. Its instant as well. -/
def State.dataChecks (s : State) (x : Ctx) (p : CfgP) (b : Bytes) (rx : Nat) : Nat × Nat :=
  let frac := field b 10 4
  let q := bits frac 27 24
  let t := s.dataTime (field b 6 4) frac p.base
  let tr := nearInstant p.rate.toNat t
  let off : Nat := ((t : Int) - tr).natAbs
  let bad :=
    if b.length != dataSize p then 7
    else if p.base ≤ frac % 2 ^ 24 || q = 12 || q = 13 || q = 14 then 9
    else if s.cf.u 0x4000 0x13 0 2 * 1000 < off then 0x0A
    else if !s.time.unlocked && rx + s.cf.u 0x4000 0x12 0 2 * 1000000 < t then 0x0B
    else if t + 2000000000 < rx then 0x0C
    else if x.seen.any (fun w => w.ns = tr) then 0x0D else 0
  (bad, tr)

/-- A data frame of a context (R140 checks 6 to 12, R147 to R158, R196). -/
def takeData (k : Nat) (rx : C37Rx) (at_ : Nat) (s : State) : State :=
  let x := s.ctx k
  let b := rx.bytes
  let p? := match x.accepted with | some a => parseCfg (ctxThree s.cf k) a | none => none
  let archive := bit (ctxF s.cf k 0 1) 3
  let quarantine := fun (st : State) => when archive (archiveFrame k rx) (count 0x4080 8 (ctxSat k x.quarantined 16 (st.setCtx k { x with quarantined := satCount x.quarantined 1 })))
  let early := fun (p : CfgP) => match x.since with
    | some t => t.gen = s.time.gen && decide (nearInstant p.rate.toNat (s.dataTime (field b 6 4) (field b 10 4) p.base) < t.ns)
    | none => false
  match p?, x.pending with
  | some p, none =>
    if early p then quarantine s
    else
      let (bad, tr) := s.dataChecks x p b at_
      if bad != 0 then
        let s1 := count 0x4080 bad (ctxSat k x.dropped 24 (s.setCtx k { x with dropped := satCount x.dropped 1 }))
        if bad = 7 then sourceAsk k true s1 else s1
      else
        let at_ : Stamp := ⟨s.time.gen, tr⟩
        let frac := field b 10 4
        let blocks := blocksOf p.pmus b 14 frac (field b 1 1 % 16)
        let c := (s.cfFor at_).1
        let n := ctxF c k 16 1
        let vals := (((List.range blocks.length).zip blocks).map (fun (j, blk) => if j < n then mapBlock c k j blk else [])).flatten
        let stats := p.pmus.foldl (fun (acc : Nat × Bool) q => (acc.1 + pmuBytes q, acc.2 || bit (field b acc.1 2) 10)) (14, false)
        let seen := at_ :: x.seen.filter (fun w => decide (s.time.tai ≤ w.ns + 2000000000))
        let s1 := ctxSat k x.delivered 8 (s.setCtx k { x with delivered := satCount x.delivered 1, lastAt := s.elapsed, lost := false, seen := seen, statChange := x.statChange || stats.2 })
        let s2 := when x.lost (raise 0x34 k 0) s1
        let s3 := when stats.2 (sourceAsk k false) s2
        arrive k tr vals (worstQual (s.ownQualAt tr) (blocks.map (·.qual))) (writeSlots vals at_ s3)
  | _, _ => quarantine s

/-- A C37.118 frame (R140): the checks in order, each counted once. CFG-3 of version 1 fails check 1 (DESIGN CHOICE, log entry 188). A
frame of a context without an accepted configuration, or with one pending, is archived when bit 3 is set, and so is any header frame. -/
def c37Frame (x : C37Rx) (s : State) : State :=
  if !s.ingestRuns then s
  else
    let b := x.bytes
    let s0 := count 0x4080 1 (freshSent { s with ing := { s.ing with direct := s.ing.direct.eraseP (fun d => d.2 = x) } })
    let fails := fun (n : Nat) (st : State) => when (st.cf.u 0x4000 0x15 0 1 = 1) (archiveFrame 0xFFFF x) (count 0x4080 n st)
    let kind := field b 1 1 / 16 % 8
    let ver := field b 1 1 % 16
    if b.length < 2 || field b 0 1 != 0xAA || 5 < kind || !(ver = 1 || ver = 2) || (kind = 5 && ver = 1) then closeFraming x (fails 2 s0)
    else if b.length < 16 || field b 2 2 != b.length then closeFraming x (fails 3 s0)
    else if crc16 (b.dropLast.dropLast) != field b (b.length - 2) 2 then fails 4 s0
    else
      match s0.matchCtx x with
      | none => raise 0x39 0 x.src (fails 5 s0)
      | some k =>
        if s0.fenced 1 (k / 512) then s0
        else
        let y := s0.ctx k
        let s1 := s0.setCtx k { y with version := some ver, src := some x.src }
        let waits := y.accepted.isNone || y.pending.isSome
        let keep := fun (st : State) => when ((kind = 1 || waits) && bit (ctxF st.cf k 0 1) 3) (archiveFrame k x) st
        if kind = 0 then takeData k x (s.rxNs x) s1
        else if kind = (if ctxThree s1.cf k then 5 else 3) then takeCfg k b (keep s1)
        else keep (count 0x4080 6 (ctxSat k y.dropped 24 (s1.setCtx k { s1.ctx k with dropped := satCount y.dropped 1 })))

/-- C37_DATA_FRAME (R140). -/
def execC37DataFrame (dt : Nat) (x : C37Rx) (s : State) : Host.Outcome State Fault Refusal := .next (s.act [.events, .stats, .free, .queues, .sched, .acq, .bus, .ingest, .slots, .align, .hr] dt (c37Frame x))
/-- C37_CFG_FRAME (R142). -/
def execC37CfgFrame (dt : Nat) (x : C37Rx) (s : State) : Host.Outcome State Fault Refusal := .next (s.act [.events, .stats, .free, .queues, .sched, .acq, .bus, .ingest, .slots, .align, .hr] dt (c37Frame x))
/-- C37_HEADER_FRAME (R140). -/
def execC37HeaderFrame (dt : Nat) (x : C37Rx) (s : State) : Host.Outcome State Fault Refusal := .next (s.act [.events, .stats, .free, .queues, .sched, .acq, .bus, .ingest, .slots, .align, .hr] dt (c37Frame x))

/-- INGEST_TCP_CONNECT (R138): the connection being opened stands, and the commands are sent. -/
def ingestConnect (k : Nat) (s : State) : State :=
  if s.ingestRuns && ctxValid s.cf k && ctxF s.cf k 1 1 = 1 && (s.ctx k).trying then
    sourceStart k (freshSent (s.setCtx k { s.ctx k with tcp := true, trying := false }))
  else s
def execIngestTcpConnect (dt k : Nat) (s : State) : Host.Outcome State Fault Refusal := .next (s.act [.events, .stats, .free, .queues, .ingest] dt (ingestConnect k))

/-- INGEST_TCP_LOST (R138). -/
def execIngestTcpLost (dt k : Nat) (s : State) : Host.Outcome State Fault Refusal := .next (s.act [.events, .stats, .ingest] dt (fun t => when t.mode.cur.ingests (tcpLost k) t))

/-- INGEST_RETRY (R138): the retry interval has passed since the last commands or the last attempt to connect, while the
context has no accepted configuration, or is lost, or has no connection, which is then opened anew. -/
def ingestRetry (k : Nat) (s : State) : State :=
  let x := s.ctx k
  let due := match x.lastReq with | some t => decide (t + s.cf.u 0x4000 0x14 0 2 * 1000000000 ≤ s.elapsed) | none => true
  if s.ingestRuns && ctxValid s.cf k && due then
    if ctxF s.cf k 1 1 = 1 && !x.tcp then s.setCtx k { x with lastReq := some s.elapsed, trying := true }
    else if x.accepted.isNone || x.lost then sourceStart k (freshSent s) else s
  else s
def execIngestRetry (dt k : Nat) (s : State) : Host.Outcome State Fault Refusal := .next (s.act [.events, .stats, .free, .queues, .ingest] dt (ingestRetry k))

/-! ## Sampled values (R151 to R154) -/

def State.svs (s : State) (r : Nat) : Sv := Table.getD s.ing.sv r {}
def State.setSv (s : State) (r : Nat) (x : Sv) : State := { s with ing := { s.ing with sv := Table.set s.ing.sv r x {} } }
def svF (c : Cf) (r off n : Nat) : Nat := c.u 0x4200 1 (64 * r + off) n
def svValid (c : Cf) (r : Nat) : Bool := bit (svF c r 0 1) 0

/-- The text of a NUL-padded field. -/
def unpad (b : Bytes) : Bytes := (b.reverse.dropWhile (· = 0#8)).reverse

/-- The record an ASDU matches (R152 check 2). -/
def matchSv (c : Cf) (f : SvFrame) (a : Asdu) : Option Nat :=
  ((c.recs 0x4200 1 64).insertionSort (· ≤ ·)).find? (fun r => r < 128 && svValid c r && svF c r 2 2 = f.appid && unpad (c.bytes 0x4200 1 (64 * r + 24) 36) = a.svId &&
    (svF c r 4 6 = 0 || svF c r 4 6 = f.srcMac))

/-- The condition bits of an IEC 61850-7-3 quality (R150, R152). -/
def svCond (q : Nat) (unlocked : Bool) : Cond :=
  BitVec.ofNat 16 (flagsOf [q % 4 = 1, false, bit q 11, false, unlocked, false, q % 4 = 3, bit q 10])

/-- The instant of an ASDU (R153): by smpCnt, or by its place in the frame. -/
def State.svTime (s : State) (c : Cf) (r rate : Nat) (a : Asdu) (after : Nat) : Nat :=
  if a.smpSynch = 2 then
    let off := instantNs rate a.smpCnt
    let lo : Int := (s.time.tai : Int) - 999000000 - off
    ((-((-lo) / 1000000000)) * 1000000000 + off).toNat
  else ((s.time.tai : Int) - (svF c r 20 4 * 1000 : Nat) - instantNs rate after).toNat

/-- One ASDU (R152 checks 3 to 6, R153, R154); `after` ASDUs follow it in the frame. PENDING ends at one that is delivered (DEDUCED,
log entry 230). -/
def svAsdu (f : SvFrame) (a : Asdu) (after r : Nat) (s : State) : State :=
  let c := s.cf
  let x := s.svs r
  let rate := svRate (svF c r 1 1)
  let n := svF c r 18 1
  let drop := fun (k : Nat) (st : State) => count 0x4080 k (svSat r x.dropped 24 (st.setSv r { st.svs r with dropped := satCount x.dropped 1 }))
  if f.simulate && !bit (svF c r 0 1) 1 then drop 0x14 s
  else if a.confRev != svF c r 12 4 then
    let s1 := count 0x4080 0x11 (svSat r x.quarantined 16 (s.setSv r { x with quarantined := satCount x.quarantined 1, rev := some a.confRev }))
    when x.rev.isNone (raise 0x30 r (2 ^ 31 + r)) s1
  else if a.dataLen != 8 * n || a.samples.length != n || rate ≤ a.smpCnt then drop 0x0F s
  else
    let d := match x.next with | some e => (a.smpCnt + rate - e) % rate | none => 0
    if rate ≤ 2 * d then drop 0x12 s
    else
      let t := s.svTime c r rate a after
      let own := s.ownQualAt t
      let q : Qual := if a.smpSynch = 2 then own else (own &&& 0xFFF8#16) ||| 0x27#16
      let unl := q.getLsbD 5
      let gap := decide (svF c r 19 1 < d)
      let s1 := when (x.sync = some 2 && a.smpSynch != 2) (raise 0x37 r 2) s
      let s2 := when (gap && d != 0) (raise 0x36 r d) (countN 0x4080 0x13 d s1)
      let fillCond : Cond := (if gap then 1#16 else 0x80#16) ||| (if unl then 0x10#16 else 0#16)
      let s3 := each (List.range d) (fun i st =>
        let back := d - i
        let at_ : Stamp := ⟨s.time.gen, t - instantNs rate back⟩
        each (List.range n) (fun ch st1 =>
          rawSample (svF c r 16 2 + ch) ⟨if gap then 0 else x.lastVals.getD ch 0, (a.smpCnt + rate - back) % rate, at_, fillCond, q⟩ st1) st) s2
      let wasLost := x.lost
      let heard := { s3.svs r with next := some ((a.smpCnt + 1) % rate), rev := none, lastVals := a.samples.map (·.1), sync := some a.smpSynch,
                                   lastAt := s.elapsed, active := true, lost := false, delivered := satCount x.delivered 1 }
      let s4 := svSat r x.delivered 8 (s3.setSv r heard)
      let s5 := when wasLost (raise 0x34 r (2 ^ 31)) s4
      each ((List.range n).zip a.samples) (fun (ch, v, iq) st => rawSample (svF c r 16 2 + ch) ⟨v, a.smpCnt, ⟨s.time.gen, t⟩, svCond iq unl, q⟩ st) s5

/-- SV_FRAME_RECEIVE (R152). An unknown source is told under instance 0 (DESIGN CHOICE, log entry 227). -/
def svFrame (f : SvFrame) (s : State) : State :=
  if s.mode.cur.ingests && Table.getD s.rst.status 8 0 = 0 then
    let s0 := count 0x4080 0x0E s
    if !f.decodes || f.asdus.isEmpty || 16 < f.asdus.length then count 0x4080 0x0F s0
    else
      each ((List.range f.asdus.length).zip f.asdus) (fun (i, a) st =>
        match matchSv st.cf f a with
        | none => raise 0x39 0 f.appid (count 0x4080 0x10 st)
        | some r => svAsdu f a (f.asdus.length - 1 - i) r st) s0
  else s
def execSvFrameReceive (dt : Nat) (f : SvFrame) (s : State) : Host.Outcome State Fault Refusal := .next (s.act [.events, .stats, .acq, .bus, .ingest, .chain, .alarm] dt (svFrame f))

/-- STREAM_LOST (R161): nothing has been delivered for the stream timeout. -/
def streamLost (sv : Bool) (k : Nat) (s : State) : State :=
  let ms := s.cf.u 0x4000 0x11 0 2
  if !s.ingestRuns then s
  else if sv then
    let x := s.svs k
    if k < 128 && svValid s.cf k && !x.lost && x.lastAt + ms * 1000000 ≤ s.elapsed then
      let first := svF s.cf k 16 2
      raise 0x33 k (2 ^ 31 + ms) (chainLoss (span first (first + svF s.cf k 18 1)) (s.setSv k { x with lost := true, next := none }))
    else s
  else
    let x := s.ctx k
    if k < s.contexts && ctxValid s.cf k && !x.lost && x.lastAt + ms * 1000000 ≤ s.elapsed then raise 0x33 k ms (s.setCtx k { x with lost := true }) else s
def execStreamLost (dt : Nat) (sv : Bool) (k : Nat) (s : State) : Host.Outcome State Fault Refusal := .next (s.act [.events, .ingest, .chain] dt (streamLost sv k))

/-! ## Modes, resets, commits -/

/-- Ingest begins to run: every valid context is enabled, every stream's timeout begins. -/
def ingestStart (s : State) : State :=
  let c := s.cf
  let s1 := each (((c.recs 0x4100 1 32).insertionSort (· ≤ ·)).filter (ctxValid c)) enableCtx (freshSent s)
  each (((c.recs 0x4200 1 64).insertionSort (· ≤ ·)).filter (svValid c)) (fun r st => st.setSv r { st.svs r with lost := false, lastAt := st.elapsed, next := none }) s1

/-- An ingest reset (R70): run state, sequence tracking, quarantined data; configurations and counters are kept. -/
def ingestReset (s : State) : State :=
  { s with ing := { s.ing with ctx := Table.mapVals s.ing.ctx (fun x => { x with seen := [], parts := [], lost := false, lastAt := s.elapsed }) } }

/-- A sampled-value intake reset (R70): the sequence tracking of the streams. -/
def svReset (s : State) : State :=
  { s with ing := { s.ing with sv := Table.mapVals s.ing.sv (fun x => { x with next := none, lastVals := [], sync := none }) } }

/-- All TCP connections close (R70, cluster 1). -/
def ingestTcpClose (s : State) : State := each (s.ing.ctx.map (·.1)) tcpLost s

/-- An accepted commit binds the pending content of the contexts it accepts (R145). -/
def bindAccepts (n : Cf) (gen : BitVec 32) (cells : List Host.Cell) (s : State) : State :=
  let c : Cf := ⟨s.variant, cells⟩
  each (span 1 17) (fun sub st =>
    let v := c.u 0x4010 sub 0 4
    let k := v / 65536
    if (stagedOf cells 0x4010 sub).isEmpty || !st.acceptsValue n v then st
    else st.setCtx k { st.ctx k with bound := some (gen, (st.ctx k).pending.getD []) }) s

/-- Bytes 1 to 7 or 13 to 19 of a context's record differ (R136). -/
def ctxMoved (o n : Cf) (k : Nat) : Bool :=
  o.bytes 0x4100 1 (32 * k + 1) 7 != n.bytes 0x4100 1 (32 * k + 1) 7 || o.bytes 0x4100 1 (32 * k + 13) 7 != n.bytes 0x4100 1 (32 * k + 13) 7

/-- A commit at T_c (R136, R138, R145, R154, R156). A TCP context whose remote port changes is connected to the new one (log entry
189); one whose source changes is disabled and enabled (DEDUCED, log entry 229). -/
def ingestCommit (o : Cf) (gen : BitVec 32) (tc : Stamp) (s : State) : State :=
  let n := s.cf
  let ks := (dedup (o.recs 0x4100 1 32 ++ n.recs 0x4100 1 32)).insertionSort (· ≤ ·)
  let s1 := each ks (fun k st =>
    let moved := ctxMoved o n k
    let ends := ctxValid o k && (!ctxValid n k || moved)
    let st1 := if ends && bit (ctxF o k 0 1) 1 then sourceCmd o k 1 st else st
    let x := st1.ctx k
    let redial := ctxValid o k && ctxValid n k && ctxF n k 1 1 = 1 && ctxF o k 8 2 != ctxF n k 8 2
    let y := if redial && !ends then { x with tcp := false, trying := true } else if ends then { x with seen := [], tcp := false, trying := false, statChange := false, lost := false, parts := [] } else x
    let z := if moved then { y with accepted := none, pending := none, bound := none, since := none, first := false, version := none, src := none } else y
    st1.setCtx k z) (freshSent s)
  let s2 := each (s1.ing.ctx.map (·.1)) (fun k st =>
    let x := st.ctx k
    match x.bound, x.pending with
    | some (g, b), some p => if g = gen && b = p then acceptCfg k (some tc) st else st
    | _, _ => st) s1
  let s3 := if s2.mode.cur.ingests then
      each (ks.filter (fun k => ctxValid n k && (!ctxValid o k || ctxMoved o n k))) enableCtx s2
    else s2
  let s4 := each ((List.range 128).filter (recChanged o n 0x4200 1 64)) (fun r st => st.setSv r { st.svs r with next := none, rev := none, lost := false, lastAt := st.elapsed }) s3
  resolveMap s4

end Sys2Proof.Machine
end

