-- ==== Sys2Proof/Machine/Eigen.lean ====
section
/-! DEFINITION. The eigenvalues and eigenvectors of a real matrix (R232), on fixed point of 600 fraction bits: the characteristic
polynomial and the adjugate by Faddeev and LeVerrier, the roots by Aberth, each eigenvector and row of the inverse from the adjugate.
The spec bounds the backward error and does not name a method (DESIGN CHOICE, log entry 163). -/
namespace Sys2Proof
open Sys2Proof

/-- A complex number in fixed point. -/
abbrev Cz := Int × Int

def eigOne : Int := 2 ^ 600

def Cz.add (a b : Cz) : Cz := (a.1 + b.1, a.2 + b.2)
def Cz.sub (a b : Cz) : Cz := (a.1 - b.1, a.2 - b.2)
def Cz.mul (a b : Cz) : Cz := ((a.1 * b.1 - a.2 * b.2) / eigOne, (a.1 * b.2 + a.2 * b.1) / eigOne)
/-- The square of the modulus, at twice the scale. -/
def Cz.norm (a : Cz) : Int := a.1 * a.1 + a.2 * a.2
/-- a / b; 0 for b = 0. -/
def Cz.div (a b : Cz) : Cz :=
  if Cz.norm b = 0 then (0, 0)
  else ((a.1 * b.1 + a.2 * b.2) * eigOne / Cz.norm b, (a.2 * b.1 - a.1 * b.2) * eigOne / Cz.norm b)
/-- The modulus. -/
def Cz.modulus (a : Cz) : Int := isqrt (Cz.norm a).toNat (Nat.log2 (Cz.norm a).toNat / 2 + 2)

/-- Entry i, j of a matrix of rows. -/
def entry (m : List (List Int)) (i j : Nat) : Int := (m.getD i []).getD j 0

/-- A product of square matrices of size n. -/
def eigMul (n : Nat) (a b : List (List Int)) : List (List Int) :=
  (List.range n).map (fun i => (List.range n).map (fun j => ((List.range n).foldl (fun acc k => acc + entry a i k * entry b k j) 0) / eigOne))

/-- The matrices M_1 to M_n and the coefficients below the leading 1, highest first: `k` from 1. -/
def faddeev (n : Nat) (a : List (List Int)) (fuel k : Nat) (m : List (List Int)) : List (List (List Int)) × List Int :=
  match fuel with
  | 0 => ([], [])
  | f + 1 =>
    let am := eigMul n a m
    let c := -((List.range n).foldl (fun acc i => acc + entry am i i) 0) / (k : Int)
    let next := (List.range n).map (fun i => (List.range n).map (fun j => entry am i j + (if i = j then c else 0)))
    let (ms, cs) := faddeev n a f (k + 1) next
    (m :: ms, c :: cs)

/-- A polynomial with leading 1 and its derivative at a point, by Horner's rule. -/
def polyAt (cs : List Int) (z : Cz) : Cz × Cz :=
  cs.foldl (fun (acc : Cz × Cz) c => (Cz.add (Cz.mul acc.1 z) (c, 0), Cz.add (Cz.mul acc.2 z) acc.1)) ((eigOne, 0), (0, 0))

/-- One step of Aberth's method on all roots. -/
def aberthStep (cs : List Int) (zs : List Cz) : List Cz :=
  (List.range zs.length).map (fun j =>
    let z := zs.getD j (0, 0)
    let (p, d) := polyAt cs z
    let w := Cz.div p d
    let sum := (List.range zs.length).foldl (fun (acc : Cz) i => if i = j then acc else Cz.add acc (Cz.div (eigOne, 0) (Cz.sub z (zs.getD i (0, 0))))) (0, 0)
    Cz.sub z (Cz.div w (Cz.sub (eigOne, 0) (Cz.mul w sum))))

def aberth (cs : List Int) (fuel : Nat) (zs : List Cz) : List Cz :=
  match fuel with
  | 0 => zs
  | f + 1 => aberth cs f (aberthStep cs zs)

/-- First guesses: on a circle that holds every root, off its symmetry. -/
def firstRoots (n : Nat) (cs : List Int) : List Cz :=
  let r : Nat := 1 + cs.foldl (fun (m : Nat) c => max m (c.natAbs / 2 ^ 600 + 1)) 0
  (List.range n).map (fun j =>
    let a : Int := 2 * piFixed * (5 * j + 2) / (5 * n)
    ((r : Int) * cosFix a * 2 ^ 300, (r : Int) * cosFix (a - piFixed / 2) * 2 ^ 300))

/-- The adjugate of z I - A at a root. -/
def adjugate (n : Nat) (ms : List (List (List Int))) (z : Cz) : List (List Cz) :=
  (List.range n).map (fun i => (List.range n).map (fun j => ms.foldl (fun (acc : Cz) m => Cz.add (Cz.mul acc z) (entry m i j, 0)) (0, 0)))

/-- The place of the largest modulus, the lowest on a tie. -/
def largest (v : List Cz) : Nat :=
  ((List.range v.length).foldl (fun (b : Nat × Int) i => let x := Cz.norm (v.getD i (0, 0)); if b.2 < x then (i, x) else b) (0, -1)).1

/-- A vector of unit norm with its largest component real and positive. -/
def unitVector (v : List Cz) : List Cz :=
  let total := v.foldl (fun acc x => acc + Cz.norm x) 0
  let len := isqrt total.toNat (Nat.log2 total.toNat / 2 + 2)
  let top := v.getD (largest v) (0, 0)
  let turn := Cz.div (top.1, -top.2) (Cz.modulus top, 0)
  v.map (fun x => Cz.mul (Cz.div x (len, 0)) turn)

/-- An eigenvalue with its eigenvector and the row of the inverse of V that belongs to it. -/
structure EigPair where
  lam : F64 × F64
  vec : List (F64 × F64)
  inv : List (F64 × F64)
  deriving DecidableEq, Repr

/-- A = V Lambda V^-1 (R232); a matrix that is not finite, or 0, has none. -/
def eigen (a : List (List F64)) : List EigPair :=
  let n := a.length
  let top := (a.flatten.filterMap (fun x => match n64 x with | .fin _ m e => if m = 0 then none else some (e + (Nat.log2 m : Nat)) | _ => none))
  match top with
  | [] => []
  | h :: r =>
    let ex := r.foldl max h
    let fx := fun (x : F64) => match n64 x with
      | .fin s m e => let d := e - ex + 600; Num.signed s (if 0 ≤ d then m * 2 ^ d.toNat else m / 2 ^ (-d).toNat)
      | _ => 0
    if a.any (fun row => row.any (fun x => !f64finite x)) then []
    else
      let m := (List.range n).map (fun i => (List.range n).map (fun j => fx ((a.getD i []).getD j 0#64)))
      let one := (List.range n).map (fun i => (List.range n).map (fun j => if i = j then eigOne else 0))
      let (ms, cs) := faddeev n m n 1 one
      let out := fun (d : Int) (z : Cz) => (b64 (Num.ofInt z.1 (d - 600)), b64 (Num.ofInt z.2 (d - 600)))
      (aberth cs 200 (firstRoots n cs)).map (fun z0 =>
        let z : Cz := if z0.2.natAbs < 2 ^ 300 then (z0.1, 0) else z0
        let ad := adjugate n ms z
        let i := largest (ad.map (fun row => row.getD (largest row) (0, 0)))
        let w := ad.getD i []
        let v := unitVector (ad.map (fun row => row.getD (largest w) (0, 0)))
        let wv := (w.zip v).foldl (fun (acc : Cz) p => Cz.add acc (Cz.mul p.1 p.2)) (0, 0)
        { lam := out ex z, vec := v.map (out 0), inv := w.map (fun x => out 0 (Cz.div x wv)) })

end Sys2Proof
end

