-- ==== Sys2Proof/Machine/Osc.lean ====
section
/-! DEFINITION. The oscillation engine (R220 to R255): series, subspace tracker, forced-oscillation detector, alarm
conditions, restarts; and its commands. Exact sums are formed from the window when they are used (R230, R239). -/
namespace Sys2Proof.Machine
open Sys2Proof

/-! ## Configuration (R223, R224) -/

def mgF (c : Cf) (g off n : Nat) : Nat := c.u 0x6810 1 (64 * g + off) n
def mgFlag (c : Cf) (g b : Nat) : Bool := bit (mgF c g 0 1) b
def mgGroup (c : Cf) (g : Nat) : Nat := mgF c g 1 1
/-- F_g of the group's alignment group, F_e, and M_o. -/
def mgFg (c : Cf) (g : Nat) : Nat := agRate c (mgGroup c g)
def mgFe (c : Cf) (g : Nat) : Nat := max 1 (mgF c g 2 1)
def mgMo (c : Cf) (g : Nat) : Nat := max 1 (mgFg c g / mgFe c g)
def mgNw (c : Cf) (g : Nat) : Nat := mgF c g 4 2 * mgFe c g
def mgNf (c : Cf) (g : Nat) : Nat := mgF c g 16 2 * mgFg c g

/-- A signal (R224): record, slot, difference slot, flags, weight, amplitude threshold. -/
structure Sgn where
  no   : Nat
  slot : Nat
  diff : Option Nat
  flags : Nat
  w    : F64
  ath  : F64
  deriving DecidableEq, Repr

/-- The valid signals of a group, in position order. -/
def signalsOf (c : Cf) (g : Nat) : List Sgn :=
  (((c.recs 0x6820 1 16).insertionSort (· ≤ ·)).filter (fun r => bit (c.u 0x6820 1 (16 * r) 2) 15 && c.u 0x6820 1 (16 * r) 2 % 16 = g)).map (fun r =>
    let u := fun off n => c.u 0x6820 1 (16 * r + off) n
    { no := r, slot := u 2 2 % 8192, diff := if bit (u 4 2) 15 then some (u 4 2 % 8192) else none, flags := u 6 1,
      w := f64of32 (BitVec.ofNat 32 (u 8 4)), ath := f64of32 (BitVec.ofNat 32 (u 12 4)) })

def Sgn.angle (x : Sgn) : Bool := bit x.flags 0
def Sgn.fo (x : Sgn) : Bool := bit x.flags 2
/-- The positions of the tracker references, and of the detector's inputs. -/
def refsOf (sg : List Sgn) : List Nat := (List.range sg.length).filter (fun i => (sg[i]?).any (fun x => bit x.flags 1))
def inputsOf (sg : List Sgn) : List Nat := (List.range sg.length).filter (fun i => (sg[i]?).any Sgn.fo)

def State.oscG (s : State) (g : Nat) : OscGroup := Table.getD s.osc g {}
def State.setOsc (s : State) (g : Nat) (x : OscGroup) : State := { s with osc := Table.set s.osc g x {} }

/-- The engine can process a group: present, mode, no reset, no fence (R222). -/
def State.oscAble (s : State) (g : Nat) : Bool :=
  s.hasOsc && s.mode.cur.full && Table.getD s.rst.status 0x0A 0 = 0 && !s.fenced 5 g && g < 16
/-- The group runs: valid in a configuration that serves sets (R17, R222). -/
def State.oscRuns (s : State) (g : Nat) : Bool := s.oscAble g && s.served.any (fun x => mgFlag x.1 g 0)
/-- The group takes closes: also those left of a configuration that has been released (R17). -/
def State.oscTakes (s : State) (g : Nat) : Bool := s.oscAble g && s.serving.any (fun x => mgFlag x.1 g 0)

/-! ## Instant values and series (R226 to R229, R238) -/

/-- An angle brought to the range above -pi and up to pi. -/
def wrapAny (a : F64) : F64 :=
  if f64le (f64abs a) (f64mul (f64ofInt 3) f64pi) then wrapAngle a
  else wrapAngle (f64sub a (f64mul (f64ofInt (Num.nearest (n64 (f64div a f64twoPi)))) f64twoPi))

/-- The value of a slot in a set, when present and valid. -/
def slotValue (vals : List Slotted) (slot : Nat) : Option F64 := (vals.find? (fun v => v.slot = slot && v.valid)).map (fun v => f64of32 v.val)

/-- The wrapped difference and the instant value of a signal (R226). -/
def instantValue (sg : Sgn) (vals : List Slotted) (last : Option (F64 × F64)) : Option (F64 × F64) :=
  let raw := match slotValue vals sg.slot, sg.diff with
    | some a, none => some a
    | some a, some d => (slotValue vals d).map (fun b => f64sub a b)
    | none, _ => none
  raw.map (fun v =>
    if sg.angle then
      let y := wrapAny v
      match last with
      | some (yp, xp) => (y, f64add xp (wrapAny (f64sub y yp)))
      | none => (y, y)
    else (v, v))

/-- z_q and whether it saturated (R229). -/
def quantise (z : F64) : Int × Bool :=
  let v := match n64 z with
    | .fin s m e => Num.nearest (.fin s m (e + 24))
    | .inf s => if s then -2147483649 else 2147483648
    | .nan => 0
  if v < -2147483648 then (-2147483648, true) else if 2147483647 < v then (2147483647, true) else (v, false)

/-- Detrend, weight and quantise: z_q, saturated, and mu after (R229). -/
def detrend (u w beta : F64) (mu : Option F64) : (Int × Bool) × F64 :=
  let m := mu.getD u
  (quantise (f64mul (f64sub u m) w), f64add m (f64mul beta (f64sub u m)))

/-- What one signal does with one sample: its state after, z_q, and what is counted of it. -/
structure SigOut where
  sig   : OscSig
  z     : Int := 0
  fresh : Bool := false
  sat   : Bool := false
  held  : Bool := false
  stale : Bool := false
  deriving DecidableEq, Repr

/-- A tracker sample of a signal (R227 to R229): `u` is its mean when fresh. -/
def trackSample (x : OscSig) (u : Option F64) (w beta : F64) (gs nw : Nat) : SigOut :=
  match u with
  | some v =>
    let ((z, sat), mu) := detrend v w beta x.mu
    let run := x.run + 1
    let y := { x with held := some v, gap := 0, mu := some mu, part := [] }
    if x.stale && run < nw then { sig := { y with run := run }, z := z, fresh := true, sat := sat }
    else { sig := { y with stale := false, run := 0 }, z := z, fresh := true, sat := sat }
  | none =>
    let gap := x.gap + 1
    let y := { x with gap := gap, run := 0, part := [] }
    if x.stale then { sig := y }
    else if gs < gap then { sig := { y with stale := true }, stale := true }
    else match x.held with
      | some v =>
        let ((z, sat), mu) := detrend v w beta x.mu
        { sig := { y with mu := some mu }, z := z, sat := sat, held := true }
      | none => { sig := y }

/-- A value of a signal for the detector (R238). -/
def foValue (x : OscSig) (v : Option F64) (w beta : F64) (limit nf : Nat) : SigOut :=
  match v with
  | some u =>
    let ((z, sat), mu) := detrend u w beta x.foMu
    let run := x.foRun + 1
    let y := { x with foGap := 0, foMu := some mu }
    if x.foStale && run < nf then { sig := { y with foRun := run }, z := z, fresh := true, sat := sat }
    else { sig := { y with foStale := false, foRun := 0 }, z := z, fresh := true, sat := sat }
  | none =>
    let gap := x.foGap + 1
    let y := { x with foGap := gap, foRun := 0 }
    if x.foStale then { sig := y }
    else if limit ≤ gap then { sig := { y with foStale := true }, stale := true }
    else match x.last with
      | some (_, u) =>
        let ((z, sat), mu) := detrend u w beta x.foMu
        { sig := { y with foMu := some mu }, z := z, sat := sat }
      | none => { sig := y }

/-- What the signals of a group did is counted and reported (R228, R229); `fo` for the detector. -/
def countSignals (g : Nat) (sg : List Sgn) (outs : List SigOut) (fo : Bool) (s : State) : State :=
  each (sg.zip outs) (fun (d, o) st =>
    let st1 := when (o.held && !fo) (count 0x6880 4) st
    let st2 := when o.stale (fun t => raise 0x66 g (d.no + 2 ^ 31 * b2n fo) (count 0x6880 5 t)) st1
    let st3 := when o.sat (count 0x6880 6) st2
    when (o.sat && !o.sig.above) (raise 0x65 g d.no) st3) s

/-- Number of an instant in its second (R195). -/
def instantNo (rate ns : Nat) : Nat := (ns % 1000000000 * rate + 500000000) / 1000000000

/-- The label of the tracker sample before the one labelled `t`. -/
def labelBefore (fg mo t : Nat) : Nat :=
  let i := instantNo fg t
  if mo ≤ i then t / 1000000000 * 1000000000 + instantNs fg (i - mo) else (t / 1000000000 - 1) * 1000000000 + instantNs fg (fg - mo)

/-- The signals' state, made anew where the list does not match. -/
def sigsFor (sg : List Sgn) (sigs : List OscSig) : List OscSig := if sigs.length = sg.length then sigs else sg.map (fun _ => {})

/-- One instant of the group's alignment group, with the values of its set or none (R226 to R231, R238). -/
def oscInstant (g : Nat) (c : Cf) (at_ : Stamp) (vals : List Slotted) (q : Qual) (gen : BitVec 32) (s : State) : State :=
  let x := s.oscG g
  let sg := signalsOf c g
  let fg := mgFg c g
  let mo := mgMo c g
  let gs := mgF c g 15 1
  let nw := mgNw c g
  let nf := mgNf c g
  let i := instantNo fg at_.ns
  let sigs := sigsFor sg x.sigs
  let news := (sg.zip sigs).map (fun (d, y) => instantValue d vals y.last)
  -- the detector's values, before the last present value moves on
  let foOn := mgFlag c g 2 && !sg.isEmpty
  let foBeta := f64ratio 1 (2 * nf)
  let fos := ((sg.zip sigs).zip news).map (fun ((d, y), v) =>
    if foOn && d.fo then foValue y (v.map (·.2)) d.w foBeta (gs * mo + 1) nf else { sig := y })
  let s1 := countSignals g sg fos true s
  let sigs1 := (fos.zip news).map (fun (o, v) => { o.sig with last := v.orElse (fun _ => o.sig.last), part := match v with | some p => o.sig.part ++ [p.2] | none => o.sig.part, above := o.sig.above || o.sat })
  let vs := ((sg.zip fos).filter (fun p => p.1.fo)).map (·.2.z)
  let fo := if foOn then (⟨vs, q⟩ :: x.fo).take nf else x.fo
  let x1 := { x with sigs := sigs1, fo := fo, foCount := if foOn then x.foCount + 1 else 0, quals := x.quals ++ [q], seen := some at_, begun := true }
  if (i + 1) % mo != 0 then s1.setOsc g x1
  else
    -- the tracker sample is complete
    let beta := f64ratio 1 (2 * nw)
    let label := at_.ns / 1000000000 * 1000000000 + instantNs fg (i + 1 - mo)
    let on := mgFlag c g 1 && !sg.isEmpty
    let outs := (sg.zip sigs1).map (fun (d, y) =>
      if on then trackSample y (if y.part.length = mo then some (f64div (f64sum y.part) (f64ofInt mo)) else none) d.w beta gs nw else { sig := { y with part := [] } })
    let s2 := countSignals g sg outs false s1
    let smp : OscSample := { zs := outs.map (·.z), fresh := outs.all (·.fresh), sat := outs.any (·.sat), qual := worstQual (s.ownQualAt label) x1.quals }
    let window := if on then (smp :: x.window).take nw else x.window
    let u := mgF c g 6 2 * 1000000
    let isUpdate := label / u != labelBefore fg mo label / u
    let stamp : Stamp := ⟨at_.gen, label⟩
    s2.setOsc g { x1 with sigs := outs.map (fun o => { o.sig with above := o.sig.above || o.sat }), window := window, quals := [],
                          due := if isUpdate && on && nw ≤ window.length then some (stamp, gen) else x.due,
                          foDue := if isUpdate && foOn && nf ≤ fo.length then some (stamp, gen) else x.foDue }

/-! ## The subspace tracker (R230 to R234) -/

def f64pow2 (e : Int) : F64 := b64 (.fin false 1 e)
def dot (a b : List F64) : F64 := f64sum (List.zipWith f64mul a b)
def norm (a : List F64) : F64 := f64sqrt (dot a a)
/-- Columns of the transposed matrix. -/
def transpose (n : Nat) (cols : List (List F64)) : List (List F64) := (List.range n).map (fun i => cols.map (fun c => c.getD i 0#64))
/-- The product of a matrix given by rows with one given by columns, as columns. -/
def matMul (rows cols : List (List F64)) : List (List F64) := cols.map (fun c => rows.map (fun r => dot r c))

/-- A column less its parts along earlier ones, in ascending order, once (R232). -/
def lessEarlier (qs : List (List F64)) (v : List F64) : List F64 :=
  qs.foldl (fun v q => let k := dot q v; List.zipWith (fun x y => f64sub x (f64mul k y)) v q) v

/-- MGS (R232): orthonormal columns, and how many were replaced. -/
def mgs (rows : Nat) (frob : F64) (cols : List (List F64)) : List (List F64) × Nat :=
  cols.foldl (fun (acc : List (List F64) × Nat) v =>
    let w := lessEarlier acc.1 v
    let n := norm w
    if f64lt n (f64mul (f64pow2 (-500)) frob) then
      let units := (List.range rows).map (fun i => lessEarlier acc.1 ((List.range rows).map (fun k => if k = i then f64ofInt 1 else 0#64)))
      let w1 := (units.find? (fun u => f64le (f64ratio 1 2) (norm u))).getD ((List.range rows).map (fun k => if k = 0 then f64ofInt 1 else 0#64))
      (acc.1 ++ [w1.map (fun y => f64div y (norm w1))], acc.2 + 1)
    else (acc.1 ++ [w.map (fun y => f64div y n)], acc.2)) ([], 0)

/-- Repeat Q = MGS(H (H^T Q)). -/
def iterate (rows : Nat) (frob : F64) (hRows hCols : List (List F64)) (n : Nat) (q : List (List F64)) (k : Nat) : List (List F64) × Nat :=
  match n with
  | 0 => (q, k)
  | m + 1 =>
    let (q1, r) := mgs rows frob (matMul hRows (matMul hCols q))
    iterate rows frob hRows hCols m q1 (k + r)

/-- Cholesky factor by rows of a symmetric matrix, none at a pivot at or below 2^-40 of its largest diagonal element. -/
def cholesky (a : List (List F64)) : Option (List (List F64)) :=
  let n := a.length
  let at_ := fun (m : List (List F64)) i j => (m.getD i []).getD j 0#64
  let top := (List.range n).foldl (fun m i => f64max m (at_ a i i)) 0#64
  (List.range n).foldl (fun (acc : Option (List (List F64))) i =>
    acc.bind (fun l =>
      let row := (List.range i).foldl (fun (r : List F64) j =>
        r ++ [f64div (f64sub (at_ a i j) (dot (r.take j) ((l.getD j []).take j))) (at_ l j j)]) []
      let d := f64sub (at_ a i i) (dot row row)
      if f64le d (f64mul (f64pow2 (-40)) top) then none else some (l ++ [row ++ [f64sqrt d]]))) (some [])

/-- Solve (L L^T) x = b. -/
def cholSolve (l : List (List F64)) (b : List F64) : List F64 :=
  let n := l.length
  let at_ := fun i j => (l.getD i []).getD j 0#64
  let y := (List.range n).foldl (fun (y : List F64) i => y ++ [f64div (f64sub (b.getD i 0#64) (dot (l.getD i []) y)) (at_ i i)]) []
  (List.range n).foldl (fun (x : List F64) k =>
    let i := n - 1 - k
    let part := dot ((span (i + 1) n).map (fun j => at_ j i)) x
    f64div (f64sub (y.getD i 0#64) part) (at_ i i) :: x) []

/-- Acc_k[i, b] (R230): the window's exact sum for one signal, one reference and one lag. -/
def accSum (zi zr : List Int) (k : Nat) : Int := (List.zipWith (· * ·) zi (zr.drop k)).foldl (· + ·) 0

/-- A candidate mode (R233, R234). -/
structure Cand where
  f     : F64
  zeta  : F64
  e     : F64
  shape : List (F64 × F64)
  ref   : Nat
  deriving DecidableEq, Repr

/-- What an update computes: candidates, Q, rank fallback. -/
structure Update where
  cands : List Cand
  q     : List (List F64)
  rank  : Bool
  deriving DecidableEq, Repr

def Cx.arg (a : Cx) : F64 := f64atan2 a.2 a.1
def cxSum (xs : List Cx) : Cx := xs.foldl Cx.add (0#64, 0#64)

/-- g_b (R234). -/
def blockGain (fg mo : Nat) (f : F64) : F64 :=
  let x := f64div (f64mul f64pi f) (f64ofInt fg)
  f64div (f64sin (f64mul x (f64ofInt mo))) (f64mul (f64ofInt mo) (f64sin x))

/-- The mode an eigenvalue stands for (R233, R234), when it is a candidate. -/
def candOf (c : Cf) (g : Nat) (refs : List Nat) (cm : List (List F64)) (lam : Cx) (v : List Cx) (bm : List Cx) : Option Cand :=
  let rho := Cx.abs lam
  let th := Cx.arg lam
  let l := f64ln rho
  let f := f64div (f64mul th (f64ofInt (mgFe c g))) f64twoPi
  let zeta := f64div (f64neg l) (f64sqrt (f64add (f64mul l l) (f64mul th th)))
  let phi := cm.map (fun r => cxSum (List.zipWith (fun x y => Cx.scale x y) r v))
  let p := cxSum ((refs.zip bm).map (fun (i, b) => Cx.div (Cx.mul (phi.getD i (0#64, 0#64)) b) lam))
  let gb := blockGain (mgFg c g) (mgMo c g) f
  let e := f64div (f64mul f64two p.1) (f64mul gb gb)
  let amps := phi.map Cx.abs
  let top := amps.foldl f64max 0#64
  let big := ((List.range amps.length).find? (fun i => amps.getD i 0#64 = top)).getD 0
  let want := mgF c g 14 1
  let m := if want != 0xFF && want < amps.length && f64le (f64mul (f64ratio 1 20) top) (amps.getD want 0#64) then want else big
  let shape := phi.map (fun x => (f64div (Cx.abs x) top, wrapAngle (Cx.arg (Cx.div x (phi.getD m (0#64, 0#64))))))
  if f64lt 0#64 lam.2 && f64le (f64ratio (mgF c g 10 2) 1000) f && f64le f (f64ratio (mgF c g 12 2) 1000) &&
      f64le (f64ratio (-20) 100) zeta && f64le zeta (f64ratio 50 100) && f64lt 0#64 e then
    some { f := f, zeta := zeta, e := e, shape := shape, ref := m }
  else none

/-- Put a candidate into the ranking: descending E, the lower f first on a tie. -/
def rankIn (x : Cand) (cs : List Cand) : List Cand :=
  match cs with
  | [] => [x]
  | y :: r => if f64lt y.e x.e || (y.e = x.e && f64lt x.f y.f) then x :: y :: r else y :: rankIn x r

/-- The computation of an update (R232). -/
def computeUpdate (c : Cf) (g : Nat) (x : OscGroup) : Update :=
  let sg := signalsOf c g
  let p := sg.length
  let refs := refsOf sg
  let r := refs.length
  let lb := mgF c g 3 1
  let n := mgF c g 8 1
  let nw := mgNw c g
  let zs := (List.range p).map (fun i => x.window.map (fun m => m.zs.getD i 0))
  let cov := fun k i b => f64div (f64mul (f64ofInt (accSum (zs.getD i []) (zs.getD (refs.getD b 0) []) k)) (f64pow2 (-48))) (f64ofInt ((nw : Int) - k))
  let cols := ((List.range lb).map (fun b => (List.range r).map (fun cc => ((List.range lb).map (fun a => (List.range p).map (fun i => cov (a + b + 1) i cc))).flatten))).flatten
  let rows := transpose (p * lb) cols
  let frob := f64sqrt (f64sum (rows.flatten.map (fun y => f64mul y y)))
  if cols.all (fun col => col.all (fun y => f64le (f64abs y) 0#64)) then { cands := [], q := x.q, rank := false }
  else
    let (q0, k0) := if x.started then (x.q, 0) else mgs (p * lb) frob (cols.take n)
    let (q, k) := iterate (p * lb) frob rows cols (if x.started then mgF c g 9 1 else 32) q0 k0
    let qup := q.map (fun col => col.take (p * (lb - 1)))
    let qdn := q.map (fun col => col.drop p)
    match cholesky (qup.map (fun a => qup.map (fun b => dot a b))) with
    | none => { cands := [], q := q, rank := true }
    | some l =>
      let aCols := qdn.map (fun d => cholSolve l (qup.map (fun u => dot u d)))
      let a := transpose n aCols
      let cm := transpose p q
      let gam := q.map (fun qc => (cols.take r).map (fun h => dot qc h))
      let cs := (eigen a).filterMap (fun e =>
        candOf c g refs cm e.lam e.vec ((List.range r).map (fun b => cxSum (List.zipWith (fun v gr => Cx.scale (gr.getD b 0#64) v) e.inv gam))))
      { cands := (cs.foldl (fun acc y => rankIn y acc) []).take (min 8 (n / 2)), q := q, rank := k != 0 }

/-! ## Mode slots and alarm conditions (R235, R244, R245) -/

def eightModes (ms : List OscMode) : List OscMode := (List.range 8).map (fun i => ms.getD i {})

/-- The distance of a candidate from a slot, when the slot is eligible. -/
def slotDistance (m : OscMode) (x : Cand) : Option F64 :=
  let df := f64abs (f64sub x.f m.f)
  if m.state != 0 && f64le df (f64max (f64ratio 2 100) (f64mul (f64ratio 1 10) m.f)) then some (f64add (f64div df m.f) (f64abs (f64sub x.zeta m.zeta))) else none

/-- The best slot among those not yet matched, the lowest on a tie. -/
def bestSlot (ms : List OscMode) (used : List Nat) (x : Cand) : Option Nat :=
  ((List.range 8).foldl (fun (b : Option (Nat × F64)) i =>
    if used.contains i then b
    else match slotDistance (ms.getD i {}) x, b with
      | some d, none => some (i, d)
      | some d, some (_, e) => if f64lt d e then some (i, d) else b
      | none, _ => b) none).map (·.1)

/-- Parameter bits 15 to 0 of a value in thousandths, hundredths or so on: nearest integer, saturating. -/
def scaledParam (k : Nat) (v : F64) : Nat := satBits 16 (Num.nearest (n64 (f64mul (f64ofInt k) v))).toNat

/-- Assign the kept candidates (R235): slots, those matched, and EV_OSC_MODE_CHANGE. -/
def assignModes (g : Nat) (cs : List Cand) (ms : List OscMode) (s : State) : List OscMode × State :=
  let take := fun (m : OscMode) (x : Cand) (st : Nat) => { m with state := st, f := x.f, zeta := x.zeta, e := x.e, shape := x.shape, shapeRef := x.ref, miss := 0 }
  let (ms1, used, s1) := cs.foldl (fun (acc : List OscMode × List Nat × State) x =>
    let (m, u, st) := acc
    match bestSlot m u x with
    | some i => (m.set i { take (m.getD i {}) x 2 with age := satBits 16 ((m.getD i {}).age + 1) }, i :: u, st)
    | none =>
      match (List.range 8).find? (fun i => (m.getD i {}).state = 0) with
      | some i => (m.set i { take (m.getD i {}) x 1 with age := 0 }, i :: u, raise 0x63 g (i * 2 ^ 24 + 2 ^ 16 + scaledParam 1000 x.f) st)
      | none => (m, u, count 0x6880 7 st)) (ms, [], s)
  (List.range 8).foldl (fun (acc : List OscMode × State) i =>
    let m := acc.1.getD i {}
    if m.state = 0 || used.contains i then acc
    else if 3 ≤ m.miss + 1 then
      (acc.1.set i { ({} : OscMode) with level := m.level, targets := m.targets, rel := m.rel, amp := m.amp, up := m.up, dn := m.dn }, raise 0x63 g (i * 2 ^ 24 + scaledParam 1000 m.f) acc.2)
    else (acc.1.set i { m with state := 3, miss := m.miss + 1, age := satBits 16 (m.age + 1) }, acc.2)) (ms1, s1)

/-- A condition of the group for the alarm unit (R247). -/
def oscDecision (kind inst value : Nat) (at_ : Stamp) (q : Qual) (s : State) : State :=
  handDecision kind inst true { value := value, at_ := at_, qual := q } s

/-- The damping test of a slot (R244): its level after, the targets of its last N_p updates, and its run towards release, which starts
again at each change of the level (log entry 206). -/
def dampingTest (c : Cf) (g : Nat) (m : OscMode) : OscMode :=
  let tested := (m.state = 1 || m.state = 2) && f64le (f64ratio (mgF c g 36 2) 1000) m.f && f64le m.f (f64ratio (mgF c g 38 2) 1000) &&
    f64le (f64of32 (BitVec.ofNat 32 (mgF c g 40 4))) m.e
  let z1 := f64ratio (mgF c g 30 2) 10000
  let z2 := f64ratio (mgF c g 32 2) 10000
  let h := f64ratio (mgF c g 34 2) 10000
  let target := if !tested then 0 else if f64lt m.zeta z2 then 2 else if f64lt m.zeta z1 then 1 else 0
  let rel := !tested || f64le (f64add (if m.level = 2 then z2 else z1) h) m.zeta
  let targets := (target :: m.targets).take (mgF c g 25 1)
  let relN := if m.level != 0 && rel then m.rel + 1 else 0
  if mgF c g 25 1 ≤ targets.length && targets.all (fun t => decide (m.level < t)) then { m with level := targets.foldl min 2, targets := targets, rel := 0 }
  else if m.level != 0 && mgF c g 26 1 ≤ relN then { m with level := m.level - 1, targets := targets, rel := 0 }
  else { m with targets := targets, rel := relN }

/-- The amplitude test of a slot (R245). -/
def amplitudeTest (c : Cf) (g : Nat) (m : OscMode) : OscMode :=
  let here := m.state = 1 || m.state = 2
  let am := f64of32 (BitVec.ofNat 32 (mgF c g 44 4))
  let root := f64sqrt m.e
  let up := if here && f64le am root then m.up + 1 else 0
  let dn := if here && f64le (f64mul (f64ratio 9 10) am) root then 0 else m.dn + 1
  if !m.amp && mgF c g 25 1 ≤ up then { m with amp := true, up := 0, dn := 0 }
  else if m.amp && mgF c g 26 1 ≤ dn then { m with amp := false, up := 0, dn := 0 }
  else { m with up := if m.amp then 0 else up, dn := if m.amp then dn else 0 }

/-- The tests of a slot after an update, with their events and what is passed on; `fresh`: the first after a freeze. -/
def testSlot (c : Cf) (g i : Nat) (at_ : Stamp) (q : Qual) (fresh : Bool) (s : State) : State :=
  let x := s.oscG g
  let m := x.modes.getD i {}
  let m1 := amplitudeTest c g (dampingTest c g m)
  let s1 := s.setOsc g { x with modes := x.modes.set i m1 }
  let zeta := (Num.nearest (n64 (f64mul (f64ofInt 10000) m.zeta)) % 65536).toNat
  let s2 := when (m1.level != m.level) (raise 0x60 g (i * 2 ^ 24 + m1.level * 2 ^ 16 + zeta)) s1
  let s3 := when (m1.amp != m.amp) (raise 0x61 g (i * 2 ^ 24 + b2n m1.amp * 2 ^ 16 + scaledParam 100 (f64sqrt m.e))) s2
  let pass := mgFlag c g 3
  let s4 := when (pass && (fresh || m1.level != m.level)) (oscDecision 5 (g * 256 + i) m1.level at_ q) s3
  when (pass && (fresh || m1.amp != m.amp)) (oscDecision 6 (g * 256 + i) (b2n m1.amp) at_ q) s4

/-- The header of the mode results with the slot records (R250): what Hedgerow carries (R354). -/
def modeResults (x : OscGroup) : Bytes :=
  let h := x.head
  let ms := eightModes x.modes
  let f32 := fun (v : F64) => toBE 4 (f32of64 v).toNat
  toBE 1 x.state ++ toBE 1 x.cause ++ toBE 1 (ms.filter (fun m => m.state != 0)).length ++ toBE 1 (flagsOf [h.stale, h.sat, h.rank]) ++
    toBE 4 h.seq ++ stampBytes h.at_ ++ toBE 2 h.qual.toNat ++ toBE 2 h.cover ++ toBE 4 h.cfgGen.toNat ++ toBE 4 h.count ++
    (ms.map (fun m => toBE 1 m.state ++ toBE 1 (m.level + 16 * b2n m.amp + 128 * b2n x.frozen) ++ toBE 2 m.age ++
      f32 m.f ++ f32 m.zeta ++ f32 m.e ++ f32 (f64sqrt m.e) ++ zeros 12)).flatten

/-- 0x6850 (R251). -/
def modeShapes (p : Nat) (x : OscGroup) : Bytes :=
  ((eightModes x.modes).map (fun m => ((List.range p).map (fun i =>
    let a := m.shape.getD i (0#64, 0#64)
    toBE 4 (f32of64 a.1).toNat ++ toBE 4 (f32of64 a.2).toNat ++
      toBE 2 (flagsOf [(x.sigs.getD i {}).stale, m.state != 0 && m.shapeRef = i]) ++ zeros 2)).flatten)).flatten

/-- 0x6850 as it reads: the shapes of the last update (R252); zeros before the first. -/
def shownShapes (c : Cf) (g : Nat) (x : OscGroup) : Bytes := if x.shapes.isEmpty then zeros (96 * (signalsOf c g).length) else x.shapes

/-- OSC_UPDATE (R232 to R235, R244, R245, R249). -/
def oscUpdate (g : Nat) (s : State) : State :=
  let x := s.oscG g
  match x.due with
  | none => s
  | some (at_, gen) =>
    let c := (s.cfFor at_).1
    let nw := mgNw c g
    let u := computeUpdate c g x
    let s1 := when (u.rank || u.cands.isEmpty) (count 0x6880 2) (count 0x6880 1 s)
    let (ms, s2) := assignModes g u.cands (eightModes x.modes) s1
    let fresh := (x.window.filter (·.fresh)).length
    let h : OscHead := { seq := (x.head.seq + 1) % 2 ^ 32, at_ := at_, qual := worstQual s.ownQual (x.window.map (·.qual)), cover := fresh * 1000 / max 1 nw,
                         cfgGen := gen, count := x.window.length, stale := x.sigs.any (·.stale), sat := x.window.any (·.sat), rank := u.rank }
    let was := x.frozen
    let s3 := s2.setOsc g { x with state := if mgFlag s.cf g 0 then 2 else 0, q := u.q, started := x.started || !u.q.isEmpty, modes := ms, head := h, frozen := false, due := none }
    let s4 := each (List.range 8) (fun i st => testSlot c g i at_ h.qual was st) s3
    let ms4 := (s4.oscG g).modes
    let top := ms4.foldl (fun a m => max a m.level) 0
    let was5 := x.modes.foldl (fun a m => max a m.level) 0
    let any6 := ms4.any (·.amp)
    let s5 := when (mgFlag c g 3 && (was || top != was5)) (oscDecision 5 (g * 256 + 15) top at_ h.qual) s4
    let s6 := when (mgFlag c g 3 && (was || any6 != x.modes.any (·.amp))) (oscDecision 6 (g * 256 + 15) (b2n any6) at_ h.qual) s5
    let y := s6.oscG g
    sendSummary 1 g (modeResults y) (s6.setOsc g { y with shapes := modeShapes (signalsOf c g).length y })

/-! ## The forced-oscillation detector (R238 to R243, R246) -/

/-- Wq[i] (R239). -/
def twiddle (i n : Nat) : Int × Int :=
  let scale := fun (v : F64) => Num.nearest (n64 (f64mul v (f64pow2 30)))
  (scale (cosTurn i n), -(scale (sinTurn i n)))

/-- k_lo and k_hi (R240). -/
def foBins (c : Cf) (g : Nat) : Nat × Nat :=
  let tf := mgF c g 16 2
  let nf := mgNf c g
  let lo := max 2 ((tf * mgF c g 18 2 + 999) / 1000)
  let most := nf / 2 - 2
  let hi := min (min (tf * mgF c g 20 2 / 1000) most) (lo + 1023)
  if hi < lo + 3 then
    let lo1 := min lo (most - 3)
    (lo1, lo1 + 3)
  else (lo, hi)

/-- YH of one input over bins k_lo - 1 to k_hi + 1 (R239): values oldest first, index of the oldest. -/
def hannBins (vs : List Int) (m0 nf lo hi : Nat) : List Cx :=
  let y := fun k =>
    let sum := (List.range vs.length).foldl (fun (a : Int × Int) i =>
      let v := vs.getD i 0
      let w := twiddle ((k * (m0 + i)) % nf) nf
      (a.1 + v * w.1, a.2 + v * w.2)) (0, 0)
    let z : Cx := Cx.scale (f64pow2 (-54)) (f64ofInt sum.1, f64ofInt sum.2)
    Cx.mul z (cosTurn (k * m0 % nf) nf, sinTurn (k * m0 % nf) nf)
  (span (lo - 1) (hi + 2)).map (fun k => Cx.add (Cx.scale (f64ratio 1 2) (y k)) (Cx.scale (f64ratio (-1) 4) (Cx.add (y (k - 1)) (y (k + 1)))))

/-- δ, f and A at a bin (R241); `i` is the bin's place in the list from k_lo - 1. -/
def foAt (bins : List Cx) (i k tf nf : Nat) (w : F64) : F64 × F64 :=
  let al := Cx.abs (bins.getD i (0#64, 0#64))
  let bp := Cx.abs (bins.getD (i + 1) (0#64, 0#64))
  let bm := Cx.abs (bins.getD (i - 1) (0#64, 0#64))
  let delta := if f64le bm bp then f64div (f64sub (f64mul f64two bp) al) (f64add al bp)
    else f64neg (f64div (f64sub (f64mul f64two bm) al) (f64add al bm))
  (f64div (f64add (f64ofInt k) delta) (f64ofInt tf),
   f64div (f64mul (f64ofInt 4) al) (f64mul (f64mul (f64ofInt nf) (hannGain delta)) w))

/-- The bins that qualify for an input (R241), with A × w. -/
def foQualify (bins : List Cx) (lo hi ksnr tf nf : Nat) (sg : Sgn) (stale : Bool) : List (Nat × F64) :=
  if stale then []
  else
    let p := bins.map (fun z => f64add (f64mul z.1 z.1) (f64mul z.2 z.2))
    let at_ := fun k => p.getD (k + 1 - lo) 0#64
    (span lo (hi + 1)).filterMap (fun k =>
      let others := (span lo (hi + 1)).filter (fun j => !(k ≤ j + 1 && j ≤ k + 1))
      let mean := f64div (f64sum (others.map at_)) (f64ofInt others.length)
      let a := (foAt bins (k + 1 - lo) k tf nf sg.w).2
      if f64le (at_ (k - 1)) (at_ k) && f64lt (at_ (k + 1)) (at_ k) && f64le (f64mul (f64ofInt ksnr) mean) (f64mul (f64ofInt 10) (at_ k)) && f64le sg.ath a then
        some (k, f64mul a sg.w)
      else none)

/-- The strongest of some (bin, A × w): the lowest bin on a tie. -/
def strongest (xs : List (Nat × F64)) : Option (Nat × F64) :=
  xs.foldl (fun b x => match b with
    | none => some x
    | some y => if f64lt y.2 x.2 || (y.2 = x.2 && x.1 < y.1) then some x else b) none

/-- The candidates of an evaluation (R242): bins within one of each other merged, strongest first. -/
def foCandidates (qs : List (Nat × F64)) : List (Nat × F64) :=
  let bins := (dedup (qs.map (·.1))).insertionSort (· ≤ ·)
  let runs := bins.foldl (fun (acc : List (List Nat)) k =>
    match acc with
    | (j :: r) :: rest => if k ≤ j + 1 then (k :: j :: r) :: rest else [k] :: (j :: r) :: rest
    | _ => [k] :: acc) []
  let cs := runs.filterMap (fun r => strongest (qs.filter (fun q => r.contains q.1)))
  (cs.foldl (fun (acc : List (Nat × F64) × List (Nat × F64)) _ =>
    match strongest acc.1 with
    | some x => (acc.1.erase x, acc.2 ++ [x])
    | none => acc) (cs, [])).2

def fourTracks (ts : List FoTrack) : List FoTrack := (List.range 4).map (fun i => ts.getD i {})

/-- The track a candidate continues: not yet continued, last bin within one, the nearest, the lowest-numbered on a tie. -/
def trackFor (ts : List FoTrack) (used : List Nat) (k : Nat) : Option Nat :=
  let ok := (List.range 4).filter (fun i => !used.contains i && (ts.getD i {}).state != 0 && (ts.getD i {}).bin ≤ k + 1 && k ≤ (ts.getD i {}).bin + 1)
  (ok.find? (fun i => (ts.getD i {}).bin = k)).orElse (fun _ => ok.head?)

/-- The dominant signal of a new track (R242): the input with the largest A × w at the candidate's bin, the first on a tie; an input
whose bins are all zero has no A. -/
def dominant (ins : List (Nat × Sgn)) (bins : List (List Cx)) (lo k tf nf : Nat) : Nat :=
  (((ins.zip bins).foldl (fun (b : Option (Nat × F64)) (p : (Nat × Sgn) × List Cx) =>
    let v := f64mul (foAt p.2 (k + 1 - lo) k tf nf p.1.2.w).2 p.1.2.w
    match b with
    | none => if n64 v = .nan then b else some (p.1.1, v)
    | some y => if f64lt y.2 v then some (p.1.1, v) else b) none).map (·.1)).getD 0

/-- 1000 |S|² ÷ (P_l P_m0), truncated; 0 when the divisor is 0 (R243). -/
def coherence (ss : Cx) (pl pm : F64) : Nat :=
  let d := f64mul pl pm
  if f64le d 0#64 then 0
  else (Num.floor (n64 (f64div (f64mul (f64ofInt 1000) (f64add (f64mul ss.1 ss.1) (f64mul ss.2 ss.2))) d))).toNat

/-- The outcome of a track over its stored evaluations (R243). -/
def trackResult (c : Cf) (g : Nat) (ins : List (Nat × Sgn)) (bins : List (List Cx)) (lo : Nat) (quals : List (List (Nat × F64))) (t : FoTrack) : FoTrack :=
  let tf := mgF c g 16 2
  let nf := mgNf c g
  let nc := mgF c g 24 1
  let m := ((List.range ins.length).find? (fun l => (ins[l]?).any (fun p => p.1 = t.m0))).getD 0
  let col := fun l => t.evals.reverse.map (fun (e : List (F64 × F64)) => e.getD l (0#64, 0#64))
  let pw := fun l => f64sum ((col l).map (fun z => f64add (f64mul z.1 z.1) (f64mul z.2 z.2)))
  let known := nc ≤ t.evals.length
  let inputs := (List.range ins.length).map (fun l =>
    let sg := ((ins[l]?).map (·.2)).getD ⟨0, 0, none, 0, 0#64, 0#64⟩
    let ss := cxSum (List.zipWith (fun (a b : F64 × F64) => Cx.mul a (b.1, f64neg b.2)) (col l) (col m))
    { a := (foAt (bins.getD l []) (t.bin + 1 - lo) t.bin tf nf sg.w).2, phi := if l = m then 0#64 else Cx.arg ss,
      c := if l = m then 1000 else coherence ss (pw l) (pw m), ok := (quals.getD l []).any (fun q => q.1 = t.bin) : FoInput })
  let others := (List.range ins.length).filter (· != m)
  let score := if others.isEmpty then 1000 else (others.foldl (fun a l => a + (inputs.getD l {}).c) 0) / others.length
  let sources := (List.range ins.length).filter (fun l =>
    (ins[l]?).any (fun p => bit p.2.flags 3 && mgF c g 28 2 ≤ (inputs.getD l {}).c && f64le p.2.ath (inputs.getD l {}).a))
  let best := sources.foldl (fun (b : Option Nat) l => match b with
    | none => some l
    | some k => if f64lt (inputs.getD k {}).phi (inputs.getD l {}).phi then some l else b) none
  let here := foAt (bins.getD m []) (t.bin + 1 - lo) t.bin tf nf (((ins[m]?).map (·.2.w)).getD (f64ofInt 1))
  { t with inputs := inputs, f := here.1, a := here.2, score := if known then some score else none,
           source := if known then best.bind (fun l => (ins[l]?).map (fun p => (p.1, (inputs.getD l {}).phi))) else none }

/-- The condition of a track (R246): `goes`: the track continues in this evaluation. -/
def trackTest (c : Cf) (g : Nat) (goes : Bool) (t : FoTrack) : FoTrack :=
  let meets := goes && (t.score.any (fun v => decide (mgF c g 28 2 ≤ v)))
  let up := if meets then t.up + 1 else 0
  let dn := if meets then 0 else t.dn + 1
  if !t.active && mgF c g 25 1 ≤ up then { t with active := true, up := 0, dn := 0 }
  else if t.active && mgF c g 26 1 ≤ dn then { t with active := false, up := 0, dn := 0 }
  else { t with up := if t.active then 0 else up, dn := if t.active then dn else 0 }

/-- k_lo, k_hi and N_f as the results hold them (R251). -/
def foBand (c : Cf) (g : Nat) : Bytes := let (lo, hi) := foBins c g; toBE 2 lo ++ toBE 2 hi ++ toBE 2 (mgNf c g)

/-- The header of the forced-oscillation results with the track records (R251). -/
def foResults (c : Cf) (g : Nat) (x : OscGroup) : Bytes :=
  let h := x.foHead
  let f32 := fun (v : F64) => toBE 4 (f32of64 v).toNat
  toBE 1 (if x.state = 0 then 0 else if h.seq = 0 || x.foFrozen then 1 else 2) ++ zeros 1 ++ (if x.foBand.isEmpty then foBand c g else x.foBand) ++ toBE 4 h.seq ++ stampBytes h.at_ ++
    toBE 2 h.qual.toNat ++ zeros 2 ++ toBE 4 h.cfgGen.toNat ++
    ((fourTracks x.tracks).map (fun t =>
      let src := t.source
      toBE 1 t.state ++ toBE 1 (b2n t.active + 128 * b2n x.foFrozen) ++ toBE 2 t.bin ++ f32 t.f ++ toBE 2 t.m0 ++ toBE 2 ((src.map (·.1)).getD 0xFFFF) ++
        toBE 2 (t.score.getD 0xFFFF) ++ toBE 2 t.evals.length ++ f32 t.a ++ f32 ((src.map (·.2)).getD 0#64) ++
        f32 ((src.map (fun p => f64div p.2 (f64mul f64twoPi t.f))).getD 0#64) ++ toBE 4 t.age)).flatten

/-- 0x6870 (R251). -/
def foTrackData (c : Cf) (g : Nat) (x : OscGroup) : Bytes :=
  let ins := inputsOf (signalsOf c g)
  ((fourTracks x.tracks).map (fun t => ((List.range ins.length).map (fun l =>
    let i := t.inputs.getD l {}
    toBE 4 (f32of64 i.a).toNat ++ toBE 4 (f32of64 i.phi).toNat ++ toBE 2 i.c ++ toBE 2 (flagsOf [(x.sigs.getD (ins.getD l 0) {}).foStale, i.ok]))).flatten)).flatten

/-- 0x6870 as it reads: the track data of the last evaluation (R252); zeros before the first. -/
def shownTracks (c : Cf) (g : Nat) (x : OscGroup) : Bytes := if x.foData.isEmpty then zeros (48 * (inputsOf (signalsOf c g)).length) else x.foData

/-- FO_EVALUATION (R239 to R243, R246). -/
def foEvaluation (g : Nat) (s : State) : State :=
  let x := s.oscG g
  match x.foDue with
  | none => s
  | some (at_, gen) =>
    let c := (s.cfFor at_).1
    let nf := mgNf c g
    let tf := mgF c g 16 2
    let sg := signalsOf c g
    let ins := (inputsOf sg).filterMap (fun i => (sg[i]?).map (fun d => (i, d)))
    let (lo, hi) := foBins c g
    let m0 := x.foCount - nf
    let bins := (List.range ins.length).map (fun l => hannBins (x.fo.reverse.map (fun v => v.vs.getD l 0)) m0 nf lo hi)
    let quals := (ins.zip bins).map (fun (p, b) => foQualify b lo hi (mgF c g 22 2) tf nf p.2 (x.sigs.getD p.1 {}).foStale)
    let all := foCandidates quals.flatten
    let s1 := countN 0x6880 9 (all.length - 4) (count 0x6880 8 s)
    let (ts, used) := (all.take 4).foldl (fun (acc : List FoTrack × List Nat) (cand : Nat × F64) =>
      let k := cand.1
      let stored := bins.map (fun b => b.getD (k + 1 - lo) (0#64, 0#64))
      match trackFor acc.1 acc.2 k with
      | some i =>
        let t := acc.1.getD i {}
        (acc.1.set i { t with state := 2, bin := k, miss := 0, age := t.age + 1, evals := (stored :: t.evals).take (mgF c g 24 1) }, i :: acc.2)
      | none =>
        match (List.range 4).find? (fun i => (acc.1.getD i {}).state = 0) with
        | none => acc
        | some i =>
          let t := acc.1.getD i {}
          (acc.1.set i { t with state := 1, bin := k, miss := 0, age := 0, m0 := dominant ins bins lo k tf nf, evals := [stored], source := none, score := none }, i :: acc.2)) (fourTracks x.tracks, [])
    let ts1 := (List.range 4).map (fun i =>
      let t := ts.getD i {}
      if t.state = 0 then t
      else if used.contains i then trackResult c g ins bins lo quals t
      else if mgF c g 26 1 ≤ t.miss + 1 then { ({} : FoTrack) with active := t.active, up := t.up, dn := t.dn, f := t.f }
      else { t with state := 3, miss := t.miss + 1, age := t.age + 1 })
    let ts2 := (List.range 4).map (fun i => trackTest c g (used.contains i) (ts1.getD i {}))
    let h : OscHead := { seq := (x.foHead.seq + 1) % 2 ^ 32, at_ := at_, qual := worstQual (s.ownQualAt at_.ns) (x.fo.map (·.qual)), cfgGen := gen, count := x.fo.length }
    let fresh := x.foFrozen
    let s2 := s1.setOsc g { x with tracks := ts2, foHead := h, foFrozen := false, foDue := none }
    let s3 := each (List.range 4) (fun i st =>
      let a := ts2.getD i {}
      let was := ((fourTracks x.tracks).getD i {}).active
      let st1 := when (a.active != was) (raise 0x62 g (i * 2 ^ 24 + b2n a.active * 2 ^ 16 + scaledParam 1000 a.f)) st
      when (mgFlag c g 3 && (fresh || a.active != was)) (oscDecision 7 (g * 256 + i) (b2n a.active) at_ h.qual) st1) s2
    let any := ts2.any (·.active)
    let s4 := when (mgFlag c g 3 && (fresh || any != x.tracks.any (·.active))) (oscDecision 7 (g * 256 + 15) (b2n any) at_ h.qual) s3
    let z := { s4.oscG g with foBand := foBand c g }
    sendSummary 2 g (foResults c g z) (s4.setOsc g { z with foData := foTrackData c g z })

/-! ## Restarts (R236, R237, R247) -/

/-- Restart a group: the first instant of the new window is at or after `from_`. One on a fenced lane stays stopped (R222). -/
def oscRestart (g cause : Nat) (from_ : Stamp) (s : State) : State :=
  if s.fenced 5 g then s
  else
  let x := s.oscG g
  let clear := fun (m : OscMode) => ({ level := m.level, amp := m.amp } : OscMode)
  let y : OscGroup := { state := 1, cause := cause, from_ := some from_, modes := x.modes.map clear, head := { seq := x.head.seq }, frozen := true,
                        tracks := x.tracks.map (fun t => { active := t.active }), foHead := { seq := x.foHead.seq }, foFrozen := true }
  let s1 := raise 0x64 g cause (count 0x6880 3 (s.setOsc g y))
  when (mgFlag s.cf g 3) (freezeAlarms (fun k i => 5 ≤ k && k ≤ 7 && i / 256 % 16 = g)) s1

/-- The valid mode groups. -/
def modeGroups (c : Cf) : List Nat := (List.range 16).filter (fun g => mgFlag c g 0)

/-- Sets begin to form (R236 cause 1). -/
def oscStart (s : State) : State :=
  if s.hasOsc then each (modeGroups s.cf) (fun g st => oscRestart g 1 ⟨st.time.gen, st.mode.formFrom⟩ st) s else s

/-- The engine stops with the mode (R222). -/
def oscStop (s : State) : State := { s with osc := Table.mapVals s.osc (fun x => { x with state := 0, due := none, foDue := none, frozen := true, foFrozen := true }) }

/-- The reset of the engine completes (R236 cause 4). -/
def oscResume (s : State) : State :=
  if s.hasOsc && s.mode.cur.full then each (modeGroups s.cf) (fun g st => oscRestart g 4 st.now st) s else s

/-- OSC_RESTART_REQUEST: 0x6800.02 (cause 5). -/
def oscRestartWrite (_x : Session) (n : Nat) (s : State) : Nat × State :=
  if n != 0xFF && 15 < n then (stRejected, s)
  else
    let gs := ((if n = 0xFF then List.range 16 else [n]).filter (fun g => mgFlag s.cf g 0)).filter s.oscRuns
    (stOk, each gs (fun g st => oscRestart g 5 st.now st) s)
def execOscRestartRequest (dt : Nat) (m : Msg) (v : List (BitVec 8)) (s : State) : Host.Outcome State Fault Refusal :=
  .next (s.act [.events, .stats, .sessions, .hr, .alarm, .goose, .osc, .keyPort] dt (onWrite m 0x6800 2 v oscRestartWrite))

/-- What a restart depends on (R236 cause 2): the group record less bytes 22 to 47, its signals less bytes 12 to 15 and
flag bit 3, and F_g. -/
def restartKey (c : Cf) (g : Nat) : Bytes × List (Nat × Bytes) × Nat :=
  (c.bytes 0x6810 1 (64 * g) 22 ++ c.bytes 0x6810 1 (64 * g + 48) 16,
   (signalsOf c g).map (fun d => (d.no, c.bytes 0x6820 1 (16 * d.no) 6 ++ [BitVec.ofNat 8 (d.flags.land 0xF7)] ++ c.bytes 0x6820 1 (16 * d.no + 7) 5)), mgFg c g)

/-- A commit at T_c. A group that goes stops; one whose content changes restarts with the first instant from T_c. -/
def oscCommit (o : Cf) (tc : Stamp) (s : State) : State :=
  if !s.hasOsc then s
  else each (List.range 16) (fun g st =>
    if mgFlag o g 0 && !mgFlag s.cf g 0 then st.setOsc g { st.oscG g with state := 0 }
    else if mgFlag s.cf g 0 && restartKey o g != restartKey s.cf g then
      if mgFlag o g 0 then st.setOsc g { st.oscG g with redo := some tc } else if s.mode.cur.full then oscRestart g 2 tc st else st
    else st) s

/-! ## Intake (R221, R237) -/

/-- An evaluation and an update that are due (R231, R239): they come before another instant enters the windows. -/
def oscDue (g : Nat) (s : State) : State := oscUpdate g (foEvaluation g s)

/-- The instants before a close for which no set was published (R228): those since the last close, and of a window that has not begun
those from its first instant on, where R236 names one by time. -/
def OscGroup.gaps (x : OscGroup) (fg : Nat) (at_ : Stamp) : List Nat :=
  let upTo := fun (a : Nat) => (instantsUpTo fg a at_.ns ((at_.ns - a) * fg / 1000000000 + 2)).filter (· < at_.ns)
  if x.begun then (match x.seen with | some p => upTo p.ns | none => [])
  else match x.from_ with
    | some f => if (x.cause = 2 || x.cause = 4 || x.cause = 5) && f.gen = at_.gen && 0 < f.ns then upTo (f.ns - 1) else []
    | none => []

/-- OSC_SET_INTAKE (R221): one final close, with the instants before it for which no set was published. -/
def oscIntake (g : Nat) (s : State) : State :=
  if !s.oscTakes g then s
  else
    let s0 := oscDue g s
    let x := s0.oscG g
    match s0.nextFinal (fun c => if mgFlag c g 0 then some (mgGroup c g) else none) x.seen (fun _ _ => true) with
    | none => s0
    | some cl =>
      let c := (s0.cfFor cl.at_).1
      let early := match x.from_ with | some f => Stamp.before cl.at_ f | none => false
      if early || !mgFlag c g 0 then s0.setOsc g { x with seen := some cl.at_ }
      else
        let s1 := match x.redo with
          | some tc => if Stamp.before cl.at_ tc then s0 else oscRestart g 2 tc s0
          | none => s0
        let y := s1.oscG g
        let s2 := match y.seen with
          | some p =>
            if p.gen = cl.at_.gen then s1
            else match s1.stepsFrom p.gen cl.at_.gen with
              | some d => if d.natAbs * 2 * mgFe c g ≤ 1000000000 then s1 else oscRestart g 3 ⟨cl.at_.gen, 0⟩ s1
              | none => oscRestart g 3 ⟨cl.at_.gen, 0⟩ s1
          | none => s1
        let s3 := each ((s2.oscG g).gaps (mgFg c g) cl.at_) (fun t st =>
          count 0x6880 0x0A (oscInstant g c ⟨cl.at_.gen, t⟩ [] 0#16 cl.cfgGen (oscDue g st))) s2
        oscInstant g c cl.at_ cl.vals cl.qual cl.cfgGen (oscDue g s3)
def execOscSetIntake (dt g : Nat) (s : State) : Host.Outcome State Fault Refusal := .next (s.act [.events, .stats, .hr, .alarm, .goose, .osc] dt (oscIntake g))
def execOscUpdate (dt g : Nat) (s : State) : Host.Outcome State Fault Refusal := .next (s.act [.events, .stats, .hr, .alarm, .osc] dt (fun t => when (t.oscTakes g) (oscUpdate g) t))
def execFoEvaluation (dt g : Nat) (s : State) : Host.Outcome State Fault Refusal := .next (s.act [.events, .stats, .hr, .alarm, .osc] dt (fun t => when (t.oscTakes g) (foEvaluation g) t))

/-- An engine reset (R70): tracker state, windows and bins are cleared; levels stay, frozen. -/
def oscReset (s : State) : State :=
  { s with osc := Table.mapVals s.osc (fun x =>
      { state := 0, cause := x.cause, modes := x.modes.map (fun m => ({ level := m.level, amp := m.amp } : OscMode)), head := { seq := x.head.seq }, frozen := true,
        tracks := x.tracks.map (fun t => ({ active := t.active } : FoTrack)), foHead := { seq := x.foHead.seq }, foFrozen := true }) }

end Sys2Proof.Machine
end

