-- ==== Sys2Proof/Machine/Isl.lean ====
section
/-! DEFINITION. The islanding and frequency engine (R256 to R280): one report of a chain, the final and the provisional
chain, restarts, results; and its commands. -/
namespace Sys2Proof.Machine
open Sys2Proof

/-! ## Configuration (R257, R258, R275) -/

def isP (c : Cf) (sub n : Nat) : Nat := c.u 0x7010 sub 0 n
def islOn (c : Cf) : Bool := bit (isP c 2 1) 0
def islPass (c : Cf) : Bool := bit (isP c 2 1) 1
def islProv (c : Cf) : Bool := bit (isP c 2 1) 2
def islGroup (c : Cf) : Nat := isP c 1 1
def islRate (c : Cf) : Nat := agRate c (islGroup c)
/-- The engine is on and its alignment group is a valid one (R256). -/
def islConf (c : Cf) : Bool := islOn c && agFlag c (islGroup c) 0
/-- The alignment group whose closes the engine takes under a configuration. -/
def islTakes (c : Cf) : Option Nat := if islConf c then some (islGroup c) else none
def busF (c : Cf) (b off n : Nat) : Nat := c.u 0x7100 1 (16 * b + off) n
def edgeF (c : Cf) (e off n : Nat) : Nat := c.u 0x7200 1 (16 * e + off) n

/-- The valid buses, ascending. -/
def validBuses (c : Cf) : List Nat := ((c.recs 0x7100 1 16).insertionSort (· ≤ ·)).filter (fun b => b < 4096 && bit (busF c b 0 2) 15)

/-- A valid edge of two valid buses: number, buses, status slot, bit and sense, bands. -/
structure Edge where
  no   : Nat
  a    : Nat
  b    : Nat
  slot : Option Nat
  bit_ : Nat
  sense : Bool
  bth  : F64
  bf   : F64
  deriving DecidableEq, Repr

def validEdges (c : Cf) : List Edge :=
  (((c.recs 0x7200 1 16).insertionSort (· ≤ ·)).filter (fun e => bit (edgeF c e 0 2) 15 && bit (busF c (edgeF c e 0 2 % 4096) 0 2) 15 && bit (busF c (edgeF c e 2 2 % 4096) 0 2) 15)).map (fun e =>
    { no := e, a := edgeF c e 0 2 % 4096, b := edgeF c e 2 2 % 4096, slot := if bit (edgeF c e 4 2) 15 then some (edgeF c e 4 2 % 8192) else none,
      bit_ := edgeF c e 6 1 % 16, sense := bit (edgeF c e 6 1) 4, bth := f64of32 (BitVec.ofNat 32 (edgeF c e 8 4)), bf := f64of32 (BitVec.ofNat 32 (edgeF c e 12 4)) })

/-- The reference candidates in priority order (R262, R275). -/
def refList (c : Cf) : List Nat := dedup (((List.range 8).map (fun i => isP c (0x12 + i) 2)).filter (· != 0xFFFF))

/-! ## One report -/

/-- What a chain processes: a close, or an instant for which no set was published (R274). -/
structure Rep where
  at_  : Stamp
  seq  : Seq
  conf : Nat
  qual : Qual
  gen  : BitVec 32
  vals : List Slotted
  /-- The instant on the elapsed-time counter: E_r of its set (R79). -/
  el   : Int := 0
  deriving DecidableEq, Repr

/-- A bus in a report (R259): status 1 present, 2 missing, 3 invalid, 4 excluded as unlocked; frequency, angle, ROCOF. -/
structure BusRep where
  no  : Nat
  st  : Nat
  f   : F64 := 0#64
  th  : F64 := 0#64
  r   : Option F64 := none
  w   : Nat
  deriving DecidableEq, Repr

def slottedAt (vals : List Slotted) (slot : Nat) : Option Slotted := vals.find? (fun v => v.slot = slot)

def busReport (c : Cf) (vals : List Slotted) (b : Nat) : BusRep :=
  let w := max 1 (busF c b 9 1)
  match slottedAt vals (busF c b 2 2 % 8192), slottedAt vals (busF c b 4 2 % 8192) with
  | some f, some a =>
    if !f.valid || !a.valid then { no := b, st := 3, w := w }
    else if (f.qual.getLsbD 5 || a.qual.getLsbD 5) && !bit (busF c b 8 1) 0 then { no := b, st := 4, w := w }
    else
      let rs := busF c b 6 2
      { no := b, st := 1, f := f64of32 f.val, th := f64of32 a.val, r := if bit rs 15 then slotValue vals (rs % 8192) else none, w := w }
  | _, _ => { no := b, st := 2, w := w }

def busOf (bs : List BusRep) (b : Nat) : Option BusRep := bs.find? (fun x => x.no = b && x.st = 1)

/-- One edge in a report (R260): state and run after. -/
def edgeStep (nj ns : Nat) (open_ met : Bool) (old : Nat × Nat) : Nat × Nat :=
  if open_ then (3, 0)
  else
    match (if old.1 = 3 then (2, 0) else old) with
    | (0, _) => (if met then 1 else 2, 0)
    | (1, r) => if met then (1, 0) else if ns ≤ r + 1 then (2, 0) else (1, min 255 (r + 1))
    | (_, r) => if met then (if nj ≤ r + 1 then (1, 0) else (2, min 255 (r + 1))) else (2, 0)

/-- The status bit of an edge reads open. -/
def edgeOpen (e : Edge) (vals : List Slotted) : Bool :=
  match e.slot with
  | none => false
  | some sl => match slottedAt vals sl with
    | some v => v.valid && Num.finite (n32 v.val) && (bit (Num.floor (n32 v.val)).toNat e.bit_ = e.sense)
    | none => false

/-- The clusters (R261): bus to cluster number, by joining the ends of LINKED edges. -/
def clustersOf (buses : List Nat) (links : List (Nat × Nat)) : Table Nat :=
  links.foldl (fun (t : Table Nat) (e : Nat × Nat) =>
    let x := Table.getD t e.1 e.1
    let y := Table.getD t e.2 e.2
    if x = y then t else Table.mapVals t (fun k => if k = max x y then min x y else k)) (buses.map (fun b => (b, b)))

/-- The reference cluster and the acting reference (R262). -/
def pickReference (refs : List Nat) (bs : List BusRep) (cl : Table Nat) (last : Option Nat) : Option (Nat × Nat) :=
  let here := fun b => (busOf bs b).isSome
  let cluster := match last with
    | some b =>
      if here b then Table.find cl b
      else match Table.find cl b with
        | some k => if refs.any (fun r => here r && Table.find cl r = some k) then some k else none
        | none => none
    | none => (refs.find? here).bind (fun r => Table.find cl r)
  cluster.bind (fun k => (refs.find? (fun r => here r && Table.find cl r = some k)).map (fun r => (k, r)))

/-- The weighted mean of some values (R266). -/
def weighted (xs : List (Nat × F64)) : F64 :=
  f64div (f64sum (xs.map (fun p => f64mul (f64ofInt p.1) p.2))) (f64ofInt (xs.foldl (fun a p => a + p.1) 0))

/-- Thousandths as an event parameter shows them: nearest integer, saturating. -/
def milli (k : Nat) (v : F64) : Nat :=
  if f64finite v then satBits k (Num.nearest (n64 (f64mul (f64ofInt 1000) v))).toNat else 2 ^ k - 1

/-- A condition with raise and release runs (R267): state and runs after. -/
def condStep (na nr : Nat) (act rel : Bool) (x : Bool × Nat × Nat) : Bool × Nat × Nat :=
  let up := if act then x.2.1 + 1 else 0
  let dn := if !act && rel then x.2.2 + 1 else 0
  if (!x.1 && na ≤ up) || (x.1 && nr ≤ dn) then (!x.1, 0, 0) else (x.1, up, dn)

/-- A subject is tested (R267): after, and the events of its changes. -/
def testSubject (c : Cf) (n : Nat) (x : Subject) : Subject × List (Nat × Nat) :=
  let na := isP c 0x10 1
  let nr := isP c 0x11 1
  let mhz := fun sub => f64ratio (isP c sub 2) 1000
  let f0 := f64ofInt (if isP c 8 1 = 1 then 60 else 50)
  let dev := f64sub x.f f0
  let d := f64abs dev
  let target := if f64lt (mhz 0x0A) d then 2 else if f64lt (mhz 9) d then 1 else 0
  let rel := x.level != 0 && f64le d (f64sub (if x.level = 2 then mhz 0x0A else mhz 9) (mhz 0x0B))
  let targets := if x.level < target then target :: x.targets else []
  let relF := if x.level < target then 0 else if rel then x.relF + 1 else 0
  let y := if na ≤ targets.length && !targets.isEmpty then { x with level := targets.foldl min 2, above := f64lt 0#64 dev, targets := [], relF := 0 }
    else if nr ≤ relF && relF != 0 then { x with level := x.level - 1, targets := [], relF := 0 }
    else { x with targets := targets, relF := relF }
  let ev1 := if y.level = x.level then [] else [(0x72, n * 2 ^ 24 + y.level * 2 ^ 16 + b2n y.above * 2 ^ 15 + milli 15 d)]
  let r := f64abs x.r
  let (rc, ru, rd) := condStep na nr (f64lt (mhz 0x0C) r) (f64le r (f64sub (mhz 0x0C) (mhz 0x0D))) (x.rocof, x.upR, x.dnR)
  let ev2 := if rc = x.rocof then [] else [(0x73, n * 2 ^ 24 + b2n rc * 2 ^ 16 + milli 16 r)]
  let (sc, su, sd) := condStep na nr (f64lt (mhz 0x0E) x.a) (f64le x.a (f64sub (mhz 0x0E) (mhz 0x0F))) (x.spread, x.upS, x.dnS)
  let ev3 := if sc = x.spread then [] else [(0x74, n * 2 ^ 24 + b2n sc * 2 ^ 16 + milli 16 x.a)]
  ({ y with rocof := rc, upR := ru, dnR := rd, spread := sc, upS := su, dnS := sd }, ev1 ++ ev2 ++ ev3)

/-- The values of a subject over its members (R266). -/
def subjectValues (bs : List BusRep) (members : List Nat) (anchor : Nat) (acting : Option Nat) (x : Subject) : Subject :=
  let pm := members.filterMap (busOf bs)
  let rs := pm.filterMap (fun b => b.r.map (fun v => (b.w, v)))
  let d := match pm with
    | p :: _ => pm.map (fun b => wrapAny (f64sub b.th p.th))
    | [] => []
  let ang := match busOf bs anchor, acting.bind (busOf bs) with
    | some p, some q => wrapAny (f64sub p.th q.th)
    | _, _ => x.ang
  { x with f := if pm.isEmpty then x.f else weighted (pm.map (fun b => (b.w, b.f))), r := if rs.isEmpty then x.r else weighted rs,
           a := match d with | h :: t => f64sub (t.foldl f64max h) (t.foldl f64min h) | [] => x.a,
           held := pm.isEmpty || rs.isEmpty, anchor := anchor, members := members.length, present := pm.length, ang := ang }

/-- The events of a subject whose island is cleared (R267). -/
def clearEvents (n : Nat) (c : Cf) (x : Subject) : List (Nat × Nat) :=
  let d := f64abs (f64sub x.f (f64ofInt (if isP c 8 1 = 1 then 60 else 50)))
  (if x.level = 0 then [] else [(0x72, 2 ^ 31 + n * 2 ^ 24 + b2n x.above * 2 ^ 15 + milli 15 d)]) ++
  (if x.rocof then [(0x73, 2 ^ 31 + n * 2 ^ 24 + milli 16 (f64abs x.r))] else []) ++
  (if x.spread then [(0x74, 2 ^ 31 + n * 2 ^ 24 + milli 16 x.a)] else [])

/-- What a report leaves: the chain, events, counts by subindex, and what the results show. -/
structure RepOut where
  chain  : IslChain
  events : List (Nat × Nat)
  counts : List Nat
  buses  : List BusRep
  cl     : Table Nat
  refCl  : Option Nat
  full   : Bool
  deriving DecidableEq, Repr

/-- Commits the report is the first to serve (R273). -/
def applyChanges (c : Cf) (at_ : Stamp) (x : IslChain) : IslChain :=
  let now := x.changes.filter (fun p => !Stamp.before at_ p.1)
  let buses := (now.map (·.2.1)).flatten
  let edges := (now.map (·.2.2)).flatten
  let valid := validBuses c
  let live := (validEdges c).map (·.no)
  let gone := (x.isl.filter (fun p => !valid.contains p.2.anchor)).map (·.1)
  if now.isEmpty then x
  else { x with counts := Table.keep x.counts (fun b _ => !buses.contains b), edges := Table.keep x.edges (fun e _ => !edges.contains e && live.contains e),
                dead := gone, changes := x.changes.filter (fun p => Stamp.before at_ p.1) }

/-- One report of a chain (R259 to R267). -/
def report (c : Cf) (r : Rep) (x0 : IslChain) : RepOut :=
  let x := applyChanges c r.at_ x0
  let ids := validBuses c
  let bs := ids.map (busReport c r.vals)
  let es := validEdges c
  -- edges
  let edges := es.foldl (fun (t : Table (Nat × Nat)) e =>
    match busOf bs e.a, busOf bs e.b with
    | some p, some q =>
      let met := f64le (f64abs (wrapAny (f64sub p.th q.th))) e.bth && f64le (f64abs (f64sub p.f q.f)) e.bf
      Table.set t e.no (edgeStep (isP c 3 1) (isP c 4 1) (edgeOpen e r.vals) met (Table.getD t e.no (0, 0))) (0, 0)
    | _, _ => t) x.edges
  let cl := clustersOf ids ((es.filter (fun e => (Table.getD edges e.no (0, 0)).1 = 1)).map (fun e => (e.a, e.b)))
  -- reference
  let picked := pickReference (refList c) bs cl x.ref
  let act := picked.map (·.2)
  let refCl := picked.map (·.1)
  let noRef := picked.isNone
  let evRef := if act = x.ref && noRef = x.noRef then [] else [(0x75, x.ref.getD 0xFFFF * 2 ^ 16 + act.getD 0xFFFF)]
  -- counts
  let counts := if noRef then x.counts else bs.foldl (fun (t : Table (Nat × Nat)) b =>
    if b.st != 1 then t
    else
      let k := Table.getD t b.no (0, 0)
      Table.set t b.no (if Table.find cl b.no = refCl then (0, satBits 16 (k.2 + 1)) else (satBits 16 (k.1 + 1), 0)) (0, 0)) x.counts
  -- islands
  let aged := Table.mapVals x.isl (fun i => { i with since := satBits 16 (i.since + 1) })
  let standing := aged.filter (fun p => !x.dead.contains p.1)
  let clOf := fun (p : Nat × Island) => Table.find cl p.2.anchor
  let inCl := fun k => (cl.filter (fun q => q.2 = k)).map (·.1)
  let deadClear := x.dead.map (fun n => (n, 3))
  let (isl1, clear) := if noRef then (aged, deadClear)
    else standing.foldl (fun (acc : Table Island × List (Nat × Nat)) p =>
      match clOf p with
      | none => acc
      | some k =>
        if some k != refCl then
          if standing.any (fun q => q.1 < p.1 && clOf q = some k) then (acc.1, acc.2 ++ [(p.1, 2)])
          else (Table.put acc.1 p.1 { p.2 with clearing := false, members := inCl k }, acc.2)
        else if isP c 6 2 ≤ (Table.getD counts p.2.anchor (0, 0)).2 then (acc.1, acc.2 ++ [(p.1, 1)])
        else (Table.put acc.1 p.1 { p.2 with clearing := true }, acc.2)) (aged, deadClear)
  -- declarations
  let taken := standing.filterMap clOf
  let cands := if noRef then [] else ((dedup (cl.map (·.2))).insertionSort (· ≤ ·)).filter (fun k => some k != refCl && !taken.contains k &&
    (let pm := (inCl k).filter (fun b => (busOf bs b).isSome)
     isP c 7 2 ≤ pm.length && pm.all (fun b => isP c 5 2 ≤ (Table.getD counts b (0, 0)).1)))
  let (isl2, subj1, ev1, n1, full, fulls) := cands.foldl (fun (acc : Table Island × Table Subject × List (Nat × Nat) × List Nat × Bool × List Nat) k =>
    let (isl, subj, ev, ns, fl, fs) := acc
    match (span 1 17).find? (fun n => (Table.find isl n).isNone) with
    | some n => (Table.put isl n { anchor := k, members := inCl k, seq := r.seq }, Table.put subj n {}, ev ++ [(0x70, n * 2 ^ 24 + k)], ns ++ [4], fl, fs)
    | none => if fs.contains k then (isl, subj, ev, ns, true, fs) else (isl, subj, ev ++ [(0x76, k)], ns ++ [7], true, fs ++ [k]))
    (isl1, x.subj, evRef, [], false, x.full)
  -- subjects
  let cleared := clear.map (·.1)
  let (subj2, ev2) := subj1.foldl (fun (acc : Table Subject × List (Nat × Nat)) p =>
    let (members, anchor) := if p.1 = 0 then ((match refCl with | some k => inCl k | none => []), act.getD 0xFFFF)
      else match Table.find isl2 p.1 with
        | some i => (i.members, i.anchor)
        | none => ([], 0xFFFF)
    let y := subjectValues bs members anchor act p.2
    let (z, ev) := if y.present != 0 && !noRef && !cleared.contains p.1 then testSubject c p.1 y else (y, [])
    (acc.1 ++ [(p.1, z)], acc.2 ++ ev)) ([], ev1)
  -- slots freed at the end
  let evClear := (clear.map (fun (n, cause) =>
    (0x71, n * 2 ^ 24 + cause * 2 ^ 16 + ((Table.find isl2 n).map (·.anchor)).getD 0) :: clearEvents n c (Table.getD subj2 n {}))).flatten
  { chain := { x with edges := edges, counts := counts, ref := act, noRef := noRef, isl := Table.keep isl2 (fun n _ => !cleared.contains n),
                      subj := Table.keep subj2 (fun n _ => !cleared.contains n), full := if cleared.isEmpty then fulls else [], last := some r.at_,
                      reports := x.reports + 1, frozen := x.frozen - 1, dead := [] },
    events := ev2 ++ evClear, counts := n1 ++ clear.map (fun _ => 5), buses := bs, cl := cl, refCl := refCl, full := full }

/-! ## Results (R276 to R278) -/

def islState (c : Cf) (x : IslChain) : Nat := if x.noRef then 3 else if x.reports < isP c 5 2 then 1 else 2

/-- A results object (R277). `frozen`: the conditions are (R272). -/
def resultBytes (c : Cf) (r : Rep) (prov frozen : Bool) (o : RepOut) : Bytes :=
  let x := o.chain
  let f32 := fun (v : F64) => toBE 4 (f32of64 v).toNat
  let flags := flagsOf [o.buses.any (fun b => b.st = 2 || b.st = 3), o.buses.any (fun b => b.st = 4), o.full]
  toBE 1 (islState c x) ++ toBE 1 (b2n prov) ++ toBE 1 x.isl.length ++ toBE 1 flags ++ toBE 4 r.seq.toNat ++ stampBytes r.at_ ++ toBE 2 r.qual.toNat ++
    toBE 2 r.conf ++ toBE 4 r.gen.toNat ++ toBE 2 (x.ref.getD 0xFFFF) ++ toBE 2 (dedup (o.cl.map (·.2))).length ++
    ((List.range 17).map (fun n =>
      match Table.find x.subj n with
      | none => zeros 32
      | some y =>
        let i := Table.find x.isl n
        toBE 1 ((i.map (fun k => 1 + b2n k.clearing)).getD 1) ++
          toBE 1 (y.level + 4 * b2n y.above + 8 * b2n y.rocof + 16 * b2n y.spread + 32 * b2n y.held + 128 * b2n frozen) ++
          toBE 2 y.anchor ++ toBE 2 y.members ++ toBE 2 y.present ++ f32 y.f ++ f32 y.r ++ f32 y.a ++ f32 y.ang ++
          toBE 4 ((i.map (fun k => k.seq.toNat)).getD 0) ++ toBE 2 ((i.map (fun k => k.since)).getD 0) ++ zeros 2)).flatten

/-- The bus status records (R278). -/
def busStatus (o : RepOut) : Table Bytes :=
  o.buses.map (fun b =>
    let k := Table.getD o.cl b.no b.no
    let subj := if o.chain.noRef then 0xFF else if some k = o.refCl then 0
      else match o.chain.isl.find? (fun p => !p.2.clearing && Table.find o.cl p.2.anchor = some k) with
        | some p => p.1
        | none => 0xFE
    let n := Table.getD o.chain.counts b.no (0, 0)
    (b.no, toBE 1 b.st ++ toBE 1 subj ++ toBE 2 k ++ toBE 2 n.1 ++ toBE 2 n.2))

/-! ## What is passed to the alarm unit (R268, R284) -/

/-- The value of a source of kinds 1 to 4 in a chain, with its direction. -/
def islValue (x : IslChain) (kind inst : Nat) : Nat × Bool :=
  let y := Table.getD x.subj inst {}
  match kind with
  | 1 => (if inst = 0 then b2n (!x.isl.isEmpty) else b2n (Table.find x.isl inst).isSome, false)
  | 2 => (y.level, y.above)
  | 3 => (b2n y.rocof, false)
  | _ => (b2n y.spread, false)

/-- The anchor bus of a subject (R268): of subject 0 the acting reference. -/
def anchorOf (x : IslChain) (n : Nat) : Nat := if n = 0 then x.ref.getD 0xFFFF else ((Table.find x.isl n).map (·.anchor)).getD 0xFFFF

/-- The final subject that a provisional decision applies to: the one with the same anchor bus, else the one of the same
number (R284). -/
def finalSubject (final : IslChain) (n anchor : Nat) : Nat :=
  if n = 0 then 0 else ((final.isl.find? (fun q => q.2.anchor = anchor)).map (·.1)).getD n

def kindsInsts : List (Nat × Nat) := ([1, 2, 3, 4].map (fun k => (List.range 17).map (fun n => (k, n)))).flatten

/-- What a report that leads from chain `x` to chain `y` passes on of a source: its value, with the data of the report, and the
anchor bus of its subject; of an island that the report clears, the anchor it had (R268). -/
def islDecision (rate : Nat) (r : Rep) (x y : IslChain) (kind n : Nat) : Decision :=
  let v := islValue y kind n
  { value := v.1, above := v.2, at_ := r.at_, conf := r.conf, setSeq := r.seq, qual := r.qual, rate := rate, el := r.el,
    anchor := if n = 0 || (Table.find y.isl n).isSome then anchorOf y n else anchorOf x n }

/-- A final report for every alarm of kinds 1 to 4 (R283). -/
def passFinal (rate : Nat) (r : Rep) (x y : IslChain) (s : State) : State :=
  each kindsInsts (fun (k, n) st => handDecision k n true (islDecision rate r x y k n) st) s

/-- What one report of the provisional chain changes (R268): kind, subject of the chain, decision. -/
def provChanges (rate : Nat) (r : Rep) (x y : IslChain) : List (Nat × Nat × Decision) :=
  (kindsInsts.filter (fun (k, n) => islValue x k n != islValue y k n)).map (fun (k, n) => (k, n, islDecision rate r x y k n))

/-- Provisional decisions, matched to the final chain's subjects by anchor bus (R284). -/
def passProvisional (ds : List (Nat × Nat × Decision)) (s : State) : State :=
  each ds (fun (k, n, d) st => handDecision k (finalSubject s.isl.chain n d.anchor) false d st) s

/-! ## The chains (R269 to R274) -/

/-- The engine can process closes: mode, no reset, no fence (R256). -/
def State.islAble (s : State) : Bool := s.forming && Table.getD s.rst.status 0x0B 0 = 0 && !s.fenced 6 0
/-- The engine is on under a configuration, and its alignment group forms sets: a valid one, on a lane that no fence has taken (R256,
R491). -/
def State.islIn (s : State) (c : Cf) : Bool := islConf c && !s.fenced 4 (islGroup c / 4)
/-- The engine runs (R256): on in a configuration that serves sets. -/
def State.islRuns (s : State) : Bool := s.islAble && s.served.any (fun x => s.islIn x.1)

/-- E_r of the set of a close, to the microsecond (R208). -/
def Close.base (cl : Close) : Int := (cl.decAt : Int) - 1000 * cl.decUs

def repOfClose (cl : Close) : Rep := { at_ := cl.at_, seq := cl.seq, conf := cl.conf, qual := cl.qual, gen := cl.cfgGen, vals := cl.vals, el := cl.base }
/-- An instant without a set (R274): all buses absent; it has no set sequence number. -/
def absentRep (s : State) (at_ : Stamp) : Rep :=
  { at_ := at_, seq := 0xFFFFFFFF#32, conf := 0, qual := s.ownQualAt at_.ns, gen := (s.cfFor at_).2, vals := [], el := (s.elapsed : Int) + at_.ns - s.time.tai }

/-- The instants between two, each of the group of the configuration that serves it (R17, R274), ascending. -/
def State.between (s : State) (a b : Stamp) : List Stamp :=
  ((s.serving.map (fun (c, gen, _) =>
    let rate := islRate c
    if islConf c then (((instantsUpTo rate a.ns b.ns ((b.ns - a.ns) * rate / 1000000000 + 2)).filter (· < b.ns)).map (fun t => (⟨b.gen, t⟩ : Stamp))).filter
      (fun t => (s.cfFor t).2 = gen) else [])).flatten).insertionSort (fun x y => x.ns ≤ y.ns)

/-- Reports for which the conditions passed before a restart stay frozen (R272). -/
def State.freezeReports (s : State) (c : Cf) : Nat := if s.isl.passed then isP c 5 2 + isP c 0x10 1 else 0

/-- Restart (R272). Conditions passed before stay frozen for N_isl + N_a reports. At a commit's T_c the closes published already
stay to be taken; with another cause the chain begins with the first close published after it. -/
def islRestart (cause : Nat) (from_ : Option Stamp) (s : State) : State :=
  let old := s.isl
  let keep := from_.isSome && cause != 1
  let y : IslU := { old with state := if s.forming && s.islIn s.cf && !s.fenced 6 0 then 1 else 0, chain := { frozen := s.freezeReports s.cf }, from_ := from_,
                             redo := none, provSeen := if keep then old.provSeen else s.pubsNow, since := if keep then old.since else s.pubsNow, clusters := 0,
                             formerly := if old.passed then (old.formerly.orElse (fun _ => some (old.chain.isl.map (fun p => (p.1, p.2.anchor))))) else none,
                             buses := Table.mapVals old.buses (fun b => b.take 4 ++ zeros 4) }
  let s1 := raise 0x77 0 cause (count 0x7080 8 { s with isl := y })
  when old.passed (freezeAlarms (fun k _ => k ≤ 4)) s1

/-- The engine decides again after a restart (R272): islands take the frozen alarm states of those with the same anchors. -/
def thaw (s : State) : State :=
  match s.isl.formerly with
  | none => s
  | some old =>
    let moves := s.isl.chain.isl.filterMap (fun p => ((old.find? (fun q => q.2 = p.2.anchor)).map (fun q => (q.1, p.1))).filter (fun m => m.1 != m.2))
    inheritAlarms moves { s with isl := { s.isl with formerly := none } }

/-- A report of the final chain: events, counts, results, decisions. -/
def finalReport (r : Rep) (s : State) : State :=
  let c := (s.cfFor r.at_).1
  let o := report c r s.isl.chain
  let frozen := s.isl.chain.frozen != 0
  let bytes := resultBytes c r false frozen o
  let s1 := { s with isl := { s.isl with chain := o.chain, state := if s.islIn s.cf then islState c o.chain else 0, final := bytes, latest := bytes, buses := busStatus o, clusters := (dedup (o.cl.map (·.2))).length } }
  let s2 := each o.counts (fun n st => count 0x7080 n st) (count 0x7080 1 s1)
  let s3 := each o.events (fun (id, p) st => raise id 0 p st) s2
  let s4 := if frozen then freezeAlarms (fun k _ => k ≤ 4) s3
    else if islPass c then
      let s5 := thaw s3
      passFinal (islRate c) r s.isl.chain o.chain { s5 with isl := { s5.isl with passed := true } }
    else s3
  sendSummary 3 0 bytes s4

/-- The next final close of the final chain: of those published since the chain began. -/
def State.islNext (s : State) : Option Close := s.nextFinal islTakes s.isl.chain.last (fun g cl => Table.getD s.isl.since g 0 < cl.pub)

/-- A close lies before the first report of the chain (R272). -/
def State.islEarly (s : State) (t : Stamp) : Bool :=
  match s.isl.from_ with | some f => Stamp.before t f | none => false

/-- A restart that waits for the sets of before its T_c, of an engine that the commit stops, takes place once the last of them has been
processed (R17, R272). -/
def islSettle (s : State) : State :=
  match s.isl.redo with
  | some tc => if !islConf s.cf && s.cfg.prev.isNone && s.islNext.isNone then islRestart 2 (some tc) s else s
  | none => s

/-- ISL_FINAL_REPORT (R269, R274): the next final close, after the instants before it that had no set. -/
def islFinal (s : State) : State :=
  if !s.islAble || !s.serving.any (fun x => islConf x.1) then s
  else match s.islNext with
    | none => s
    | some cl =>
      if s.islEarly cl.at_ then { s with isl := { s.isl with chain := { s.isl.chain with last := some cl.at_ } } }
      else
        let s1 := match s.isl.redo with
          | some tc => if Stamp.before cl.at_ tc then s else islRestart 2 (some tc) s
          | none => s
        let gaps := match s1.isl.chain.last with
          | some p => if s1.isl.chain.reports = 0 then [] else s1.between p cl.at_
          | none => []
        let s2 := each gaps (fun t st => count 0x7080 6 (finalReport (absentRep st t) st)) s1
        islSettle (finalReport (repOfClose cl) s2)
def execIslFinalReport (dt : Nat) (s : State) : Host.Outcome State Fault Refusal := .next (s.act [.events, .stats, .hr, .alarm, .goose, .isl] dt islFinal)

/-- The latest published close of an instant, of the group that its configuration names. -/
def State.latestClose (s : State) (t : Stamp) : Option Close :=
  (islTakes (s.cfFor t).1).bind (fun g => (s.grpG g).closes.find? (fun c => c.at_.ns = t.ns && Table.getD s.isl.since g 0 < c.pub))

/-- The first instant of a chain that has processed none: that of the earliest close published for it. -/
def State.firstInstant (s : State) : Option Stamp :=
  ((s.ofGroups islTakes (·.closes) (·.at_)).filter (fun p => Table.getD s.isl.since p.1 0 < p.2.pub && !s.islEarly p.2.at_)).foldl (fun (b : Option Stamp) p => match b with
    | some t => if p.2.at_.ns < t.ns then some p.2.at_ else b
    | none => some p.2.at_) none

/-- One instant of the provisional chain (R269, R273): under its own configuration, after the restart that waits for a T_c. -/
def provReport (s : State) (t : Stamp) (conf : Option Nat) (acc : IslChain × List (Nat × Nat × Decision)) : (IslChain × List (Nat × Nat × Decision)) × Rep × RepOut :=
  let c := (s.cfFor t).1
  let restarts := match s.isl.redo, acc.1.last with
    | some tc, some p => !Stamp.before t tc && Stamp.before p tc
    | some tc, none => !Stamp.before t tc && acc.1.reports = 0
    | none, _ => false
  let x : IslChain := if restarts then { frozen := s.freezeReports c } else acc.1
  let r0 := match s.latestClose t with | some k => repOfClose k | none => absentRep s t
  let r := match conf with | some v => { r0 with conf := v } | none => r0
  let o := report c r x
  ((o.chain, acc.2 ++ (if islPass c && x.frozen = 0 then provChanges (islRate c) r x o.chain else [])), r, o)

/-- ISL_PROVISIONAL_RUN (R269 to R271): a final close that waits goes first; a provisional close whose final one has been
processed is ignored. The chain runs from the final chain's state over every later instant. -/
def islProvisional (s : State) : State :=
  if !s.islRuns || s.islNext.isSome then s
  else match s.nextPub (fun c => if islProv c then islTakes c else none) s.isl.provSeen (fun c => c.kind = 0x20) with
    | none => s
    | some (g, cl) =>
      let s0 := { s with isl := { s.isl with provSeen := Table.set s.isl.provSeen g cl.pub 0 } }
      let past := match s.isl.chain.last with | some p => decide (cl.at_.ns ≤ p.ns) | none => false
      if past || s.islEarly cl.at_ then s0
      else
        let mids := match s.isl.chain.last with
          | some p => s.between p cl.at_
          | none => match s.firstInstant with
            | some f => if f.ns < cl.at_.ns then f :: s.between f cl.at_ else []
            | none => []
        let acc := mids.foldl (fun acc t => (provReport s t none acc).1) (s.isl.chain, [])
        let (fin, r, o) := provReport s cl.at_ (some cl.conf) acc
        let s1 := countN 0x7080 3 mids.length (count 0x7080 2 s0)
        let s2 := { s1 with isl := { s1.isl with latest := resultBytes (s.cfFor cl.at_).1 r true (acc.1.frozen != 0) o } }
        passProvisional fin.2 s2
def execIslProvisionalRun (dt : Nat) (s : State) : Host.Outcome State Fault Refusal := .next (s.act [.events, .stats, .alarm, .isl] dt islProvisional)

/-- 1 is written to 0x7000.05 (R272 cause 4): a running engine restarts. -/
def islRestartWrite (_n : Nat) (s : State) : State := when (s.islAble && s.islIn s.cf) (islRestart 4 none) s

/-- ISL_RESTART_REQUEST: 0x7000.05. -/
def execIslRestartRequest (dt : Nat) (m : Msg) (v : List (BitVec 8)) (s : State) : Host.Outcome State Fault Refusal :=
  .next (s.act [.events, .stats, .sessions, .hr, .alarm, .goose, .isl, .keyPort] dt (onWrite m 0x7000 5 v (okWrite islRestartWrite)))

/-! ## Modes, resets, commits -/

/-- Sets begin to form (R272 cause 1). -/
def islStart (s : State) : State := if s.islIn s.cf && !s.fenced 6 0 then islRestart 1 (some ⟨s.time.gen, s.mode.formFrom⟩) s else s
/-- The mode leaves those in which sets form (R256). -/
def islStop (s : State) : State := { s with isl := { s.isl with state := 0 } }
/-- The reset of the engine completes (R70, R272 cause 3). -/
def islResume (s : State) : State := if s.forming && s.islIn s.cf && !s.fenced 6 0 then islRestart 3 none s else s

/-- What a restart depends on (R272 cause 2). -/
def islKey (c : Cf) : List Nat := isP c 1 1 :: isP c 2 1 :: islRate c :: (List.range 8).map (fun i => isP c (0x12 + i) 2)

/-- Records that differ. -/
def changedRecs (o n : Cf) (idx size : Nat) : List Nat :=
  (dedup (o.recs idx 1 size ++ n.recs idx 1 size)).filter (fun r => o.bytes idx 1 (size * r) size != n.bytes idx 1 (size * r) size)

/-- A commit at T_c (R272, R273). An engine that the commit stops restarts once the sets of before T_c are processed; one whose alignment group the commit makes valid begins as
that group begins forming sets (cause 1). -/
def islCommit (o : Cf) (tc : Stamp) (s : State) : State :=
  let n := s.cf
  let buses := changedRecs o n 0x7100 16
  let edges := changedRecs o n 0x7200 16
  let s1 := if buses.isEmpty && edges.isEmpty then s
    else { s with isl := { s.isl with chain := { s.isl.chain with changes := s.isl.chain.changes ++ [(tc, buses, edges)] },
                                      buses := Table.keep s.isl.buses (fun b _ => (validBuses n).contains b) } }
  if !s.forming || s.fenced 6 0 then s1
  else if islConf o then (if islKey o = islKey n && islConf n then s1 else { s1 with isl := { s1.isl with redo := some tc } })
  else if !islConf n then s1
  else islRestart (if isP o 1 1 = isP n 1 1 && isP o 2 1 = isP n 2 1 && (List.range 8).all (fun i => isP o (0x12 + i) 2 = isP n (0x12 + i) 2) then 1 else 2) (some tc) s1

end Sys2Proof.Machine
end

