-- ==== Sys2Proof/Machine/Lanes.lean ====
section
/-! DEFINITION. Coppice's tables of units and lanes (R489 to R491), and how tests and handovers are given up (R496, R497). -/
namespace Sys2Proof.Machine
open Sys2Proof

/-! ## Units (R491) -/

/-- Logical lanes of a unit on a part; channels for unit 10, ports for unit 17. -/
def logicalLanes (v u : Nat) : Nat :=
  match u with
  | 1 => byPart v 8 4 2 | 2 => byPart v 32 16 8 | 3 => byPart v 16 8 4 | 4 => 4 | 5 => byPart v 16 0 0 | 6 => 1 | 7 => 1
  | 8 => byPart v 4 4 0 | 9 => 32 | 10 => 4 | 11 => 32 | 12 => 1 | 13 => 1 | 14 => 1 | 15 => 1 | 16 => 4
  | 17 => byPart v 6 6 4 | 18 => byPart v 2 2 0 | 19 => 8 | _ => 0

/-- The unit has a spare lane. -/
def unitSpared (u : Nat) : Bool := 1 ≤ u && u ≤ 9
def physLanes (v u : Nat) : Nat := if logicalLanes v u = 0 then 0 else logicalLanes v u + b2n (unitSpared u)
/-- The unit is tested live by Coppice: rotation, one core at a time, yielding slices. -/
def unitLive (u : Nat) : Bool := unitSpared u || (11 ≤ u && u ≤ 15)
/-- Single-instance units tested in yielding slices. -/
def unitSingle (u : Nat) : Bool := 12 ≤ u && u ≤ 15
def sliceCount (u : Nat) : Nat :=
  match u with
  | 1 => 40 | 2 => 60 | 3 => 80 | 4 => 50 | 5 => 120 | 6 => 80 | 7 => 30 | 8 => 60 | 9 => 20 | 11 => 100 | 12 => 40 | 13 => 30 | 14 => 30 | 15 => 20 | _ => 0
/-- Test draw, mW. -/
def testDraw (u : Nat) : Nat :=
  match u with
  | 1 => 500 | 2 => 800 | 3 => 1000 | 4 => 600 | 5 => 1900 | 6 => 1400 | 7 => 400 | 8 => 900 | 9 => 300 | 11 => 1100 | 12 => 300 | 13 => 200 | 14 => 100
  | 15 => 100 | _ => 0
def spareElements (u : Nat) : Nat := if unitSpared u then 2 else if 11 ≤ u && u ≤ 15 then 1 else 0

/-- The unit runs in a mode (R57), for R496. -/
def unitRunsIn (u : Nat) (m : Mode) : Bool :=
  match u with
  | 1 => m.ingests
  | 2 | 3 | 4 | 6 => m.forms
  | 5 | 8 => m.full
  | _ => m.configures

/-! ## Lanes -/

def laneKey (u l : Nat) : Nat := u * 64 + l

/-- A lane as made: lane l carries logical lane l, and the last lane of a unit with a spare is the spare. -/
def madeLane (v u l : Nat) : Lane :=
  if unitSpared u && l = logicalLanes v u then { state := 1 } else { logical := some l }

def State.lane (s : State) (u l : Nat) : Lane := (Table.find s.cop.lanes (laneKey u l)).getD (madeLane s.variant u l)
def State.setLane (s : State) (u l : Nat) (x : Lane) : State := { s with cop := { s.cop with lanes := Table.put s.cop.lanes (laneKey u l) x } }
def State.lanesOf (s : State) (u : Nat) : List Nat := List.range (physLanes s.variant u)

/-- The spare lane of a unit, waiting or in shadow. -/
def State.spareLane (s : State) (u : Nat) : Option Nat := (s.lanesOf u).find? (fun l => (s.lane u l).state = 1)

/-- A test of the unit, or a handover, is in progress. -/
def State.unitBusy (s : State) (u : Nat) : Bool := s.cop.tests.any (fun t => t.unit = u) || s.cop.shadows.any (fun x => x.unit = u)

/-! ## Giving up -/

def setTests (ts : List LaneTest) (s : State) : State := { s with cop := { s.cop with tests := ts } }
def putTest (t : LaneTest) (s : State) : State := setTests (s.cop.tests.map (fun x => if x.unit = t.unit && x.lane = t.lane then t else x)) s
def dropTest (t : LaneTest) (s : State) : State := setTests (s.cop.tests.filter (fun x => !(x.unit = t.unit && x.lane = t.lane))) s

/-- A tested lane returns to service (R397, R399): as the spare, as a core, or as the block it is. -/
def laneBack (u l : Nat) (s : State) : State :=
  let x := s.lane u l
  if unitSpared u then s.setLane u l { x with state := 1, logical := none }
  else
    let s1 := s.setLane u l { x with state := 0 }
    if u = 11 then coreIn l s1 else s1

/-- A test ends INCOMPLETE (R497): counted, and its element is tested again in the round (R500). -/
def testIncomplete (t : LaneTest) (s : State) : State :=
  let x := s.lane t.unit t.lane
  let s1 := dropTest t (s.setLane t.unit t.lane { x with result := 3, at_ := s.now })
  let k := laneKey t.unit t.lane
  laneBack t.unit t.lane (count 0xC080 4 { s1 with cop := { s1.cop with again := if s1.cop.again.contains k then s1.cop.again else s1.cop.again ++ [k] } })

/-- Handovers are abandoned, with the lane left online (R496). -/
def abandonShadows (which : Nat → Bool) (s : State) : State :=
  let gone := s.cop.shadows.filter (fun x => which x.unit)
  each gone (fun x st => st.setLane x.unit x.spare { st.lane x.unit x.spare with state := 1 })
    { s with cop := { s.cop with shadows := s.cop.shadows.filter (fun x => !which x.unit) } }

/-- Every test and handover ends: a Coppice reset, step 1 of R67, or a mode without Coppice. -/
def coppiceHalt (s : State) : State := each s.cop.tests testIncomplete (abandonShadows (fun _ => true) s)

/-- A transition: R496, and R497 item 3. -/
def coppiceMode (old new : Mode) (s : State) : State :=
  let s1 := abandonShadows (fun u => unitRunsIn u old && !unitRunsIn u new) s
  when (old.configures && !new.configures) coppiceHalt s1

end Sys2Proof.Machine
end

