-- ==== Sys2Proof/Machine/Goose.lean ====
section
/-! DEFINITION. GOOSE publication (R288 to R294): member contents and frames, state changes and retransmissions,
authentication; and its commands. The byte encoding of the APDU is that of the standard the manual names (log entry 50). -/
namespace Sys2Proof.Machine
open Sys2Proof

def State.pub (s : State) (p : Nat) : Goose := Table.getD s.alm.goose p {}
def State.setPub (s : State) (p : Nat) (x : Goose) : State := { s with alm := { s.alm with goose := Table.set s.alm.goose p x {} } }

/-- The publication is of the value kind. -/
def pubValue (c : Cf) (p : Nat) : Bool := bit (gpF c p 0 1) 1

/-- The configuration of a publication's frames: that of the instant of the last change taken, and the live one once the previous
one is released (R17). -/
def State.pubCf (s : State) (p : Nat) : Cf :=
  let t := (s.pub p).of_
  if s.cfg.prev.isNone && Stamp.before t s.cfg.from_ then s.cf else (s.cfFor t).1

/-- The configuration revision of a publication's frames (R290). -/
def State.pubRev (s : State) (p : Nat) : Nat := if s.servedBefore (s.pub p).of_ && (s.pub p).wasRev != 0 then (s.pub p).wasRev else (s.pub p).confRev

/-- An alarm as a publication's frames show it (R17). -/
def State.pubAlarm (s : State) (p a : Nat) : Alarm := if s.servedBefore (s.pub p).of_ then s.alarmFor a (s.pub p).of_ else s.alarm a

/-- In SAFE, and while the sets of before a stop from SAFE run to their close, outputs carry declared values (R58, R65). -/
def State.safeOut (s : State) : Bool := s.mode.cur = .safe || (s.draining && s.mode.prev = Mode.safe.code)

/-- The publication sends (R61, R70, R294, R491). -/
def State.pubSends (s : State) (p : Nat) : Bool :=
  s.forming && !s.fenced 7 0 && Table.getD s.rst.status 0x0C 0 = 0 && (validPubs (s.pubCf p)).contains p

/-! ## Encoding (R289, R290) -/

/-- A BER element: tag, length, contents. -/
def tlv (tag : Nat) (b : Bytes) : Bytes :=
  let n := b.length
  toBE 1 tag ++ (if n < 128 then toBE 1 n else if n < 256 then [0x81#8] ++ toBE 1 n else [0x82#8] ++ toBE 2 n) ++ b

/-- The contents of a BER integer that is not negative. -/
def berNat (n : Nat) : Bytes :=
  let k := ((List.range 6).find? (fun k => n < 2 ^ (8 * k + 7))).getD 6
  toBE (k + 1) n

/-- UtcTime accuracy of an accuracy class (R289). -/
def utcAccuracy (cls : Nat) : Nat :=
  match cls with | 1 => 24 | 2 => 20 | 3 => 17 | 4 => 14 | 5 => 10 | 6 => 7 | _ => 31

/-- UtcTime: seconds, binary fraction, and the quality byte from a quality word (R289). -/
def State.utcTime (s : State) (t : Stamp) (q : Qual) : Bytes :=
  toBE 4 (s.socOf (t.ns / 1000000000)) ++ toBE 3 (t.ns % 1000000000 * 16777216 / 1000000000) ++
    toBE 1 (128 + 64 * b2n (q.getLsbD 10) + 32 * b2n (q.getLsbD 5) + utcAccuracy (bits q.toNat 2 0))

/-- The entries of an alarm member. -/
def State.alarmEntry (s : State) (x : Alarm) (withConf : Bool) : Bytes :=
  let q := (if x.prov || x.frozen then 0xC000 else 0) + 64 * b2n x.prov + 256 * b2n x.frozen
  tlv 0x86 (berNat x.v) ++ tlv 0x84 ([3#8] ++ toBE 2 q) ++ tlv 0x91 (s.utcTime x.at_ x.qual) ++ (if withConf then tlv 0x86 (berNat x.conf) else [])

/-- The entries of a value member under a configuration: in SAFE the declared value; a slot never seen has its declared value too. -/
def State.valueEntry (s : State) (c : Cf) (p m slot : Nat) : Bytes :=
  let safe := s.safeOut
  let declared := c.u 0x7910 1 (8 * m + 4) 4
  let x := (Table.find (s.pub p).vals slot).getD { val := BitVec.ofNat 32 declared, q := 3 }
  let q := if safe || x.q = 2 then 0x4000 else if x.q = 3 then 0x4100 else 0
  tlv 0x87 ([8#8] ++ toBE 4 (if safe then declared else x.val.toNat)) ++ tlv 0x84 ([3#8] ++ toBE 2 q) ++ tlv 0x91 (s.utcTime x.at_ x.qual)

/-- The encoded content of each member, in member order. -/
def State.pubContent (s : State) (p : Nat) : List Bytes :=
  let c := s.pubCf p
  (pubMembers c p).map (fun (m, n) => if pubValue c p then s.valueEntry c p m n else s.alarmEntry (s.pubAlarm p n) (bit (gpF c p 0 1) 4))

/-- A name of a publication without its padding. -/
def pubName (c : Cf) (p off : Nat) : Bytes := (c.bytes 0x7920 1 (192 * p + off) 64).takeWhile (· != 0#8)

/-- The APDU of the present state with a time allowed to live. -/
def State.apdu (s : State) (p : Nat) : Bytes :=
  let c := s.pubCf p
  let x := s.pub p
  tlv 0x61 (tlv 0x80 (pubName c p 0) ++ tlv 0x81 (berNat (2 * x.interval)) ++ tlv 0x82 (pubName c p 64) ++ tlv 0x83 (pubName c p 128) ++
    tlv 0x84 x.since ++ tlv 0x85 (berNat x.stNum) ++ tlv 0x86 (berNat x.sqNum) ++ tlv 0x87 (toBE 1 (255 * b2n (bit (gpF c p 0 1) 5))) ++
    tlv 0x88 (berNat (s.pubRev p)) ++ tlv 0x89 [0#8] ++ tlv 0x8A (berNat (x.built.length * (if pubValue c p then 3 else 3 + b2n (bit (gpF c p 0 1) 4)))) ++
    tlv 0xAB x.built.flatten)

/-- The initialisation vector of an AES-GMAC: a free value, as no rule states it (log entry 217). -/
def freeIv (n : Nat) : Bytes := toBE 8 (Config.free64 n).toNat ++ toBE 4 (Config.free32 n).toNat

/-- The check value of the security extension (R288, R292): HMAC-SHA-256 cut to 128 bits or whole, or AES-GMAC. -/
def macBytes (alg : Nat) (k : BitVec 256) (n : Nat) (b : Bytes) : Bytes :=
  match alg with
  | 1 => (hmac k b).take 16
  | 2 => hmac k b
  | _ => gcmTag k (freeIv n) b []

/-- The frame: addresses, tag, header, APDU, and the extension when there is one. -/
def pubFrame (c : Cf) (p port : Nat) (apdu ext : Bytes) : Bytes :=
  let tag := gpF c p 10 2
  toBE 6 (gpF c p 4 6) ++ toBE 6 (portMac port) ++ (if bit tag 15 then toBE 2 0x8100 ++ toBE 2 (tag / 4096 % 8 * 8192 + tag % 4096) else []) ++
    toBE 2 0x88B8 ++ toBE 2 (gpF c p 2 2) ++ toBE 2 (8 + apdu.length) ++ toBE 2 ext.length ++ zeros 2 ++ apdu ++ ext

/-! ## Sending (R290, R292, R293) -/

/-- The frame of the present state goes out on the publication's ports, in class 0 or 2 (R122). -/
def pubOut (p : Nat) (ext : Bytes) (s : State) : State :=
  let c := s.pubCf p
  let body := s.apdu p
  let ports := (List.range 6).filter (fun k => bit (gpF c p 1 1) k)
  let fr := fun (k : Nat) => pubFrame c p k body ext
  count 0x7880 7 (each ports (fun k st => portSend k (if pubValue c p then 2 else 0) (fr k) none st) (s.setPub p { s.pub p with frame := fr (ports.headD 0) }))

/-- A scheduled frame: authenticated where the record says so; on a failure counted, told once, and sent without the
extension only with bit 3 set (R292, R293). -/
def pubSend (p : Nat) (s : State) : State :=
  let c := s.pubCf p
  let flags := gpF c p 0 1
  if !bit flags 2 then pubOut p [] s
  else
    let slot := gpF c p 20 2
    let alg := gpF c p 22 1
    let (st, s1) := keyUse 0 slot 2 (alg = 3) s
    if st = stOk then
      let (n, s2) := s1.takeFree
      pubOut p (macBytes alg (s2.kslot slot).mat.key n (s2.apdu p)) (s2.setPub p { s2.pub p with authFail := false })
    else
      let x := s1.pub p
      let s2 := count 0x7880 9 (s1.setPub p { x with authFail := true })
      let s3 := if x.authFail then s2 else raise 0x82 p (if st = stRevoked then 1 else 2) s2
      if bit flags 3 then count 0x7880 0x0A (pubOut p [] s3) else s3

/-- The next number: from 0xFFFFFFFF to 1 (R290). -/
def nextNum (n : Nat) : Nat := if n + 1 < 2 ^ 32 then n + 1 else 1

/-- Changes that no built frame has carried: those beyond the last of each member (R291). -/
def unsentChanges (xs : List Nat) : Nat := xs.length - (dedup xs).length

/-- GOOSE_FRAME_BUILD (R290, R291): the members' contents have changed, or no frame of this state has gone out. -/
def gooseBuild (p : Nat) (s : State) : State :=
  let x := s.pub p
  let now := s.pubContent p
  if !s.pubSends p || (now = x.built && x.due.isSome && x.dirty.isEmpty) then s
  else
    let s1 := countN 0x7880 8 (unsentChanges x.dirty) (s.setPub p { x with dirty := [] })
    if now = x.built && x.due.isSome then s1
    else
      let t1 := gpF (s.pubCf p) p 18 2
      pubSend p (s1.setPub p { s1.pub p with built := now, stNum := nextNum x.stNum, sqNum := 0, interval := t1, due := some (s.elapsed + t1 * 1000000),
                                             since := s.utcTime s.now s.ownQual })
def execGooseFrameBuild (dt p : Nat) (s : State) : Host.Outcome State Fault Refusal := .next (s.act [.events, .stats, .free, .queues, .goose, .keyPort] dt (gooseBuild p))

/-- GOOSE_RETRANSMIT (R290): at T1, 2 T1, 4 T1 and so on after the change, then every T0. A state that has changed by then goes
out as the new one (R65, R290). -/
def gooseRetransmit (p : Nat) (s : State) : State :=
  let x := s.pub p
  match x.due with
  | none => s
  | some t =>
    if s.pubSends p && t ≤ s.elapsed && s.pubContent p != x.built then gooseBuild p s
    else if s.pubSends p && t ≤ s.elapsed then
      let t0 := gpF (s.pubCf p) p 16 2
      let iv := if x.sqNum = 0 then x.interval else if t0 < 2 * x.interval then t0 else 2 * x.interval
      pubSend p (s.setPub p { x with sqNum := nextNum x.sqNum, interval := iv, due := some (t + iv * 1000000) })
    else s
def execGooseRetransmit (dt p : Nat) (s : State) : Host.Outcome State Fault Refusal := .next (s.act [.events, .stats, .free, .queues, .goose, .keyPort] dt (gooseRetransmit p))

/-- The group of a value publication. -/
def pubGroup (p : Nat) (c : Cf) : Option Nat := if (validPubs c).contains p && pubValue c p then some (gpF c p 15 1) else none

/-- GOOSE_VALUE_EVALUATE (R289): the next final close of the publication's group, under the configuration of its instant (R17). A
member whose slot is missing keeps its last value. Each member whose content changes is a change for the next frame (R291). -/
def gooseEvaluate (p : Nat) (s : State) : State :=
  if !s.forming || s.fenced 7 0 || Table.getD s.rst.status 0x0C 0 != 0 then s
  else
    let x := s.pub p
    match s.nextPub (pubGroup p) x.cursor (fun c => c.kind != 0x20) with
    | none => s
    | some (g, cl) =>
      let c := (s.cfFor cl.at_).1
      let vals := (pubMembers c p).foldl (fun (t : Table GooseVal) (m, slot) =>
        let old : GooseVal := (Table.find t slot).getD { val := BitVec.ofNat 32 (c.u 0x7910 1 (8 * m + 4) 4) }
        let y : GooseVal := match cl.vals.find? (fun v => v.slot = slot) with
          | some v => { val := v.val, q := if v.valid then 0 else 2, at_ := cl.at_, qual := cl.qual }
          | none => { old with q := 3, at_ := cl.at_, qual := cl.qual }
        Table.put t slot y) x.vals
      let s1 := s.setPub p { x with vals := vals, cursor := Table.set x.cursor g cl.pub 0, of_ := cl.at_ }
      let moved := (pubMembers c p).filter (fun (m, slot) => s.valueEntry c p m slot != s1.valueEntry c p m slot)
      s1.setPub p { s1.pub p with dirty := x.dirty ++ moved.map (·.1) }
def execGooseValueEvaluate (dt p : Nat) (s : State) : Host.Outcome State Fault Refusal := .next (s.act [.goose] dt (gooseEvaluate p))

/-! ## Modes and commits (R290, R294) -/

/-- A publication begins a new state; closes published before are not evaluated. -/
def freshPub (p : Nat) (s : State) : State :=
  s.setPub p { s.pub p with due := none, interval := 0, cursor := s.pubsNow, of_ := s.cfg.from_ }

/-- Publications begin on entry to a mode in which they send, from one in which they do not, and end on leaving it. -/
def gooseStart (s : State) : State := each (validPubs s.cf) freshPub s
/-- On entry to OPERATE from a mode in which they send, the next frame begins a new state (R294). -/
def gooseRenew (s : State) : State :=
  { s with alm := { s.alm with goose := Table.mapVals s.alm.goose (fun x => { x with due := none }) } }
def gooseStop (s : State) : State :=
  { s with alm := { s.alm with goose := Table.mapVals s.alm.goose (fun x => { x with due := none, interval := 0 }) } }

/-- confRev of the publications of a configuration that a start makes live. -/
def gooseBoot (s : State) : State := each (validPubs s.cf) (fun p st => st.setPub p { st.pub p with confRev := 1 }) s

/-- A commit changes the publication's record, members or names. -/
def pubChanged (o n : Cf) (p : Nat) : Bool :=
  let mem := fun (c : Cf) => (pubMembers c p).map (fun (m, _) => c.bytes 0x7910 1 (8 * m) 8)
  o.bytes 0x7900 1 (32 * p) 32 != n.bytes 0x7900 1 (32 * p) 32 || mem o != mem n || o.bytes 0x7920 1 (192 * p) 192 != n.bytes 0x7920 1 (192 * p) 192

/-- A commit at T_c: confRev rises by one. A publication that turns valid begins a state; one that stays so keeps its state unless a
member's content has changed, which the next build finds (R290). -/
def gooseCommit (o : Cf) (s : State) : State :=
  each ((dedup (validPubs o ++ validPubs s.cf)).filter (pubChanged o s.cf)) (fun p st =>
    let x := st.pub p
    let st1 := st.setPub p { x with confRev := nextNum x.confRev, wasRev := if s.firstOfTc o then x.confRev else x.wasRev }
    if (validPubs o).contains p && (validPubs s.cf).contains p then st1 else freshPub p st1) s

/-- A status record of 0x7980.01 (R305). -/
def State.pubStatus (s : State) (p : Nat) : Bytes :=
  let x := s.pub p
  let st := if !(s.forming && !s.fenced 7 0 && (validPubs s.cf).contains p && x.due.isSome) then 0
    else if pubValue s.cf p && s.safeOut then 2 else 1
  toBE 1 st ++ toBE 1 (b2n x.authFail) ++ zeros 2 ++ toBE 4 x.stNum ++ toBE 4 x.sqNum ++ toBE 4 x.confRev ++ toBE 4 x.interval ++ zeros 12

end Sys2Proof.Machine
end

