-- ==== Sys2Proof/Machine/Out.lean ====
section
/-! DEFINITION. C37.118 output sessions (R295 to R302): configuration, header and data frames, commands, clients, the
transport buffer; and its commands. The layouts of the frames are those of the standard the manual names (log entry 24). -/
namespace Sys2Proof.Machine
open Sys2Proof

/-- A field of a session record (R295) and of a block record (R296). -/
def ouF (c : Cf) (n off len : Nat) : Nat := c.u 0x7A00 1 (32 * n + off) len
def obF (c : Cf) (b off len : Nat) : Nat := c.u 0x7A10 1 (32 * b + off) len
def outValid (c : Cf) (n : Nat) : Bool := n < 256 && bit (ouF c n 0 1) 0
def outTcp (c : Cf) (n : Nat) : Bool := ouF c n 1 1 = 0
def outGroup (c : Cf) (n : Nat) : Nat := ouF c n 4 1
def validOuts (c : Cf) : List Nat := ((c.recs 0x7A00 1 32).insertionSort (· ≤ ·)).filter (outValid c)

/-- The blocks of a session, ascending. -/
def outBlocks (c : Cf) (n : Nat) : List Nat :=
  ((c.recs 0x7A10 1 32).insertionSort (· ≤ ·)).filter (fun b => b < 4096 && bit (obF c b 0 2) 15 && obF c b 0 2 % 256 = n)

/-- Phasors, analogs and digital words of a block, and its slot-list entries, none for 0xFFFF. -/
def blockCounts (c : Cf) (b : Nat) : Nat × Nat × Nat := (obF c b 22 1, obF c b 23 1, obF c b 24 1)
def blockSlots (c : Cf) (b : Nat) : List (Option Nat) :=
  let (p, a, d) := blockCounts c b
  (List.range (2 * p + 2 + a + d)).map (fun i => let x := c.u 0x7A20 1 (2 * (obF c b 20 2 + i)) 2; if x = 0xFFFF then none else some (x % 8192))
def blockSize (c : Cf) (b : Nat) : Nat := let (p, a, d) := blockCounts c b; 10 + 8 * p + 4 * a + 2 * d

/-- The data frame size (R296). -/
def outSize (c : Cf) (n : Nat) : Nat := 16 + ((outBlocks c n).map (blockSize c)).sum

def State.out (s : State) (n : Nat) : Out := Table.getD s.alm.out n {}
def State.setOut (s : State) (n : Nat) (x : Out) : State := { s with alm := { s.alm with out := Table.set s.alm.out n x {} } }

/-- The session sends data (R298): turned on, over a connection for TCP, or at all times with bit 2. -/
def State.outActive (s : State) (c : Cf) (n : Nat) : Bool :=
  let x := s.out n
  outValid c n && (if outTcp c n then x.client.isSome && x.on else x.on || bit (ouF c n 0 1) 2)

/-- The sessions answer (R302): in the modes in which connections stay open, outside the resets that clear them (R70). -/
def State.outServes (s : State) (n : Nat) : Bool :=
  s.mode.cur.configures && outValid s.cf n && Table.getD s.rst.status 0x0C 0 = 0 && (!outTcp s.cf n || Table.getD s.rst.status 0x10 0 = 0)

/-! ## Frames (R297 to R299) -/

/-- The message time quality code (R298). -/
def timeCode (q : Qual) : Nat :=
  if q.getLsbD 10 then 15
  else match bits q.toNat 2 0 with | 1 => 3 | 2 => 4 | 3 => 5 | 4 => 6 | 5 => 7 | 6 => 8 | _ => 11

/-- SOC and FRACSEC of an instant, with the leap bits and the time quality code of a quality word. -/
def State.socFrac (s : State) (ns : Nat) (q : Qual) : Bytes :=
  toBE 4 (s.socOf (ns / 1000000000)) ++ toBE 1 (16 * bits q.toNat 9 7 + timeCode q) ++ toBE 3 ((ns % 1000000000 + 500) / 1000)

/-- A frame: type, size, IDCODE, time, body and CHK. -/
def c37Wrap (sync idcode : Nat) (time body : Bytes) : Bytes :=
  let b := toBE 2 sync ++ toBE 2 (16 + body.length) ++ toBE 2 idcode ++ time ++ body
  b ++ toBE 2 (crc16 b)

def padName (b : Bytes) : Bytes := (b ++ List.replicate 16 0x20#8).take 16
def digits4 (n : Nat) : Bytes := [n / 1000, n / 100, n / 10, n].map (fun d => BitVec.ofNat 8 (48 + d % 10))
def slotName (x : Option Nat) : Bytes := match x with | none => ascii "NONE" | some n => ascii "SLOT " ++ digits4 n
def bitName (x : Option Nat) (k : Nat) : Bytes := slotName x ++ ascii " B" ++ [BitVec.ofNat 8 (48 + k / 10), BitVec.ofNat 8 (48 + k % 10)]

/-- The channel names of a block: phasors, analogs, 16 for each digital word. -/
def blockNames (c : Cf) (b : Nat) : List Bytes :=
  let (p, a, d) := blockCounts c b
  let sl := blockSlots c b
  let at_ := fun (i : Nat) => (sl[i]?).getD none
  (List.range p).map (fun i => slotName (at_ (2 * i))) ++ (List.range a).map (fun i => slotName (at_ (2 * p + 2 + i))) ++
    ((List.range d).map (fun i => (List.range 16).map (bitName (at_ (2 * p + 2 + a + i))))).flatten

/-- A block of CFG-1 and CFG-2. -/
def blockCfg (c : Cf) (n cnt b : Nat) : Bytes :=
  let (p, a, d) := blockCounts c b
  c.bytes 0x7A10 1 (32 * b + 4) 16 ++ toBE 2 (obF c b 2 2) ++ toBE 2 (if bit (ouF c n 0 1) 3 then 14 else 15) ++ toBE 2 p ++ toBE 2 a ++ toBE 2 d ++
    ((blockNames c b).map padName).flatten ++ zeros (4 * p + 4 * a) ++ (List.replicate d (toBE 4 0xFFFF)).flatten ++
    toBE 2 (b2n (ouF c n 5 1 = 0)) ++ toBE 2 cnt

def lenName (b : Bytes) : Bytes := toBE 1 b.length ++ b
/-- STN without its padding. -/
def stnText (b : Bytes) : Bytes := (b.reverse.dropWhile (fun x => x = 0x20#8 || x = 0#8)).reverse

/-- A block of CFG-3: scales of 1.0, place unspecified, window and delay not available. -/
def blockCfg3 (c : Cf) (n cnt b : Nat) : Bytes :=
  let (p, a, d) := blockCounts c b
  lenName (stnText (c.bytes 0x7A10 1 (32 * b + 4) 16)) ++ toBE 2 (obF c b 2 2) ++ zeros 16 ++ toBE 2 (if bit (ouF c n 0 1) 3 then 14 else 15) ++
    toBE 2 p ++ toBE 2 a ++ toBE 2 d ++ ((blockNames c b).map lenName).flatten ++
    (List.replicate p (zeros 4 ++ toBE 4 0x3F800000 ++ zeros 4)).flatten ++ (List.replicate a (toBE 4 0x3F800000 ++ zeros 4)).flatten ++
    (List.replicate d (toBE 4 0xFFFF)).flatten ++ (List.replicate 3 (toBE 4 0x7F800000)).flatten ++ zeros 1 ++ toBE 8 0xFFFFFFFFFFFFFFFF ++
    toBE 2 (b2n (ouF c n 5 1 = 0)) ++ toBE 2 cnt

/-- The answer to command 3, 4, 5 or 6. -/
def State.outAnswer (s : State) (n cmd : Nat) : Bytes :=
  let c := s.cf
  let time := s.socFrac s.time.tai s.ownQual
  let id := ouF c n 2 2
  let bs := outBlocks c n
  let cnt := (s.out n).cfgCnt
  let rate := toBE 2 (agRate c (outGroup c n))
  match cmd with
  | 3 => c37Wrap 0xAA12 id time (ascii ("Caerza output session " ++ toString n ++ ", group " ++ toString (outGroup c n)))
  | 6 => c37Wrap 0xAA52 id time (zeros 2 ++ toBE 4 1000000 ++ toBE 2 bs.length ++ (bs.map (blockCfg3 c n cnt)).flatten ++ rate)
  | k => c37Wrap (if k = 4 then 0xAA22 else 0xAA32) id time (toBE 4 1000000 ++ toBE 2 bs.length ++ (bs.map (blockCfg c n cnt)).flatten ++ rate)

/-- A digital word from a slot value. -/
def digitalWord (v : F32) : Nat :=
  match n32 v with
  | .fin s m e => (Num.floor (.fin s m e) % 65536).toNat
  | _ => 0

/-- The alarms that target a block and have v > 0 at an instant (R299, R300). -/
def State.blockAlarms (s : State) (c : Cf) (b : Nat) (t : Stamp) : List Nat :=
  (validAlarms c).filter (fun a =>
    let target := alF c a 10 2
    (target = 0xFFFE || target = b) &&
      decide (0 < (s.alarmFor a t).valueAt (if alF c a 1 1 ≤ 4 then t else ⟨t.gen, t.ns - 1200000000⟩)))

/-- STAT of a block (R299), but for SAFE. -/
def State.outStat (s : State) (c : Cf) (n b : Nat) (cl : Close) : Nat :=
  let named := (blockSlots c b).filterMap id
  let vs := named.filterMap (fun k => cl.vals.find? (fun v => v.slot = k))
  let q := (worstQual 0#16 (vs.map (·.qual))).toNat
  let as := s.blockAlarms c b cl.at_
  let reason := ((as.map (fun a => alF c a 9 1)).find? (· != 0xFF)).getD 0
  let served := (s.cfFor cl.at_).2
  let changing := (s.out n).change.any (fun (a, g) => !Stamp.before cl.at_ a && 0#32 < g - served && g - served < 0x80000000#32)
  let top := if vs.length < named.length then 2 else if vs.any (fun v => !v.valid) then 3 else 0
  16384 * top + 8192 * b2n (bit q 5) + 2048 * b2n (!as.isEmpty) + 1024 * b2n changing +
    512 * b2n (vs.any (fun v => v.cond.getLsbD 3 || v.cond.getLsbD 7) || cl.kind = 0x20) + 64 * bits q 2 0 + 16 * bits q 4 3 + reason % 16

/-- The values of a block: NaN, or 0 for a digital word, where there is none. -/
def blockValues (c : Cf) (b : Nat) (vals : List Slotted) : Bytes :=
  let (p, a, _) := blockCounts c b
  let sl := blockSlots c b
  ((List.range sl.length).map (fun i =>
    let v := ((sl[i]?).getD none).bind (fun k => vals.find? (fun v => v.slot = k))
    if i < 2 * p + 2 + a then toBE 4 (match v with | some x => x.val.toNat | none => nan32.toNat)
    else toBE 2 (match v with | some x => digitalWord x.val | none => 0))).flatten

/-! ## Transport (R301) -/

/-- A frame goes to the session's ports in class 2: over TCP on the first port that is up, with segmentation; over UDP on
each. -/
def outSend (n : Nat) (b : Bytes) (s : State) : State :=
  let c := s.cf
  let mine := (List.range 6).filter (fun p => bit (ouF c n 14 1) p)
  let (k, s1) := s.takeFree
  if outTcp c n then
    let p := (mine.find? (fun p => s1.portRuns p && (s1.prt p).up)).getD (mine.headD 0)
    let (ip, port) := (s1.out n).client.getD (0, 0)
    tcpSend 2 p { template := tcpTemplate k p ip (toBE 2 (ouF c n 6 2)) port, payload := b, mss := 1460 } s1
  else each mine (fun p st => udpSend 2 p { template := udpTemplate k p (ouF c n 8 4) (ouF c n 6 2) (ouF c n 12 2), payload := b, mss := 0 } st) s1

/-- A session discards one of its frames, which leaves it as `y`: counted (R301). -/
def discardFrame (n : Nat) (y : Out) (s : State) : State :=
  count 0x7880 0x0C (satEvent y.discarded 1 (recKey 0x7A80 n 18) 0x85 0 18 (s.setOut n { y with discarded := satCount y.discarded 1 }))

/-- Bytes of the frames that await transport: those that region 0x7 of the store holds (R370). -/
def State.outBytes (s : State) : Nat := (s.alm.out.map (fun p => (p.2.buf.map (fun f => f.bytes.length)).sum)).sum

/-- A frame enters the session's buffer of 2 F_g frames; where that is full, or region 0x7 has no room, the session's oldest
unsent frame goes (R301, R370). -/
def bufferFrame (n rate : Nat) (b : OutFrame) (s : State) : State :=
  let x := s.out n
  if 2 * rate ≤ x.buf.length || 2 ^ 30 < s.outBytes + b.bytes.length then
    let y := { x with buf := (x.buf ++ [b]).drop 1, burst := true }
    let s1 := discardFrame n y s
    if x.burst then s1 else raise 0x84 n y.buf.length s1
  else s.setOut n { x with buf := x.buf ++ [b] }

/-- The session sends the first close of an instant, under the configuration of that instant (R298, R302). -/
def State.outFirst (s : State) (n : Nat) (t : Stamp) : Bool := bit (ouF (s.cfFor t).1 n 0 1) 1

/-- The data frame of a close (R298, R299), with the values of the close. -/
def State.outFrame (s : State) (n : Nat) (cl : Close) : OutFrame :=
  let c := (s.cfFor cl.at_).1
  let bs := outBlocks c n
  let body := (bs.map (fun b => toBE 2 (s.outStat c n b cl) ++ blockValues c b cl.vals)).flatten
  { seq := cl.seq, bytes := c37Wrap 0xAA02 (ouF c n 2 2) (s.socFrac cl.at_.ns cl.qual) body,
    blank := bs.map (fun b => blockValues c b []), nan := bit (ouF c n 0 1) 4 }

/-- OUT_DATA_FRAME (R298 to R301): the next close of the session's group that it takes. -/
def outData (n : Nat) (s : State) : State :=
  if !s.forming || !s.outServes n then s
  else
    match s.nextPub (fun c => if outValid c n then some (outGroup c n) else none) (s.out n).cursor (fun c => s.outFirst n c.at_ || c.kind != 0x20) with
    | none => s
    | some (g, cl) =>
      if !s.outActive (s.cfFor cl.at_).1 n then s
      else
        let s1 := s.setOut n { s.out n with cursor := Table.set (s.out n).cursor g cl.pub 0 }
        if s.outFirst n cl.at_ && (cl.kind = 0x22 || bit cl.flags 1) then count 0x7880 0x0D s1
        else bufferFrame n cl.rate (s1.outFrame n cl) s1
def execOutDataFrame (dt n : Nat) (s : State) : Host.Outcome State Fault Refusal := .next (s.act [.events, .stats, .out] dt (outData n))

/-- A frame as SAFE sends it (R65, R299, R302): STAT bits 15-14 are 11, and the values are those of the last frame sent before, or
those of values that are missing. -/
def safeFrame (last : Bytes) (f : OutFrame) : Bytes :=
  let old := slice f.bytes 14 (f.bytes.length - 16)
  let kept := !f.nan && decide (last.length = old.length)
  let body := (f.blank.foldl (fun (r : Bytes × Nat) v =>
    (r.1 ++ toBE 2 (0xC000 + field old r.2 2 % 16384) ++ (if kept then slice last (r.2 + 2) v.length else v), r.2 + 2 + v.length)) ([], 0)).1
  let b := f.bytes.take 14 ++ body
  b ++ toBE 2 (crc16 b)

/-- OUT_FRAME_HANDOFF (R301, R302): the oldest frame goes to transport; a burst of discards ends at F_g frames or fewer. -/
def outHandoff (n : Nat) (s : State) : State :=
  let x := s.out n
  match x.buf with
  | [] => s
  | f :: r =>
    if s.forming && s.outServes n && s.outActive s.cf n then
      let b := if s.safeOut then safeFrame x.lastBody f else f.bytes
      let y := { x with lastBody := if s.safeOut then x.lastBody else slice b 14 (b.length - 16), buf := r, burst := x.burst && decide (agRate s.cf (outGroup s.cf n) < r.length), sent := satCount x.sent 1, lastSeq := f.seq, out := b }
      outSend n b (count 0x7880 0x0B (satEvent x.sent 1 (recKey 0x7A80 n 12) 0x85 0 12 (s.setOut n y)))
    else s
def execOutFrameHandoff (dt n : Nat) (s : State) : Host.Outcome State Fault Refusal := .next (s.act [.events, .stats, .free, .queues, .sched, .port, .out] dt (outHandoff n))

/-! ## Clients and commands (R295, R297) -/

/-- A command reaches the session: over its connection, or by UDP from its destination address. -/
def State.outHears (s : State) (n src : Nat) : Bool :=
  s.outServes n && (if outTcp s.cf n then (match (s.out n).client with | some (ip, _) => ip = src | none => false) else ouF s.cf n 8 4 = src)

/-- Closes published so far are not for this session. -/
def skipCloses (n : Nat) (s : State) : State := s.setOut n { s.out n with cursor := s.pubsNow }

/-- A C37.118 command (R297): off, on, header, the three configurations; others are counted. What waits in the buffer at `off` is
not sent any more (log entry 202). -/
def outCommand (n src cmd : Nat) (s : State) : State :=
  if !s.outHears n src then s
  else if cmd = 1 then s.setOut n { s.out n with on := false, buf := [], burst := false }
  else if cmd = 2 then
    let s1 := if s.outActive s.cf n then s else skipCloses n s
    s1.setOut n { s1.out n with on := true }
  else if 3 ≤ cmd && cmd ≤ 6 then
    let b := s.outAnswer n cmd
    outSend n b (s.setOut n { s.out n with answer := b })
  else count 0x7880 0x0F s

def execOutCmdTurnOff (dt n src : Nat) (s : State) : Host.Outcome State Fault Refusal := .next (s.act [.events, .stats, .free, .queues, .sched, .port, .out] dt (outCommand n src 1))
def execOutCmdTurnOn (dt n src : Nat) (s : State) : Host.Outcome State Fault Refusal := .next (s.act [.events, .stats, .free, .queues, .sched, .port, .out] dt (outCommand n src 2))
def execOutCmdSendHeader (dt n src : Nat) (s : State) : Host.Outcome State Fault Refusal := .next (s.act [.events, .stats, .free, .queues, .sched, .port, .out] dt (outCommand n src 3))
def execOutCmdSendCfg1 (dt n src : Nat) (s : State) : Host.Outcome State Fault Refusal := .next (s.act [.events, .stats, .free, .queues, .sched, .port, .out] dt (outCommand n src 4))
def execOutCmdSendCfg2 (dt n src : Nat) (s : State) : Host.Outcome State Fault Refusal := .next (s.act [.events, .stats, .free, .queues, .sched, .port, .out] dt (outCommand n src 5))
def execOutCmdSendCfg3 (dt n src : Nat) (s : State) : Host.Outcome State Fault Refusal := .next (s.act [.events, .stats, .free, .queues, .sched, .port, .out] dt (outCommand n src 6))
/-- OUT_CMD_UNKNOWN: a command code outside those of R297; one of those six has its own effect. -/
def execOutCmdUnknown (dt n src cmd : Nat) (s : State) : Host.Outcome State Fault Refusal := .next (s.act [.events, .stats, .free, .queues, .sched, .port, .out] dt (outCommand n src cmd))

/-- OUT_CLIENT_CONNECT (R295): one client at a time, the permitted one; another is refused, counted and told. -/
def outConnect (n ip tcpPort : Nat) (s : State) : State :=
  let x := s.out n
  let allowed := ouF s.cf n 8 4
  if !s.outServes n || !outTcp s.cf n then s
  else if x.client.isSome || (allowed != 0 && allowed != ip) then raise 0x83 n 2 (count 0x7880 0x0E s)
  else raise 0x83 n 1 (skipCloses n (s.setOut n { x with client := some (ip, tcpPort), on := false }))
def execOutClientConnect (dt n ip tcpPort : Nat) (s : State) : Host.Outcome State Fault Refusal := .next (s.act [.events, .stats, .out] dt (outConnect n ip tcpPort))

/-- A connection ends: nothing of it stays in the buffer. -/
def outDrop (n : Nat) (s : State) : State :=
  let x := s.out n
  if x.client.isSome then raise 0x83 n 0 (s.setOut n { x with client := none, on := false, buf := [], burst := false }) else s
def execOutClientDisconnect (dt n : Nat) (s : State) : Host.Outcome State Fault Refusal := .next (s.act [.events, .out] dt (outDrop n))

/-! ## Modes, resets and commits -/

/-- Every connection ends (R70). -/
def outDropAll (s : State) : State := each (Table.keys s.alm.out) outDrop s

/-- Sets published before data frames begin are not framed; frames still buffered when they end are discarded. -/
def outStart (s : State) : State := each (validOuts s.cf) skipCloses s
def outStop (s : State) : State :=
  { s with alm := { s.alm with out := Table.mapVals s.alm.out (fun x => { x with buf := [], burst := false }) } }

/-- A commit changes the session or its blocks. -/
def outChanged (o n : Cf) (k : Nat) : Bool :=
  let blocks := fun (c : Cf) => (outBlocks c k).map (fun b => (c.bytes 0x7A10 1 (32 * b) 32, blockSlots c b))
  o.bytes 0x7A00 1 (32 * k) 32 != n.bytes 0x7A00 1 (32 * k) 32 || blocks o != blocks n

/-- The acceptance of a commit that changes sessions (R299 bit 10): it leads from configuration `o` to `n`, of generation `gen`. -/
def outAccepted (o n : Cf) (acc : Stamp) (gen : BitVec 32) (s : State) : State :=
  each ((dedup (validOuts o ++ validOuts n)).filter (outChanged o n)) (fun k st => st.setOut k { st.out k with change := ((acc, gen) :: (st.out k).change).take 8 }) s

/-- A commit at T_c (R297, R302): CFG_CNT rises by one; a change of bytes 1 or 6 to 14 ends the connection. -/
def outCommit (o : Cf) (s : State) : State :=
  let n := s.cf
  each ((dedup (validOuts o ++ validOuts n)).filter (outChanged o n)) (fun k st =>
    let moved := o.bytes 0x7A00 1 (32 * k + 1) 1 != n.bytes 0x7A00 1 (32 * k + 1) 1 || o.bytes 0x7A00 1 (32 * k + 6) 9 != n.bytes 0x7A00 1 (32 * k + 6) 9 || !outValid n k
    let st1 := if moved && outValid o k then let d := outDrop k st; d.setOut k { d.out k with on := false, buf := [], burst := false } else st
    let st2 := st1.setOut k { st1.out k with cfgCnt := ((st1.out k).cfgCnt + 1) % 65536 }
    if outGroup o k = outGroup n k && outValid o k then st2 else skipCloses k st2) s

/-- 0x7A80 state (R305). -/
def State.outState (s : State) (n : Nat) : Nat :=
  if !outValid s.cf n then 0
  else if s.forming && s.outActive s.cf n then 3
  else if outTcp s.cf n && (s.out n).client.isSome then 2 else 1

/-- A status record of 0x7A80.01 (R305). -/
def State.outStatus (s : State) (n : Nat) : Bytes :=
  let x := s.out n
  let (ip, port) := x.client.getD (0, 0)
  let st := s.outState n
  toBE 1 st ++ toBE 1 (b2n x.burst + 2 * b2n (st = 3 && s.safeOut)) ++ toBE 2 x.cfgCnt ++ toBE 4 ip ++ toBE 2 port ++
    toBE 2 (if st = 0 then 0 else outSize s.cf n) ++ toBE 6 x.sent ++ toBE 6 x.discarded ++ toBE 4 x.lastSeq.toNat ++ zeros 4

end Sys2Proof.Machine
end

