-- ==== Sys2Proof/Machine/Time.lean ====
section
/-! DEFINITION. The timebase (R74 to R102, R560, R561): sources, selection, servo, steps, holdover, leap seconds; and its
commands. -/
namespace Sys2Proof.Machine
open Sys2Proof

def State.src (s : State) (k : Nat) : Source := Table.getD s.time.sources k {}
def State.setSrc (s : State) (k : Nat) (x : Source) : State := { s with time := { s.time with sources := Table.set s.time.sources k x {} } }
def State.ptpP (s : State) (p : Nat) : PtpPort := Table.getD s.time.ptp p {}
def State.setPtp (s : State) (p : Nat) (x : PtpPort) : State := { s with time := { s.time with ptp := Table.set s.time.ptp p x {} } }
def unknownErr : Nat := 0xFFFFFFFF

/-! ## Priorities and what a source carries (R81, R84, R561) -/

/-- The source codes in order of priority; a lower entry of a code that ranks twice is ignored. -/
def State.srcOrder (s : State) : List Nat := dedup (((span 1 9).map (fun k => s.cf.u 0x3010 k 0 1)).filter (· != 0))

/-- The source 1PPS takes time of day from: the highest-priority valid one that carries it. -/
def State.todSource (s : State) : Option Nat := s.srcOrder.find? (fun k => k != 7 && (s.src k).validSince.isSome)

/-- A source, or for 1PPS the one it takes time of day from. -/
def State.carrierOf (s : State) (k : Nat) : Option Nat := if k = 7 then s.todSource else some k

/-- An offset taken to the nearest whole second: above -0.5 s and up to 0.5 s. -/
def phaseOnly (off : Int) : Int := let r := off % 1000000000; if 500000000 < r then r - 1000000000 else r

/-- An offset measured against a source: of 1PPS only the phase counts while no source gives it time of day (R84). -/
def State.offsetOf (s : State) (k : Nat) (off : Int) : Int := if k = 7 && s.todSource.isNone then phaseOnly off else off

/-- A source carries leap information. -/
def State.carriesLeap (s : State) (k : Nat) : Bool :=
  match s.carrierOf k with
  | some j => if j = 8 then s.time.irigExt else (s.src j).utc.isSome
  | none => false

/-- The source in use (R85, R561); none in HOLDOVER, FREERUN and REF_FAULT. -/
def State.inUse (s : State) : Option Nat :=
  if s.time.source != 0 && (s.time.state = .acquiring || s.time.state = .locked) then some s.time.source else none

/-! ## Error and quality (R87, R92, R560) -/

/-- Steps a new bound on its way: the sum saturates. -/
def satErr (n : Nat) : Nat := min n unknownErr

/-- e(t) of R87 on the 100 ms grid, rounded up. -/
def State.holdError (s : State) : Nat :=
  let t := (s.elapsed - s.time.holdAt) / 100000000 * 100000000
  let u := s.cf.u 0x3040 3 0 4
  let a := s.cf.u 0x3040 4 0 4
  let den := 172800000000000000000000
  satErr (s.time.holdE0 + (u * t * (den / 1000000000) + a * t * t + (den - 1)) / den)

/-- The estimated error of the present state. -/
def State.errNow (s : State) : Nat :=
  let t := s.time
  let inacc := (s.src t.source).inaccuracy
  match t.state with
  | .freerun | .refFault => unknownErr
  | .holdover => s.holdError
  | .acquiring => if t.switching then s.holdError else satErr (t.offset.natAbs + inacc)
  | .locked => s.errAt

/-- Estimated error, unlocked bit and EV_TIME_UNLOCKED follow the state. -/
def refreshQual (s : State) : State :=
  let e := s.errNow
  let un := !(s.time.state = .locked || (s.time.inHoldover && e < s.cf.u 0x3040 5 0 4))
  let s1 := { s with time := { s.time with err := e, unlocked := un } }
  when (un && !s.time.unlocked) (raise 0x13 0 e) s1

/-- The state changes; leaving LOCKED starts the unlocked duration. -/
def setTb (x : TbState) (s : State) : State :=
  let leaves := s.time.state = .locked && x != .locked
  { s with time := { s.time with state := x, unlockedAt := if leaves then some s.time.elapsed else s.time.unlockedAt, durClass := if x = .locked then 0 else s.time.durClass } }

/-- The code at 0x3000.05 changes. -/
def setSource (k : Nat) (s : State) : State :=
  if s.time.source = k then s else raise 0x11 0 (s.time.source * 256 + k) { s with time := { s.time with source := k, offsets := [], settled := none } }

/-! ## Steps (R20, R75, R86, R99, R100) -/

/-- The first whole multiple of 100 ms at least 20 ms after an instant (R16, R58). -/
def effInstant (t : Nat) : Nat := (t + 119999999) / 100000000 * 100000000

/-- Accepted commits (R20) and a pending transition are placed anew by the rule of R16, counting from the step; commits that
waited in a row come to one T_c (log entry 172). -/
def retime (s : State) : State :=
  let tc : Stamp := if s.mode.cur.forms then ⟨s.time.gen, effInstant s.time.tai⟩ else s.now
  let w := s.cfg.waiting.map (fun c => { c with tc := tc })
  let last := match w.getLast? with | some c => c.tc | none => s.cfg.lastTc
  let pend := s.mode.pend.map (fun p => if p.stopped then p else { p with atNs := effInstant s.time.tai, gen := s.time.gen })
  { s with cfg := { s.cfg with waiting := w, lastTc := last }, mode := { s.mode with pend := pend } }

/-- Internal time is stepped by a signed number of ns, in one operation, into a new generation. -/
def stepTime (d : Int) (s : State) : State :=
  let old := s.time.tai
  let gen := s.time.gen + 1#16
  let sum := Table.getD s.time.stepSums s.time.gen.toNat 0 + d
  let sums := Table.keep (Table.set s.time.stepSums gen.toNat sum 0) (fun g _ => ((gen.toNat + 65536 - g) % 65536) ≤ 255)
  let s1 := { s with
    time := { s.time with tai := ((old : Int) + d).toNat, gen := gen, lastStep := d, stepSums := sums, slew := 0, offsets := [], settled := none,
                          sources := Table.mapVals s.time.sources (fun x => { x with offset := x.offset + d }) },
    jrn := { s.jrn with steps := satCount s.jrn.steps 1 },
    hr := { s.hr with stepAt := some s.time.elapsed } }
  let s2 := raise 0x10 0 (gen.toNat * 65536) s1
  let s3 := when (gen = 0#16) (raise 0x17 0 0) s2
  alignStep old (retime (journalTime s3))

/-! ## Leap seconds (R96, R97, R561) -/

/-- The leap of a kind, 1 insert or 2 delete, is scheduled for the end of the current UTC day. -/
def schedule (kind : Nat) (byHand : Bool) (s : State) : State :=
  let utc : Int := (s.time.tai / 1000000000 : Nat) - s.time.utc
  let day := (utc / 86400 + 1) * 86400
  let at_ := day + s.time.utc - (if kind = 2 then 1 else 0)
  raise 0x15 0 kind { s with time := { s.time with leap := kind, leapAt := at_.toNat * 1000000000, leapByHand := byHand } }

/-- A scheduled leap is cancelled, unless it is inside its pending interval. -/
def cancelLeap (s : State) : State :=
  if s.time.leapPend || s.time.leap = 0 then s else { s with time := { s.time with leap := 0, leapByHand := false } }

/-- The leap information of the source in use takes effect. -/
def followLeap (s : State) : State :=
  match s.inUse with
  | some k =>
    if s.carriesLeap k then
      match s.carrierOf k with
      | some j =>
        let want := (s.src j).leap
        if want = 0 || 2 < want then cancelLeap s
        else if s.time.leap = want then { s with time := { s.time with leapByHand := false } }
        else if s.time.leapPend then s
        else schedule want false s
      | none => s
    else s
  | none => s

/-- The UTC offset that the source in use carries: PTP or IRIG-B (R96). -/
def State.utcSource (s : State) : Option Int :=
  match s.inUse with
  | some k => if k = 7 then none else (s.src k).utc
  | none => none
/-- The offset in force: the source's, else the configured one. -/
def takeUtc (s : State) : State := { s with time := { s.time with utc := s.utcSource.getD (s.cf.i 0x3050 1 0 4) } }

/-! ## The servo and selection (R84 to R86) -/

/-- The servo steers the frequency after a measurement of the source in use. By what law, the spec leaves to the servo: the
correction is a free value. During a switch of sources the old source's frequency is held (R85, R86). -/
def steerFreq (s : State) : State :=
  if s.time.switching then s
  else
    let (n, s1) := s.takeFree
    { s1 with time := { s1.time with freq := Config.freeFreq n } }

/-- A measurement against a source. -/
def noteOffset (k : Nat) (raw : Int) (s : State) : State :=
  let off := s.offsetOf k raw
  let s1 := s.setSrc k { s.src k with offset := off }
  if s1.inUse = some k then
    let t := s1.time
    let keep := (t.elapsed, off) :: t.offsets.filter (fun p => t.elapsed < p.1 + 16000000000)
    refreshQual (steerFreq { s1 with time := { t with offset := off, offsets := keep, settled := if off.natAbs ≤ 100 then some (t.settled.getD t.elapsed) else none } })
  else s1

/-- Entry to ACQUIRING for a source (R86): a slew, or a step of the whole offset. -/
def acquire (k : Nat) (switching : Bool) (s : State) : State :=
  let off := (s.src k).offset
  let e0 := s.errNow
  let s1 := setSource k s
  let s2 := { s1 with time := { s1.time with switching := switching, holdE0 := if switching then e0 else s1.time.holdE0,
                                             holdAt := if switching then s1.time.elapsed else s1.time.holdAt, offset := off, offsets := [], settled := none } }
  let s3 := setTb .acquiring s2
  let s4 := if off.natAbs ≤ s.cf.u 0x3040 1 0 4 * 1000 then { s3 with time := { s3.time with slew := off } } else stepTime (-off) s3
  followLeap (takeUtc (refreshQual s4))

/-- HOLDOVER is entered (R85, R87). -/
def enterHoldover (s : State) : State :=
  let e0 := s.errNow
  let s1 := setTb .holdover { s with time := { s.time with holdE0 := e0, holdAt := s.time.elapsed, switching := false, slew := 0 } }
  raise 0x12 0 s.time.source (takeUtc (refreshQual s1))

/-- Selection under R84; none with the servo fenced (R491). -/
def selectSource (s : State) : State :=
  if s.cop.bypass.contains 14 then s else
  let q := s.srcOrder.filter (fun k => (s.src k).qualified)
  match s.time.state with
  | .refFault => s
  | .freerun | .holdover => (match q with | k :: _ => acquire k false s | [] => s)
  | .acquiring | .locked =>
    let cur := s.time.source
    if q.contains cur then
      (match q with | k :: _ => if k != cur && s.cf.u 0x3010 0x0A 0 1 = 1 then acquire k true s else s | [] => s)
    else (match q with | k :: _ => acquire k true s | [] => enterHoldover s)

/-- A source misses a validity condition: it loses its qualification at once, and reports nothing any more. -/
def disqualify (k : Nat) (s : State) : State :=
  let x := s.src k
  let s1 := s.setSrc k { x with validSince := none, qualified := false, fault := false }
  if x.qualified then selectSource s1 else s1

/-- A source is seen valid; a first moment of validity is kept. -/
def seeValid (k : Nat) (s : State) : State :=
  let x := s.src k
  s.setSrc k { x with validSince := some (x.validSince.getD s.elapsed) }

/-- SOURCE_QUALIFIED (R83): continuously valid for the qualification time. -/
def sourceQualified (k : Nat) (off : Int) (s : State) : State :=
  let x := s.src k
  match x.validSince with
  | some t =>
    if !x.qualified && t + s.cf.u 0x3010 9 0 2 * 1000000000 ≤ s.elapsed then
      selectSource (noteOffset k off (s.setSrc k { x with qualified := true }))
    else s
  | none => s
def execSourceQualified (dt src : Nat) (offset : Int) (s : State) : Host.Outcome State Fault Refusal := .next (s.act [.events, .stats, .free, .request, .journal, .time, .commits, .queues, .sched, .acq, .bus, .align, .hr] dt (sourceQualified src offset))

/-- SOURCE_DISQUALIFIED (R83). -/
def execSourceDisqualified (dt src : Nat) (s : State) : Host.Outcome State Fault Refusal := .next (s.act [.events, .stats, .free, .request, .journal, .time, .commits, .queues, .sched, .acq, .bus, .align, .hr] dt (disqualify src))

/-- SERVO_LOCKED (R86): the offset has stayed within 100 ns for 16 s. -/
def servoLocked (s : State) : State :=
  match s.time.settled with
  | some t =>
    if s.time.state = .acquiring && t + 16000000000 ≤ s.elapsed && !s.cop.bypass.contains 14 then
      let s1 := setTb .locked { s with time := { s.time with switching := false, unlockedAt := some s.elapsed } }
      raise 0x14 0 s.time.source (refreshQual s1)
    else s
  | none => s
def execServoLocked (dt : Nat) (s : State) : Host.Outcome State Fault Refusal := .next (s.act [.events, .time] dt servoLocked)

/-- HOLDOVER_UPDATE (R87). -/
def execHoldoverUpdate (dt : Nat) (s : State) : Host.Outcome State Fault Refusal := .next (s.act [.events, .time] dt (fun t => when t.time.inHoldover refreshQual t))

/-- The unlocked duration in seconds; none until the first LOCKED since start (R92). -/
def State.unlockedFor (s : State) : Option Nat :=
  if s.time.state = .locked then some 0 else s.time.unlockedAt.map (fun t => (s.elapsed - t) / 1000000000)

/-- UNLOCKED_CLASS_STEP (R91, R92). -/
def classStep (s : State) : State :=
  match s.unlockedFor with
  | some d => { s with time := { s.time with durClass := if d < 10 then 0 else if d < 100 then 1 else if d < 1000 then 2 else 3 } }
  | none => s
def execUnlockedClassStep (dt : Nat) (s : State) : Host.Outcome State Fault Refusal := .next (s.act [.time] dt classStep)

/-- The timebase enters FREERUN with no source in use. -/
def freerun (s : State) : State :=
  takeUtc (refreshQual (setTb .freerun (setSource 0 { s with time := { s.time with slew := 0, switching := false } })))

/-- SET_TIME (R88). -/
def setTime (v : Bytes) (_x : Session) (_n : Nat) (s : State) : Nat × State :=
  let ns := field v 6 4
  if 999999999 < ns || (span 1 9).any (fun k => (s.src k).qualified) then (stRejected, s)
  else
    let dest : Int := (field v 0 6 * 1000000000 + ns : Nat)
    (stOk, freerun (stepTime (dest - s.time.tai) s))
def execSetTime (dt : Nat) (m : Msg) (v : List (BitVec 8)) (s : State) : Host.Outcome State Fault Refusal :=
  .next (s.act [.events, .stats, .free, .request, .journal, .time, .commits, .sessions, .queues, .sched, .acq, .bus, .align, .hr, .keyPort] dt (onWrite m 0x3000 8 v (setTime v)))

/-- REF_CLK_LOST (R89): the backup oscillator takes over, with no step, corrected by its last measurement and by the last steered
frequency, so that time runs on at the rate it had. The measured frequency is a free value. -/
def refLost (s : State) : State :=
  if s.time.refPresent then
    let (n, s0) := s.takeFree
    let s1 := setTb .refFault { s0 with time := { s0.time with refPresent := false, slew := 0, switching := false, backup := Config.freeFreq n } }
    raise 0x16 0 0 (takeUtc (refreshQual s1))
  else s
def execRefClkLost (dt : Nat) (s : State) : Host.Outcome State Fault Refusal := .next (s.act [.events, .free, .time] dt refLost)

/-- REF_CLK_RESTORED (R89): the reference has been back for 1 s; the offset is that of the best qualified source. -/
def refRestored (off : Int) (s : State) : State :=
  if s.time.refPresent then s
  else
    let s1 := freerun { s with time := { s.time with refPresent := true } }
    match s1.srcOrder.find? (fun k => (s1.src k).qualified) with
    | some k => selectSource (s1.setSrc k { s1.src k with offset := s1.offsetOf k off })
    | none => s1
def execRefClkRestored (dt : Nat) (offset : Int) (s : State) : Host.Outcome State Fault Refusal := .next (s.act [.events, .stats, .free, .request, .journal, .time, .commits, .queues, .sched, .acq, .bus, .align, .hr] dt (refRestored offset))

/-- What a timebase servo reset clears (R70): servo and source-selection state, without a step. -/
def servoReset (s : State) : State :=
  let s1 := { s with time := { s.time with sources := Table.mapVals s.time.sources (fun x => { x with validSince := none, qualified := false }), offsets := [], settled := none } }
  if s.time.refPresent && !s.cop.bypass.contains 14 then freerun s1 else s1

/-! ## PTP (R81 to R83, R101, R128 to R131) -/

/-- Data set `a` is better than `b` (R82): by priority1, clockClass, clockAccuracy, variance, priority2 and identity in this
order, the lower the better; of one grandmaster the one with fewer steps. -/
def PtpDs.better (a b : PtpDs) : Bool :=
  if a.gmId = b.gmId then decide (a.steps < b.steps)
  else
    match ([(a.priority1, b.priority1), (a.clockClass, b.clockClass), (a.accuracy, b.accuracy), (a.variance, b.variance), (a.priority2, b.priority2),
            (a.gmId, b.gmId)] : List (Nat × Nat)).find? (fun p => p.1 != p.2) with
    | some (x, y) => decide (x < y)
    | none => false

/-- The data set the device announces: clockClass 248 in place of its locked class while it is not LOCKED (R82). -/
def State.ownDs (s : State) : PtpDs := { Config.ptpOwn with clockClass := if s.time.state = .locked then Config.ptpLockedClass else 248 }

/-- The port state by the best master clock algorithm (R82, R101): 4 LISTENING, 6 MASTER, 7 PASSIVE, 9 SLAVE. A slave-only port
never becomes master (log entry 175). -/
def State.ptpState (s : State) (p : Nat) (best : Option PtpDs) : Nat :=
  let master := s.cf.u (0x3020 + p) 1 0 1 = 2
  match best with
  | none => if master then 6 else 4
  | some e => if !master then 9 else if PtpDs.better s.ownDs e then 6 else if s.ownDs.clockClass < 128 then 7 else 9

/-- The upper bound in ns of the range a clockAccuracy code names; unknown for 0xFE and codes that name none (R560). -/
def ptpAccuracyNs (code : Nat) : Nat :=
  if 0x17 ≤ code && code ≤ 0x30 then
    [1, 1, 1, 1, 1, 1, 1, 3, 10, 25, 100, 250, 1000, 2500, 10000, 25000, 100000, 250000, 1000000, 2500000, 10000000, 25000000, 100000000,
     250000000, 1000000000, 10000000000].getD (code - 0x17) unknownErr
  else unknownErr

/-- The PTP conditions of R83. -/
def PtpPort.valid (x : PtpPort) : Bool :=
  x.state = 9 && x.announceAt.isSome && x.syncAt.isSome && (match x.best with | some (d, _) => decide (d.clockClass < 248) | none => false)

/-- A PTP port's validity follows its state. -/
def ptpJudge (p : Nat) (s : State) : State :=
  if (s.ptpP p).valid then seeValid (p + 1) s else disqualify (p + 1) s

/-- The information a message brought takes effect when its source is, or gives time of day to, the one in use. -/
def sourceInfo (k : Nat) (utcBefore : Option Int) (s : State) : State :=
  match s.inUse with
  | some u =>
    if s.carrierOf u = some k then
      let s1 := if u = k && (s.src k).utc != utcBefore then takeUtc s else s
      refreshQual (followLeap s1)
    else s
  | none => s

/-- An Announce (R81 to R83, R101): of the senders heard the best one counts. -/
def ptpAnnounce (f : PtpMsg) (s : State) : State :=
  let x := s.ptpP f.port
  let k := f.port + 1
  let takes := match x.best with | some (d, who) => who = f.sender || PtpDs.better f.ds d | none => true
  if !takes then s
  else
    let before := (s.src k).utc
    let s1 := s.setPtp f.port { x with state := s.ptpState f.port (some f.ds), best := some (f.ds, f.sender), gmId := f.ds.gmId, gmInacc := f.tlvNs.getD unknownErr,
                                       announceAt := some s.elapsed }
    let s2 := s1.setSrc k { s1.src k with utc := f.utcOffset, leap := f.leap, inaccuracy := satErr (f.tlvNs.getD (ptpAccuracyNs f.ds.accuracy)) }
    sourceInfo k before (ptpJudge f.port s2)

/-- The offset that a receive stamp and an origin timestamp give, with the peer delay (R81, R131). -/
def ptpOffset (x : PtpPort) (rx : Stamp) (origin : Nat) : Int := (rx.ns : Int) - origin - x.peerDelay

/-- The peer delay of an exchange (R131): the round trip less the responder's turnaround, halved. Its two stamps are of one
generation, or it gives none. -/
def ptpDelay (tx rx : Stamp) (turnaround : Nat) (x : PtpPort) : PtpPort :=
  if tx.gen = rx.gen then { x with peerDelay := (rx.ns - tx.ns - turnaround) / 2, answered := none } else { x with answered := none }

/-- A measured offset of a PTP port. -/
def ptpMeasure (f : PtpMsg) (rx : Stamp) (s : State) : State :=
  if rx.gen = s.time.gen then noteOffset (f.port + 1) (ptpOffset (s.ptpP f.port) rx f.origin) s else s

/-- PTP_FRAME_RECEIVE (R81, R83, R128, R131): a message of the port's domain. An event message without a stamp gives no
measurement, nor does a follow-up of one. Stamps that the timebase has no use for stay queued (DESIGN CHOICE, log entry 225). -/
def ptpFrame (f : PtpMsg) (s : State) : State :=
  let idx := 0x3020 + f.port
  if f.port < s.ports && s.cf.u idx 1 0 1 != 0 && f.domain = s.cf.u idx 3 0 1 then
    let event := f.msgType = 0 || f.msgType = 2 || f.msgType = 3
    let (ts, s0) := if event then takeTs f.port (fun e => !e.tx && e.kind = f.msgType && e.domain = f.domain && e.seqId = f.seqId) s else (none, s)
    let x := s0.ptpP f.port
    let fromMaster := match x.best with | some (_, who) => who = f.sender | none => false
    match f.msgType with
    | 0x0B => ptpAnnounce f s0
    | 0 =>
      if !fromMaster then s0
      else
        let s1 := ptpJudge f.port (s0.setPtp f.port { x with syncAt := some s0.elapsed, synced := if f.twoStep then ts.map (fun e => (f.seqId, e.stamp)) else none })
        (match ts with
         | some e => if f.twoStep then s1 else ptpMeasure f e.stamp s1
         | none => s1)
    | 8 =>
      (match x.synced with
       | some (q, rx) => if fromMaster && q = f.seqId then ptpMeasure f rx (s0.setPtp f.port { x with synced := none }) else s0
       | none => s0)
    | 2 => if ts.isSome then s0.setPtp f.port { x with owed := x.owed ++ [f.seqId] } else s0
    | 3 =>
      let (tx, s1) := takeTs f.port (fun e => e.tx && e.kind = 2 && e.domain = f.domain && e.seqId = f.seqId) s0
      (match tx, ts with
       | some a, some b => s1.setPtp f.port (if f.twoStep then { s1.ptpP f.port with answered := some (f.seqId, a.stamp, b.stamp) }
           else ptpDelay a.stamp b.stamp f.turnaround (s1.ptpP f.port))
       | _, _ => s1)
    | 0x0A =>
      (match x.answered with
       | some (q, a, b) => if q = f.seqId then s0.setPtp f.port (ptpDelay a b f.turnaround x) else s0
       | none => s0)
    | _ => s0
  else s
def execPtpFrameReceive (dt : Nat) (f : PtpMsg) (s : State) : Host.Outcome State Fault Refusal := .next (s.act [.events, .stats, .free, .request, .journal, .time, .commits, .queues, .sched, .port, .acq, .bus, .align, .hr] dt (ptpFrame f))

/-- PTP_RECEIPT_TIMEOUT (R83): no Announce, or no Sync, within the profile's timeout. -/
def ptpTimeout (p : Nat) (s : State) : State :=
  if p < s.ports && s.cf.u (0x3020 + p) 1 0 1 != 0 then
    ptpJudge p (s.setPtp p { s.ptpP p with state := s.ptpState p none, best := none, announceAt := none, syncAt := none, synced := none })
  else s
def execPtpReceiptTimeout (dt port : Nat) (s : State) : Host.Outcome State Fault Refusal := .next (s.act [.events, .stats, .free, .request, .journal, .time, .commits, .queues, .sched, .acq, .bus, .align, .hr] dt (ptpTimeout port))

/-- A PTP message as it leaves (R128): its type, domain and sequenceId, and, in an Announce of a timebase that is not LOCKED, clockClass
248 at its place in IEEE 1588's layout (R82); the bytes no rule states are free (log entry 185). -/
def ptpBytes (k p type dom seq n : Nat) (locked : Bool) : Bytes :=
  let b := freeRun k 0 6 ++ toBE 6 (portMac p) ++ toBE 2 0x88F7 ++ freeRun k 14 n
  let h := overlay (overlay (overlay b 14 (toBE 1 (field b 14 1 / 16 * 16 + type))) 18 (toBE 1 dom)) 44 (toBE 2 seq)
  if type = 0x0B && !locked then overlay h 62 (toBE 1 248) else h

/-- PTP_TRANSMIT (R82, R122, R131): class 1; an event message requests its stamp, and a follow-up goes out only when the
stamp of its message is there. Announce and Sync go out of a port in MASTER state, Sync only in LOCKED. -/
def ptpTransmit (p type dom seq : Nat) (s : State) : State :=
  if p < s.ports && s.cf.u (0x3020 + p) 1 0 1 != 0 then
    let (k, s) := s.takeFree
    let x := s.ptpP p
    let master := x.state = 6
    let locked := s.time.state = .locked
    let send := fun (n : Nat) (stamp : Option (Nat × Nat × Nat)) (st : State) => portSend p 1 (ptpBytes k p type dom seq n locked) stamp st
    let follow := fun (kind : Nat) =>
      let (ts, s1) := takeTs p (fun e => e.tx && e.kind = kind && e.domain = dom && e.seqId = seq) s
      match ts with | some _ => send 44 none s1 | none => s1
    match type with
    | 0 => if master && locked then send 44 (some (0, dom, seq)) s else s
    | 2 => send 54 (some (2, dom, seq)) s
    | 3 => if x.owed.contains seq then send 54 (some (3, dom, seq)) (s.setPtp p { x with owed := x.owed.erase seq }) else s
    | 8 => if master && locked then follow 0 else s
    | 0x0A => follow 3
    | 0x0B => if master then send 64 none (s.setPtp p { x with announced := if locked then 0 else 248 }) else s
    | _ => s
  else s
def execPtpTransmit (dt port msgType domain seqId : Nat) (s : State) : Host.Outcome State Fault Refusal := .next (s.act [.events, .stats, .free, .time, .queues, .port] dt (ptpTransmit port msgType domain seqId))

/-! ## 1PPS and IRIG-B (R81, R83, R84, R102) -/

/-- An on-time mark is valid at 1 s ± 10 µs after the one before it, on the elapsed-time counter (R83). -/
def onTime (last : Option Nat) (at_ : Nat) : Bool := match last with | some t => ((at_ : Int) - t - 1000000000).natAbs ≤ 10000 | none => false

/-- The offset of 1PPS at an edge of this moment, less the cable delay at 0x3030.01: its phase, and the whole seconds of the
source that gives it time of day (R84). -/
def State.ppsOffset (s : State) : Int :=
  let phase := phaseOnly ((s.time.tai : Int) - s.cf.u 0x3030 1 0 4)
  match s.todSource with
  | some k => phase + 1000000000 * (((s.src k).offset - phase + 500000000) / 1000000000)
  | none => phase

/-- PPS_EDGE: a pulse of 1 µs to 500 ms; others are not 1PPS (R81; log entry 176). -/
def ppsEdge (width : Nat) (s : State) : State :=
  if width < 1000 || 500000000 < width then s
  else
    let good := onTime s.time.ppsLast s.elapsed
    let s1 := { s with time := { s.time with ppsLast := some s.elapsed } }
    if good then noteOffset 7 s1.ppsOffset (seeValid 7 s1) else disqualify 7 s1
def execPpsEdge (dt width : Nat) (s : State) : Host.Outcome State Fault Refusal := .next (s.act [.events, .stats, .free, .request, .journal, .time, .commits, .queues, .sched, .acq, .bus, .align, .hr] dt (ppsEdge width))

/-- The upper bound in ns that an IEEE 1344 time quality code names: 0 locked, n within 10^(n-1) ns up to 11; others none (R560). -/
def irigQualityNs (q : Nat) : Nat := if q = 0 then 0 else if q ≤ 11 then satErr (10 ^ (q - 1)) else unknownErr

/-- The TAI second of a frame's on-time marker: day and second of its year, in UTC. The year is the extension's, else the one at
0x3030.04; the UTC offset is the extension's, else the one in force (R81, R96, R102). -/
def State.irigTai (s : State) (f : IrigFrame) : Int :=
  let year : Int := match f.ext with | some e => 2000 + e.year % 100 | none => s.cf.u 0x3030 4 0 2
  let days := 365 * (year - 1970) + (year - 1969) / 4 + f.day - 1
  86400 * days + f.second + (match f.ext with | some e => e.utcOffset | none => s.time.utc)

/-- IRIGB_FRAME: valid when it decodes with its marker on time; the extension, when there, brings UTC offset, leap and
quality, of which code 15 is a clock fault. -/
def irigFrame (f : IrigFrame) (s : State) : State :=
  if s.cf.u 0x3030 2 0 1 = 0 then s
  else if !f.decodes then disqualify 8 s
  else
    let before := (s.src 8).utc
    let good := onTime s.time.irigLast (s.elapsed - f.ago)
    let s1 := { s with time := { s.time with irigExt := f.ext.isSome, irigLast := some (s.elapsed - f.ago) } }
    let put := fun (t : State) => t.setSrc 8 (match f.ext with
      | some e => { t.src 8 with utc := some e.utcOffset, leap := e.leap, inaccuracy := irigQualityNs e.quality, fault := e.quality = 15 }
      | none => { t.src 8 with utc := none, leap := 0, inaccuracy := 0, fault := false })
    let off := (s1.time.tai : Int) - f.ago - 1000000000 * s1.irigTai f - s1.cf.u 0x3030 3 0 4
    if good then sourceInfo 8 before (noteOffset 8 off (seeValid 8 (put s1)))
    else put (disqualify 8 (sourceInfo 8 before (put s1)))
def execIrigbFrame (dt : Nat) (f : IrigFrame) (s : State) : Host.Outcome State Fault Refusal := .next (s.act [.events, .stats, .free, .request, .journal, .time, .commits, .queues, .sched, .acq, .bus, .align, .hr] dt (irigFrame f))

/-! ## Leap commands, PPS_OUT -/

/-- LEAP_PENDING_START (R97): 60 s before the leap. -/
def leapPendStart (s : State) : State :=
  if s.time.leap != 0 && s.time.leapAt ≤ s.time.tai + 60000000000 then { s with time := { s.time with leapPend := true } } else s
def execLeapPendingStart (dt : Nat) (s : State) : Host.Outcome State Fault Refusal := .next (s.act [.time] dt leapPendStart)

/-- The journal takes the configured UTC offset, as part of the live configuration (R97): into the stored one, and beside it, where every
start and every image finds it, until a commit sets the offset. -/
def journalUtc (s : State) : State :=
  let bs := s.cf.bytes 0x3050 1 0 4
  let stored := s.jrn.cfgValid && (s.upd.settings != 2 || s.upd.committed)
  let cells := if stored then Memory.writes s.variant s.jrn.cfg (cfgAddr 0x3050 1 0) bs else s.jrn.cfg
  { s with time := { s.time with utcOwed := false }, jrn := { s.jrn with utc := some (signedOf 4 (ofBE bs)), cfg := cells } }

/-- The configured UTC offset takes a new value in the live configuration (R97), and in the journal; under the warning that
waits (R73). -/
def setConfiguredUtc (u : Int) (s : State) : State :=
  let s1 := { s with cfg := { s.cfg with live := Memory.writes s.variant s.cfg.live (cfgAddr 0x3050 1 0) (toBEi 4 (max 0 (min 100 u))) } }
  if s1.power.failState = 0 then journalUtc s1 else { s1 with time := { s1.time with utcOwed := true } }

/-- LEAP_OCCUR (R97). -/
def leapOccur (s : State) : State :=
  if s.time.leap != 0 && s.time.leapAt ≤ s.time.tai then
    let ins := s.time.leap = 1
    let u := s.time.utc + (if ins then 1 else -1)
    let s1 := { s with time := { s.time with utc := u, leap := 0, leapPend := false, leapDone := true, doneAt := s.time.leapAt, doneDel := !ins, leapByHand := false,
                                             leapDoneAt := s.elapsed + (if ins then 1000000000 else 0) } }
    raise 0x15 0 3 (if s.utcSource.isNone then setConfiguredUtc u s1 else s1)
  else s
def execLeapOccur (dt : Nat) (s : State) : Host.Outcome State Fault Refusal := .next (s.act [.events, .journal, .stored, .time, .config] dt leapOccur)

/-- LEAP_OCCURRED_CLEAR (R97): 24 h after the leap. -/
def leapClear (s : State) : State :=
  if s.time.leapDone && s.time.leapDoneAt + 86400000000000 ≤ s.elapsed then { s with time := { s.time with leapDone := false } } else s
def execLeapOccurredClear (dt : Nat) (s : State) : Host.Outcome State Fault Refusal := .next (s.act [.time] dt leapClear)

/-- PPS_OUT_PULSE (R90): on a TAI second, while enabled. -/
def ppsPulse (s : State) : State :=
  if s.cf.u 0x3040 6 0 1 = 1 && s.time.tai % 1000000000 = 0 then { s with time := { s.time with ppsOut := true, ppsOutAt := s.elapsed } } else s
def execPpsOutPulse (dt : Nat) (s : State) : Host.Outcome State Fault Refusal := .next (s.act [.time] dt ppsPulse)

/-- The level of PPS_OUT: high for 10 ms. -/
def State.ppsLevel (s : State) : Bool := s.power.phase = .running && s.time.ppsOut && s.elapsed < s.time.ppsOutAt + 10000000 && s.cf.u 0x3040 6 0 1 = 1

/-- A commit of 0x3050.05 at T_c (R97, R561). -/
def manualLeap (v : Nat) (s : State) : State :=
  let carried := match s.inUse with | some k => s.carriesLeap k | none => false
  if carried then s else if v = 0 then cancelLeap s else if s.time.leapPend then s else schedule v true s

/-- A commit at T_c: priorities, roles and the configured UTC offset. -/
def timeCommit (o : Cf) (staged : Nat → Nat → Bool) (s : State) : State :=
  let n := s.cf
  let s1 := each (List.range s.ports) (fun p st =>
    if o.u (0x3020 + p) 1 0 1 != n.u (0x3020 + p) 1 0 1 || o.u (0x3020 + p) 3 0 1 != n.u (0x3020 + p) 3 0 1 then
      ptpJudge p (st.setPtp p { peerDelay := (st.ptpP p).peerDelay }) else st) s
  let s2 := if o.u 0x3030 2 0 1 != n.u 0x3030 2 0 1 then disqualify 8 s1 else s1
  let s3 := if o.u 0x3050 1 0 4 != n.u 0x3050 1 0 4 && s2.utcSource.isNone then takeUtc s2 else s2
  let s4 := if staged 0x3050 5 then manualLeap (n.u 0x3050 5 0 1) s3 else s3
  selectSource s4

end Sys2Proof.Machine
end

