-- ==== Sys2Proof/Machine/ModeCore.lean ====
section
/-! DEFINITION. The mode controller's shared parts (R57 to R62, R491, R492): which fences apply, entering a mode, the
automatic transitions. -/
namespace Sys2Proof.Machine
open Sys2Proof

/-! ## Fences (R491, R492) -/

/-- The Mode column of R491: 0 none, 1 DEGRADED, 2 SAFE. -/
def fenceMode (unit : Nat) : Nat :=
  if unit = 19 then 0 else if [4, 6, 7, 9, 13, 14, 15, 16].contains unit then 2 else 1

/-- The logical lanes of a unit that carry valid work, for the units whose lanes carry configured work (R492). -/
def workLanes (c : Cf) (unit : Nat) : List Nat :=
  match unit with
  | 1 => dedup (((c.recs 0x4100 1 32).filter (ctxValid c)).map (· / 512))
  | 2 => dedup (((c.recs 0x5100 1 32).filter (chanValid c)).map (· / 32))
  | 3 => dedup (((c.recs 0x5300 1 32).filter (estValid c)).map (· / 16))
  | 4 => dedup (((List.range 16).filter (fun g => agFlag c g 0)).map (· / 4))
  | 5 => modeGroups c
  | 8 => dedup (((List.range 16).filter (groupValid c)).map (· / 4))
  | _ => []

/-- The fence of a lost logical lane applies (R492). -/
def fenceApplies (c : Cf) (x : Nat × Nat) : Bool :=
  fenceMode x.1 != 0 && (!([1, 2, 3, 4, 5, 8].contains x.1) || (workLanes c x.1).contains x.2)

/-- The gravest mode that an applying fence leads to: 0 none, 1 DEGRADED, 2 SAFE. -/
def State.fenceLevel (s : State) : Nat :=
  (s.cop.lost.filter (fenceApplies s.cf)).foldl (fun m x => max m (fenceMode x.1)) 0

/-- The margin has been below 1000 per mille for 100 ms (R40). -/
def State.paceDeficit (s : State) : Bool :=
  match s.pace.below with | some (t, _) => decide (t + 100000000 ≤ s.elapsed) | none => false

/-! ## Entering a mode -/

/-- What the units change as the mode changes: not the mode. -/
def unitParts : List Part := [.events, .stats, .free, .queues, .sched, .acq, .ingest, .chain, .hr, .alarm, .goose, .out, .osc, .isl, .cop]

/-- The units that a mode leaves stop (R57). -/
def unitsLeave (old m : Mode) (s : State) : State :=
  when (old.full && !m.full) (fun t => oscStop (acqStop t))
    (when (m != .zeroized) (fun t => when (old.forms && !m.forms && !t.draining) setAlarmsFreeze (when (old.full && !m.full) oscAlarmsFreeze t)) s)

/-- What works on sets stops: output sessions, publications, the islanding engine (R57, R58). -/
def setUnitsStop (s : State) : State := outStop (gooseStop (islStop s))

/-- The units that a mode runs begin; what works on sets stops with them, and after a stop instant once the last of them has
been published (R57, R58). -/
def unitsEnter (old m : Mode) (s : State) : State :=
  let s3 := coppiceMode old m s
  let s4 := when (!old.ingests && m.ingests) ingestStart s3
  let s5 := when (!old.forms && m.forms) (fun t => outStart (gooseStart (islStart (chainStart t)))) s4
  let s5 := when (old.forms && m = .operate) gooseRenew s5
  let s6 := when (!old.full && m.full) (fun t => oscStart (acqStart t)) s5
  when (old.forms && !m.forms && !s.draining) setUnitsStop s6

/-- No previous configuration is held (R19). -/
def dropPrevious (s : State) : State := { s with cfg := { s.cfg with prev := none, spent := s.cfg.prev <|> s.cfg.spent } }

/-- A transition (R57, R58): the units that its mode runs begin, those it does not run stop; with no sets forming no previous
configuration is held (R19). -/
def toMode (m : Mode) (cause : Nat) (s : State) : State :=
  let old := s.mode.cur
  let s1 := enterMode m cause (s.within unitParts (unitsLeave old m s))
  let s2 := s1.within unitParts (unitsEnter old m s1)
  when (old.forms && !m.forms && !s.draining) dropPrevious s2

/-- A drain ends: what works on sets stops, and the transition is over (R58). -/
def drainEnd (s : State) : State :=
  let s1 := { s with mode := { s.mode with pend := none } }
  dropPrevious (s1.within unitParts (setUnitsStop (setAlarmsFreeze s1)))

/-- The conditions of a return from DEGRADED hold from now on, or do not (R59). -/
def judgeReturn (s : State) : State :=
  let clear := s.mode.cur = .degraded && s.fenceLevel = 0 && s.pace.below.isNone
  { s with mode := { s.mode with clearSince := if clear then some (s.mode.clearSince.getD s.elapsed) else none } }

/-- A fence has come to apply, or to apply no more (R59). -/
def judgeFences (s : State) : State :=
  let l := s.fenceLevel
  let s1 := if s.mode.cur.full && l = 2 then toMode .safe 0x0102 s
    else if s.mode.cur = .operate && l = 1 then toMode .degraded 0x0102 s else s
  judgeReturn s1

/-- 0x1100.03: 0 OK, 1 REJECTED, 2 BUSY, 3 PENDING. -/
def setReq (n : Nat) (s : State) : State := { s with mode := { s.mode with reqStatus := n } }

/-- EV_MODE_REQ_REJECTED (R559). -/
def rejectReq (code : Nat) (s : State) : State := raise 0x07 0 (s.mode.cur.code * 256 + code) (setReq 1 s)

/-- A transition that waits for its instant of R58. -/
def pendMode (target : Mode) (cause : Nat) (activate : Bool) (s : State) : State :=
  { s with mode := { s.mode with pend := some { target := target, atNs := effInstant s.time.tai, gen := s.time.gen, cause := cause, activate := activate } } }

/-- OPERATE_START (R58, R59): the conditions are tested again. A mode resumed under R476 is entered here as well. -/
def operateStart (s : State) : State :=
  match s.mode.pend with
  | some p =>
    if p.target.forms && p.gen = s.time.gen && p.atNs ≤ s.time.tai && s.mode.cur = .standby then
      let s1 := { s with mode := { s.mode with pend := none } }
      if p.target = .operate && s1.fenceLevel = 2 then rejectReq 4 s1
      else
        let m : Mode := if p.target != .operate then p.target else if s1.fenceLevel = 1 || s1.paceDeficit then .degraded else .operate
        judgeReturn (setReq 0 (toMode m p.cause (alignStart p.atNs s1)))
    else s
  | none => s
def execOperateStart (dt : Nat) (s : State) : Host.Outcome State Fault Refusal := .next (s.act [.events, .stats, .free, .mode, .request, .journal, .previous, .queues, .sched, .acq, .ingest, .chain, .align, .hr, .alarm, .goose, .out, .osc, .isl, .cop] dt operateStart)

/-- STOP_INSTANT (R58, R476): the transition to STANDBY takes effect. No further set opens; those opened before run to their
final close, with what works on them (log entry 171). -/
def stopInstant (s : State) : State :=
  match s.mode.pend with
  | some p =>
    if p.target = .standby && !p.stopped && p.gen = s.time.gen && p.atNs ≤ s.time.tai then
      let left := if p.activate && s.upd.state = 3 then some s.mode.cur else s.upd.left
      toMode .standby p.cause { s with mode := { s.mode with pend := some { p with stopped := true } }, upd := { s.upd with left := left } }
    else s
  | none => s
def execStopInstant (dt : Nat) (s : State) : Host.Outcome State Fault Refusal := .next (s.act [.events, .stats, .free, .mode, .request, .journal, .previous, .queues, .sched, .acq, .ingest, .chain, .hr, .alarm, .goose, .out, .osc, .isl, .cop, .upd] dt stopInstant)

/-- DEGRADED_RETURN (R59). -/
def degradedReturn (s : State) : State :=
  match s.mode.clearSince with
  | some t => if s.mode.cur = .degraded && t + s.cf.u 0x1100 0x0C 0 4 * 1000000 ≤ s.elapsed then toMode .operate 0x0104 s else s
  | none => s
def execDegradedReturn (dt : Nat) (s : State) : Host.Outcome State Fault Refusal := .next (s.act [.events, .stats, .free, .mode, .journal, .previous, .queues, .sched, .acq, .ingest, .chain, .hr, .alarm, .goose, .out, .osc, .isl, .cop] dt degradedReturn)

/-! ## Pace monitor (R38 to R40) -/

/-- PACE_WINDOW (R38, R39): a 1 ms window ends with the handshake rates of the rings. -/
def paceWindow (rates : List Nat) (s : State) : State :=
  let rings := (List.range 8).filter (fun r => !s.fenced 19 r)
  let rate := fun (r : Nat) => satBits 32 (rates.getD r 0)
  match rings with
  | [] => s
  | first :: rest =>
    let ring := rest.foldl (fun b r => if rate r < rate b then r else b) first
    let m := satBits 16 (rate ring * 1000 / 1000)
    let low := m < s.pace.lowestMargin
    let below := if m < 1000 then some (match s.pace.below with | some (t, l) => (t, min l m) | none => (s.elapsed, m)) else none
    let th := s.cf.u 0x1030 4 0 2
    let fires := m < th && s.pace.lowArmed
    let p := { s.pace with measured := rate ring, margin := m, ring := ring, lowestMargin := if low then m else s.pace.lowestMargin,
                           lowestRing := if low then ring else s.pace.lowestRing, windowDone := true, below := below,
                           deficitRaised := s.pace.deficitRaised && below.isSome,
                           lowArmed := if fires then false else s.pace.lowArmed || decide (th + 50 ≤ m) }
    let s1 := { s with pace := p }
    judgeReturn (if fires then raise 0x04 0 m (count 0x1030 8 s1) else s1)
def execPaceWindow (dt : Nat) (rates : List Nat) (s : State) : Host.Outcome State Fault Refusal := .next (s.act [.events, .stats, .pace, .mode] dt (paceWindow rates))

/-- PACE_DEFICIT (R40, R59). -/
def paceDeficit (s : State) : State :=
  match s.pace.below with
  | some (_, l) =>
    if s.paceDeficit && !s.pace.deficitRaised then
      let s1 := raise 0x05 0 l (count 0x1030 9 { s with pace := { s.pace with deficitRaised := true } })
      if s1.mode.cur = .operate then judgeReturn (toMode .degraded 0x0103 s1) else s1
    else s
  | none => s
def execPaceDeficit (dt : Nat) (s : State) : Host.Outcome State Fault Refusal := .next (s.act [.events, .stats, .free, .pace, .mode, .journal, .previous, .queues, .sched, .acq, .ingest, .chain, .hr, .alarm, .goose, .out, .osc, .isl, .cop] dt paceDeficit)

/-- CLEAR_LOWEST_MARGIN: 0x1030.07. Before the first window it changes nothing. -/
def clearLowest (_n : Nat) (s : State) : State :=
  if s.pace.windowDone then { s with pace := { s.pace with lowestMargin := s.pace.margin, lowestRing := s.pace.ring } } else s
def execClearLowestMargin (dt : Nat) (m : Msg) (v : List (BitVec 8)) (s : State) : Host.Outcome State Fault Refusal :=
  .next (s.act [.events, .stats, .pace, .sessions, .keyPort] dt (onWrite m 0x1030 7 v (okWrite clearLowest)))

end Sys2Proof.Machine
end

