-- ==== Sys2Proof/Machine/Key.lean ====
section
/-! DEFINITION. Privet (R440 to R468): key commands, revocation, the root, the life cycle, destruction, tamper, masking;
and its commands. -/
namespace Sys2Proof.Machine
open Sys2Proof

/-! ## Slots (R445, R446) -/

def State.setKey (s : State) (k : KeyU) : State := { s with key := k }
def lifeCode (l : Life) : Nat := match l with | .manufacture => 0 | .provisioned => 1 | .operational => 2 | .rma => 3 | .scrapped => 4

/-- The usage bits a kind allows. -/
def kindUsage (kind : Nat) : Nat := match kind with | 1 => 4 | 2 => 7 | 3 => 8 | 4 => 32 | 5 => 16 | _ => 0

/-- The parent chain of a slot reaches a slot. -/
def chainReaches (slots : Table KeySlot) (target k fuel : Nat) : Bool :=
  match fuel with
  | 0 => false
  | n + 1 =>
    let p := (Table.getD slots k {}).parent
    if 512 ≤ p then false else p = target || chainReaches slots target p n

/-- The descendants of a slot: slots not empty whose parent chain reaches it. -/
def KeyU.descendants (k : KeyU) (slot : Nat) : List Nat :=
  (Table.keys k.slots).filter (fun n => (Table.getD k.slots n {}).state != 0 && chainReaches k.slots slot n 512)

/-- The key check value of a slot (R445). -/
def kcv (x : KeySlot) : Nat :=
  if x.state = 0 then 0
  else if x.kind = 4 then field (sha256 x.point) 0 4
  else field (hmac x.mat.key (ascii "PRIVET KCV")) 0 4

/-- A record of the slot table 0xA100.01. -/
def KeyU.slotBytes (k : KeyU) (n : Nat) : Bytes :=
  let x := Table.getD k.slots n {}
  toBE 1 x.state ++ toBE 1 x.kind ++ toBE 2 x.usage ++ toBE 2 x.parent ++ toBE 1 x.scope ++ toBE 1 x.origin ++ toBE 4 x.copy ++ toBE 4 x.version ++
    toBE 4 (kcv x) ++ toBE 2 (k.descendants n).length ++ toBE 4 x.revSeq ++ toBE 6 (Table.getD k.uses n 0)

/-- No area is left for a root (R443). -/
def KeyU.areaFree (k : KeyU) : Bool := k.roots.any (fun r => !r.used)

/-- 0xA000.02: DESTROYED after a destruction, but that a returned device with no area left reads NO_ROOT_AREA (R460, R465); then
TRNG_FAIL, with a root or without (R441). -/
def KeyU.stateCode (k : KeyU) : Nat :=
  if k.destroyed then (if k.inForce.isNone && !k.areaFree && k.life = .rma then 3 else 4)
  else if k.trngFail then 2
  else if k.inForce.isSome then 1
  else if k.areaFree then 0 else 3

/-- The zeroize flag (R460). -/
def KeyU.zeroized (k : KeyU) : Bool := k.zeroize % 2 = 1

/-! ## Key commands (R450 to R456) -/

/-- Length of the data of a block (R451); `derived`: an UPDATE of a derived key. -/
def keyDataLen (b : Bytes) (derived : Bool) : Nat :=
  let cmd := field b 0 1
  if cmd = 1 || (cmd = 5 && !derived) then 60
  else if cmd = 2 then 32 else if cmd = 3 then 97
  else if cmd = 4 || cmd = 5 then field b 16 2 + field b 18 2 else 0

/-- The key that the data of a block holds, under its source slot, with bytes 0 to 31 of the block as additional data; none when the
tag fails (R451). -/
def State.unwrapped (s : State) (b : Bytes) : Option Bytes :=
  gcmOpen (s.kslot (field b 4 2)).mat.key (slice b 32 12) (b.take 32) (b.drop 44)

/-- The checks of R450 to R453, in the order of the table and then of R451 to R453: 0, or the reason of R466. -/
def State.keyReason (s : State) (b : Bytes) : Nat :=
  let cmd := field b 0 1
  let target := field b 2 2
  let src := field b 4 2
  let kind := field b 6 1
  let usage := field b 8 2
  let x := s.kslot target
  let y := s.kslot src
  let derived := cmd = 5 && x.origin = 1
  let wraps := cmd = 1 || (cmd = 5 && !derived)
  let life := lifeCode s.key.life
  let kids := s.key.descendants target
  if b.length < 32 || cmd = 0 || 7 < cmd || field b 1 1 != 0 then 5
  else if target = 0 || 511 < target then 2
  else if (wraps || cmd = 4) && (src = 0 || 511 < src) then 3
  else if cmd ≤ 5 && (kind = 0 || 5 < kind) then 4
  else if cmd ≤ 5 && !bit (field b 7 1) life then 1
  else if cmd ≤ 5 && usage.land (kindUsage kind) != usage then 4
  else if field b 10 2 != 0 || ((cmd = 4 || derived) && (64 < field b 16 2 || 64 < field b 18 2)) || ofBE (slice b 20 12) != 0 ||
      b.length != 32 + keyDataLen b derived then 5
  else if cmd = 2 && (s.mode.cur != .provision || s.key.inForce.isNone) then 1
  else if cmd ≤ 4 && (x.state != 0 || (Table.keys s.key.slots).any (fun n => (s.kslot n).state != 0 && (s.kslot n).parent = target)) then 2
  else if (cmd = 5 || cmd = 6) && x.state != 1 then 2
  else if cmd = 7 && x.state = 0 then 2
  else if wraps && (y.state != 1 || y.kind != 5 || !bit y.usage 4) then 3
  else if cmd = 4 && (y.state != 1 || y.kind != 3 || !bit y.usage 3) then 3
  else if derived && ((s.kslot x.parent).state != 1 || (s.kslot x.parent).kind != 3) then 3
  else if (cmd = 3) != (kind = 4) && cmd ≤ 4 then 4
  else if cmd = 5 && (kind != x.kind || usage != x.usage || field b 7 1 != x.scope || kind = 4 || kind = 5) then 4
  else if cmd = 5 && field b 12 4 ≤ x.version then 7
  else if wraps && (s.unwrapped b).isNone then 6
  else if cmd = 3 && !onP384 (b.drop 32) then 5
  else if cmd = 7 && !kids.isEmpty then 8
  else 0

/-- The result record takes an outcome (R466). -/
def keyResult (cmd status reason target revoked us : Nat) (s : State) : State :=
  let s1 := s.setKey { s.key with result := { s.key.result with cmd := cmd, status := status, reason := reason, target := target, revoked := revoked, us := us } }
  when (status = stRejected) (count 0xA080 7) s1

/-- What the target slot will hold (R451). -/
def nextSlot (b : Bytes) (s : State) : Option KeySlot × State :=
  let cmd := field b 0 1
  let target := field b 2 2
  let src := field b 4 2
  let x := s.kslot target
  let derived := cmd = 5 && x.origin = 1
  let base : KeySlot := { state := 1, kind := field b 6 1, usage := field b 8 2, scope := field b 7 1, copy := (x.copy + 1) % 2 ^ 32, version := field b 12 4,
                          parent := if cmd = 4 then src else if cmd = 5 then x.parent else 0xFFFE,
                          origin := if cmd = 5 then x.origin else match cmd with | 1 => 2 | 2 => 3 | 3 => 4 | _ => 1 }
  let label := slice b 32 (field b 16 2)
  let context := slice b (32 + field b 16 2) (field b 18 2)
  if cmd = 3 then (some { base with point := b.drop 32 }, s)
  else if cmd = 6 then (none, s)
  else if cmd = 7 then (some {}, s)
  else
    let key := if cmd = 2 then BitVec.ofNat 256 (field b 32 32)
      else if cmd = 4 || derived then kdf (s.kslot (if derived then x.parent else src)).mat.key label context
      else BitVec.ofNat 256 (ofBE ((s.unwrapped b).getD []))
    let (sh, s1) := freshShares key s
    (some { base with mat := sh }, s1)

/-- A command block is written (R454; R476 while an activation runs): answered PENDING, with the outcome in the result record. While the
key area is being erased no copy can be programmed, and it is BUSY (DEDUCED, log entry 218). -/
def keyWrite (b : Bytes) (x : Session) (s : State) : Nat × State :=
  if x.anon && (s.mode.cur != .provision || field b 0 1 != 2) then (stRejected, s)
  else if s.key.cmd.isSome || s.power.failState != 0 || s.key.stateCode != 1 || s.key.erasing || s.upd.state = 3 then (stBusy, s)
  else
    let cmd := field b 0 1
    let target := field b 2 2
    let r := s.keyReason b
    let s1 := s.setKey { s.key with result := { s.key.result with seq := (s.key.result.seq + 1) % 2 ^ 32 } }
    if r != 0 then (stPending, keyResult cmd stRejected r target 0 0 s1)
    else
      let (next, s2) := nextSlot b s1
      let s3 := keyResult cmd stPending 0 target 0 0 s2
      (stPending, s3.setKey { s3.key with block := b.take 32 ++ zeros (b.length - 32), cmd := some { cmd := cmd, target := target, next := next, at_ := s.elapsed } })

/-- A write of 0xA200.01 whose first byte is the command's code; a block of another code is another command. -/
def keyCommand (code dt : Nat) (m : Msg) (v : Bytes) (s : State) : Host.Outcome State Fault Refusal :=
  .next (s.act [.events, .stats, .free, .sessions, .keyCmd, .keyPort] dt (fun t => if field v 0 1 = code && !v.isEmpty then onWrite m 0xA200 1 v (fun x _ => keyWrite v x) t else t))
def execKeyImportWrapped (dt : Nat) (m : Msg) (v data : List (BitVec 8)) (s : State) : Host.Outcome State Fault Refusal := keyCommand 1 dt m (v ++ data) s
def execKeyImportClear (dt : Nat) (m : Msg) (v : List (BitVec 8)) (s : State) : Host.Outcome State Fault Refusal := keyCommand 2 dt m v s
def execKeyImportPublic (dt : Nat) (m : Msg) (v data : List (BitVec 8)) (s : State) : Host.Outcome State Fault Refusal := keyCommand 3 dt m (v ++ data) s
def execKeyDerive (dt : Nat) (m : Msg) (v : List (BitVec 8)) (s : State) : Host.Outcome State Fault Refusal := keyCommand 4 dt m v s
def execKeyUpdate (dt : Nat) (m : Msg) (v data : List (BitVec 8)) (s : State) : Host.Outcome State Fault Refusal := keyCommand 5 dt m (v ++ data) s
def execKeyRevoke (dt : Nat) (m : Msg) (v : List (BitVec 8)) (s : State) : Host.Outcome State Fault Refusal := keyCommand 6 dt m v s
def execKeyDestroy (dt : Nat) (m : Msg) (v : List (BitVec 8)) (s : State) : Host.Outcome State Fault Refusal := keyCommand 7 dt m v s

/-! ## Copies in the key area (R448, R455) -/

/-- What the tag of a copy covers beside the material: the slot's number and bytes 0 to 15 of its record, the commit counter among
them (log entry 217). -/
def copyHead (n : Nat) (x : KeySlot) : Bytes :=
  toBE 2 n ++ toBE 1 x.state ++ toBE 1 x.kind ++ toBE 2 x.usage ++ toBE 2 x.parent ++ toBE 1 x.scope ++ toBE 1 x.origin ++ toBE 4 x.copy ++ toBE 4 x.version

/-- The copy of a slot under the storage wrap key. -/
def copySeal (wrap : BitVec 256) (n : Nat) (iv : Bytes) (x : KeySlot) : KeyCopy :=
  { row := { x with mat := {}, point := [] }, iv := iv,
    body := gcmSeal wrap iv (copyHead n x) (if x.kind = 4 then x.point else toBE 32 x.mat.key.toNat) }

/-- The material of a copy whose tag verifies. -/
def copyOpen (wrap : BitVec 256) (n : Nat) (c : KeyCopy) : Option Bytes := gcmOpen wrap c.iv (copyHead n c.row) c.body

/-- A slot's copy is written in the place that is not in force: successive commit counters take the two places in turn. -/
def writeCopy (n : Nat) (x : KeySlot) (s : State) : State :=
  let (f, s1) := s.takeFree
  s1.setKey { s1.key with copies := Table.put s1.key.copies (2 * n + x.copy % 2) (copySeal s1.key.wrap.key n (freeIv f) x) }

/-- Both copies of a slot are gone. -/
def dropCopies (n : Nat) (s : State) : State :=
  s.setKey { s.key with copies := Table.drop (Table.drop s.key.copies (2 * n)) (2 * n + 1), uses := Table.drop s.key.uses n }

/-- The revocation of a slot and its descendants, in one step (R456, R457): how many became revoked. -/
def revoke (target seq : Nat) (s : State) : Nat × State :=
  let who := (target :: s.key.descendants target).filter (fun n => (s.kslot n).state = 1 || (s.kslot n).state = 3)
  let slots := who.foldl (fun t n => Table.put t n { Table.getD t n {} with state := 2, revSeq := seq }) s.key.slots
  (who.length, s.setKey { s.key with slots := slots, revJournal := s.key.revJournal ++ [(target, seq)] })

/-- The command's write has been verified: it takes effect (R454 to R457). -/
def keyApply (k : KeyCmd) (s : State) : State :=
  let us := (s.elapsed - k.at_) / 1000
  let seq := s.key.result.seq
  let s0 := s.setKey { s.key with cmd := none }
  match k.next with
  | none =>
    let (n, s1) := revoke k.target seq s0
    raise 0xD1 k.target ((n - 1) * 65536 + k.target) (keyResult k.cmd stOk 0 k.target n us s1)
  | some x =>
    let s1 := if k.cmd = 7 then dropCopies k.target (s0.setKslot k.target x) else writeCopy k.target x (s0.setKslot k.target x)
    let s2 := if k.cmd = 7 then s1.setKey { s1.key with revJournal := s1.key.revJournal.filter (fun p => p.1 != k.target) } else s1
    let s3 := if k.cmd = 5 then
        { s2 with osr := { s2.osr with sessions := s2.osr.sessions.map (fun y => if !y.anon && y.slot = k.target && y.dueAt.isNone then { y with dueAt := some s.elapsed } else y) } }
      else s2
    raise 0xD0 k.target (k.cmd * 2 ^ 24 + seq % 2 ^ 24) (keyResult k.cmd stOk 0 k.target 0 us s3)

/-- A command in progress ends without effect, its copy not verified (R466, reason 9). -/
def abandonKeyCmd (s : State) : State :=
  match s.key.cmd with
  | none => s
  | some k => keyResult k.cmd stRejected 9 k.target 0 ((s.elapsed - k.at_) / 1000) (s.setKey { s.key with cmd := none })

/-- KEY_COMMAND_COMPLETE (R454): a verify that fails is tried once more; a second failure leaves the old copy. Under the warning
no second try is begun (R73): the command is abandoned (R67; log entry 173). -/
def keyComplete (ok : Bool) (s : State) : State :=
  match s.key.cmd with
  | none => s
  | some k =>
    if ok then keyApply k s
    else if !k.retried && s.power.failState = 0 then s.setKey { s.key with cmd := some { k with retried := true } }
    else abandonKeyCmd s
def execKeyCommandComplete (dt : Nat) (verifyOk : Bool) (s : State) : Host.Outcome State Fault Refusal := .next (s.act [.events, .stats, .free, .sessions, .keys, .keyPort, .keyCmd] dt (keyComplete verifyOk))

/-! ## Root (R442, R443) -/

/-- TRNG_OUTPUT (R441): three failures in a row stop it, 16 passes in a row bring it back. -/
def trngOutput (repOk propOk : Bool) (s : State) : State :=
  let k := s.key
  if repOk && propOk then
    let g := k.trngGood + 1
    s.setKey { k with trngBad := 0, trngGood := if k.trngFail && g < 16 then g else 0, trngFail := k.trngFail && decide (g < 16) }
  else
    let b := k.trngBad + 1
    let s1 := s.setKey { k with trngBad := min b 3, trngGood := 0, trngFail := k.trngFail || decide (3 ≤ b) }
    if !k.trngFail && 3 ≤ b then raise 0xD4 0 (b2n (!repOk) + 2 * b2n (!propOk)) s1 else s1
def execTrngOutput (dt : Nat) (repOk propOk : Bool) (s : State) : Host.Outcome State Fault Refusal := .next (s.act [.events, .tamper] dt (trngOutput repOk propOk))

/-- Outputs are drawn until one passes its tests; a key store that reads TRNG_FAIL draws no more (R441, R442). -/
def drawPassing (draws : List TrngTest) (s : State) : Bool × State :=
  match draws with
  | [] => (false, s)
  | d :: r =>
    let s1 := trngOutput d.rep d.prop s
    if d.rep && d.prop then (true, s1) else if s1.key.trngFail then (false, s1) else drawPassing r s1

/-- The 256 bits of a root area: the root in two blocks of AES-256 under the die key, and back (R440; log entry 217). -/
def wrapRoot (root : BitVec 256) : BitVec 256 :=
  let ks := roundKeys Config.dieKey
  BitVec.ofNat 256 (aesBlock ks (root.toNat / 2 ^ 128) * 2 ^ 128 + aesBlock ks (root.toNat % 2 ^ 128))
def unwrapRoot (word : BitVec 256) : BitVec 256 :=
  let ks := roundKeys Config.dieKey
  BitVec.ofNat 256 (aesInverse ks (word.toNat / 2 ^ 128) * 2 ^ 128 + aesInverse ks (word.toNat % 2 ^ 128))

/-- The storage wrap key of a root (R440). -/
def storageKey (root : BitVec 256) : BitVec 256 := kdf root (ascii "PRIVET STORAGE") []

/-- The write of 0xA000.05. An area whose programming fails holds a free value. -/
def rootWrite (draws : List TrngTest) (programmed : Bool) (_x : Session) (_n : Nat) (s : State) : Nat × State :=
  let k := s.key
  if s.mode.cur != .provision || k.inForce.isSome || !k.areaFree || k.trngFail then (stRejected, s)
  else if s.power.failState != 0 then (stBusy, s)
  else
    let (drawn, s0) := drawPassing draws s
    if !drawn then (stRejected, s0)
    else
      let i := (k.roots.findIdx (fun r => !r.used))
      let (n, s1) := s0.takeFree
      let root := Config.free256 n
      let area : RootArea := { used := true, complete := programmed, word := if programmed then wrapRoot root else root }
      let s2 := s1.setKey { s1.key with roots := s1.key.roots.set i area }
      if !programmed then (stRejected, s2)
      else
        let (sh, s3) := freshShares (storageKey root) s2
        (stOk, s3.setKey { s3.key with inForce := some i, wrap := sh, destroyed := false })
def execGenerateRoot (dt : Nat) (m : Msg) (v : List (BitVec 8)) (draws : List TrngTest) (programmed : Bool) (s : State) : Host.Outcome State Fault Refusal :=
  .next (s.act [.events, .stats, .free, .sessions, .keys, .tamper, .keyPort] dt (onWrite m 0xA000 5 v (rootWrite draws programmed)))

/-! ## Destruction of everything (R61, R463, R464) -/

/-- From ZEROIZED a device under RMA with a root area free passes to PROVISION at once; the flag is cleared (R460). -/
def returnPassage (s : State) : State :=
  if s.mode.cur = .zeroized && s.key.life = .rma && s.key.areaFree then
    toMode .provision 0x0108 (s.setKey { s.key with zeroize := (s.key.zeroize + 1) % 16, destroyed := false })
  else s

/-- A root area with every bit programmed (R464 step 3). -/
def RootArea.burnt : RootArea := { used := true, complete := true, word := BitVec.allOnes 256 }

/-- A key command in progress ends REJECTED, since its slot and its wrap key are gone: reason 1 (DEDUCED, log entry 218). -/
def endKeyCmd (s : State) : State :=
  match s.key.cmd with
  | none => s
  | some k => keyResult k.cmd stRejected 1 k.target 0 ((s.elapsed - k.at_) / 1000) (s.setKey { s.key with cmd := none })

/-- Steps 1 to 3 of R464 and the erase of step 5 begun: keys, root and wrap key are gone, the zeroize flag is set. -/
def wipeKeys (s0 : State) : State :=
  let s := endKeyCmd s0
  let k := s.key
  let gone := k.waiting.length + b2n k.sym.isSome + b2n k.asym.isSome
  let last := (k.waiting.getLast?.orElse (fun _ => k.sym.orElse (fun _ => k.asym))).map (fun j => (j.req, stRevoked, []))
  let roots := match k.inForce with
    | some i => k.roots.set i .burnt
    | none => k.roots
  countN 0xA080 4 gone (s.setKey { k with slots := [(0, Table.getD k.slots 0 {})], uses := [(0, Table.getD k.uses 0 0)], wrap := {}, roots := roots, inForce := none, block := [],
                                          zeroize := if k.zeroized then k.zeroize else (k.zeroize + 1) % 16, destroyed := true, erasing := true, remasked := [],
                                          sym := none, asym := none, waiting := [], answer := last.orElse (fun _ => k.answer) })

/-- The data plane stops without a stop instant (R61): open sets, decisions and frames not yet sent are discarded, and with them
what has been staged, since ZEROIZED writes no configuration (R57). -/
def haltData (s : State) : State :=
  let s1 := { s with align := { s.align with group := Table.mapVals s.align.group (fun x => { x with open_ := [] }) },
                     alm := { s.alm with inbox := [] }, mode := { s.mode with pend := none },
                     osr := { s.osr with queue := [], checked := none, sessions := s.osr.sessions.map (fun x => { x with stage := none }) } }
  each (List.range 6) (fun p st => each (List.range 3) (fun c st1 => dropItems (96 + 4 * p + c) st1) st) s1

/-- A destruction of everything with the cause of the transition; in QUICKSET a life-cycle request leaves the mode for the
next start (R460). -/
def destroyAll (cause : Nat) (stay : Bool) (s : State) : State :=
  let s1 := haltData (when s.draining drainEnd (wipeKeys s))
  let s2 := each ((s1.osr.sessions.filter (fun x => !x.anon)).map (·.id)) endSession s1
  if stay || s2.mode.cur = .zeroized then returnPassage s2 else returnPassage (toMode .zeroized cause s2)

/-! ## Life cycle (R458 to R460) -/

/-- Slots whose scope lacks a bit are destroyed on a change, while 0xA010.01 bit 0 is set. -/
def purgeScope (life : Nat) (s : State) : State :=
  if bit (s.cf.u 0xA010 1 0 1) 0 then
    let keep := fun (n : Nat) (x : KeySlot) => n = 0 || bit x.scope life
    let gone := (s.key.slots.filter (fun p => !keep p.1 p.2)).map (·.1)
    s.setKey { s.key with slots := Table.keep s.key.slots keep, copies := Table.keep s.key.copies (fun n _ => !gone.contains (n / 2)), uses := Table.keep s.key.uses (fun n _ => !gone.contains n), revJournal := s.key.revJournal.filter (fun p => !gone.contains p.1) }
  else s

/-- A life cycle is entered. -/
def setLife (l : Life) (s : State) : State :=
  raise 0xD3 0 (lifeCode s.key.life * 256 + lifeCode l) (s.setKey { s.key with life := l })

/-- Sessions without authentication end when the device leaves PROVISION (R434). -/
def endAnon (s : State) : State := each ((s.osr.sessions.filter (·.anon)).map (·.id)) endSession s

/-- The write of 0xA000.04 (R458, R459). -/
def lifeWrite (x : Session) (n : Nat) (s : State) : Nat × State :=
  let k := s.key
  let new := n / 2 ^ 24
  let officer := !x.anon || (s.mode.cur = .quickset && x.uart)
  if n % 2 ^ 24 != Config.serial.toNat % 2 ^ 24 then (stRejected, s)
  else if new = 1 then
    if (k.life = .manufacture || k.life = .rma) && s.mode.cur = .provision && x.anon && k.inForce.isSome &&
        k.slots.any (fun p => p.2.state = 1 && bit p.2.usage 1) then
      if s.power.failState != 0 then (stBusy, s) else (stOk, endAnon (toMode .configure 0x0106 (purgeScope 1 (setLife .provisioned s))))
    else (stRejected, s)
  else if new = 2 then
    if k.life = .provisioned && !x.anon && s.mode.cur != .quickset then
      if s.power.failState != 0 then (stBusy, s) else (stOk, purgeScope 2 (setLife .operational s))
    else (stRejected, s)
  else if new = 3 then
    if (k.life = .provisioned || k.life = .operational) && officer then (stOk, destroyAll 0x0101 (s.mode.cur = .quickset) (setLife .rma s)) else (stRejected, s)
  else if new = 4 then
    if k.life != .scrapped && officer then (stOk, destroyAll 0x0101 (s.mode.cur = .quickset) (setLife .scrapped s)) else (stRejected, s)
  else (stRejected, s)

/-- A write of 0xA000.04 that asks for the command's state; one that asks for another is another command. -/
def lifeCommand (code dt : Nat) (m : Msg) (v : Bytes) (s : State) : Host.Outcome State Fault Refusal :=
  .next (s.act [.events, .stats, .free, .mode, .request, .journal, .previous, .sessions, .commitQueue, .queues, .sched, .acq, .ingest, .chain, .align, .hr, .alarm, .goose, .out, .keys, .life, .keyPort, .keyCmd, .osc, .isl, .cop] dt (fun t => if field v 0 1 = code && !v.isEmpty then onWrite m 0xA000 4 v lifeWrite t else t))
def execLifecycleToProvisioned (dt : Nat) (m : Msg) (v : List (BitVec 8)) (s : State) : Host.Outcome State Fault Refusal := lifeCommand 1 dt m v s
def execLifecycleToOperational (dt : Nat) (m : Msg) (v : List (BitVec 8)) (s : State) : Host.Outcome State Fault Refusal := lifeCommand 2 dt m v s
def execLifecycleToRma (dt : Nat) (m : Msg) (v : List (BitVec 8)) (s : State) : Host.Outcome State Fault Refusal := lifeCommand 3 dt m v s
def execLifecycleToScrapped (dt : Nat) (m : Msg) (v : List (BitVec 8)) (s : State) : Host.Outcome State Fault Refusal := lifeCommand 4 dt m v s

/-! ## Tamper (R461 to R463) -/

/-- The absolute maximum of a rail, mV (R533). -/
def railMax (r : Rail) : Nat := match r with
  | .vddCore => 1000 | .vddTime => 950 | .vddSds => 1000 | .vddMem11 => 1250 | .vddMem18 => 2000 | .vddIo18 => 2000 | .vddIo33 => 3700

/-- The source that asserts on what its monitor or line sees (R462). -/
def tamperSource (t : TamperIn) : Option Nat :=
  let on := fun (b : Bool) (n : Nat) => if b then some n else none
  match t with
  | .line b ns => on (10000 ≤ ns) (b2n b)
  | .rail r mv ns => on (railMax r < mv && 1000 ≤ ns) 2
  | .junction t ns => on ((125000 < t || t < -50000) && 1000000 ≤ ns) 3
  | .glitch mv ns => on ((120 < mv || mv < -120) && 2 ≤ ns && ns ≤ 500) 4
  | .refClock ps => on (0 < ps && ps < 8000) 4

/-- An enabled source asserts (R463). -/
def assertTamper (src : Nat) (s : State) : State :=
  if src < 5 && bit (s.cf.u 0xA010 2 0 1) src && !bit s.key.tamperNow src then
    let now := s.key.tamperNow + 2 ^ src
    let s1 := count 0xA080 6 (s.setKey { s.key with tamperNow := now, tamperSince := s.key.tamperSince.lor (2 ^ src) })
    let destroys := bit (s.cf.u 0xA010 1 0 1) 1 && s.mode.cur != .zeroized
    let s2 := raise 0xD2 0 (2 ^ 31 * b2n destroys + now) s1
    when destroys (destroyAll 0x0105 false) s2
  else s

/-- The level of a tamper line (R461). -/
def tamperLine (src : Nat) (high : Bool) (s : State) : State := s.setKey { s.key with lines := s.key.lines.set src high }

/-- TAMPER_ASSERT: a line that has been low for the filter's time is low; what does not meet its source's condition asserts nothing. -/
def tamperAssert (t : TamperIn) (s : State) : State :=
  match tamperSource t with
  | some src => assertTamper src (tamperLine src false s)
  | none => s
def execTamperAssert (dt : Nat) (src : TamperIn) (s : State) : Host.Outcome State Fault Refusal := .next (s.act [.events, .stats, .free, .mode, .request, .journal, .previous, .sessions, .commitQueue, .queues, .sched, .acq, .ingest, .chain, .align, .hr, .alarm, .goose, .out, .keys, .keyPort, .keyCmd, .tamper, .osc, .isl, .cop] dt (tamperAssert src))

/-- A source no longer asserts. -/
def dropTamper (src : Nat) (s : State) : State :=
  if bit s.key.tamperNow src then s.setKey { s.key with tamperNow := s.key.tamperNow - 2 ^ src } else s

/-- TAMPER_DEASSERT: of a line, that it is high. -/
def tamperDeassert (src : Nat) (s : State) : State := dropTamper src (tamperLine src true s)
def execTamperDeassert (dt src : Nat) (s : State) : Host.Outcome State Fault Refusal := .next (s.act [.tamper] dt (tamperDeassert src))

/-- KEY_AREA_ERASE_COMPLETE (R464 step 5): the copies and the revocation journal are gone. -/
def areaErased (s : State) : State :=
  if s.key.erasing then s.setKey { s.key with erasing := false, copies := [], revJournal := [] } else s
def execKeyAreaEraseComplete (dt : Nat) (s : State) : Host.Outcome State Fault Refusal := .next (s.act [.keys, .keyCmd] dt areaErased)

/-! ## Masks and the TRNG (R441, R449) -/

/-- The sessions, by place, that a test takes. -/
def State.sessionsWith (s : State) (f : Session → Bool) : List Nat :=
  (List.range s.osr.sessions.length).filter (fun i => match s.osr.sessions[i]? with | some x => f x | none => false)

/-- The keys held: slots, 512 the storage wrap key, 513 + i the session key of session i, 600 + i its key before its last REKEY. -/
def State.heldKeys (s : State) : List Nat :=
  ((s.key.slots.filter (fun p => p.2.kind != 4 && (p.2.state = 1 || p.2.state = 2))).map (·.1)) ++ (if s.key.inForce.isSome then [512] else []) ++
    (s.sessionsWith (fun x => !x.anon)).map (· + 513) ++ (s.sessionsWith (fun x => x.oldKey.isSome)).map (· + 600)

def remasked (r : BitVec 256) (x : Shares) : Shares := ⟨x.a ^^^ r, x.b ^^^ r⟩

/-- A step on one key: both shares take the same fresh value, and the step is timed. -/
def remaskKey (n : Nat) (s : State) : State :=
  let (k, s1) := s.takeFree
  let r := Config.free256 k
  let s2 := if n < 512 then s1.setKslot n { s1.kslot n with mat := remasked r (s1.kslot n).mat }
    else if n = 512 then s1.setKey { s1.key with wrap := remasked r s1.key.wrap }
    else match s1.osr.sessions[if n < 600 then n - 513 else n - 600]? with
      | some x => s1.setSession (if n < 600 then { x with key := remasked r x.key } else { x with oldKey := x.oldKey.map (remasked r) })
      | none => s1
  let done := if s2.key.remasked.contains n then s2.key.remasked else n :: s2.key.remasked
  s2.setKey { s2.key with remasked := done, maskedAt := Table.put s2.key.maskedAt n s2.elapsed }

/-- The interval at 0xA010.03 has run out on a key since its last step, or it has had none. -/
def State.maskDue (s : State) (n : Nat) : Bool :=
  match Table.find s.key.maskedAt n with
  | some t => t + s.cf.u 0xA010 3 0 4 * 1000000 ≤ s.elapsed
  | none => true

/-- REMASK_STEP (R449): a step on the key, and on every other that is due (DESIGN CHOICE, log entry 219); a pass over every key is
counted. -/
def remask (n : Nat) (s : State) : State :=
  if s.key.trngFail || !s.heldKeys.contains n then s
  else
    let s1 := each (s.heldKeys.filter (fun k => k = n || s.maskDue k)) remaskKey s
    if s1.heldKeys.all s1.key.remasked.contains then count 0xA080 5 (s1.setKey { s1.key with remasked := [] }) else s1
def execRemaskStep (dt slot : Nat) (s : State) : Host.Outcome State Fault Refusal := .next (s.act [.events, .stats, .free, .sessions, .keys, .keyCmd] dt (remask slot))

end Sys2Proof.Machine
end

