-- ==== Sys2Proof/Machine/Coppice.lean ====
section
/-! DEFINITION. Coppice (R489 to R508): rotation, handover, slices, repair, fences, fuses; and its commands. -/
namespace Sys2Proof.Machine
open Sys2Proof

/-- Coppice runs (R67, R70, R490, R505). -/
def State.coppiceRuns (s : State) : Bool :=
  s.mode.cur.configures && s.cf.u 0xC000 1 0 1 = 1 && Table.getD s.rst.status 0x17 0 = 0 && s.power.failState = 0

/-! ## The round (R500) -/

/-- The elements of a unit that rotation tests: its lanes in service; none of a unit left without its spare (R501). -/
def State.unitElements (s : State) (u : Nat) : List Nat :=
  let ls := s.lanesOf u
  if !unitLive u || (unitSpared u && ls.any (fun l => 4 ≤ (s.lane u l).state)) then []
  else (ls.filter (fun l => (s.lane u l).state ≤ 3)).map (laneKey u)

/-- Every element of the round, in its order. -/
def State.elements (s : State) : List Nat := ((span 1 16).map s.unitElements).flatten

/-- The element may be taken now: its unit has no test in progress; and it is the first of those to take first, or else the
first the round has not tested, or one to repeat with a later unit following. -/
def State.takeable (s : State) (k : Nat) : Bool :=
  let free := fun (x : Nat) => !s.unitBusy (x / 64) && s.elements.contains x
  match s.cop.now.filter free with
  | h :: _ => k = h
  | [] =>
    match s.elements.find? (fun x => free x && !s.cop.done.contains x && !s.cop.again.contains x) with
    | some x => k = x || (free k && s.cop.again.contains k && k / 64 < x / 64)
    | none => free k && s.cop.again.contains k

/-- An element leaves the lists of those to take. -/
def taken (k : Nat) (s : State) : State :=
  { s with cop := { s.cop with now := s.cop.now.filter (· != k), again := s.cop.again.filter (· != k) } }

/-- The element has been tested in this round; with the last one the round ends. -/
def elementDone (k : Nat) (s : State) : State :=
  let done := if s.cop.done.contains k then s.cop.done else s.cop.done ++ [k]
  let s1 := { s with cop := { s.cop with done := done } }
  if s1.elements.all done.contains then
    { s1 with cop := { s1.cop with done := [], again := [], ended := true,
                                   rounds := each ((span 1 16).filter (fun u => !(s1.unitElements u).isEmpty)) (fun u t => Table.set t u (Table.getD t u 0 + 1) 0) s1.cop.rounds } }
  else s1

/-- A test begins on a lane. -/
def newTest (u l : Nat) (next : Option Nat) (s : State) : State :=
  let s1 := s.setLane u l { s.lane u l with slices := 0 }
  setTests (s1.cop.tests ++ [{ unit := u, lane := l, next := next }]) (taken (laneKey u l) s1)

/-! ## Handover (R493 to R495) -/

/-- HANDOVER_START: at B0 the spare copies the online lane; a core goes out at once (R399). -/
def handoverStart (u l : Nat) (s : State) : State :=
  let x := s.lane u l
  if s.coppiceRuns && x.state = 0 && s.takeable (laneKey u l) then
    if u = 11 then
      if (s.core l).state ≤ 1 then newTest u l none (coreOut l (s.setLane u l { x with state := 3 })) else s
    else match (if unitSpared u then s.spareLane u else none) with
      | some p =>
        let s1 := s.setLane u p { s.lane u p with state := 2 }
        { s1 with cop := { s1.cop with shadows := s1.cop.shadows ++ [⟨u, l, p, s.elapsed⟩] } }
      | none => s
  else s
def execHandoverStart (dt unit lane : Nat) (s : State) : Host.Outcome State Fault Refusal := .next (s.act [.events, .stats, .sched, .cop] dt (handoverStart unit lane))

/-- How long n outputs at a rate per second take, in ns. -/
def outputsNs (n rate : Nat) : Nat := n * 1000000000 / max 1 rate

/-- The least length of a shadow on a logical lane (R493), ns. Lengths counted in outputs are taken at the rate of the lane's
slowest valid channel, estimator or group; 1000 frames are not counted (log entry 221). -/
def shadowNs (c : Cf) (u lg : Nat) : Nat :=
  let most (xs : List Nat) (f : Nat → Nat) : Nat := (xs.map f).foldl max 0
  match u with
  | 1 => 100000000
  | 2 => most ((span (32 * lg) (32 * lg + 32)).filter (chanValid c)) (fun ch => outputsNs (setN c (chF c ch 1 1)) (inputRate c ch) + outputsNs 64 (chanRate c ch))
  | 3 => most ((span (16 * lg) (16 * lg + 16)).filter (estValid c)) (fun e => outputsNs 2 (estF c e 1 1))
  | 4 => 1200000000
  | 5 => if mgFlag c lg 0 then mgF c lg 6 2 * 1000000 else 0
  | 6 => if islConf c then outputsNs 10 (islRate c) else 0
  | 7 => 100000000
  | 8 => most ((span (4 * lg) (4 * lg + 4)).filter (groupValid c)) (fun g => outputsNs 100 (groupRate c g))
  | 9 => 1000000
  | _ => 0

/-- B1 of a shadow has come: its length has passed, and no record of an acquisition lane is in capture. -/
def State.shadowDue (s : State) (x : Shadow) : Bool :=
  let lg := (s.lane x.unit x.lane).logical.getD 0
  x.at_ + shadowNs s.cf x.unit lg ≤ s.elapsed && !(x.unit = 8 && s.acq.recs.any (fun r => r.group / 4 = lg && !r.captured))

/-- HANDOVER_COMPLETE: at B1 the shadow goes online and the old lane goes out; an output that differed abandons the
handover, and the spare is tested first. -/
def handoverComplete (u : Nat) (matched : Bool) (s : State) : State :=
  match s.cop.shadows.find? (fun x => x.unit = u) with
  | none => s
  | some x =>
    let s0 := { s with cop := { s.cop with shadows := s.cop.shadows.filter (fun y => y.unit != u) } }
    let online := s0.lane u x.lane
    let spare := s0.lane u x.spare
    if !matched then
      let s1 := raise 0xF5 u (x.lane * 65536 + u * 256 + x.spare) (count 0xC080 5 s0)
      newTest u x.spare (some x.lane) (s1.setLane u x.spare { spare with state := 3 })
    else if s.shadowDue x then
      newTest u x.lane none ((s0.setLane u x.spare { spare with state := 0, logical := online.logical }).setLane u x.lane { online with state := 3, logical := none })
    else s
def execHandoverComplete (dt unit : Nat) (matched : Bool) (s : State) : Host.Outcome State Fault Refusal :=
  .next (s.act [.events, .stats, .cop] dt (handoverComplete unit matched))

/-! ## Slices (R497 to R499) -/

/-- The limits of R498 allow one more slice of a unit. -/
def State.sliceFits (s : State) (u : Nat) : Bool :=
  let on := s.cop.tests.filter (fun t => t.running.isSome)
  on.length < s.cf.u 0xC000 3 0 1 && (on.map (fun t => testDraw t.unit)).sum + testDraw u ≤ s.cf.u 0xC000 4 0 2 &&
    (match s.cop.startAt with | some t => decide (t + 5000000 ≤ s.elapsed) | none => true)

def State.testOf (s : State) (u l : Nat) : Option LaneTest := s.cop.tests.find? (fun t => t.unit = u && t.lane = l)

/-- A slice of a test starts when the limits allow it. -/
def runSlice (t : LaneTest) (s : State) : State :=
  if t.running.isNone && s.sliceFits t.unit then
    let s1 := putTest { t with running := some s.elapsed, yieldAt := none } s
    { s1 with cop := { s1.cop with startAt := some s.elapsed } }
  else s

/-- SLICE_START: of a test in progress; or the first of a single-instance unit, or of a lane that is itself the spare. -/
def sliceStart (u l : Nat) (s : State) : State :=
  if !s.coppiceRuns then s
  else match s.testOf u l with
    | some t => if t.yieldAt.isNone then runSlice t s else s
    | none =>
      let x := s.lane u l
      if s.sliceFits u && s.takeable (laneKey u l) && ((unitSingle u && x.state = 0) || (unitSpared u && x.state = 1)) then
        let s1 := newTest u l none (if unitSpared u then s.setLane u l { x with state := 3 } else s)
        match s1.testOf u l with
        | some t => runSlice t s1
        | none => s1
      else s
def execSliceStart (dt unit lane : Nat) (s : State) : Host.Outcome State Fault Refusal := .next (s.act [.cop] dt (sliceStart unit lane))

/-- SLICE_YIELD (R499): a service request takes the unit back. -/
def sliceYield (u : Nat) (s : State) : State :=
  match (if unitSingle u then s.testOf u 0 else none) with
  | none => s
  | some t =>
    if t.running.isSome then
      let y := { t with running := none, yields := t.yields + 1, yieldAt := some s.elapsed }
      if 1000 ≤ y.yields then raise 0xF4 u ((t.slice + 1) * 65536 + u * 256) (testIncomplete t s) else putTest y s
    else if t.yieldAt.isSome then putTest { t with yieldAt := some s.elapsed } s
    else s
def execSliceYield (dt unit : Nat) (s : State) : Host.Outcome State Fault Refusal := .next (s.act [.events, .stats, .sched, .cop] dt (sliceYield unit))

/-- SLICE_RESUME (R499): idle for 100 µs. -/
def sliceResume (u : Nat) (s : State) : State :=
  match (if s.coppiceRuns then s.testOf u 0 else none) with
  | none => s
  | some t => match t.yieldAt with
    | some a => if a + 100000 ≤ s.elapsed then runSlice t s else s
    | none => s
def execSliceResume (dt unit : Nat) (s : State) : Host.Outcome State Fault Refusal := .next (s.act [.cop] dt (sliceResume unit))

/-! ## Repair and fences (R491, R492, R501, R504) -/

/-- The logical lane that a fence leaves without a lane (R492). -/
def State.loseLane (s : State) (u : Nat) : Nat :=
  let all := (List.range (logicalLanes s.variant u)).filter (fun l => !s.fenced u l)
  let idle := all.filter (fun l => !(workLanes s.cf u).contains l)
  ((if idle.isEmpty then all else idle).getLast?).getD 0

/-- What a lost logical lane costs at once (R491); what a unit does not do from then on stands with the unit. -/
def fenceCost (u l : Nat) (s : State) : State :=
  match u with
  | 4 => each (span (4 * l) (4 * l + 4)) (fun g st => st.setGrpG g { st.grpG g with open_ := [] }) s
  | 5 =>
    let s1 := freezeAlarms (fun k i => 5 ≤ k && k ≤ 7 && i / 256 % 16 = l) s
    s1.setOsc l { s1.oscG l with state := 0, due := none, foDue := none, frozen := true, foFrozen := true }
  | 6 => islStop (freezeAlarms (fun k _ => k ≤ 4) s)
  | 7 => gooseStop s
  | 8 => each (span (4 * l) (4 * l + 4)) (fun g st => let t := dropPending g (truncateCapture g st); t.setGrp g { t.grp g with state := 0 }) s
  | 9 => each (span (16 * l) (16 * l + 16)) dropItems s
  | 11 => coreOut l s
  | 14 => enterHoldover s
  | 15 => { s with ev := { s.ev with fenced := true, latch := s.ev.latch.map (fun e => { e with direct := true }) } }
  | 17 => dropLink l s
  | 18 => if s.hr.laneUp.getD l false then raise 0xA0 l 0 (s.setHr { s.hr with laneUp := listSet s.hr.laneUp l false }) else s
  | _ => s

/-- A fence (R501 item 3): the lane's logical lane is lost, or the unit goes to its by-pass. -/
def fence (u l : Nat) (s : State) : State :=
  let x := s.lane u l
  let lost := if unitSpared u then s.loseLane u else l
  let s0 := if unitSpared u then
      match x.logical, (s.lanesOf u).find? (fun p => (s.lane u p).logical = some lost && p != l) with
      | some a, some p => s.setLane u p { s.lane u p with logical := some a }
      | _, _ => s
    else s
  let s1 := s0.setLane u l { x with state := 5, logical := none }
  let bypass := if u = 13 || u = 14 then s1.cop.bypass ++ [u] else s1.cop.bypass
  let s2 := fenceCost u lost { s1 with cop := { s1.cop with lost := s1.cop.lost ++ [(u, lost)], bypass := bypass, soft := s1.cop.soft ++ [laneKey u l] } }
  judgeFences (raise 0xF3 u (fenceMode u * 2 ^ 24 + u * 256 + l) (count 0xC080 8 s2))

/-- A failed unit goes straight to a fence (R376, R404, R501), once. -/
def failUnit (u l : Nat) (s : State) : State := if (s.lane u l).state = 5 then s else fence u l s

/-- After the diagnosis (R501): a soft remap and the test afresh, or retirement, or a fence. -/
def repair (t : LaneTest) (element : Option Nat) (s : State) : State :=
  let u := t.unit
  let l := t.lane
  let x := s.lane u l
  let s0 := dropTest t s
  match element with
  | some e =>
    if x.used < spareElements u then
      let s1 := s.setLane u l { x with used := x.used + 1, repair := 1, elem := e, slices := 0 }
      let s2 := putTest { unit := u, lane := l, next := t.next } { s1 with cop := { s1.cop with soft := s1.cop.soft ++ [laneKey u l] } }
      raise 0xF1 u (2 ^ 24 + e % 256 * 65536 + u * 256 + l) (count 0xC080 6 s2)
    else if unitSpared u then
      let s1 := s0.setLane u l { x with state := 4, logical := none }
      elementDone (laneKey u l) (raise 0xF1 u (2 * 2 ^ 24 + e % 256 * 65536 + u * 256 + l) { s1 with cop := { s1.cop with soft := s1.cop.soft ++ [laneKey u l] } })
    else elementDone (laneKey u l) (fence u l s0)
  | none =>
    if unitSpared u then
      let (n, s1) := (s0.setLane u l { x with state := 4, logical := none }).takeFree
      let p := 2 * 2 ^ 24 + (Config.free16 n).toNat % 256 * 65536 + u * 256 + l
      elementDone (laneKey u l) (raise 0xF1 u p { s1 with cop := { s1.cop with soft := s1.cop.soft ++ [laneKey u l] } })
    else elementDone (laneKey u l) (fence u l s0)

/-- A test passes: the lane returns to service; a spare tested after a mismatch takes up its handover again (R495). -/
def testPass (t : LaneTest) (s : State) : State :=
  let u := t.unit
  let s1 := count 0xC080 2 (dropTest t (s.setLane u t.lane { s.lane u t.lane with result := 1, at_ := s.now }))
  match t.next with
  | some o =>
    if (s1.lane u o).state = 0 then
      let s2 := s1.setLane u t.lane { s1.lane u t.lane with state := 2, logical := none }
      { s2 with cop := { s2.cop with shadows := s2.cop.shadows ++ [⟨u, o, t.lane, s.elapsed⟩] } }
    else elementDone (laneKey u t.lane) (laneBack u t.lane s1)
  | none => elementDone (laneKey u t.lane) (laneBack u t.lane s1)

/-- COPPICE_SLICE_END (R497, R501): 10 ms after its start the slice's signature is compared. -/
def coppiceSliceEnd (u : Nat) (ok : Bool) (element : Option Nat) (s : State) : State :=
  match s.cop.tests.find? (fun t => t.unit = u && (match t.running with | some a => decide (a + 10000000 ≤ s.elapsed) | none => false)) with
  | none => s
  | some t0 =>
    let t := { t0 with running := none, yields := 0 }
    let x := s.lane u t.lane
    let s1 := count 0xC080 1 (s.setLane u t.lane { x with slices := x.slices + 1 })
    match t.diag with
    | some n =>
      if element.isSome || 10 ≤ n + 1 then repair t element s1 else putTest { t with diag := some (n + 1) } s1
    | none =>
      if ok then
        if t.slice + 1 < sliceCount u then putTest { t with slice := t.slice + 1, again := false } s1 else testPass t s1
      else if !t.again then putTest { t with again := true } s1
      else
        let s2 := s1.setLane u t.lane { s1.lane u t.lane with result := 2, at_ := s.now }
        raise 0xF0 u ((t.slice + 1) * 65536 + u * 256 + t.lane) (count 0xC080 3 (putTest { t with diag := some 0, again := false } s2))
def execCoppiceSliceEnd (dt unit : Nat) (signatureOk : Bool) (element : Option Nat) (s : State) : Host.Outcome State Fault Refusal :=
  .next (s.act [.events, .fence, .stats, .free, .mode, .journal, .time, .previous, .sessions, .queues, .sched, .port, .acq, .ingest, .chain, .align, .hr, .alarm, .goose, .out, .osc, .isl, .cop] dt (coppiceSliceEnd unit signatureOk element))

/-- ROW_REPAIR (R504): a row reported is copied to a spare row; with none left it stays in use, and the unit is fenced. -/
def rowRepair (c row : Nat) (s : State) : State :=
  if s.store.rowsDue.contains (c, row) then
    let s1 := { s with store := { s.store with rowsDue := s.store.rowsDue.filter (· != (c, row)) } }
    let n := Table.getD s.cop.rowsUsed c 0
    if n < 256 then { s1 with cop := { s1.cop with rowsUsed := Table.set s1.cop.rowsUsed c (n + 1) 0 } } else failUnit 10 c s1
  else s
def execRowRepair (dt channel row : Nat) (s : State) : Host.Outcome State Fault Refusal := .next (s.act [.events, .fence, .stats, .free, .mode, .journal, .time, .previous, .queues, .store, .sched, .port, .acq, .ingest, .chain, .align, .hr, .alarm, .goose, .out, .osc, .isl, .cop] dt (rowRepair channel row))

/-- WAIT_BOUND_EXCEEDED (R404, R501): the scheduler is a failed unit. -/
def waitBound (t : Nat) (s : State) : State :=
  match Table.find s.sched.desc t with
  | none => s
  | some d =>
    let x := s.task t
    let w := (s.elapsed - x.readyAt) / 1000
    if x.state = 1 && (tuningOf s.cf t d).ceil = 15 && (s.bound t).1 < w then failUnit 13 0 (raise 0xC1 t (satBits 32 w) s) else s
def execWaitBoundExceeded (dt t : Nat) (s : State) : Host.Outcome State Fault Refusal := .next (s.act [.events, .fence, .stats, .free, .mode, .journal, .time, .previous, .queues, .sched, .port, .acq, .ingest, .chain, .align, .hr, .alarm, .goose, .out, .osc, .isl, .cop] dt (waitBound t))

/-! ## Fuses (R502) -/

/-- FUSE_PROGRAM: at a safe point the oldest repair not yet permanent takes an antifuse word; a word that does not verify is
spent, and the remap waits for the next safe point with a fresh spare element (R72). -/
def fuseProgram (verified : Bool) (s : State) : State :=
  match s.cop.soft with
  | [] => s
  | k :: rest =>
    let safe := s.power.failState = 0 && s.power.failAt + 1000000000 ≤ s.elapsed && s.key.cmd.isNone && s.upd.state != 3 &&
      (match s.cop.fuseAt with | some t => decide (t + 100000000 ≤ s.elapsed) | none => true)
    if safe && s.cop.words != 0 then
      let w := s.cop.words - 1
      let s1 := { s with cop := { s.cop with words := w, fuseAt := some s.elapsed } }
      if verified then
        let u := k / 64
        let x := s1.lane u (k % 64)
        let s2 := if x.repair = 1 then s1.setLane u (k % 64) { x with repair := 2 } else s1
        raise 0xF2 u (w * 65536 + u * 256 + k % 64) (count 0xC080 7 { s2 with cop := { s2.cop with soft := rest } })
      else
        let x := s1.lane (k / 64) (k % 64)
        if x.repair = 1 then s1.setLane (k / 64) (k % 64) { x with used := min (x.used + 1) (spareElements (k / 64)) } else s1
    else s
def execFuseProgram (dt : Nat) (verified : Bool) (s : State) : Host.Outcome State Fault Refusal := .next (s.act [.events, .stats, .cop] dt (fuseProgram verified))

/-! ## Period, and the request to test now (R500, R505) -/

/-- ROTATION_PERIOD_END: a period in which no round has ended is counted. -/
def rotationEnd (s : State) : State :=
  let p := s.cf.u 0xC000 2 0 4 * 1000000000
  if s.cop.periodAt + p ≤ s.elapsed then
    let s1 := when (!s.cop.ended) (count 0xC080 9) s
    { s1 with cop := { s1.cop with ended := false, periodAt := s.cop.periodAt + p } }
  else s
def execRotationPeriodEnd (dt : Nat) (s : State) : Host.Outcome State Fault Refusal := .next (s.act [.events, .stats, .cop] dt rotationEnd)

/-- The write of 0xC000.05. -/
def testNow (_x : Session) (u : Nat) (s : State) : Nat × State :=
  if 1 ≤ u && u ≤ 19 && logicalLanes s.variant u = 0 then (stAbsent, s)
  else if !unitLive u then (stRejected, s)
  else if s.unitBusy u then (stBusy, s)
  else (stOk, { s with cop := { s.cop with now := dedup (s.cop.now ++ s.unitElements u) } })
def execTestNow (dt : Nat) (m : Msg) (v : List (BitVec 8)) (s : State) : Host.Outcome State Fault Refusal :=
  .next (s.act [.events, .stats, .sessions, .cop, .keyPort] dt (onWrite m 0xC000 5 v testNow))

/-! ## What the objects show (R505, R506) -/

/-- 0xC000.06: two tests as unit and lane. -/
def State.testsRunning (s : State) : Bytes :=
  let ts := s.cop.tests.map (fun t => toBE 1 t.unit ++ toBE 1 t.lane)
  match ts with
  | [] => List.replicate 4 0xFF#8
  | [a] => List.replicate 2 0xFF#8 ++ a
  | a :: b :: _ => b ++ a

/-- 0xC000.08. -/
def State.roundProgress (s : State) : Nat := if s.elements.isEmpty then 0 else s.cop.done.length * 1000 / s.elements.length

/-- A record of 0xC100.01. -/
def State.unitStatus (s : State) (u : Nat) : Bytes :=
  let ls := s.lanesOf u
  let inState := fun (k : Nat) => (ls.filter (fun l => (s.lane u l).state = k)).length
  let state := if logicalLanes s.variant u = 0 then 3 else if inState 5 != 0 then 2 else if unitSpared u && (s.spareLane u).isNone && inState 4 != 0 then 1 else 0
  toBE 1 state ++ toBE 1 (if u = 10 then 0 else physLanes s.variant u) ++ toBE 1 (if u = 10 then 0 else logicalLanes s.variant u) ++ toBE 1 (inState 4) ++ toBE 1 (inState 5) ++
    toBE 1 ((if unitSpared u then s.spareLane u else none).getD 0xFF) ++ toBE 1 (fenceMode u) ++ toBE 1 (b2n (s.cop.bypass.contains u)) ++
    toBE 4 (Table.getD s.cop.rounds u 0) ++ zeros 4

/-- A record of 0xC110.01. -/
def State.laneResult (s : State) (u l : Nat) : Bytes :=
  let x := s.lane u l
  let pat := Config.slicePatterns u
  toBE 1 u ++ toBE 1 l ++ toBE 1 x.state ++ toBE 1 x.result ++ toBE 4 (satBits 32 (x.slices * pat)) ++ toBE 4 (satBits 32 (sliceCount u * pat)) ++
    (if x.result = 0 then zeros 12 else stampBytes x.at_) ++ toBE 1 (spareElements u - x.used) ++ toBE 1 x.repair ++ toBE 2 x.elem ++ zeros 4

/-- The lanes of 0xC110.01 in order. -/
def State.laneList (s : State) : List (Nat × Nat) := ((span 1 20).map (fun u => (s.lanesOf u).map (fun l => (u, l)))).flatten

end Sys2Proof.Machine
end

