-- ==== Sys2Proof/Machine/Recorder.lean ====
section
/-! DEFINITION. The event recorder (R509 to R526): records, the two areas, the journal, faults, clears; and its commands. -/
namespace Sys2Proof.Machine
open Sys2Proof

def State.setRec_ (s : State) (r : RecU) : State := { s with rec_ := r }

/-- A record as its 32 bytes (R509). -/
def RecRow.bytes (r : RecRow) : Bytes :=
  let b := toBE 4 r.seq.toNat ++ toBE 1 r.id ++ toBE 1 r.flags ++ toBE 2 r.inst ++ stampBytes r.at_ ++ toBE 4 r.param.toNat ++ toBE 2 r.rep ++ toBE 4 r.last
  b ++ toBE 2 (crc16 b)

/-- Own memory and mirror have both failed (R521). -/
def RecU.bare (r : RecU) : Bool := bit r.state 0 && bit r.state 1

/-- The ID is selected for the permanent area (R512). -/
def permSelected (c : Cf) (id : Nat) : Bool := bit (c.u 0xD010 1 (31 - id / 8) 1) (id % 8)

/-! ## The journal (R517) -/

/-- Replace the row of a sequence number. -/
def putRow (rows : List RecRow) (r : RecRow) : List RecRow := rows.map (fun x => if x.seq = r.seq then r else x)

/-- The oldest pending entry that is not a permanent record goes; the oldest of all when every one is. -/
def dropPend (xs : List (Nat × RecRow)) : List (Nat × RecRow) :=
  match xs.findIdx? (fun p => !bit p.2.flags 1) with
  | some i => xs.eraseIdx i
  | none => xs.drop 1

/-- A record, or a later copy of one, joins the entries that wait for a page. -/
def journalEntry (r : RecRow) (s : State) : State :=
  let u := s.rec_
  if bit u.state 2 then s
  else if u.pend.any (fun p => p.2.seq = r.seq) then s.setRec_ { u with pend := u.pend.map (fun p => if p.2.seq = r.seq then (p.1, r) else p) }
  else
    let all := u.pend ++ [(s.elapsed, r)]
    if all.length ≤ 8 then s.setRec_ { u with pend := all }
    else count 0xD080 4 (when u.bare (count 0xD080 6) (s.setRec_ { u with pend := dropPend all, gap := true }))

/-- What a list of circulating records holds once a record is written at its position (R511). -/
def intoCirc (rows : List RecRow) (r : RecRow) : List RecRow := r :: rows.filter (fun x => x.seq.toNat % 65536 != r.seq.toNat % 65536)

/-- A page of the pending entries is in the journal. -/
def journalFlush (s : State) : State :=
  let u := s.rec_
  match u.pend with
  | [] => s
  | (_, r) :: rest =>
    let rows := (if u.gap then { r with flags := r.flags + 16 } else r) :: rest.map (·.2)
    let circ := rows.foldl (fun acc x => if acc.any (fun y => y.seq = x.seq) then putRow acc x else intoCirc acc x) u.jcirc
    let perm := (rows.filter (fun x => bit x.flags 1)).foldl (fun acc x => if acc.any (fun y => y.seq = x.seq) then putRow acc x else acc ++ [x]) u.jperm
    s.setRec_ { u with pend := [], gap := false, jcirc := circ, jperm := perm, pageFailed := false }

/-! ## Faults (R521, R522) -/

/-- A state bit is set: the last-gasp object and EV_REC_FAULT. -/
def recFault (b where_ : Nat) (s : State) : State :=
  let u := s.rec_
  let st := u.state.lor (2 ^ b)
  let newest := match u.circ with | r :: _ => r.bytes | [] => zeros 32
  let gasp := toBE 1 st ++ toBE 1 b ++ toBE 2 (satBits 16 (u.faults + 1)) ++ stampBytes s.now ++ toBE 4 where_ ++ toBE 4 (u.next - 1#32).toNat ++ zeros 8 ++ newest
  raise 0x0D 0 (b * 2 ^ 24 + st) (s.setRec_ { u with state := st, faults := satBits 16 (u.faults + 1), gasp := gasp, pend := if b = 2 then [] else u.pend })

/-- A fault whose bit is not yet set. -/
def recFail (b where_ : Nat) (s : State) : State := if bit s.rec_.state b then s else recFault b where_ s

/-! ## Writing (R509 to R511) -/

/-- A new record. -/
def recNew (c : Cf) (e : Ev) (s : State) : State :=
  let u := s.rec_
  let sel := permSelected c e.id
  let room := u.perm.length < 4096 && !u.bare
  let row : RecRow := { seq := u.next, id := e.id, flags := flagsOf [false, sel && room, e.direct, u.jumped, false], inst := e.inst, at_ := e.stamp, param := e.param,
                        rep := e.rep, last := 0 }
  let perm := if sel && room then u.perm ++ [row] else u.perm
  let gasp := if u.state = 0 then u.gasp else u.gasp.take 32 ++ row.bytes
  let s1 := s.setRec_ { u with circ := if u.bare then u.circ else intoCirc u.circ row, perm := perm, next := u.next + 1#32, jumped := false, newestAt := e.el, gasp := gasp }
  let s2 := when (sel && !room) (count 0xD080 5) (count 0xD080 1 s1)
  let s3 := when (sel && room && perm.length = 4096) (raise 0x0E 0 1) s2
  journalEntry row s3

/-- An occurrence absorbed into the newest record (R510). -/
def recAbsorb (r : RecRow) (e : Ev) (s : State) : State :=
  let n := 1 + e.rep
  let above : Bool := decide (0xFFFF < r.rep + n)
  let row := { r with rep := min (r.rep + n) 0xFFFF, flags := if above && !bit r.flags 0 then r.flags + 1 else r.flags,
                      last := satBits 32 ((e.el - s.rec_.newestAt) / 1000000) }
  let u := s.rec_
  let s1 := s.setRec_ { u with circ := putRow u.circ row, perm := putRow u.perm row, snap := (u.snap + 1) % 2 ^ 32 }
  journalEntry row (when above (countN 0xD080 3 n) (countN 0xD080 2 n s1))

/-- An event is delivered to the recorder. -/
def recWrite (c : Cf) (e : Ev) (s : State) : State :=
  match s.rec_.circ with
  | r :: _ =>
    if c.u 0xD000 7 0 1 = 1 && !s.rec_.bare && r.id = e.id && r.inst = e.inst && r.param = e.param && r.at_.gen = e.stamp.gen && r.seq + 1#32 = s.rec_.next then recAbsorb r e s
    else recNew c e s
  | [] => recNew c e s

/-- The journal takes part in a clear: the sections of the cleared areas go, and EV_REC_AREA's entry is written at once. Under the
warning no program is begun (R67), and both wait. -/
def journalClear (s : State) : State :=
  let u := s.rec_
  let t := s.setRec_ { u with jcirc := if bit u.clearing 0 then [] else u.jcirc, jperm := if bit u.clearing 1 then [] else u.jperm, clearing := 0, clearOwed := false }
  journalFlush t

/-- A clear at T_c (R513): the selected areas with their journal sections; then EV_REC_AREA's record, journaled at once. -/
def recClear (mask : Nat) (s : State) : State :=
  let u := s.rec_
  let p := bit mask 1
  let c := bit mask 0
  let s1 := s.setRec_ { u with circ := if c then [] else u.circ, perm := if p then [] else u.perm, clearing := u.clearing.lor (mask % 4), clearOwed := true,
                               pend := u.pend.filter (fun x => !(if bit x.2.flags 1 then p && c else c)), snap := (u.snap + 1) % 2 ^ 32 }
  let param := mask * 2 ^ 24 + 2
  let e : Ev := { id := 0x0E, inst := 0, stamp := s.now, param := BitVec.ofNat 32 param, rep := 0, el := s.elapsed }
  raise 0x0E 0 param (when (s.power.failState = 0) journalClear (recNew s1.cf e s1))

/-! ## Commands -/

/-- JOURNAL_PAGE_PROGRAM (R517): 8 entries wait, or one has waited 1 s; a page that fails its verify twice is a fault. -/
def journalPage (verified : Bool) (s : State) : State :=
  match s.rec_.pend with
  | [] => s
  | (t, _) :: _ =>
    if s.power.failState = 0 && (8 ≤ s.rec_.pend.length || t + 1000000000 ≤ s.elapsed) then
      if verified then journalFlush s
      else if !s.rec_.pageFailed then s.setRec_ { s.rec_ with pageFailed := true }
      else
        let (n, s1) := s.takeFree
        recFail 2 (Config.free32 n).toNat s1
    else s
def execJournalPageProgram (dt : Nat) (verified : Bool) (s : State) : Host.Outcome State Fault Refusal := .next (s.act [.events, .free, .records, .recFlash, .recFault] dt (journalPage verified))

/-- RECORDER_SCRUB (R521): corrected errors are counted; an uncorrectable word is a fault of own memory. -/
def recScrub (corrected : Nat) (ueWord : Option Nat) (s : State) : State :=
  let s1 := countN 0xD080 7 corrected s
  match ueWord with
  | some w => recFail 0 w s1
  | none => s1
def execRecorderScrub (dt corrected : Nat) (ueWord : Option Nat) (s : State) : Host.Outcome State Fault Refusal := .next (s.act [.events, .stats, .recFlash, .recFault] dt (recScrub corrected ueWord))

/-! ## What the objects show -/

def State.permBytes (s : State) : Bytes := fit (4096 * 32) (s.rec_.perm.map RecRow.bytes).flatten
/-- The record at a position of the circulating area. -/
def State.circAt (s : State) (i : Nat) : Bytes :=
  match s.rec_.circ.find? (fun r => r.seq.toNat % 65536 = i) with
  | some r => r.bytes
  | none => zeros 32
/-- EVT_FAULT_N is driven low (R523). -/
def State.evtFaultLow (s : State) : Bool := s.runs && s.rec_.state != 0

end Sys2Proof.Machine
end

