-- ==== Sys2Proof/Machine/Fabric.lean ====
section
/-! DEFINITION. The event fabric (R25 to R28, R549 to R555) and the monitors (R533, R538 to R548): their commands. -/
namespace Sys2Proof.Machine
open Sys2Proof

/-! ## Hand-over -/

/-- EVENT_RAISE (R25). -/
def execEventRaise (dt id inst : Nat) (param : BitVec 32) (s : State) : Host.Outcome State Fault Refusal :=
  .next (s.act [.events] dt (raise id (inst % 65536) param.toNat))

/-- An event comes before another (R27). -/
def Ev.before (a b : Ev) : Bool :=
  Stamp.before a.stamp b.stamp || (a.stamp = b.stamp && (decide (a.id < b.id) || (a.id = b.id && decide (a.inst < b.inst))))

/-- The latched event to hand over next: the earliest; on the direct path the first to arrive (R27, R515). -/
def State.nextEvent (s : State) : Option Ev :=
  match s.ev.latch with
  | [] => none
  | h :: r => some (if s.ev.fenced then h else r.foldl (fun b e => if Ev.before e b then e else b) h)

/-- The configuration an event is routed under: the defaults in QUICKSET, else the table of its entry (R553). -/
def State.routing (s : State) (e : Ev) : Cf := if s.mode.cur = .quickset then ⟨s.variant, []⟩ else (s.cfFor e.stamp).1

/-- The recorder has written a clear's own record at the clear (R513). -/
def clearRecord (e : Ev) : Bool := e.id = 0x0E && e.param.toNat % 4 = 2

/-- A passing event goes to its targets (R511, R512, R522, R550, R551). -/
def deliver (c : Cf) (e : Ev) (s : State) : State :=
  let f := fun off => c.u 0xF400 1 (8 * e.id + off) 1
  let tg := if bit (f 0) 0 then f 1 else 0
  let s1 := when (bit tg 0) (fun t => { t with ev := { t.ev with irq := t.ev.irq ||| (1#256 <<< e.id) } }) s
  let s2 := when (bit tg 1 && e.id != 0x0D) (notifyAll e) s1
  let s3 := when ((bit tg 2 || permSelected c e.id || e.id = 0x0D) && !clearRecord e) (recWrite c e) s2
  let s4 := when (bit tg 3) (alarmEvent e) s3
  when (bit (f 0) 0) (eventTasks e.id) s4

/-- A latched event is handed over, or held back by its rate limit, or goes nowhere (R551, R552). -/
def handOver (s : State) : State :=
  match s.nextEvent with
  | none => s
  | some e =>
    let s0 := { s with ev := { s.ev with latch := s.ev.latch.erase e } }
    let c := s.routing e
    let s1 := when (e.id = 0x0D) (notifyAll e) s0
    if e.direct then when (!clearRecord e) (recWrite c e) s1
    else if !bit (c.u 0xF400 1 (8 * e.id) 1) 0 && !permSelected c e.id && e.id != 0x0D then s1
    else
      let k := e.id * 65536 + e.inst
      let limit := c.u 0xF400 1 (8 * e.id + 2) 2 * 1000000
      let pass := e.id = 0x0D || (match Table.find s.ev.lastOut k with | some t => decide (t + limit ≤ s.elapsed) | none => true)
      let held := Table.getD s1.ev.held k 0
      if pass then deliver c { e with rep := min (e.rep + held) 0xFFFF } { s1 with ev := { s1.ev with lastOut := Table.put s1.ev.lastOut k s.elapsed, held := Table.drop s1.ev.held k } }
      else { s1 with ev := { s1.ev with held := Table.put s1.ev.held k (held + 1 + e.rep) } }

/-- EVENT_HANDOVER (R26, R27). -/
def execEventHandover (dt : Nat) (s : State) : Host.Outcome State Fault Refusal := .next (s.act [.events, .irq, .stats, .sessions, .sched, .hr, .alarm, .goose, .records, .recFlash, .recFault] dt handOver)

/-- Every latched event is handed over. -/
def handOverAll (n : Nat) (s : State) : State :=
  match n with
  | 0 => s
  | k + 1 => if s.ev.latch.isEmpty then s else handOverAll k (handOver s)

/-! ## IRQ_N (R554) -/

/-- The write of 0xF410.02: 32 bytes, at one point of the hand-overs. -/
def irqClear (v : Bytes) (_x : Session) (n : Nat) (s : State) : Nat × State :=
  if v.length != 32 then (stRejected, s) else (stOk, { s with ev := { s.ev with irq := s.ev.irq &&& ~~~(BitVec.ofNat 256 n) } })
def execIrqClear (dt : Nat) (m : Msg) (v : List (BitVec 8)) (s : State) : Host.Outcome State Fault Refusal :=
  .next (s.act [.events, .irq, .stats, .sessions, .keyPort] dt (onWrite m 0xF410 2 v (irqClear v)))

/-- IRQ_N is low. -/
def State.irqLow (s : State) : Bool := s.runs && s.ev.irq != 0#256

/-- A commit that takes the IRQ_N target from an ID clears its bit. -/
def irqCommit (o : Cf) (s : State) : State :=
  let gone := (List.range 256).filter (fun k => bit (o.u 0xF400 1 (8 * k + 1) 1) 0 && !bit (s.cf.u 0xF400 1 (8 * k + 1) 1) 0)
  { s with ev := { s.ev with irq := gone.foldl (fun acc k => acc &&& ~~~(1#256 <<< k)) s.ev.irq } }

/-! ## Monitors -/

/-- Rails in the order of R533: rated range, mV. -/
def railRange (r : Nat) : Nat × Nat :=
  match r with
  | 0 => (700, 900) | 1 => (825, 875) | 2 => (873, 927) | 3 => (1067, 1133) | 4 => (1710, 1890) | 5 => (1710, 1890) | _ => (3135, 3465)
/-- Good threshold, rising, and fail threshold, falling, mV (R47). -/
def railGoodAt (r : Nat) : Nat := match r with | 0 => 670 | 1 => 800 | 2 => 850 | 3 => 1030 | 4 => 1680 | 5 => 1650 | _ => 3000
def railFailAt (r : Nat) : Nat := match r with | 0 => 640 | 1 => 770 | 2 => 820 | 3 => 990 | 4 => 1620 | 5 => 1600 | _ => 2900

def State.rail (s : State) (r : Nat) : RailM := Table.getD s.mon.rails r {}

/-- One rail is measured: EV_RAIL_RANGE after 1 ms outside its rated range, again only after 1 s inside it (R548). -/
def railSample (r mv : Nat) (s : State) : State :=
  let x := s.rail r
  let out := mv < (railRange r).1 || (railRange r).2 < mv
  let since := if out = x.out then x.since.getD s.elapsed else s.elapsed
  let fires := out && x.armed && railFailAt r ≤ mv && since + 1000000 ≤ s.elapsed
  let y := { x with mv := mv, lo := some (min mv (x.lo.getD mv)), hi := some (max mv (x.hi.getD mv)), out := out, since := some since,
                    armed := if fires then false else x.armed || (!out && decide (since + 1000000000 ≤ s.elapsed)) }
  let s1 := { s with mon := { s.mon with rails := Table.put s.mon.rails r y } }
  when fires (raise 0xF9 0 (satBits 16 mv * 65536 + r * 256 + b2n (decide ((railRange r).2 < mv)))) s1

/-- Life consumed at a junction temperature over some ns, per mille (R540): 40 per year at 85 °C, doubling each 10 °C. -/
def lifeStep (tj : Int) (ns : Nat) : F64 :=
  f64mul (f64mul (f64ofInt 40) (f64exp2 (tj - 85000) 10000)) (f64ratio ns 31557600000000000)

/-- A rail is above its absolute maximum (R533). -/
def railsAbove (rails : List Nat) : Bool :=
  ([Rail.vddCore, .vddTime, .vddSds, .vddMem11, .vddMem18, .vddIo18, .vddIo33].zip rails).any (fun p => decide (railMax p.1 < p.2))
/-- The junction is outside its limits as a tamper source (R462). -/
def tjOut (tj : Int) : Bool := decide (125000 < tj) || decide (tj < -50000)

/-- The voltage and temperature monitors as tamper sources (R462): a rail above its absolute maximum at a sample; the junction outside its
limits at every sample of 1 ms. A source deasserts at a sample that is back inside. -/
def monitorTamper (tj : Int) (rails : List Nat) (s : State) : State :=
  let hot := tjOut tj
  let since := if hot then some (s.mon.hotSince.getD s.elapsed) else none
  let long := match since with | some t => decide (t + 1000000 ≤ s.elapsed) | none => false
  let s1 := if railsAbove rails then assertTamper 2 s else dropTamper 2 s
  let s2 := if long then assertTamper 3 s1 else when (!hot) (dropTamper 3) s1
  { s2 with mon := { s2.mon with hotSince := since } }

/-- MONITOR_SAMPLE (R547, R548): every 100 µs. -/
def monitorSample (tj0 : Int) (rails : List Nat) (s : State) : State :=
  let tj := max (-60000) (min 150000 tj0)
  let m := s.mon
  let dt := s.elapsed - m.at_
  let th : Int := s.cf.u 0xF300 4 0 1 * 1000
  let fires := decide (th < tj) && m.armed
  let s1 := { s with mon := { m with tj := tj, high := some (max tj (m.high.getD tj)), armed := if fires then false else m.armed || decide (tj ≤ th - 5000),
                                     sum := m.sum + tj * dt, span := m.span + dt, life := f64add m.life (lifeStep tj dt), at_ := s.elapsed } }
  let s2 := when fires (raise 0xF8 0 (ofBE (toBEi 4 (tj / 100)))) s1
  monitorTamper tj rails (each ((List.range 7).zip rails) (fun p t => railSample p.1 p.2 t) s2)
def execMonitorSample (dt : Nat) (tj : Int) (railsMv : List Nat) (s : State) : Host.Outcome State Fault Refusal := .next (s.act [.events, .stats, .free, .mode, .request, .journal, .previous, .sessions, .commitQueue, .queues, .sched, .acq, .ingest, .chain, .align, .hr, .alarm, .goose, .out, .keys, .keyPort, .keyCmd, .tamper, .osc, .isl, .cop, .mon] dt (monitorSample tj railsMv))

/-- CLEAR_HIGHEST_TJ: 0xF300.03. -/
def clearHigh (_n : Nat) (s : State) : State := { s with mon := { s.mon with high := some s.mon.tj } }
def execClearHighestTj (dt : Nat) (m : Msg) (v : List (BitVec 8)) (s : State) : Host.Outcome State Fault Refusal :=
  .next (s.act [.events, .stats, .sessions, .mon, .keyPort] dt (onWrite m 0xF300 3 v (okWrite clearHigh)))

/-- A record of 0xF300.06. -/
def State.railBytes (s : State) (r : Nat) : Bytes :=
  let x := s.rail r
  toBE 2 x.mv ++ toBE 2 (x.lo.getD 0) ++ toBE 2 (x.hi.getD 0) ++ toBE 1 (b2n x.out + 2 * b2n (decide ((railRange r).2 < x.mv))) ++ zeros 1

/-- 0xF300.05. -/
def MonU.average (m : MonU) : Int := if m.span = 0 then 0 else m.sum / m.span

/-! ## JTAG (R546) -/

/-- JTAG_INSTRUCTION: all instructions in MANUFACTURE and RMA; elsewhere IDCODE and BYPASS. One the port does not know is
BYPASS. -/
def jtagDecode (l : Life) (i : Jtag) : Jtag :=
  match i with
  | .bypass | .other => .bypass
  | .idcode => .idcode
  | .sample | .preload | .extest => if l = .manufacture || l = .rma then i else .bypass
def execJtagInstruction (dt : Nat) (i : Jtag) (s : State) : Host.Outcome State Fault Refusal :=
  .next (s.act [.jtag] dt (fun t => { t with jtag := jtagDecode t.key.life i }))

end Sys2Proof.Machine
end

