-- ==== Sys2Proof/Machine/Apply.lean ====
section
/-! DEFINITION. The commit point (R16 to R21, R425): a configuration going live, the previous one released, acceptance;
and their commands. -/
namespace Sys2Proof.Machine
open Sys2Proof

/-- Sessions on a port that loses the management role end (R107). -/
def roleCommit (o : Cf) (s : State) : State :=
  let lost := o.u 0x2000 1 0 1 - (o.u 0x2000 1 0 1).land (s.cf.u 0x2000 1 0 1)
  let gone := s.osr.sessions.filter (fun x => match x.via with | .port p _ _ => bit lost p | .uart => false)
  each (gone.map (·.id)) endSession s

/-- A configuration has become live in place of another: every unit takes it (R17). -/
def takeConfig (o : Cf) (gen : BitVec 32) (tc : Stamp) (staged : Nat → Nat → Bool) (s : State) : State :=
  let s1 := acqCommit o s
  let s2 := chainCommit o (alignCommit o s1)
  let s3 := timeCommit o staged (ingestCommit o gen tc s2)
  let s4 := alarmCommit o (hrCommit o s3)
  let s5 := islCommit o tc (oscCommit o tc s4)
  let s6 := portsCommit o (outCommit o (gooseCommit o s5))
  judgeFences (roleCommit o (irqCommit o (retune (staged 0x9200 1) s6)))

/-- What the units change as they take a configuration: not the configuration itself. -/
def takeParts : List Part :=
  [.events, .irq, .stats, .free, .mode, .request, .reset, .journal, .time, .commits, .previous, .sessions, .queues, .sched, .port, .acq, .reader, .bus, .ingest, .slots, .chain, .align, .hr, .alarm, .goose, .out, .osc, .isl, .cop, .records, .recFlash, .recFault]

/-- The configuration that an effect leaves behind for the sets of before T_c (R19): the one it takes the place of. Of commits
that a step has given one T_c (R20), the configuration before the first of them stays. -/
def heldFor (c : Commit) (s : State) : Option (List Host.Cell × BitVec 32 × Stamp) :=
  if !s.forming then none
  else
    match s.cfg.prev with
    | some p => if p.2.2 = c.tc then some p else some (s.cfg.live, s.cfg.gen, c.tc)
    | none => some (s.cfg.live, s.cfg.gen, c.tc)

/-- An accepted commit goes live. A change of role is a per-function reset of Hedgerow (R70, R340). -/
def effect (c : Commit) (s : State) : State :=
  let o := s.cf
  let prev := heldFor c s
  let s1 := { s with cfg := { s.cfg with live := Memory.apply s.variant s.cfg.live (lasting c.cells), gen := c.gen, valid := true, prev := prev, from_ := c.tc } }
  let mask := ofBE ((stagedOf c.cells 0xD000 6).map (·.2)) / 2 ^ 24
  let role := o.u 0xE000 1 0 1 != s1.cf.u 0xE000 1 0 1
  s1.within takeParts (when role (fun t => raiseFree 0x03 0x0E 0 (beginReset 0x0E t))
    (when (mask != 0) (recClear mask) (takeConfig o c.gen c.tc (fun i k => !(stagedOf c.cells i k).isEmpty) s1)))

/-- CONFIG_EFFECTIVE (R17): T_c of the oldest accepted commit is reached. -/
def configEffective (s : State) : State :=
  match s.cfg.waiting with
  | c :: r => if c.tc.gen = s.time.gen && c.tc.ns ≤ s.time.tai then effect c { s with cfg := { s.cfg with waiting := r } } else s
  | [] => s
def execConfigEffective (dt : Nat) (s : State) : Host.Outcome State Fault Refusal := .next (s.act [.events, .irq, .stats, .free, .mode, .request, .reset, .journal, .time, .config, .commits, .previous, .sessions, .queues, .sched, .port, .acq, .reader, .bus, .ingest, .slots, .chain, .align, .hr, .alarm, .goose, .out, .osc, .isl, .cop, .records, .recFlash, .recFault] dt configEffective)

/-- PREVIOUS_CONFIG_RELEASE (R19). The closes and the decisions of before T_c that are still to be taken keep their configuration
(R17). -/
def releasePrevious (s : State) : State :=
  match s.cfg.prev with
  | some (_, _, tc) => if !s.forming || s.closedBefore tc then (let s1 := dropPrevious s; s1.within [.events, .stats, .hr, .alarm, .goose, .isl] (islSettle s1)) else s
  | none => s
def execPreviousConfigRelease (dt : Nat) (s : State) : Host.Outcome State Fault Refusal := .next (s.act [.events, .stats, .previous, .hr, .alarm, .goose, .isl] dt releasePrevious)

/-- T_c of a commit accepted now (R16, R19). DESIGN CHOICE (log entry 168): alignment is forming sets by the mode alone, also
while a per-function reset holds it. -/
def State.commitInstant (s : State) : Nat :=
  let base := if s.mode.cur.forms then effInstant s.time.tai else s.time.tai
  let held := s.cfg.prev.isSome || !s.cfg.waiting.isEmpty
  match (if held then s.stepsFrom s.cfg.lastTc.gen s.time.gen else none) with
  | some d => max base ((s.cfg.lastTc.ns : Int) + d + 1100000000).toNat
  | none => base

/-- The bytes the journal holds of a configuration that a commit builds on. -/
def State.journaled (s : State) : List Host.Cell := if s.jrn.cfgValid && s.upd.settings != 2 || s.upd.committed then s.jrn.cfg else s.cfg.live

/-- The configuration format version of the image that runs (R470). -/
def State.ownFormat (s : State) : Nat := match s.upd.banks[s.upd.running]? with | some k => field k.manifest 10 2 | none => 0

/-- A commit goes to the running image's own format slot; the slot it could not read becomes the other one (R483). -/
def ownSlot (s : State) : UpdU :=
  let u := s.upd
  let other := if u.settings = 2 && !u.committed then some { format := u.format, valid := s.jrn.cfgValid, cells := s.jrn.cfg, gen := s.jrn.cfgGen } else u.other
  { u with committed := true, format := s.ownFormat, other := other }

/-- A value of 0x4010 is judged again at the acceptance (R145). -/
def judgeAccept (c : Cf) (s : State) (e : Entry) : Entry :=
  if e.idx = 0x4010 && e.outcome != 2 && !s.acceptsValue c e.staged then { e with outcome := 2, reason := 3, live := 0 } else e

/-- COMMIT_ACCEPT (R425, R426): the journal write is verified. It is not begun while PWR_FAIL_N is low (R73). -/
def commitAccept (s : State) : State :=
  match s.osr.checked with
  | none => s
  | some k =>
    if s.power.failState != 0 then s
    else
      let gen := s.cfg.lastGen + 1#32
      let tc : Stamp := ⟨s.time.gen, s.commitInstant⟩
      let c : Commit := { gen := gen, cells := k.cells, tc := tc, acc := s.now }
      let jcfg := Memory.apply s.variant s.journaled (lasting k.cells)
      let next : Cf := ⟨s.variant, Memory.apply s.variant s.cfg.live k.cells⟩
      let rep : Report := { gen := gen, sid := k.sid, acc := s.now, tc := tc, entries := k.entries.map (judgeAccept next s), unchanged := k.unchanged }
      let s1 := s.within [.ingest, .out] (outAccepted ⟨s.variant, s.journaled⟩ ⟨s.variant, jcfg⟩ s.now gen (bindAccepts next gen k.cells s))
      let s2 := { s1 with cfg := { s1.cfg with waiting := s1.cfg.waiting ++ [c], lastGen := gen, lastAcc := s.now, lastTc := tc },
                          jrn := { s1.jrn with cfgValid := true, cfg := jcfg, cfgGen := gen, utc := if (stagedOf k.cells 0x3050 1).isEmpty then s1.jrn.utc else none },
                          upd := ownSlot s1,
                          osr := { s1.osr with checked := none, reports := (rep :: s1.osr.reports).take 8 } }
      let s3 := s2.within [.events, .stats] (raise 0x08 0 gen.toNat (count 0x1080 5 s2))
      let s4 := s3.within [.events, .stats, .free, .sessions] (match s3.session k.sid with
        | some x => respond { x with stage := none, via := k.via } 0x22 k.tag stOk (reportHeader rep) (s3.setSession { x with stage := none })
        | none => noResp s3)
      if !s4.mode.cur.forms then configEffective s4 else s4
def execCommitAccept (dt : Nat) (s : State) : Host.Outcome State Fault Refusal := .next (s.act [.events, .irq, .stats, .free, .mode, .request, .reset, .journal, .stored, .time, .config, .commits, .previous, .sessions, .commitQueue, .queues, .sched, .port, .acq, .reader, .bus, .ingest, .slots, .chain, .align, .hr, .alarm, .goose, .out, .osc, .isl, .cop, .upd, .records, .recFlash, .recFault] dt commitAccept)

end Sys2Proof.Machine
end

