-- ==== Sys2Proof/Machine/Fields.lean ====
section
/-! DEFINITION. The record tables as Topiary checks them (R135 and the table rules of the chapters): fields with their
reserved bits and ranges, which bit makes a record valid, and the ranges of single objects that have a rule of their own. -/
namespace Sys2Proof.Machine
open Sys2Proof

/-- What a range makes of a value: in it, moved into it, or rejected with a reason of R427. -/
inductive Verdict where
  | ok
  | clamp (v : Nat)
  | rej (reason : Nat)
  deriving DecidableEq, Repr

/-- A range: over the configuration that would result, the record's number, the record with the fields checked before,
and the value. -/
abbrev Chk := Cf → Nat → Bytes → Nat → Verdict

/-- A field of a record: its place, its reserved bits, those that are cleared only while the record is not valid, its
range. -/
structure Fld where
  off   : Nat
  len   : Nat
  clear : Nat
  off0  : Nat
  chk   : Chk

/-- A table: record size, when a record is valid, its fields in the order they are checked. -/
structure Tab where
  size   : Nat
  valid  : Cf → Nat → Bytes → Bool
  fields : List Fld

/-! ## Ranges -/

def inRange (lo hi v : Nat) : Bool := lo ≤ v && v ≤ hi
def cAny : Chk := fun _ _ _ _ => .ok
def rejUnless (b : Bool) : Verdict := if b then .ok else .rej 3
def cRej (lo hi : Nat) : Chk := fun _ _ _ v => rejUnless (inRange lo hi v)
def clampTo (lo hi v : Nat) : Verdict := if v < lo then .clamp lo else if hi < v then .clamp hi else .ok
def cClamp (lo hi : Nat) : Chk := fun _ _ _ v => clampTo lo hi v
/-- A signed field of four bytes. -/
def cSigned (lim : Nat) : Chk := fun _ _ _ v =>
  let i := signedOf 4 v
  if i < -(lim : Int) then .clamp (2 ^ 32 - lim) else if (lim : Int) < i then .clamp lim else .ok
/-- A binary32 field: not a NaN, and in the range (R406). -/
def cF32 (p : F32 → Bool) : Chk := fun _ _ _ v => let x := BitVec.ofNat 32 v; rejUnless (!(n32 x).isNan && p x)
def f32pos (x : F32) : Bool := f32lt 0#32 x
def f32nonneg (x : F32) : Bool := f32le 0#32 x
/-- An instance number below a total, absent when it is at or beyond the part's count (R4, R6). -/
def inst (total count v : Nat) : Verdict := if total ≤ v then .rej 3 else if count ≤ v then .rej 4 else .ok
def slotCount (v : Nat) : Nat := byPart v 8192 4096 2048
def cSlot : Chk := fun c _ _ v => inst 8192 (slotCount c.v) v
/-- A slot in bits 12 to 0 that is used when bit 15 is set. -/
def cUseSlot : Chk := fun c _ _ v => if bit v 15 then inst 8192 (slotCount c.v) (v % 8192) else .ok
/-- A port mask: absent bits cleared, none left rejected. -/
def portMask (v x : Nat) : Verdict :=
  let y := x % 2 ^ byPart v 6 6 4
  if y = 0 then .rej 3 else if y = x then .ok else .clamp y
/-- A first number with the count in another field: both within the total, and present. -/
def firstCount (total count lo hi first n : Nat) : Verdict :=
  if !(inRange lo hi n && first + n ≤ total) then .rej 3 else if count < first + n then .rej 4 else .ok

/-! ## Fields -/

def fld (off len clear : Nat) (chk : Chk) : Fld := ⟨off, len, clear, clear, chk⟩
/-- A reserved field. -/
def fRes (off len : Nat) : Fld := fld off len (256 ^ len - 1) cAny
def fAny (off len : Nat) : Fld := fld off len 0 cAny
/-- A field whose reserved bits make a valid record fall out of range. -/
def fStrict (off len reserved : Nat) (chk : Chk) : Fld := ⟨off, len, 0, reserved, fun c r b v => if v.land reserved != 0 then .rej 3 else chk c r b v⟩

def bit0 (_ : Cf) (_ : Nat) (b : Bytes) : Bool := bit (field b 0 1) 0
def bit15 (_ : Cf) (_ : Nat) (b : Bytes) : Bool := bit (field b 0 2) 15
def always (_ : Cf) (_ : Nat) (_ : Bytes) : Bool := true

/-! ## The chapters' tables -/

/-- Stream contexts (R135). -/
def tabCtx : Tab := ⟨32, bit0,
  [ fld 0 1 0xE0 cAny, fld 1 1 0 (cRej 0 2), fld 2 2 0 (cRej 1 65534),
    fld 4 4 0 (fun _ _ b v => rejUnless (!(v = 0 && field b 1 1 = 1))), fld 8 2 0 (fun _ _ b v => rejUnless (!(v = 0 && field b 1 1 = 1))),
    fld 10 2 0 (fun c _ b v => rejUnless (field b 1 1 != 0 || listens c v)),
    fld 12 1 0 (fun c _ b v => if field b 1 1 = 0 then portMask c.v v else .ok), fld 13 1 0 (cRej 0 1),
    fld 14 2 0 (fun c _ _ v => inst 8192 (slotCount c.v) v),
    fld 16 1 0 (fun c _ b v => firstCount 8192 (slotCount c.v) 1 32 (field b 14 2) v), fRes 17 1,
    fld 18 2 0 (fun c _ b v => if field b 1 1 != 2 then .ok else if 255 < v then .rej 3 else
      firstCount 256 (byPart c.v 256 128 64) 1 32 v (field b 16 1)), fRes 20 12 ]⟩

/-- Sampled-value streams (R151). -/
def tabSv : Tab := ⟨64, bit0,
  [ fld 0 1 0xFC cAny, fld 1 1 0 (cRej 0 3), fld 2 2 0 (cRej 0x4000 0x7FFF), fld 4 6 0 (fun _ _ _ v => rejUnless (!bit v 40)), fRes 10 2, fAny 12 4,
    fld 16 2 0 (fun c _ _ v => inst 1024 (byPart c.v 1024 512 256) v),
    fld 18 1 0 (fun c _ b v => firstCount 1024 (byPart c.v 1024 512 256) 1 24 (field b 16 2) v), fld 19 1 0 (cClamp 0 8), fld 20 4 0 (cClamp 0 100000),
    fld 24 36 0 (fun _ _ b _ => rejUnless (field b 24 1 != 0 && field b 59 1 = 0)), fRes 60 4 ]⟩

/-- A map record of an angle, a frequency or a digital word, which takes neither the negate bit nor a scale (R157; for angles log
entry 190). -/
def plainKind (b : Bytes) : Bool := [1, 4, 7].contains (field b 4 2 / 4096)
/-- The signal map (R155, R150). -/
def tabMap : Tab := ⟨16, bit15,
  [ fStrict 0 2 0x7000 (fun c _ _ v => inst 4096 (byPart c.v 4096 2048 1024) (v % 4096) |> fun r => if r = .ok then rejUnless (ctxValid c (v % 4096)) else r),
    fld 2 1 0 (fun c _ b v => rejUnless (v < ctxF c (field b 0 2 % 4096) 16 1)), fld 4 2 0 (cRej 0 0x7FFF),
    fld 3 1 0xFE (fun _ _ b v => if plainKind b && bit v 0 then .clamp (v - 1) else .ok), fld 6 2 0 cSlot,
    fld 8 4 0 (fun c r b v => match cF32 (fun x => f32finite x && x.toNat % 2 ^ 31 != 0) c r b v with
      | .ok => if plainKind b && v != 0x3F800000 then .clamp 0x3F800000 else .ok
      | x => x), fld 12 2 0xFE00 cAny, fRes 14 2 ]⟩

/-- The largest divisor of `rate` up to a number. -/
def divisorUpTo (rate top : Nat) : Nat := ((span 1 (top + 1)).filter (fun d => rate % d = 0)).foldl max 1

/-- The decimation factor by R170. -/
def decimation (rate m : Nat) : Verdict :=
  let top := min m 64
  let y := if rate = 0 then top else divisorUpTo rate top
  if m = 0 then .rej 3 else if y = m then .ok else .clamp y

/-- Sampled channels (R165, R170). -/
def tabChan : Tab := ⟨32, bit0,
  [ fld 0 1 0xFE cAny, fld 1 1 0 (fun c _ _ v => rejUnless (v ≤ 63 && setN c v != 0)), fld 2 1 0 (fun c r _ v => decimation (inputRate c r) v), fRes 3 1,
    fld 4 2 0 (cClamp 0 2047), fld 6 2 0 (cClamp 0 1023), fld 8 4 0 (cF32 (fun x => f32finite x && x.toNat % 2 ^ 31 != 0)),
    fld 12 4 0 (fun _ _ _ v => let x := BitVec.ofNat 32 v
      if (n32 x).isNan then .rej 3 else if f32lt x 0x3F000000#32 then .clamp 0x3F000000 else if f32lt 0x40000000#32 x then .clamp 0x40000000 else .ok),
    fld 16 4 0 (fun _ _ _ v => let x := BitVec.ofNat 32 v; rejUnless (f64le (f64abs (f64of32 x)) f64pi)), fld 20 4 0 (cSigned 1000000), fRes 24 8 ]⟩

/-- A channel that an estimator or a record group names. -/
def namedChannel (c : Cf) (ch : Nat) : Verdict :=
  match inst 1024 (byPart c.v 1024 512 256) ch with
  | .ok => rejUnless (chanValid c ch)
  | r => r

/-- The decimation factor of a channel as R170 applies it. -/
def appliedFactor (c : Cf) (ch : Nat) : Nat :=
  match decimation (inputRate c ch) (chF c ch 2 1) with
  | .clamp m => m
  | _ => chF c ch 2 1

/-- Estimators (R177, R178). The flags are checked last: their range names later fields. -/
def tabEst : Tab := ⟨32, bit0,
  [ fld 1 1 0 (cRej 10 240), fld 2 1 0 (cRej 1 8),
    fld 3 1 0 (fun _ _ b v => rejUnless (v < field b 2 1 || (v = 8 && bit (field b 0 1) 3))), fld 4 4 0 (cF32 (fun x => f32finite x && f32nonneg x)) ] ++
  (List.range 8).map (fun i => fld (8 + 2 * i) 2 0 (fun c _ b v =>
    if field b 2 1 ≤ i then .ok else match namedChannel c v with
      | .ok => let r := inputRate c v / max 1 (appliedFactor c v); if inputRate c v != 0 && r < 20 * (if bit (field b 0 1) 2 then 60 else 50) then .rej 6 else .ok
      | x => x)) ++
  [ fld 0 1 0xE0 (fun _ _ b v =>
      if (bit v 3 && field b 2 1 < 3) || (bit v 4 && field b 2 1 < 6) then .rej 3
      else if bit v 1 && 2 * (if bit v 2 then 60 else 50) < field b 1 1 then .clamp (v - 2) else .ok), fRes 24 8 ]⟩

/-- Comparators (R174). -/
def tabComp : Tab := ⟨16, fun _ _ b => field b 0 1 != 0,
  [ fld 0 1 0 (cRej 0 4), fld 1 1 0xFC cAny, fld 2 2 0 (cClamp 1 1000), fld 4 2 0 (cClamp 1 65535), fRes 6 2, fld 8 4 0 (cF32 f32finite),
    fld 12 4 0 (cF32 (fun x => f32finite x && f32nonneg x)) ]⟩

/-- Groups (R192). -/
def tabGroup : Tab := ⟨32, bit0,
  [ fld 1 1 0 (cRej 10 240), fld 2 2 0 (cClamp 0 1000),
    fld 0 1 0xE0 (fun _ _ b v => if field b 2 2 ≤ field b 4 2 && bit v 2 then .clamp (v - 4) else .ok),
    fld 4 2 0 (fun _ _ b v => if field b 2 2 ≤ v && v != 0 then .clamp 0 else .ok), fld 6 2 0 (fun _ _ b v => clampTo 0 (field b 2 2) v),
    fld 8 2 0 (cClamp 500 1000), fld 10 2 0 (cClamp 0 100), fld 12 2 0 (cClamp 0 1000), fRes 14 18 ]⟩

/-- Membership bitmaps (R193). -/
def tabMembers : Tab := ⟨512, always,
  [ fld 0 512 0 (fun c _ _ v => let y := v % 2 ^ byPart c.v 4096 2048 1024; if y = v then .ok else .clamp y) ]⟩

/-- Alignment settings (R194). -/
def tabAlign : Tab := ⟨8, always, [ fld 0 1 0 (cClamp 1 255), fld 1 1 0xFC cAny, fld 2 2 0 (cClamp 0 1000), fRes 4 4 ]⟩

/-- The tracker rate: a divisor of the group's rate from 10 to 60 (R223). -/
def trackerRate (fg v : Nat) : Verdict :=
  match ((span 10 (min v 60 + 1)).filter (fun d => fg % d = 0)).reverse with
  | d :: _ => if d = v then .ok else .clamp d
  | [] => .rej 3

/-- The number of valid signals of a mode group (R224). -/
def signalCount (c : Cf) (g : Nat) : Nat :=
  ((c.recs 0x6820 1 16).filter (fun r => let w := c.u 0x6820 1 (16 * r) 2; bit w 15 && w % 16 = g)).length

/-- Mode groups (R223). -/
def tabModeGroup : Tab := ⟨64, bit0,
  [ fld 0 1 0xF0 cAny, fld 1 1 0 (fun c _ _ v => rejUnless (v ≤ 15 && agFlag c v 0)), fld 2 1 0 (fun c _ b v => trackerRate (agRate c (field b 1 1)) v),
    fld 3 1 0 (cClamp 2 32), fld 4 2 0 (cClamp 10 120),
    fld 6 2 0 (fun _ _ _ v => let y := min (max v 100) 10000 / 100 * 100; if y = v then .ok else .clamp y),
    fld 8 1 0 (fun _ _ _ v => let y := min (max (v + v % 2) 2) 16; if y = v then .ok else .clamp y), fld 9 1 0 (cClamp 1 8),
    fld 10 2 0 (fun _ _ b v => let w := max 1 (field b 4 2); let lo := max 10 ((1000 + w - 1) / w); if v < lo then .clamp lo else .ok),
    fld 12 2 0 (fun _ _ b v => let y := min v (min 5000 (400 * field b 2 1)); if y ≤ field b 10 2 then .rej 3 else if y = v then .ok else .clamp y),
    fld 14 1 0 (fun c r _ v => if v = 0xFF || v < signalCount c r then .ok else .clamp 0xFF), fld 15 1 0 (cClamp 0 50), fld 16 2 0 (cClamp 2 60),
    fld 18 2 0 (cClamp 100 25000), fld 20 2 0 (fun _ _ b v => let y := min v 25000; if y ≤ field b 18 2 then .rej 3 else if y = v then .ok else .clamp y),
    fld 22 2 0 (cClamp 10 1000), fld 24 1 0 (cClamp 4 64), fld 25 1 0 (cClamp 1 100), fld 26 1 0 (cClamp 1 255), fRes 27 1, fld 28 2 0 (cClamp 0 1000),
    fld 30 2 0 (cClamp 0 3000), fld 32 2 0 (fun _ _ b v => clampTo 0 (field b 30 2) v), fld 34 2 0 (cClamp 0 1000), fld 36 2 0 (cClamp 10 5000),
    fld 38 2 0 (fun _ _ b v => clampTo (field b 36 2) 5000 v), fld 40 4 0 (cF32 (fun x => f32finite x && f32nonneg x)),
    fld 44 4 0 (cF32 (fun x => f32finite x && f32pos x)), fRes 48 16 ]⟩

/-- Signals (R224). -/
def tabSignal : Tab := ⟨16, bit15,
  [ fStrict 0 2 0x7FF0 (fun c _ _ v => rejUnless (bit (c.u 0x6810 1 (64 * (v % 16)) 1) 0)), fld 2 2 0 cSlot, fld 4 2 0x6000 cUseSlot, fld 6 1 0xF0 cAny, fRes 7 1,
    fld 8 4 0 (cF32 (fun x => f32finite x && f32pos x)), fld 12 4 0 (cF32 (fun x => f32finite x && f32nonneg x)) ]⟩

/-- Buses and edges (R257, R258). -/
def tabBus : Tab := ⟨16, bit15,
  [ fld 0 2 0x7FFF cAny, fld 2 2 0 cSlot, fld 4 2 0 cSlot, fld 6 2 0x6000 cUseSlot, fld 8 1 0xFE cAny, fld 9 1 0 (cClamp 1 255), fRes 10 6 ]⟩
def busRec (c : Cf) (k : Nat) : Bool := bit (c.u 0x7100 1 (16 * k) 2) 15
def tabEdge : Tab := ⟨16, bit15,
  [ fStrict 0 2 0x7000 (fun c _ _ v => rejUnless (busRec c (v % 4096))),
    fStrict 2 2 0xF000 (fun c _ b v => rejUnless (busRec c v && v != field b 0 2 % 4096)), fld 4 2 0x6000 cUseSlot, fld 6 1 0xE0 cAny, fRes 7 1,
    fld 8 4 0 (cF32 (fun x => f32pos x && f64le (f64of32 x) f64pi)), fld 12 4 0 (cF32 (fun x => f32finite x && f32pos x)) ]⟩

/-- The instance of an alarm's source (R281, R282). -/
def alarmSource (c : Cf) (kind i einst : Nat) : Verdict :=
  let modeSlot := fun (top : Nat) =>
    if !(i / 4096 = 0 && i / 16 % 16 = 0 && (i % 16 ≤ top || i % 16 = 15)) then .rej 3 else if 1 ≤ c.v then .rej 4 else .ok
  match kind with
  | 1 | 2 | 3 | 4 => rejUnless (i ≤ 16)
  | 5 | 6 => modeSlot 7
  | 7 => modeSlot 3
  | 8 => inst 4096 (4 * byPart c.v 1024 512 256) i
  | 9 => if 255 < i || eventReserved i then .rej 3 else if eventAbsent c.v i (if einst = 0xFFFF then 0 else einst) then .rej 4 else .ok
  | _ => .ok

/-- Alarms (R281). -/
def tabAlarm : Tab := ⟨16, bit0,
  [ fld 0 1 0xF0 cAny, fld 1 1 0 (cRej 1 9), fld 2 2 0 (fun c _ b v => alarmSource c (field b 1 1) v (field b 4 2)),
    fld 4 2 0 (fun _ _ b v => if field b 1 1 = 9 || v = 0 then .ok else .clamp 0), fld 6 2 0 (cClamp 0 1000), fld 8 1 0 (cClamp 0 50),
    fld 9 1 0 (fun _ _ _ v => rejUnless (v ≤ 15 || v = 0xFF)), fld 10 2 0 (fun _ _ _ v => rejUnless (v ≤ 4095 || v = 0xFFFE || v = 0xFFFF)),
    fld 12 2 0 (fun _ _ b v => if field b 1 1 = 9 then clampTo 1 60000 v else .ok), fRes 14 2 ]⟩

/-- GOOSE publications, members and names (R288). -/
def tabPub : Tab := ⟨32, bit0,
  [ fld 0 1 0xC0 cAny, fld 1 1 0 (fun c _ _ v => portMask c.v v), fld 2 2 0 (cRej 0 0x3FFF), fld 4 6 0 (cRej 0x010CCD010000 0x010CCD0101FF), fAny 10 2,
    fld 12 2 0 (cRej 0 1023), fld 14 1 0 (fun _ _ b v => rejUnless (inRange 1 64 v && field b 12 2 + v ≤ 1024)),
    fld 15 1 0 (fun _ _ b v => rejUnless (!bit (field b 0 1) 1 || v ≤ 15)), fld 16 2 0 (cClamp 100 60000), fld 18 2 0 (fun _ _ b v => clampTo 1 (field b 16 2) v),
    fld 20 2 0 (fun _ _ b v => rejUnless (!bit (field b 0 1) 2 || v ≤ 511)), fld 22 1 0 (cRej 1 3),
    fRes 23 9 ]⟩

/-- The member belongs to a valid value publication (R288). -/
def memberOfValue (c : Cf) (m : Nat) : Bool :=
  match (List.range 64).find? (fun p => bit (gpF c p 0 1) 0 && gpF c p 12 2 ≤ m && m < gpF c p 12 2 + gpF c p 14 1) with
  | some p => bit (gpF c p 0 1) 1
  | none => false
def tabMember : Tab := ⟨8, bit15,
  [ fld 0 2 0x6000 (fun c r _ v => if memberOfValue c r then inst 8192 (slotCount c.v) (v % 8192) else rejUnless (v % 8192 ≤ 511)), fRes 2 2,
    fld 4 4 0 (fun c r _ v => rejUnless (!memberOfValue c r || f32finite (BitVec.ofNat 32 v))) ]⟩
def tabName : Tab := ⟨192, fun c r _ => bit (gpF c r 0 1) 0, [ fAny 0 64, fAny 64 64, fAny 128 64 ]⟩

/-- Output sessions, blocks and slots (R295, R296). -/
def tabOut : Tab := ⟨32, bit0,
  [ fld 0 1 0xE0 cAny, fld 1 1 0 (cRej 0 1), fld 2 2 0 (cRej 1 65534), fld 4 1 0 (fun c _ _ v => rejUnless (v ≤ 15 && agFlag c v 0)), fld 5 1 0 (cRej 0 1),
    fld 6 2 0 (fun c _ _ v => rejUnless (v != 0 && v != 4860 && !listens c v)), fld 8 4 0 (fun _ _ b v => rejUnless (!(v = 0 && field b 1 1 = 1))),
    fld 12 2 0 (fun _ _ b v => rejUnless (if field b 1 1 = 0 then v = 0 else v != 0)), fld 14 1 0 (fun c _ _ v => portMask c.v v), fRes 15 17 ]⟩
def tabBlock : Tab := ⟨32, bit15,
  [ fStrict 0 2 0x7F00 (fun c _ _ v => match inst 256 (byPart c.v 256 128 64) (v % 256) with | .ok => rejUnless (outValid c (v % 256)) | r => r),
    fld 2 2 0 (cRej 1 65534), fAny 4 16, fld 22 1 0 (cRej 0 64), fld 23 1 0 (cRej 0 64), fld 24 1 0 (cRej 0 16),
    fld 20 2 0 (fun _ _ b v => rejUnless (v + 2 * field b 22 1 + 2 + field b 23 1 + field b 24 1 ≤ 32768)), fRes 25 7 ]⟩
def tabSlots : Tab := ⟨2, always, [ fld 0 2 0 (fun c _ _ v => if v = 0xFFFF then .ok else inst 8192 (slotCount c.v) v) ]⟩

/-- Record groups, trigger units, digital inputs (R311, R313, R316, R317). -/
def tabRecGroup : Tab := ⟨80, bit0,
  [ fld 0 1 0xFC cAny, fld 1 1 0 (cRej 1 32), fAny 2 2, fld 4 4 0 (cClamp 0 65536), fld 8 4 0 (cClamp 1 262144), fRes 12 4 ] ++
  (List.range 32).map (fun i => fld (16 + 2 * i) 2 0 (fun c _ b v =>
    if field b 1 1 ≤ i then .ok else match namedChannel c v with
      | .ok => rejUnless (chanRate c v = chanRate c (field b 16 2))
      | r => r))⟩

/-- A trigger unit's source (R316). -/
def trigSource (c : Cf) (kind v : Nat) : Verdict :=
  match kind with
  | 1 => inst 1024 (byPart c.v 1024 512 256) v
  | 2 => inst 8192 (slotCount c.v) v
  | 3 => rejUnless (v ≤ 15)
  | 4 => inst 4096 (4 * byPart c.v 1024 512 256) v
  | 5 => rejUnless (v ≤ 15)
  | _ => .ok

/-- Source and trigger kinds that go together (R317). -/
def trigPair (src kind : Nat) : Bool :=
  match src with
  | 1 | 2 => kind ≤ 4
  | 3 | 5 => kind = 0 || kind = 1 || kind = 3
  | 4 => kind = 0
  | _ => false

def tabTrig : Tab := ⟨48, bit0,
  [ fld 0 1 0xF0 cAny, fld 1 1 0 (fun c _ _ v => rejUnless (v ≤ 15 && groupValid c v)), fld 2 1 0 (cRej 1 5),
    fld 3 1 0 (fun _ _ b v => rejUnless (v ≤ 4 && trigPair (field b 2 1) v)), fld 4 2 0 (fun c _ b v => trigSource c (field b 2 1) v),
    fld 6 1 0 (fun _ _ b v => rejUnless (field b 2 1 != 2 || v ≤ 15)), fld 7 1 0 (cRej 0 2), fld 8 1 0 (cRej 0 4), fld 9 1 0 (cRej 0 15), fAny 10 2,
    fld 12 2 0 (fun _ _ b v => let y := v.land (field b 10 2); if y = v then .ok else .clamp y), fRes 14 2,
    fld 16 4 0 (cF32 f32finite),
    fld 20 4 0 (fun _ _ b v => let x := BitVec.ofNat 32 v; rejUnless (f32finite x && f32lt x (BitVec.ofNat 32 (field b 16 4)))),
    fld 24 4 0 (cF32 (fun x => f32finite x && f32nonneg x)), fld 28 4 0 (cClamp 0 4000000000),
    fld 32 4 0 (fun _ _ b v => clampTo (field b 28 4) 4000000000 v), fld 36 4 0 (cClamp 0 60000000), fRes 40 8 ]⟩
def tabDin : Tab := ⟨8, bit0, [ fld 0 1 0xFC cAny, fRes 1 1, fld 2 2 0 (cClamp 0 10000), fld 4 4 0 (cSigned 1000000) ]⟩

/-- Task tuning (R391), for a task with a descriptor. -/
def tabTask (d : Option TaskDesc) : Tab := ⟨16, always,
  [ fld 0 1 0 (fun _ _ _ v => if v = 15 then .clamp 14 else rejUnless (v ≤ 14)),
    fld 1 1 0 (fun _ _ b v => if 15 < v then .rej 3 else if v < field b 0 1 then .clamp (field b 0 1) else .ok),
    fld 2 1 0 (fun _ _ _ v => match d with
      | none => .ok
      | some t =>
        let allowed := affinityBits ((span (8 * t.cluster) (8 * t.cluster + 8)).filter (fun k => coreGeneral k && corePlane k = t.plane))
        let y := v.land allowed
        if y = 0 then (if v = t.affinity then .ok else .clamp t.affinity) else if y = v then .ok else .clamp y),
    fld 3 1 0 (cRej 0 1), fld 4 4 0 (cClamp 100 10000000), fld 8 4 0 (cClamp 50 10000), fRes 12 4 ]⟩

/-- The permanent selection (R512). -/
def tabSelect : Tab := ⟨32, always, [ fAny 0 32 ]⟩

/-- Workers and the uplink map (R365, R357). -/
def tabWorker : Tab := ⟨32, bit0,
  [ fld 0 1 0xF0 cAny, fld 1 1 0 (cClamp 1 255), fld 2 2 0 (cClamp 0 1000), fRes 4 4, fld 8 8 0 (fun _ _ _ v => rejUnless (v != 0)), fld 16 4 0 (cSigned 10000),
    fld 20 4 0 (cSigned 10000), fRes 24 8 ]⟩
def tabUplink : Tab := ⟨8, bit15, [ fAny 0 2, fAny 2 2, fld 4 2 0 (fun c _ _ v => inst 8192 (slotCount c.v) (v % 8192)), fRes 6 2 ]⟩

/-- Event sources (R550). A record of a reserved ID is all zero. -/
def tabEvent : Tab := ⟨8, fun _ r b => bit (field b 0 1) 0 || eventReserved r,
  let any0 := fun (chk : Chk) => (fun c r b v => if eventReserved r then (if ofBE b = 0 then .ok else .rej 3) else chk c r b v : Chk)
  [ fld 0 1 0xFE (any0 cAny), fld 1 1 0xF0 (any0 cAny), fld 2 2 0 (any0 (cClamp 0 60000)), fld 4 4 (256 ^ 4 - 1) (any0 cAny) ]⟩

/-- The table at an index; the descriptor is that of the record's task, for 0x9200. -/
def tabAt (idx : Nat) (d : Option TaskDesc) : Option Tab :=
  match idx with
  | 0x4100 => some tabCtx | 0x4200 => some tabSv | 0x4300 => some tabMap | 0x5100 => some tabChan | 0x5300 => some tabEst | 0x5400 => some tabComp
  | 0x6100 => some tabGroup | 0x6180 => some tabMembers | 0x6200 => some tabAlign | 0x6810 => some tabModeGroup | 0x6820 => some tabSignal
  | 0x7100 => some tabBus | 0x7200 => some tabEdge | 0x7810 => some tabAlarm | 0x7900 => some tabPub | 0x7910 => some tabMember | 0x7920 => some tabName
  | 0x7A00 => some tabOut | 0x7A10 => some tabBlock | 0x7A20 => some tabSlots | 0x8100 => some tabRecGroup | 0x8200 => some tabTrig | 0x8300 => some tabDin
  | 0x9200 => some (tabTask d) | 0xD010 => some tabSelect | 0xE100 => some tabWorker | 0xE200 => some tabUplink | 0xF400 => some tabEvent
  | _ => none

/-! ## Single objects with a rule of their own -/

/-- The largest and smallest of a range that other objects give. -/
def clampBetween (lo hi : Nat) (v : Nat) : Verdict := if v < lo then .clamp lo else if hi < v then .clamp hi else .ok

/-- The range of an object whose rule is its own (R132, R101, R162, R276, R330, R482, R513, R364). `s` gives what only the
device knows: pending configurations, key slots, the serial number, the source in use. -/
def ownRange (s : State) (c : Cf) (idx sub v : Nat) : Verdict :=
  let v2010 := idx - idx % 16
  if v2010 = 0x2010 && sub = 3 then (if v = 0 then .ok else clampTo 1536 9216 v)
  else if v2010 = 0x2010 && sub = 9 then rejUnless ((List.range 16).all (fun q => v / 16 ^ q % 16 ≤ 4))
  else if v2010 = 0x2040 then
    (if v / 2 ^ 57 % 4 = 3 then .rej 3
     else
      let y := v.land 0xFEFFFEFFFFEF0000
      if y = v then .ok else .clamp y)
  else match idx with
  | 0x2000 => portMask s.variant v
  | 0x3010 => if 8 < v then .rej 3 else if 1 ≤ v && v ≤ 6 && s.ports < v then .rej 4 else .ok
  | 0x3050 => rejUnless (v ≤ 2 && (v = 0 || !(match s.inUse with | some k => s.carriesLeap k | none => false)))
  | 0x4000 => rejUnless (v != 4860)
  | 0x4010 =>
    let k := v / 65536
    if 4095 < k then .rej 3 else if s.contexts ≤ k then .rej 4
    else rejUnless (s.acceptsValue c v)
  | 0x7010 =>
    let u := fun k => c.u 0x7010 k 0 2
    (match sub with
     | 1 => rejUnless (v ≤ 15 && agFlag c v 0)
     | 0x0A => clampBetween (u 9) 5000 v
     | 0x0B => clampBetween 0 (u 9 - 1) v
     | 0x0D => clampBetween 0 (u 0x0C - 1) v
     | 0x0F => clampBetween 0 (u 0x0E - 1) v
     | _ => rejUnless (v ≤ 4095 || v = 0xFFFF))
  | 0x8000 => let y := min (max v 64) 4096 / 64 * 64; if y = v then .ok else .clamp y
  | 0xB010 => rejUnless (v = 0xFFFF || (v < 512 && (let k := Table.getD s.key.slots v {}; k.state = 1 && k.kind = 4 && bit k.usage 5)))
  | 0xD000 => rejUnless (1 ≤ v / 2 ^ 24 && v / 2 ^ 24 ≤ 3 && v % 2 ^ 24 = Config.serial.toNat % 2 ^ 24)
  | 0xE000 => if sub = 1 then (if 2 < v then .rej 3 else if v != 0 && !bit (byPart s.variant 3 1 0) (v - 1) then .rej 4 else .ok)
              else rejUnless (v = 0xFF || (v ≤ 15 && agFlag c v 0))
  | 0xE110 => let y := v.land (flagsOf ((List.range 16).map (fun w => bit (wkF c w 0 1) 0))); if y = v then .ok else .clamp y
  | _ => .ok

end Sys2Proof.Machine
end

