-- ==== Sys2Proof/Machine/Topiary.lean ====
section
/-! DEFINITION. Topiary (R424, R425, R427): the checks of a commit, in the spec's order, the report they make, and
TOPIARY_CHECK. -/
namespace Sys2Proof.Machine
open Sys2Proof

/-! ## The work in progress -/

/-- A record, or an object that is not a table with record number 0xFFFFFFFF. -/
structure RecKey where
  idx : Nat
  sub : Nat
  row : Nat
  deriving DecidableEq, Repr

/-- What Topiary has so far: the configuration that would result, the cells the commit sets, the staged records that
stand, the report's entries, the records found unchanged, and what was staged for the records that their own fields refuse. -/
structure Topi where
  cf      : Cf
  cells   : List Host.Cell := []
  taken   : List RecKey := []
  entries : List Entry := []
  same    : Nat := 0
  refused : List (RecKey × Bytes) := []

/-- The entry form of a field's value: right-aligned, the first eight bytes of a longer one. -/
def shown (len v : Nat) : Nat := if len ≤ 8 then v else v / 256 ^ (len - 8)

/-- The number of a single object in a report. -/
def noRec : Nat := 0xFFFFFFFF

/-- The byte offset of a record in its object. -/
def RecKey.base (k : RecKey) (size : Nat) : Nat := if k.row = noRec then 0 else k.row * size

/-- A task that has a descriptor and is tunable (R391). -/
def tunable (s : State) (t : Nat) : Option TaskDesc :=
  match Table.find s.sched.desc t with
  | some d => if d.tunable then some d else none
  | none => none

/-- A task's record of defaults (R391). -/
def taskBytes (d : TaskDesc) : Bytes :=
  toBE 1 d.base ++ toBE 1 d.ceil ++ toBE 1 d.affinity ++ toBE 1 d.delivery ++ toBE 4 d.quantum ++ toBE 4 d.slice ++ zeros 4

/-- The content of a record. The tuning table's records read their task's defaults until one is committed. -/
def recBytes (s : State) (c : Cf) (k : RecKey) (size : Nat) : Bytes :=
  let b := c.bytes k.idx k.sub (k.base size) size
  if k.idx = 0x9200 then
    (if c.u 0x9200 1 (16 * k.row + 15) 1 = 1 then b.take 15 ++ [0#8]
     else match Table.find s.sched.desc k.row with | some d => taskBytes d | none => zeros 16)
  else b

/-- The bytes as the configuration holds them: byte 15 of a committed tuning record marks it. -/
def stored (k : RecKey) (b : Bytes) : Bytes := if k.idx = 0x9200 then b.take 15 ++ [1#8] else b

/-- Set bytes of the configuration that would result, and of the commit. -/
def Topi.set (t : Topi) (k : RecKey) (size : Nat) (b : Bytes) : Topi :=
  let a := cfgAddr k.idx k.sub (k.base size)
  { t with cf := { t.cf with mem := Memory.writes t.cf.v t.cf.mem a b }, cells := putCells t.cells a b }

/-- Put back what was live: the record leaves the commit. -/
def Topi.revert (t : Topi) (base : Cf) (k : RecKey) (size : Nat) : Topi :=
  let a := cfgAddr k.idx k.sub (k.base size)
  { t with cf := { t.cf with mem := Memory.writes t.cf.v t.cf.mem a (base.bytes k.idx k.sub (k.base size) size) },
           cells := t.cells.filter (fun c => c.1 < a || a + size ≤ c.1), taken := t.taken.filter (· != k) }

/-! ## Fields of a record (R135, R427) -/

/-- A field as checked: its place, the staged value, the applied value, outcome and reason. -/
structure Checkd where
  off     : Nat
  len     : Nat
  staged  : Nat
  applied : Nat
  outcome : Nat
  reason  : Nat

/-- Put a number into a record. -/
def patch (b : Bytes) (off len v : Nat) : Bytes := overlay b off (toBE len v)

/-- Check one field: its reserved bits, and its range while the record is valid. -/
def checkField (c : Cf) (r : Nat) (on : Bool) (f : Fld) (acc : Bytes × List Checkd) : Bytes × List Checkd :=
  let (b, done) := acc
  let v := field b f.off f.len
  let mask := if on then f.clear else f.clear.lor f.off0
  let v0 := v - v.land mask
  let ok := fun (x : Nat) => (patch b f.off f.len x, done ++ [⟨f.off, f.len, v, x, if x = v then 0 else 1, if x = v then 0 else 3⟩])
  match (if on then f.chk c r (patch b f.off f.len v0) v0 else .ok) with
  | .ok => ok v0
  | .clamp x => ok x
  | .rej why => (b, done ++ [⟨f.off, f.len, v, v, 2, why⟩])

/-- The fields of a record that is not examined further: all rejected for one reason. -/
def refuseAll (tab : Tab) (b : Bytes) (why : Nat) : List Checkd := tab.fields.map (fun f => let v := field b f.off f.len; ⟨f.off, f.len, v, v, 2, why⟩)

/-- The report's entries of a record: with a rejected field every field is rejected and reads its live value. -/
def recEntries (k : RecKey) (live : Bytes) (fs : List Checkd) : List Entry :=
  let bad := fs.any (fun f => f.outcome = 2)
  fs.map (fun f =>
    { idx := k.idx, sub := k.sub, outcome := if bad then 2 else f.outcome, record := k.row, off := f.off, len := f.len,
      reason := if bad && f.outcome != 2 then 5 else f.reason, staged := shown f.len f.staged,
      live := shown f.len (if bad then field live f.off f.len else f.applied) })

/-- Check a staged record of a table. -/
def checkRec (s : State) (base : Cf) (k : RecKey) (b : Bytes) (t : Topi) : Topi :=
  let task := if k.idx = 0x9200 then tunable s k.row else none
  match tabAt k.idx task with
  | none => t
  | some tab =>
    let live := recBytes s base k tab.size
    if b = live then { t.set k tab.size (stored k b) with same := t.same + 1 }
    else
      let (b1, fs) :=
        if recAbsent base.v k.idx k.row then (b, refuseAll tab b 4)
        else if k.idx = 0x9200 && task.isNone then (b, refuseAll tab b 2)
        else tab.fields.foldl (fun acc f => checkField t.cf k.row (tab.valid t.cf k.row b) f acc) (b, [])
      let es := recEntries k live fs
      let t1 := { t with entries := t.entries ++ es }
      if fs.any (fun f => f.outcome = 2) then { t1.revert base k tab.size with refused := t1.refused ++ [(k, b)] }
      else { t1.set k tab.size (stored k b1) with taken := t1.taken ++ [k] }

/-! ## Coefficient sets (R166, R167) -/

/-- The taps of a set as staged: each a sign-extended 24-bit number. -/
def tapOk (v : Nat) : Bool := v / 2 ^ 24 = if bit v 23 then 255 else 0

/-- The group delay of a set: automatic, or clamped to the limit. -/
def setDelay (b : Bytes) (n : Nat) : Verdict :=
  let g := field b 2 4
  let taps := (List.range n).map (fun i => field b (8 + 4 * i) 4)
  if g = 0xFFFFFFFF then (if taps = taps.reverse then .clamp ((n - 1) * 512) else .rej 3)
  else if (n - 1) * 1024 < g then .clamp ((n - 1) * 1024) else .ok

/-- Check a staged set, one record of variable length. -/
def checkSet (base : Cf) (k : RecKey) (b : Bytes) (t : Topi) : Topi :=
  let oldLen := 8 + 4 * base.u k.idx k.sub 0 2
  let live := base.bytes k.idx k.sub 0 oldLen
  if b = live then { t.set k oldLen b with same := t.same + 1 }
  else
    let n := field b 0 2
    let whole := b.length = 8 + 4 * n
    let m := if whole then n else (b.length - 8) / 4
    let g := field b 2 4
    let f0 : Checkd := ⟨0, 2, n, n, if whole && n ≤ 384 then 0 else 2, if whole && n ≤ 384 then 0 else 3⟩
    let f2 : Checkd := match (if whole then setDelay b n else .ok) with
      | .ok => ⟨2, 4, g, g, 0, 0⟩
      | .clamp x => if g = 0xFFFFFFFF then ⟨2, 4, g, x, 0, 0⟩ else ⟨2, 4, g, x, 1, 3⟩
      | .rej why => ⟨2, 4, g, g, 2, why⟩
    let r := field b 6 2
    let f6 : Checkd := ⟨6, 2, r, 0, if r = 0 then 0 else 1, if r = 0 then 0 else 3⟩
    let ft := (List.range m).map (fun i => let v := field b (8 + 4 * i) 4; (⟨8 + 4 * i, 4, v, v, if tapOk v then 0 else 2, if tapOk v then 0 else 3⟩ : Checkd))
    let fs := f0 :: f2 :: f6 :: ft
    let t1 := { t with entries := t.entries ++ recEntries k live fs }
    if fs.any (fun f => f.outcome = 2) then t1.revert base k (max b.length oldLen)
    else
      let b1 := patch (patch b 2 4 f2.applied) 6 2 0
      { t1.set k b.length (b1 ++ zeros (oldLen - b.length)) with taken := t1.taken ++ [k] }

/-! ## Single objects -/

/-- The number a field of a type spells. -/
def typedInt (ty n : Nat) : Int := if ty = 5 || ty = 6 then signedOf (typeSize ty) n else (n : Int)
def untyped (ty : Nat) (v : Int) : Nat := (v % (256 ^ typeSize ty : Int)).toNat

/-- The range of a single object and its On out-of-range rule. -/
def objRange (s : State) (c : Cf) (o : Obj) (idx sub n : Nat) : Verdict :=
  let v := typedInt o.ty n
  match o.rule with
  | .rej => rejUnless (o.lo ≤ v && v ≤ o.hi)
  | .clamp => if v < o.lo then .clamp (untyped o.ty o.lo) else if o.hi < v then .clamp (untyped o.ty o.hi) else .ok
  | .mask m => if n.land m = n then .ok else .clamp (n.land m)
  | .any => .ok
  | .own => ownRange s c idx sub n

/-- Check a staged object that is no table: type, access, absence, range. -/
def checkObj (s : State) (base : Cf) (role : Nat) (o : Obj) (k : RecKey) (b : Bytes) (t : Topi) : Topi :=
  let size := typeSize o.ty
  let n := ofBE b
  let old := base.u k.idx k.sub 0 size
  let verdict : Verdict :=
    if b.length != size then .rej 1
    else if o.direct || !(o.acc = .rw || (o.acc = .rws && role = 2)) then .rej 2
    else if objAbsent base.v k.idx k.sub then .rej 4
    else objRange s t.cf o k.idx k.sub n
  let e : Entry := { idx := k.idx, sub := k.sub, outcome := 0, record := noRec, off := 0, len := b.length, reason := 0, staged := shown b.length n, live := n }
  match verdict with
  | .rej why =>
    { { t with entries := t.entries ++ [{ e with outcome := 2, reason := why, live := old }] }.revert base k (max size b.length) with refused := t.refused ++ [(k, b)] }
  | .ok => { t with entries := t.entries ++ [e], taken := t.taken ++ [k] }.set k size b
  | .clamp x => { t with entries := t.entries ++ [{ e with outcome := 1, reason := 3, live := x }], taken := t.taken ++ [k] }.set k size (toBE size x)

/-! ## Rules between records and objects -/

/-- A rule's finding: the record it rejects by its number, and the other of the pair. -/
structure Hit where
  victim : RecKey
  other  : Option RecKey := none

/-- The valid records of a table that would result, ascending. -/
def validRecs (c : Cf) (idx size : Nat) (valid : Nat → Bool) : List Nat := ((c.recs idx 1 size).insertionSort (· ≤ ·)).filter valid

/-- All pairs of a list, the earlier first, for which a test holds, as hits on the later. -/
def pairHits (idx : Nat) (xs : List Nat) (bad : Nat → Nat → Bool) : List Hit :=
  match xs with
  | [] => []
  | a :: r => (r.filter (bad a)).map (fun b => ⟨⟨idx, 1, b⟩, some ⟨idx, 1, a⟩⟩) ++ pairHits idx r bad

def overlap (a n b m : Nat) : Bool := decide (a < b + m) && decide (b < a + n)

/-- The first of a list of slots named before: hits on the records that name a slot again. -/
def slotHits (idx : Nat) (xs : List (Nat × Nat)) (seen : Table Nat) : List Hit :=
  match xs with
  | [] => []
  | (r, slot) :: rest => match Table.find seen slot with
    | some a => ⟨⟨idx, 1, r⟩, some ⟨idx, 1, a⟩⟩ :: slotHits idx rest seen
    | none => slotHits idx rest (Table.put seen slot r)

/-- Estimators of a local context all valid, with one rate (R139). -/
def localOk (c : Cf) (k : Nat) : Bool :=
  let es := (List.range (ctxF c k 16 1)).map (fun i => ctxF c k 18 2 + i)
  es.all (fun e => estValid c e && estF c e 1 1 = estF c (ctxF c k 18 2) 1 1)

/-- R136 and R139. -/
def hitsCtx (base c : Cf) : List Hit :=
  let xs := validRecs c 0x4100 32 (ctxValid c)
  pairHits 0x4100 xs (fun a b =>
    overlap (ctxF c a 14 2) (ctxF c a 16 1) (ctxF c b 14 2) (ctxF c b 16 1) ||
    (ctxF c a 1 1 = ctxF c b 1 1 && ctxF c a 2 2 = ctxF c b 2 2 && ctxF c a 4 4 = ctxF c b 4 4)) ++
  ((xs.filter (fun k => ctxLocal c k && !localOk c k)).map (fun k =>
    ((List.range (ctxF c k 16 1)).map (fun i => ctxF c k 18 2 + i)).filterMap (fun e =>
      if estValid base e != estValid c e || estF base e 1 1 != estF c e 1 1 then some (Hit.mk ⟨0x4100, 1, k⟩ (some ⟨0x5300, 1, e⟩)) else none) ++
    [⟨⟨0x4100, 1, k⟩, none⟩])).flatten

/-- R151. -/
def hitsSv (c : Cf) : List Hit :=
  pairHits 0x4200 (validRecs c 0x4200 64 (svValid c)) (fun a b =>
    overlap (svF c a 16 2) (svF c a 18 1) (svF c b 16 2) (svF c b 18 1) || (svF c a 2 2 = svF c b 2 2 && svF c a 24 36 = svF c b 24 36))

/-- Valid records of the signal map with their slots (R155). -/
def mapSlots (c : Cf) : List (Nat × Nat) :=
  (validRecs c 0x4300 16 (fun r => bit (c.u 0x4300 1 (16 * r) 2) 15)).map (fun r => (r, c.u 0x4300 1 (16 * r + 6) 2))

/-- R166: an emptied set that a valid channel names. -/
def hitsSets (c : Cf) : List Hit :=
  ((validRecs c 0x5100 32 (chanValid c)).filter (fun ch => setN c (chF c ch 1 1) = 0)).map (fun ch =>
    ⟨⟨0x5200, chF c ch 1 1 + 1, 0⟩, some ⟨0x5100, 1, ch⟩⟩)

/-- R288: a valid publication with an empty name. -/
def hitsNames (c : Cf) : List Hit :=
  (((List.range 64).filter (fun p => bit (gpF c p 0 1) 0 &&
    [0, 64, 128].any (fun o => c.u 0x7920 1 (192 * p + o) 1 = 0))).map (fun p => [Hit.mk ⟨0x7920, 1, p⟩ none, ⟨⟨0x7900, 1, p⟩, none⟩])).flatten

/-- R295: TCP sessions with one port. -/
def hitsOut (c : Cf) : List Hit :=
  pairHits 0x7A00 ((validOuts c).filter (outTcp c)) (fun a b => ouF c a 6 2 = ouF c b 6 2)

/-- R296: the block that takes its session's data frame past its size, and the later ones. Where none of them is staged, the last
staged block of the session is rejected; with none, the session's own record. -/
def overBlocks (c : Cf) (bs : List Nat) (room used : Nat) : List Nat :=
  match bs with
  | [] => []
  | b :: r => if room < used + blockSize c b then b :: r else overBlocks c r room (used + blockSize c b)
def hitsBlocks (c : Cf) (taken : List RecKey) : List Hit :=
  ((validOuts c).map (fun n =>
    let bs := outBlocks c n
    let mine := fun (b : Nat) => taken.contains ⟨0x7A10, 1, b⟩
    let late := overBlocks c bs (if outTcp c n then 65535 else 65507) 16
    if late.any mine then (late.filter mine).map (fun b => Hit.mk ⟨0x7A10, 1, b⟩ none)
    else late.take 1 |>.map (fun b => Hit.mk ⟨0x7A10, 1, b⟩ (some (match (bs.filter mine).getLast? with | some x => ⟨0x7A10, 1, x⟩ | none => ⟨0x7A00, 1, n⟩))))).flatten

/-- R357: a manager slot that the signal map, or a lower uplink record, names. -/
def hitsUplink (c : Cf) : List Hit :=
  let us := (validRecs c 0xE200 8 (fun r => bit (c.u 0xE200 1 (8 * r) 2) 15)).map (fun r => (r, c.u 0xE200 1 (8 * r + 4) 2 % 8192))
  let ms := mapSlots c
  (us.filterMap (fun (r, slot) => (ms.find? (fun m => m.2 = slot)).map (fun m => Hit.mk ⟨0xE200, 1, r⟩ (some ⟨0x4300, 1, m.1⟩)))) ++ slotHits 0xE200 us []

/-- The findings of the rules that concern a table. -/
def hitsOf (base : Cf) (t : Topi) (idx : Nat) : List Hit :=
  match idx with
  | 0x4100 => hitsCtx base t.cf
  | 0x4200 => hitsSv t.cf
  | 0x4300 => slotHits 0x4300 (mapSlots t.cf) []
  | 0x5200 => hitsSets t.cf
  | 0x7920 => hitsNames t.cf
  | 0x7A00 => hitsOut t.cf
  | 0x7A10 => hitsBlocks t.cf t.taken
  | 0xE200 => hitsUplink t.cf
  | _ => []

/-- The size of a record in the configuration. -/
def RecKey.size (base c : Cf) (k : RecKey) : Nat :=
  if k.idx = 0x5200 then 8 + 4 * max (base.u k.idx k.sub 0 2) (c.u k.idx k.sub 0 2) else match tabAt k.idx none with | some x => x.size | none => 0

/-- Reject a staged record for a conflict: every field; for R314 against byte 0. -/
def rejectRec (base : Cf) (k : RecKey) (t : Topi) : Topi :=
  let size := k.size base t.cf
  let es := t.entries.map (fun e =>
    if e.idx = k.idx && e.sub = k.sub && e.record = k.row then
      { e with outcome := 2, reason := if k.idx = 0x8100 && e.off != 0 then 5 else 6, live := shown e.len (base.u k.idx k.sub (k.base size + e.off) e.len) }
    else e)
  { t with entries := es }.revert base k size

/-- Apply one finding: the named record when it is staged, else the staged one of the pair; a live record never. -/
def applyHit (base : Cf) (h : Hit) (t : Topi) : Topi :=
  if t.taken.contains h.victim then rejectRec base h.victim t
  else match h.other with
    | some o => if t.taken.contains o then rejectRec base o t else t
    | none => t

/-- The valid record groups fit half the area (R314). -/
def groupsFit (c : Cf) : Bool :=
  decide ((((List.range 16).filter (groupValid c)).map (groupSize c)).sum ≤ c.u 0x8000 2 0 2 * 2 ^ 20 / 2)

/-- R314 rejects a valid group while the sizes do not fit. A staged record goes back to its live content. A live one is rejected as
well, as R424 exempts it only from rules that reject one record of a pair: it is no longer valid (log entry 204). -/
def dropGroup (base : Cf) (g : Nat) (t : Topi) : Topi :=
  let k : RecKey := ⟨0x8100, 1, g⟩
  let v := t.cf.u 0x8100 1 (80 * g) 1
  if groupsFit t.cf || !groupValid t.cf g then t
  else if t.taken.contains k then rejectRec base k t
  else
    let e : Entry := { idx := 0x8100, sub := 1, outcome := 2, record := g, off := 0, len := 1, reason := 6, staged := v, live := v - 1 }
    let mine := fun (x : Entry) => x.idx = 0x8100 && x.record = g && x.off = 0
    let a := cfgAddr 0x8100 1 (80 * g)
    { t with cf := { t.cf with mem := Memory.writes t.cf.v t.cf.mem a (toBE 1 (v - 1)) }, cells := putCells t.cells a (toBE 1 (v - 1)),
             entries := if t.entries.any mine then t.entries.map (fun x => if mine x then { x with reason := 6, live := v - 1 } else x) else t.entries ++ [e] }

/-- R314: valid groups in descending number, until the sizes fit; where the live content of rejected ones still does not, again. -/
def fitGroups (base : Cf) (t : Topi) : Topi :=
  each ((List.range 16).reverse ++ (List.range 16).reverse) (dropGroup base) t

/-- Apply a table's rules until they find nothing to reject. A round applies all that the rule of the blocks finds, which rejects
every later block of a session, and the rule of the names, which rejects both records; the others are judged again after each. -/
def settle (base : Cf) (idx fuel : Nat) (t : Topi) : Topi :=
  match fuel with
  | 0 => t
  | n + 1 =>
    let hits := (hitsOf base t idx).filter (fun h => t.taken.contains h.victim || (match h.other with | some o => t.taken.contains o | none => false))
    match hits with
    | [] => t
    | h :: r => settle base idx n (if idx = 0x7920 || idx = 0x7A10 then each (h :: r) (applyHit base) t else applyHit base h t)

/-- Judge a staged record again by its fields, once records that its ranges name have left the commit (R424: against the applied
value): one that no longer fits is rejected with every field. -/
def rejudge (s : State) (base : Cf) (k : RecKey) (t : Topi) : Topi :=
  let task := if k.idx = 0x9200 then tunable s k.row else none
  match (if t.taken.contains k && k.row != noRec && k.idx != 0x5200 then tabAt k.idx task else none) with
  | none => t
  | some tab =>
    let b := recBytes s t.cf k tab.size
    let live := recBytes s base k tab.size
    let fs := (tab.fields.foldl (fun acc f => checkField t.cf k.row (tab.valid t.cf k.row b) f acc) (b, [])).2
    if fs.all (fun f => f.outcome != 2) then t
    else
      let why := fun (e : Entry) => match fs.find? (fun f => f.off = e.off && f.outcome = 2) with | some f => f.reason | none => 5
      let es := t.entries.map (fun e =>
        if e.idx = k.idx && e.sub = k.sub && e.record = k.row then { e with outcome := 2, reason := why e, live := shown e.len (field live e.off e.len) } else e)
      { { t with entries := es }.revert base k tab.size with refused := t.refused ++ [(k, b)] }

/-- The rules between records that concern a table, once its records are checked. -/
def settleTable (base : Cf) (idx : Nat) (t : Topi) : Topi :=
  if idx = 0x8100 then fitGroups base t else settle base idx (t.taken.length + 1) t

/-- Where a table stands in the order of the checks: ascending, but a record is checked after the records that its ranges name. -/
def rank (idx : Nat) : Nat :=
  match idx with
  | 0x5200 => 2 * 0x5100 - 1   -- a channel names its set
  | 0x4100 => 2 * 0x5300 + 1   -- a local context names its estimators
  | 0x4300 => 2 * 0x5300 + 2   -- the map names contexts
  | 0x7920 => 2 * 0x7900 + 1   -- a publication without its names is none, so the members come after
  | _ => 2 * idx

/-- Tables with rules between records, in the order of the checks. -/
def ruled : List Nat := [0x4200, 0x5200, 0x4100, 0x4300, 0x7920, 0x7A00, 0x7A10, 0x8100, 0xE200]

/-- All staged records and all rules between records, again; `n` bounds the rounds. -/
def settleAll (s : State) (base : Cf) (n : Nat) (t : Topi) : Topi :=
  match n with
  | 0 => t
  | m + 1 =>
    let t1 := each ruled (settleTable base) (each t.taken (rejudge s base) t)
    if t1.taken.length = t.taken.length then t1 else settleAll s base m t1

/-! ## Fields the commit puts out of range (R424, R170, R225) -/

/-- Set a field by a rule: a staged field is reported clamped, another is added with reason 8. -/
def amend (k : RecKey) (off len v : Nat) (size : Nat) (t : Topi) : Topi :=
  let at_ := k.base size + off
  let old := t.cf.u k.idx k.sub at_ len
  if old = v then t
  else
    let mine := fun (e : Entry) => e.idx = k.idx && e.sub = k.sub && e.record = k.row && e.off = off
    let a := cfgAddr k.idx k.sub at_
    let es := if t.entries.any mine then t.entries.map (fun e => if mine e then { e with outcome := 1, reason := 3, live := v } else e)
      else t.entries ++ [{ idx := k.idx, sub := k.sub, outcome := 1, record := k.row, off := off, len := len, reason := 8, staged := old, live := v }]
    { t with cf := { t.cf with mem := Memory.writes t.cf.v t.cf.mem a (toBE len v) }, cells := putCells t.cells a (toBE len v), entries := es }

/-- R170: a decimation factor that does not divide the new input rate. -/
def amendChan (ch : Nat) (t : Topi) : Topi :=
  match decimation (inputRate t.cf ch) (chF t.cf ch 2 1) with
  | .clamp m => amend ⟨0x5100, 1, ch⟩ 2 1 m 32 t
  | _ => t

/-- A mode group whose alignment group has a new rate (R223). -/
def amendRate (g : Nat) (t : Topi) : Topi :=
  let f := fun off n => t.cf.u 0x6810 1 (64 * g + off) n
  match trackerRate (agRate t.cf (f 1 1)) (f 2 1) with
  | .clamp fe => let t1 := amend ⟨0x6810, 1, g⟩ 2 1 fe 64 t
                 amend ⟨0x6810, 1, g⟩ 12 2 (min (f 12 2) (400 * fe)) 64 t1
  | _ => t

/-- Valid signals of a mode group, in position order (R224). -/
def sigRecs (c : Cf) (g : Nat) : List Nat :=
  validRecs c 0x6820 16 (fun r => let w := c.u 0x6820 1 (16 * r) 2; bit w 15 && w % 16 = g)

/-- R225: references, block lags and model order of a valid group. A group without signals runs nothing and stays. -/
def amendGroup (g : Nat) (t : Topi) : Topi :=
  let sigs := sigRecs t.cf g
  let p := sigs.length
  if p = 0 then t
  else
    let flags := fun (c : Cf) (r : Nat) => c.u 0x6820 1 (16 * r + 6) 1
    let refs := sigs.filter (fun r => bit (flags t.cf r) 1)
    let keep := if refs.isEmpty then sigs.take 1 else refs.take 8
    let t1 := each sigs (fun r x =>
      let v := flags x.cf r
      let on := keep.contains r
      amend ⟨0x6820, 1, r⟩ 6 1 (if bit v 1 = on then v else if on then v + 2 else v - 2) 16 x) t
    let u := fun (c : Cf) off => c.u 0x6810 1 (64 * g + off) 1
    let lb := u t1.cf 3
    let lb1 := if 4096 < p * lb then 4096 / p else if p * (lb - 1) < 2 then 3 else lb
    let t2 := amend ⟨0x6810, 1, g⟩ 3 1 lb1 64 t1
    let top := min (keep.length * lb1) (p * (lb1 - 1)) / 2 * 2
    let t3 := amend ⟨0x6810, 1, g⟩ 8 1 (min (u t2.cf 8) top) 64 t2
    let ref := u t3.cf 14
    amend ⟨0x6810, 1, g⟩ 14 1 (if ref = 0xFF || ref < p then ref else 0xFF) 64 t3

/-- Removing a bus removes its edges (R273). -/
def amendEdges (base : Cf) (t : Topi) : Topi :=
  let there := fun (c : Cf) (b : Nat) => bit (c.u 0x7100 1 (16 * b) 2) 15
  let gone := (base.recs 0x7100 1 16).filter (fun b => there base b && !there t.cf b)
  if gone.isEmpty then t
  else each (validRecs t.cf 0x7200 16 (fun e => let w := t.cf.u 0x7200 1 (16 * e) 2
      bit w 15 && (gone.contains (w % 4096) || gone.contains (t.cf.u 0x7200 1 (16 * e + 2) 2 % 4096)))) (fun e x =>
    amend ⟨0x7200, 1, e⟩ 0 2 (x.cf.u 0x7200 1 (16 * e) 2 - 2 ^ 15) 16 x) t

/-- Single objects whose range names another. -/
def linked : List (Nat × Nat) := [(0x7010, 0x0A), (0x7010, 0x0B), (0x7010, 0x0D), (0x7010, 0x0F)] ++ (span 1 17).map (fun k => (0xE110, k))
def amendObj (s : State) (x : Nat × Nat) (t : Topi) : Topi :=
  if objAbsent t.cf.v x.1 x.2 then t
  else match ownRange s t.cf x.1 x.2 (t.cf.u x.1 x.2 0 2) with
    | .clamp v => amend ⟨x.1, x.2, noRec⟩ 0 2 v 0 t
    | _ => t

/-- A change of a PTP profile sets the domain to the profile's default, unless the commit writes it (R101). -/
def profiles (s : State) (base : Cf) (t : Topi) : Topi :=
  each (List.range s.ports) (fun p x =>
    let i := 0x3020 + p
    if base.u i 2 0 1 != x.cf.u i 2 0 1 && !x.taken.contains ⟨i, 3, noRec⟩ then x.set ⟨i, 3, noRec⟩ 1 (toBE 1 (if x.cf.u i 2 0 1 = 1 then 254 else 0)) else x) t

/-- The table whose records are a unit's work, and how many make a lane (R492). -/
def workTable (u : Nat) : Option (Nat × Nat) :=
  match u with
  | 1 => some (0x4100, 512) | 2 => some (0x5100, 32) | 3 => some (0x5300, 16) | 4 => some (0x6100, 4) | 5 => some (0x6810, 1) | 8 => some (0x8100, 4)
  | _ => none

/-- R492: fields of records that give valid work to a lost lane are reported with reason 6. -/
def lateFences (s : State) (base : Cf) (t : Topi) : Topi :=
  each s.cop.lost (fun (u, l) x =>
    match workTable u with
    | some (idx, per) =>
      if (workLanes base u).contains l || !(workLanes x.cf u).contains l then x
      else { x with entries := x.entries.map (fun e => if e.idx = idx && e.record / per = l && e.outcome != 2 then { e with reason := 6 } else e) }
    | none => x) t

/-! ## The whole check -/

/-- The staged bytes of an object that is no table: those that STAGE_WRITEs put from offset 0 on; where they leave a gap, more than any
type has (DEDUCED, log entry 142). -/
def stagedValue (mine : List Host.Cell) : Bytes :=
  if mine.map (fun c => c.1 % 2 ^ 24) = List.range mine.length then mine.map (·.2)
  else zeros (11 + (mine.map (fun c => c.1 % 2 ^ 24)).foldl max 0)

/-- A staged object: checked record by record, as a set, or as a single value. `whole`: the cells list only what differs
from the defaults, as the journal holds them (R51 step 6). -/
def checkStaged (s : State) (base : Cf) (role : Nat) (whole : Bool) (cells : List Host.Cell) (key : Nat) (t : Topi) : Topi :=
  let idx := key / 256
  let sub := key % 256
  let mine := stagedOf cells idx sub
  match objAt s.variant idx sub with
  | none => { t with entries := t.entries ++ [{ idx := idx, sub := sub, outcome := 2, record := noRec, off := 0, len := mine.length, reason := 7, staged := 0, live := 0 }] }
  | some o =>
    if idx = 0x5200 then
      let len := if whole then 8 + 4 * t.cf.u idx sub 0 2 else mine.length
      checkSet base ⟨idx, sub, 0⟩ (t.cf.bytes idx sub 0 len) t
    else if o.ty = 11 then
      let rs := dedup (mine.map (fun c => c.1 % 2 ^ 24 / max 1 o.recSize))
      let t1 := each rs (fun r x =>
        let b := x.cf.bytes idx sub (r * o.recSize) o.recSize
        checkRec s base ⟨idx, sub, r⟩ (if idx = 0x9200 && whole then b.take 15 ++ [0#8] else b) x) t
      settleTable base idx t1
    else
      let b := if whole then t.cf.bytes idx sub 0 (typeSize o.ty) else stagedValue mine
      checkObj s base role o ⟨idx, sub, noRec⟩ b t

/-- A record that its fields refused is checked again, as records its ranges name may have left the commit since (R424: against the
applied value). -/
def recheck (s : State) (base : Cf) (role : Nat) (x : RecKey × Bytes) (t : Topi) : Topi :=
  let k := x.1
  let t0 := { t with refused := t.refused.filter (·.1 != k), entries := t.entries.filter (fun e => !(e.idx = k.idx && e.sub = k.sub && e.record = k.row)) }
  if k.row != noRec then checkRec s base k x.2 t0
  else match objAt s.variant k.idx k.sub with
    | some o => checkObj s base role o k x.2 t0
    | none => t

/-- Rules and checks until neither rejects nor takes another record; `n` bounds the rounds, the last of which takes none. -/
def settleRounds (s : State) (base : Cf) (role n : Nat) (t : Topi) : Topi :=
  let t1 := settleAll s base (t.taken.length + 1) t
  match n with
  | 0 => t1
  | m + 1 =>
    let t2 := each t1.refused (recheck s base role) t1
    if t2.taken.length = t1.taken.length then t1 else settleRounds s base role m t2

/-- The order of a report's entries. -/
def entryKey (e : Entry) : Nat := ((e.idx * 256 + e.sub) * 2 ^ 32 + e.record) * 65536 + e.off

/-- Topiary's check of a commit's cells over a configuration (R424). -/
def topiary (s : State) (base : Cf) (role : Nat) (whole : Bool) (cells : List Host.Cell) : Topi :=
  let keys := (dedup (cells.map (fun c => c.1 / 2 ^ 24))).insertionSort (fun a b => rank (a / 256) * 256 + a % 256 ≤ rank (b / 256) * 256 + b % 256)
  let t0 : Topi := { cf := ⟨base.v, Memory.apply base.v base.mem cells⟩ }
  let t1 := each keys (checkStaged s base role whole cells) t0
  let t2 := settleRounds s base role 8 t1
  let t3 := each (validRecs t2.cf 0x5100 32 (chanValid t2.cf)) amendChan t2
  let gs := (List.range 16).filter (fun g => bit (t3.cf.u 0x6810 1 (64 * g) 1) 0 && s.hasOsc)
  let t4 := each gs (fun g x => amendGroup g (amendRate g x)) t3
  let t5 := lateFences s base (profiles s base (each linked (amendObj s) (amendEdges base t4)))
  { t5 with entries := t5.entries.insertionSort (fun a b => entryKey a ≤ entryKey b) }

/-- The length byte of a field longer than 255 bytes is a free value (log entry 60). -/
def lengthBytes (n : Nat) (es : List Entry) : List Entry := es.map (fun e => if 255 < e.len then { e with len := (Config.free16 n).toNat % 256 } else e)

/-- TOPIARY_CHECK (R423, R424, R59): the oldest queued commit is checked, while no transition is in progress. -/
def topiaryCheck (s : State) : State :=
  match s.osr.queue, s.osr.checked with
  | q :: r, none =>
    if (match s.mode.pend with | some p => !p.activate | none => false) then s
    else
      let t := topiary s s.cf q.role false q.cells
      let (n, s1) := if t.entries.any (fun e => 255 < e.len) then s.takeFree else (s.freeCount, s)
      { s1 with osr := { s1.osr with queue := r, checked := some { sid := q.sid, tag := q.tag, cells := t.cells, entries := lengthBytes n t.entries, unchanged := t.same, via := q.via } } }
  | _, _ => s
def execTopiaryCheck (dt : Nat) (s : State) : Host.Outcome State Fault Refusal := .next (s.act [.free, .commitQueue] dt topiaryCheck)

end Sys2Proof.Machine
end

