-- ==== Sys2Proof/Machine/Update.lean ====
section
/-! DEFINITION. Firmware update (R469 to R487): manifests, the update journal, the lock, the download, activation, trial and fall-back;
their commands. -/
namespace Sys2Proof.Machine
open Sys2Proof

def State.setUpd (s : State) (u : UpdU) : State := { s with upd := u }

/-- A reset of the whole device begins: nothing of the running device acts until START_UP (R64). -/
def beginStart (cause : Nat) (cold : Bool) (s : State) : State :=
  { s with power := { s.power with phase := .booting, start := { cause := cause, cold := cold }, attemptAt := s.elapsed } }

/-! ## Manifests (R470 to R472, R480) -/

def mVersion (m : Bytes) : Nat := field m 8 2
def mFormat (m : Bytes) : Nat := field m 10 2
def mRelease (m : Bytes) : Nat := field m 12 4
def mCount (m : Bytes) : Nat := field m 6 1
def mType (m : Bytes) (k : Nat) : Nat := field m (64 + 64 * k) 1
def mLength (m : Bytes) (k : Nat) : Nat := field m (68 + 64 * k) 4
def mHash (m : Bytes) (k : Nat) : Bytes := slice m (72 + 64 * k) 32
def mTypes (m : Bytes) : List Nat := (List.range (mCount m)).map (mType m)

/-- Check 1: length, magic, format, part count, reserved bytes, fields within the table of R470 (R481 for 511), and zeros where a
co-signature is absent. -/
def mForm (m : Bytes) : Bool :=
  m.length = 1280 && (bit (field m 7 1) 0 || field m 1184 96 = 0) && field m 0 4 = 0x435A4D46 && field m 4 2 = 1 && inRange 1 16 (mCount m) && field m 7 1 ≤ 1 && mVersion m ≤ 511 &&
  field m 21 43 = 0 && field m 20 1 < 8 &&
  (List.range 16).all (fun k =>
    if k < mCount m then field m (65 + 64 * k) 3 = 0 && field m (104 + 64 * k) 24 = 0 && inRange 1 50331648 (mLength m k)
    else field m (64 + 64 * k) 64 = 0)

/-- Checks 4 and 5: the part is served and the ROM is recent enough. -/
def mServes (v : Nat) (m : Bytes) : Bool := bit (field m 20 1) v
def mRom (m : Bytes) : Bool := field m 16 4 ≤ Config.romVersion.toNat

/-- Checks 7 and 8. -/
def mParts (m : Bytes) : Bool :=
  let ts := mTypes m
  ts.all (inRange 1 9) && (dedup ts).length = ts.length && ts.contains 1 && ts.contains 2
def mFits (m : Bytes) : Bool := 4096 + ((List.range (mCount m)).map (fun k => (mLength m k + 4095) / 4096 * 4096)).sum ≤ 48 * 2 ^ 20

/-- Checks 2 and 3 of R472, as the keys stand. -/
def State.signed (s : State) (m : Bytes) : Bool :=
  let holds := fun (slot : Nat) (sig : Bytes) => s.keyFit slot 5 && ecdsaVerify (s.kslot slot).point (m.take 1088) sig
  let co := s.cf.u 0xB010 2 0 2
  holds 0 (slice m 1088 96) && (co = 0xFFFF || (bit (field m 7 1) 0 && holds co (m.drop 1184)))

/-- A bank is bootable: checks 1 to 5 of R472, and a security version that is not below the one in force (R480). -/
def State.bootable (s : State) (b : Nat) : Bool :=
  match s.upd.banks[b]? with
  | some k => mForm k.manifest && s.signed k.manifest && mServes s.variant k.manifest && mRom k.manifest && s.upd.secVer ≤ mVersion k.manifest
  | none => false

/-- A class C request: a signature over bytes 0 to 1087 verifies with a slot that the port finds fit (R447, R470). -/
def sigCheck (slot : Nat) (m sig : Bytes) (s : State) : Bool × State :=
  let (st, s1) := keyUse 2 slot 5 false s
  (st = stOk && ecdsaVerify (s.kslot slot).point (m.take 1088) sig, s1)

/-- Checks 4 to 9. -/
def State.laterFault (s : State) (m : Bytes) : Nat :=
  if !mServes s.variant m then 4
  else if !mRom m then 5
  else if mVersion m < s.upd.secVer then 6
  else if !mParts m then 7
  else if !mFits m then 8
  else if s.upd.state = 3 || s.upd.state = 4 then 9 else 0

/-- The first check of R472 that a manifest fails, up to 9; 0 for none. -/
def manifestFault (m : Bytes) (s : State) : Nat × State :=
  if !mForm m then (1, s)
  else
    let (a, s1) := sigCheck 0 m (slice m 1088 96) s
    let slot := s.cf.u 0xB010 2 0 2
    if !a then (2, s1)
    else if slot = 0xFFFF then (s1.laterFault m, s1)
    else if !bit (field m 7 1) 0 then (3, s1)
    else
      let (b, s2) := sigCheck slot m (m.drop 1184) s1
      (if b then s2.laterFault m else 3, s2)

/-! ## The update journal (R477, R478) -/

/-- Kind and bank of a record whose CRC holds. No rule gives a record's layout: bytes 0 to 3 the sequence, 4 the kind (0 COMMIT,
1 TRIAL_STARTED, 2 CONFIRMED, 3 FALLBACK, 4 VERIFIED, 5 INCOMPLETE), 5 the bank, 6 to 9 the release version, 10 to 11 the
security version, 60 to 63 the CRC over what stands before (DESIGN CHOICE, log entry 220). -/
def recordOf (r : Bytes) : Option (Nat × Nat) :=
  if r.length = 64 && crc32 (r.take 60) = field r 60 4 then some (field r 4 1, field r 5 1) else none

/-- The last valid record that a test takes. -/
def UpdU.lastRecord (u : UpdU) (f : Nat × Nat → Bool) : Option (Nat × Nat) := (u.journal.filterMap recordOf).reverse.find? f
/-- The latest record that selects a bank, and the bank confirmed last. -/
def UpdU.latest (u : UpdU) : Option (Nat × Nat) := u.lastRecord (fun r => decide (r.1 < 4))
def UpdU.confirmed (u : UpdU) : Option Nat := (u.lastRecord (fun r => decide (r.1 = 2))).map (·.2)

/-- The last record of each kind and bank, in their order. -/
def lastRecords (rs : List Bytes) : List Bytes :=
  match rs with
  | [] => []
  | r :: t => match recordOf r with
    | some k => if t.any (fun x => recordOf x = some k) then lastRecords t else r :: lastRecords t
    | none => lastRecords t

/-- A record joins the journal. A half of 512 KiB that is full is erased once its last records stand in the other. -/
def writeRecord (kind bank : Nat) (s : State) : State :=
  let u := s.upd
  let m := (u.banks.getD bank {}).manifest
  let full : Bool := decide (8192 ≤ u.journal.length)
  let seq := match u.journal.getLast? with | some r => field r 0 4 + 1 | none => 0
  let b := toBE 4 seq ++ toBE 1 kind ++ toBE 1 bank ++ toBE 4 (mRelease m) ++ toBE 2 (mVersion m) ++ zeros 48
  s.setUpd { u with journal := (if full then lastRecords u.journal else u.journal) ++ [b ++ toBE 4 (crc32 b)], half := if full then 1 - u.half else u.half,
                    owed := if kind = 5 then false else u.owed }

/-- An INCOMPLETE record; under the power-fail warning it waits for the warning's end (R73). -/
def markIncomplete (bank : Nat) (s : State) : State :=
  if s.power.failState = 0 then writeRecord 5 bank s else s.setUpd { s.upd with owed := true }

/-! ## The lock (R473) -/

/-- Who writes: port or 0xFE for the UART, credential slot, source address. -/
def Session.writer (x : Session) : Nat × Nat × Nat :=
  match x.via with
  | .uart => (0xFE, x.slot, 0)
  | .port p ip _ => (p, x.slot, ip)

def sameWriter (a b : Nat × Nat × Nat) : Bool := if a.1 = 0xFE || b.1 = 0xFE then a.1 = b.1 else a.2 = b.2

def State.holds (s : State) (x : Session) : Bool := match s.upd.holder with | some h => sameWriter h x.writer | none => false

/-- The lock lapses or is released. -/
def unlock (s : State) : State :=
  match s.upd.holder with
  | some h => raise 0xE0 0 (h.1 * 2 ^ 24) (s.setUpd { s.upd with holder := none })
  | none => s

/-- The last outcome (0xB000.0B). -/
def outcome (status reason part : Nat) (s : State) : State := s.setUpd { s.upd with lastOut := status * 2 ^ 24 + reason * 65536 + part }

/-- A rejection with its event (R472, R475). -/
def updRejected (status reason part : Nat) (s : State) : State := raise 0xE2 0 (part * 256 + reason) (outcome status reason part s)

/-- The bank an update writes (R485 for QUICKSET). -/
def State.inactive (s : State) : Nat :=
  if s.mode.cur = .quickset then (match s.upd.confirmed with | some c => if s.bootable c then 1 - c else 0 | none => 0) else 1 - s.upd.running

def setBank (b : Nat) (f : BankU → BankU) (s : State) : State :=
  s.setUpd { s.upd with banks := s.upd.banks.mapIdx (fun i k => if i = b then f k else k) }

/-! ## Download (R472 to R475) -/

/-- The byte that follows BUSY: the holder's port; a free value where nobody holds the lock. -/
def busyBody (s : State) : Bytes × State :=
  match s.upd.holder with
  | some h => (toBE 1 h.1, s)
  | none => let (n, s1) := s.takeFree; (toBE 1 (Config.free16 n).toNat, s1)

/-- A manifest that passes takes the lock and starts a download. -/
def takeManifest (m : Bytes) (x : Session) (s : State) : State :=
  let b := s.inactive
  let s1 := setBank b (fun _ => { state := 1, manifest := m }) (outcome stOk 0 0 (count 0xB080 1 s))
  let parts := (List.range (mCount m)).map (fun k => ({ type := mType m k, length := mLength m k } : PartU))
  let s2 := markIncomplete b (s1.setUpd { s1.upd with parts := parts, state := 1, holderAt := s.elapsed })
  if s.holds x then s2 else raise 0xE0 0 (x.writer.1 * 2 ^ 24 + 1) (s2.setUpd { s2.upd with holder := some x.writer })

/-- A manifest is checked, in the order of R472; while an activation runs, BUSY (R476), and so while the port answers BUSY. -/
def checkManifest (b : Bytes) (x : Session) (s : State) : Nat × Bytes × State :=
  if s.upd.state = 3 || s.portBusy 2 then (let (body, s1) := busyBody s; (stBusy, body, s1))
  else
    let (why, s0) := manifestFault b s
    if why != 0 then (stRejected, [], updRejected stRejected why 0 (count 0xB080 2 s0))
    else if s0.upd.holder.isSome && !s0.holds x then
      let (body, s1) := busyBody (updRejected stBusy 10 0 (count 0xB080 2 s0))
      (stBusy, body, s1)
    else (stOk, [], takeManifest b x s0)

/-- MANIFEST_WRITE (R473): while a manifest is on the asymmetric lane, one more waits and is not answered yet; a third is BUSY. -/
def manifestWrite (m : Msg) (b : Bytes) (s : State) : State :=
  match acceptMsg m 0x12 (objPayload 0xB100 1 (zeros 1 ++ b)) s with
  | (none, s1) => s1
  | (some x, s1) =>
    let (st, _) := s1.checkWrite x 0xB100 1 b
    if st != stOk then respond x 0x12 m.tag st [] s1
    else if s1.key.asym.isSome && s1.upd.state != 3 && !s1.portBusy 2 then
      if s1.upd.waiting.isNone then s1.setUpd { s1.upd with waiting := some ⟨x.id, m.via, m.tag, b⟩ }
      else (let (body, s2) := busyBody s1; respond x 0x12 m.tag stBusy body s2)
    else (let (r, body, s2) := checkManifest b x s1; respond x 0x12 m.tag r body s2)

/-- The manifest that waits is checked next, in full, once the lane is free (R473); with its session gone nobody is answered, and it is
dropped (DEDUCED, log entry 151). -/
def waitingManifest (s : State) : State :=
  match s.upd.waiting with
  | none => s
  | some w =>
    if s.key.asym.isSome then s
    else
      let s0 := s.setUpd { s.upd with waiting := none }
      match s0.session w.sid with
      | none => s0
      | some x => (let y := { x with via := w.via }; let (r, body, s1) := checkManifest w.bytes y s0; respond y 0x12 w.tag r body s1)

/-- KEY_REQUEST_COMPLETE (R31 to R33): the lane's request ends. -/
def execKeyRequestComplete (dt : Nat) (asym : Bool) (s : State) : Host.Outcome State Fault Refusal :=
  .next (s.act [.events, .stats, .free, .sessions, .keyPort, .upd] dt (fun t => waitingManifest (laneDone asym t)))

/-- A write of a DOMAIN: the checks of any WRITE, then its effect, which answers a status and a body. -/
def onDomain (m : Msg) (idx sub : Nat) (v : Bytes) (f : Session → State → Nat × Bytes × State) (s : State) : State :=
  onMsg m 0x12 (objPayload idx sub (zeros 1 ++ v)) (fun x s1 =>
    let (st, _) := s1.checkWrite x idx sub v
    if st = stOk then f x s1 else (st, [], s1)) s
def execManifestWrite (dt : Nat) (m : Msg) (v : List (BitVec 8)) (c : Sigs) (s : State) : Host.Outcome State Fault Refusal :=
  .next (s.act [.events, .stats, .free, .sessions, .upd, .keyPort] dt (manifestWrite m (v ++ c.sig ++ c.coSig)))

def setPart (k : Nat) (f : PartU → PartU) (s : State) : State := s.setUpd { s.upd with parts := s.upd.parts.mapIdx (fun i p => if i = k then f p else p) }

/-- The hash that the manifest of the inactive bank gives a part. -/
def State.partHash (s : State) (k : Nat) : Bytes := mHash (s.upd.banks.getD s.inactive {}).manifest k

/-- A chunk of the holder, by the first rule that matches (R474, R475). What is appended is hashed by a class C request; when the port
does not take that, the chunk is BUSY (DEDUCED, log entry 151). -/
def takeChunk (b : Bytes) (s : State) : Nat × State :=
  let k := field b 0 1
  let off := field b 4 4
  let n := b.length - 8
  let bad := (stRejected, outcome stRejected 12 k s)
  match s.upd.parts[k]? with
  | none => bad
  | some p =>
    if !inRange 9 1288 b.length || field b 1 3 != 0 || p.data.length < off then bad
    else
      let s1 := outcome stOk 0 k (s.setUpd { s.upd with holderAt := s.elapsed })
      if off < p.data.length then (stOk, count 0xB080 4 s1)
      else if p.length < off + n then bad
      else
        let (st, s0) := keyUse 2 0 16 false s1
        if st != stOk then (stBusy, s)
        else
        let got := p.data ++ b.drop 8
        let s2 := count 0xB080 3 s0
        if off + n < p.length then (stOk, setPart k (fun q => { q with data := got }) s2)
        else if sha256 got = s.partHash k then (stOk, setPart k (fun q => { q with data := got, state := 2 }) s2)
        else (stOk, updRejected stRejected 11 k (setPart k (fun q => { q with data := [], hashFails := q.hashFails + 1 }) s2))

/-- CHUNK_WRITE. -/
def chunkWrite (b : Bytes) (x : Session) (s : State) : Nat × Bytes × State :=
  if s.upd.state = 3 then (stBusy, [], s)
  else if s.holds x then (let (st, s1) := takeChunk b s; (st, [], s1))
  else if s.upd.holder.isSome then (stBusy, [], s) else (stRejected, [], s)
def execChunkWrite (dt : Nat) (m : Msg) (v data : List (BitVec 8)) (s : State) : Host.Outcome State Fault Refusal :=
  .next (s.act [.events, .stats, .sessions, .upd, .keyPort] dt (onDomain m 0xB100 2 (v ++ data) (chunkWrite (v ++ data))))

/-- PART_READBACK (R475): a hashed part has been written to the bank and read back, and what is read is hashed again by class C
requests; while the port does not take those, the part waits. No flash program is begun under the power-fail warning. -/
def partReadback (k : Nat) (data : Bytes) (s0 : State) : State :=
  match s0.upd.parts[k]? with
  | none => s0
  | some p =>
    let (st, s) := keyUse 2 0 16 false s0
    if s0.upd.state != 1 || p.state != 2 || s0.power.failState != 0 || st != stOk then s0
    else if sha256 data = s.partHash k then
      let s1 := setBank s.inactive (fun q => { q with parts := Table.put q.parts k data }) (setPart k (fun q => { q with state := 3, again := false }) s)
      if s1.upd.parts.all (fun q => q.state = 3) then
        let b := s1.inactive
        let s2 := writeRecord 4 b (setBank b (fun q => { q with state := 2 }) (s1.setUpd { s1.upd with state := 2 }))
        raise 0xE1 0 (match s2.upd.banks[b]? with | some q => mRelease q.manifest | none => 0) s2
      else s1
    else
      let s1 := count 0xB080 5 (setPart k (fun q => { q with readFails := q.readFails + 1 }) s)
      if p.again then updRejected stRejected 14 k (setPart k (fun q => { q with state := 1, data := [], again := false }) s1)
      else setPart k (fun q => { q with again := true }) s1
def execPartReadback (dt part : Nat) (data : List (BitVec 8)) (s : State) : Host.Outcome State Fault Refusal := .next (s.act [.events, .stats, .keyPort, .upd] dt (partReadback part data))

/-- An uncorrectable error in region 0xA abandons the download (R377). -/
def abandonDownload (s : State) : State :=
  if s.upd.state = 1 then setBank s.inactive (fun q => { q with state := 1 }) (s.setUpd { s.upd with state := 0, parts := [] }) else s

/-! ## Activation (R476) -/

/-- The device leaves its mode on the way to a start (R476 steps 3 and 4): a stop instant in a mode that forms sets, and
no wait otherwise. -/
def leaveMode (cause : Nat) (s : State) : State :=
  match s.mode.pend with
  | some p =>
    if p.target = .standby then { s with mode := { s.mode with pend := some { p with activate := true } } }
    else if s.mode.cur.forms then pendMode .standby cause true s
    else { s with mode := { s.mode with pend := none } }
  | none => if s.mode.cur.forms then pendMode .standby cause true s else s

/-- The COMMIT record of an activation, the lock released, and the start (R476 steps 6 and 7, R485). -/
def activationRecord (s : State) : State :=
  let s1 := unlock (writeRecord 0 s.inactive s)
  beginStart 5 false s1

/-- ACTIVATE. In QUICKSET the record is written at once and the boot-attempt record is cleared (R485). -/
def activate (x : Session) (_n : Nat) (s : State) : Nat × State :=
  if s.power.failState != 0 then (stBusy, outcome stBusy 0 0 s)
  else if s.upd.state != 2 || (s.upd.holder.isSome && !s.holds x) then (stRejected, outcome stRejected 0 0 s)
  else
    let s1 := outcome stPending 0 0 (s.setUpd { s.upd with state := 3, holderAt := s.elapsed, left := none, resume := none })
    if s.mode.cur = .quickset then (stPending, activationRecord { s1 with jrn := { s1.jrn with failedBoots := 0 } })
    else (stPending, leaveMode 5 s1)
def execActivate (dt : Nat) (m : Msg) (v : List (BitVec 8)) (s : State) : Host.Outcome State Fault Refusal := .next (s.act [.events, .stats, .power, .request, .journal, .sessions, .upd, .keyPort] dt (onWrite m 0xB000 7 v activate))

/-- Nothing is left that an activation or a fall-back waits for: sets, queued commits, a key command. -/
def State.settled (s : State) : Bool :=
  !s.mode.cur.forms && s.mode.pend.isNone && s.osr.queue.isEmpty && s.osr.checked.isNone && s.key.cmd.isNone && s.power.failState = 0

/-- ACTIVATION_COMMIT (R476 steps 5 to 7). -/
def activationCommit (s : State) : State :=
  if s.upd.state = 3 && s.settled then activationRecord (journalTime (journalFlush s)) else s
def execActivationCommit (dt : Nat) (s : State) : Host.Outcome State Fault Refusal := .next (s.act [.events, .stats, .power, .journal, .upd, .records, .recFlash] dt activationCommit)

/-! ## Trial (R479, R481) -/

/-- The window has run out in the millisecond that runs, and no FALLBACK record stands yet (R479). -/
def State.justRanOut (s : State) : Bool :=
  s.upd.leaving = 1 && (match s.upd.trialEnd with | some t => decide (t / 1000000 = s.elapsed / 1000000) | none => false)

/-- The stop that a fall-back has asked for is withdrawn; one asked for before it stays. -/
def keepMode (s : State) : State :=
  { s with mode := { s.mode with pend := match s.mode.pend with | some p => if p.cause = 6 then none else some { p with activate := false } | none => none } }

/-- CONFIRM. Of a confirmation and a window end in the same millisecond, the record written first stands. -/
def confirm (x : Session) (_n : Nat) (s0 : State) : Nat × State :=
  let s := if s0.justRanOut then keepMode s0 else s0
  let u := s.upd
  if s0.power.failState != 0 then (stBusy, s0)
  else if u.state != 4 || (u.leaving != 0 && !s0.justRanOut) || (u.settings = 2 && !u.committed) then (stRejected, s0)
  else
    let goal := match u.banks[u.running]? with | some k => mVersion k.manifest | none => 0
    let at_ := if s.holds x then s.elapsed else u.holderAt
    let s1 := writeRecord 2 u.running (s.setUpd { u with other := none, secGoal := max u.secVer goal, state := 0, trialEnd := none, leaving := 0, holderAt := at_ })
    let s2 := count 0xB080 7 (setBank u.running (fun k => { k with state := 3 }) s1)
    (stOk, if s2.upd.secVer < goal then s2 else raise 0xE4 0 s2.upd.secVer s2)
def execConfirm (dt : Nat) (m : Msg) (v : List (BitVec 8)) (s : State) : Host.Outcome State Fault Refusal := .next (s.act [.events, .stats, .request, .sessions, .upd, .keyPort] dt (onWrite m 0xB000 8 v confirm))

/-- SECURITY_VERSION_STEP: one step of the count; EV_UPD_CONFIRMED follows the last. -/
def securityStep (s : State) : State :=
  if s.upd.secVer < s.upd.secGoal && s.power.failState = 0 then
    let s1 := s.setUpd { s.upd with secVer := s.upd.secVer + 1 }
    if s1.upd.secVer = s1.upd.secGoal then raise 0xE4 0 s1.upd.secVer s1 else s1
  else s
def execSecurityVersionStep (dt : Nat) (s : State) : Host.Outcome State Fault Refusal := .next (s.act [.events, .upd] dt securityStep)

/-- A fall-back whose outputs have stopped: the journals, the FALLBACK record, the start. -/
def fallBack (s : State) : State :=
  if s.upd.leaving != 0 && !s.mode.cur.forms && s.mode.pend.isNone && s.power.failState = 0 then
    let s1 := journalTime (journalFlush s)
    let u := s1.upd
    let s2 := writeRecord 3 u.running (s1.setUpd { u with state := 0, trialEnd := none, fellBack := u.leaving, leaving := 0 })
    beginStart 6 false (setBank u.running (fun k => { k with state := 2 }) s2)
  else s

/-- A fall-back begins: 1 the window ran out, 2 by request. -/
def beginFallBack (why : Nat) (s : State) : State := fallBack (leaveMode 6 (s.setUpd { s.upd with leaving := why }))

/-- REJECT_TRIAL. -/
def rejectTrial (_x : Session) (_n : Nat) (s : State) : Nat × State :=
  if s.power.failState != 0 then (stBusy, s)
  else if s.upd.state != 4 || s.upd.leaving != 0 then (stRejected, s)
  else (stOk, beginFallBack 2 s)
def execRejectTrial (dt : Nat) (m : Msg) (v : List (BitVec 8)) (s : State) : Host.Outcome State Fault Refusal :=
  .next (s.act [.events, .stats, .power, .request, .journal, .sessions, .upd, .records, .recFlash, .keyPort] dt (onWrite m 0xB000 9 v rejectTrial))

/-- TRIAL_WINDOW_EXPIRE. -/
def trialExpire (s : State) : State :=
  match s.upd.trialEnd with
  | some t => if t ≤ s.elapsed && s.upd.state = 4 && s.upd.leaving = 0 then beginFallBack 1 s else s
  | none => s
def execTrialWindowExpire (dt : Nat) (s : State) : Host.Outcome State Fault Refusal := .next (s.act [.events, .stats, .power, .request, .journal, .upd, .records, .recFlash] dt trialExpire)

/-! ## The lock's end, resets, QUICKSET -/

/-- RELEASE_LOCK: the lock lapses and a download is abandoned. -/
def releaseLock (_x : Session) (_n : Nat) (s : State) : Nat × State := (stOk, abandonDownload (unlock s))
def execReleaseLock (dt : Nat) (m : Msg) (v : List (BitVec 8)) (s : State) : Host.Outcome State Fault Refusal :=
  .next (s.act [.events, .stats, .sessions, .upd, .keyPort] dt (onWrite m 0xB000 0x0A v releaseLock))

/-- LOCK_LAPSE: 10 min after the holder's last accepted write. -/
def lockLapse (s : State) : State := if s.upd.holder.isSome && s.upd.holderAt + 600000000000 ≤ s.elapsed then unlock s else s
def execLockLapse (dt : Nat) (s : State) : Host.Outcome State Fault Refusal := .next (s.act [.events, .upd] dt lockLapse)

/-- A reset of the update engine (R70, R473, R475): a manifest that waits goes too. -/
def updReset (s : State) : State := abandonDownload (unlock (s.setUpd { s.upd with waiting := none }))

/-- QUICKSET_RESTART (R485). -/
def quicksetRestart (_x : Session) (_n : Nat) (s : State) : Nat × State :=
  if s.mode.cur != .quickset then (stRejected, s)
  else if s.power.failState != 0 then (stBusy, s)
  else (stOk, beginStart Config.quicksetRestartCause.toNat false { s with jrn := { s.jrn with failedBoots := 0 } })
def execQuicksetRestart (dt : Nat) (m : Msg) (v : List (BitVec 8)) (s : State) : Host.Outcome State Fault Refusal :=
  .next (s.act [.events, .stats, .power, .journal, .sessions, .keyPort] dt (onWrite m 0xB000 0x0C v quicksetRestart))

end Sys2Proof.Machine
end

