-- ==== Sys2Proof/Machine/Mode.lean ====
section
/-! DEFINITION. Mode requests (R59, R61), the end of a stop (R58), the power-fail warning (R67, R68) and the periodic
journal flush (R69, R76); their commands. -/
namespace Sys2Proof.Machine
open Sys2Proof

/-! ## Mode requests (0x1100.02) -/

/-- A transition, or a start that an update leads to, is in progress (R59, R476). -/
def State.underWay (s : State) : Bool := s.mode.pend.isSome || s.rst.device.isSome || s.upd.state = 3 || s.upd.leaving != 0
/-- No request is taken then, nor under the power-fail warning (R67). -/
def State.inTransition (s : State) : Bool := s.underWay || s.power.failState != 0

/-- The configuration is readable (R59): the running image could read it, or a commit has been accepted since. -/
def State.readable (s : State) : Bool := s.upd.settings != 2 || s.upd.committed

/-- No request is taken while a transition or a start is in progress. -/
def modeGate (go : State → Nat × State) (s : State) : Nat × State := if s.inTransition then (stBusy, setReq 2 s) else go s

/-- Request 0, in any mode: a reset, and QUICKSET is picked at the start. -/
def askQuickset (s : State) : Nat × State := (stOk, setReq 0 { s with rst := { s.rst with device := some (7, s.elapsed) } })
/-- Request 2, from STANDBY. -/
def askConfigure (s : State) : Nat × State := if s.mode.cur = .standby then (stOk, setReq 0 (toMode .configure 0x0101 s)) else (stRejected, rejectReq 2 s)
/-- Request 3: from CONFIGURE with a valid configuration at once; from the modes that form sets at a stop instant. -/
def askStandby (s : State) : Nat × State :=
  if s.mode.cur = .configure && s.cfg.valid then (stOk, setReq 0 (toMode .standby 0x0101 s))
  else if s.mode.cur.forms then (stPending, setReq 3 (pendMode .standby 0x0101 false s))
  else (stRejected, rejectReq 3 s)
/-- Request 4, from STANDBY with a readable configuration and no fence that asks for SAFE. -/
def askOperate (s : State) : Nat × State :=
  if s.mode.cur = .standby && s.readable && s.fenceLevel < 2 then (stPending, setReq 3 (pendMode .operate 0x0101 false s)) else (stRejected, rejectReq 4 s)
/-- Request 6, from OPERATE or DEGRADED. -/
def askSafe (s : State) : Nat × State := if s.mode.cur.full then (stOk, setReq 0 (toMode .safe 0x0101 s)) else (stRejected, rejectReq 6 s)
/-- Request 7 (R61), which proceeds whatever the state of PWR_FAIL_N (R464). -/
def askZeroize (s : State) : Nat × State := if s.underWay then (stBusy, setReq 2 s) else if s.mode.cur != .zeroized then (stOk, destroyAll 0x0101 false (setReq 0 s)) else (stRejected, rejectReq 7 s)

/-- A mode request by its code; one that is out of range is REJECTED without an event (DESIGN CHOICE, log entry 223). -/
def modeReq (_x : Session) (n : Nat) (s : State) : Nat × State :=
  match n with
  | 0 => modeGate askQuickset s
  | 2 => modeGate askConfigure s
  | 3 => modeGate askStandby s
  | 4 => modeGate askOperate s
  | 6 => modeGate askSafe s
  | 7 => askZeroize s
  | _ => (stRejected, s)

/-- The write of a mode code. -/
def modeWrite (m : Msg) (n : Nat) (go : State → Nat × State) (s : State) : State := onWrite m 0x1100 2 (toBE 1 n) (fun _ _ => go) s

/-- MODE_REQUEST_QUICKSET, request 0. -/
def execModeRequestQuickset (dt : Nat) (m : Msg) (s : State) : Host.Outcome State Fault Refusal := .next (s.act [.events, .stats, .request, .reset, .sessions, .keyPort] dt (modeWrite m 0 (modeGate askQuickset)))
/-- MODE_REQUEST_CONFIGURE, request 2. -/
def execModeRequestConfigure (dt : Nat) (m : Msg) (s : State) : Host.Outcome State Fault Refusal := .next (s.act [.events, .stats, .free, .mode, .request, .journal, .previous, .sessions, .queues, .sched, .acq, .ingest, .chain, .hr, .alarm, .goose, .out, .osc, .isl, .cop, .keyPort] dt (modeWrite m 2 (modeGate askConfigure)))
/-- MODE_REQUEST_STANDBY, request 3. -/
def execModeRequestStandby (dt : Nat) (m : Msg) (s : State) : Host.Outcome State Fault Refusal := .next (s.act [.events, .stats, .free, .mode, .request, .journal, .previous, .sessions, .queues, .sched, .acq, .ingest, .chain, .hr, .alarm, .goose, .out, .osc, .isl, .cop, .keyPort] dt (modeWrite m 3 (modeGate askStandby)))
/-- MODE_REQUEST_OPERATE, request 4. -/
def execModeRequestOperate (dt : Nat) (m : Msg) (s : State) : Host.Outcome State Fault Refusal := .next (s.act [.events, .stats, .request, .sessions, .keyPort] dt (modeWrite m 4 (modeGate askOperate)))
/-- MODE_REQUEST_SAFE, request 6. -/
def execModeRequestSafe (dt : Nat) (m : Msg) (s : State) : Host.Outcome State Fault Refusal := .next (s.act [.events, .stats, .free, .mode, .request, .journal, .previous, .sessions, .queues, .sched, .acq, .ingest, .chain, .hr, .alarm, .goose, .out, .osc, .isl, .cop, .keyPort] dt (modeWrite m 6 (modeGate askSafe)))
/-- MODE_REQUEST_ZEROIZE, request 7. -/
def execModeRequestZeroize (dt : Nat) (m : Msg) (s : State) : Host.Outcome State Fault Refusal := .next (s.act [.events, .stats, .free, .mode, .request, .journal, .previous, .sessions, .commitQueue, .queues, .sched, .acq, .ingest, .chain, .align, .hr, .alarm, .goose, .out, .keys, .keyPort, .keyCmd, .osc, .isl, .cop] dt (modeWrite m 7 askZeroize))

/-! ## Stopping (R58, R476) -/

/-- The mode left by an activation that the warning stopped is taken up again at the next boundary (R476). -/
def resumeMode (s : State) : State :=
  match s.upd.resume with
  | some m =>
    if s.mode.cur = .standby && s.mode.pend.isNone && s.power.failState = 0 then
      pendMode m Config.resumeCause.toNat false (s.setUpd { s.upd with resume := none })
    else s
  | none => s

/-- OUTPUTS_STOP (R58): every set before the stop instant has reached its final close. -/
def outputsStop (s : State) : State :=
  match s.mode.pend with
  | some p =>
    if p.stopped && s.closedBefore ⟨p.gen, p.atNs⟩ then resumeMode (fallBack (if p.activate then drainEnd s else setReq 0 (drainEnd s)))
    else s
  | none => s
def execOutputsStop (dt : Nat) (s : State) : Host.Outcome State Fault Refusal := .next (s.act [.events, .stats, .power, .mode, .request, .journal, .previous, .queues, .sched, .acq, .ingest, .chain, .hr, .alarm, .goose, .out, .osc, .isl, .cop, .upd, .records, .recFlash] dt outputsStop)

/-! ## Power-fail warning (R67, R68) -/

/-- An activation that has not reached its record goes back to VERIFIED; the mode it has left is resumed later (R476). -/
def stopActivation (s : State) : State :=
  if s.upd.state != 3 then s
  else
    let s1 := outcome stBusy 0 0 (s.setUpd { s.upd with state := 2 })
    match s.mode.pend with
    | some p =>
      if !p.activate then s1
      else if p.stopped then
        { s1 with mode := { s1.mode with pend := some { p with activate := false } }, upd := { s1.upd with resume := s.upd.left, left := none } }
      else { s1 with mode := { s1.mode with pend := none } }
    | none => s1.setUpd { s1.upd with resume := s.upd.left, left := none }

/-- PWR_FAIL: longer than the 20 µs filter (step 1 of R67). Tests in progress end INCOMPLETE (R497). -/
def pwrFail (lowNs : Nat) (s : State) : State :=
  if lowNs ≤ 20000 || s.power.failState != 0 then s
  else
    let s1 := each s.cop.tests testIncomplete (raiseFree 0x01 0 0 s)
    stopActivation { s1 with power := { s1.power with failState := 1, failAt := s1.elapsed } }
def execPwrFail (dt lowNs : Nat) (s : State) : Host.Outcome State Fault Refusal := .next (s.act [.events, .stats, .free, .power, .request, .sched, .cop, .upd] dt (pwrFail lowNs))

/-- The time and counter entries of the configuration journal (R76), with the mode in force (R62). -/
def flushTime (s : State) : State := { s with jrn := { s.jrn with mode := s.mode.cur.code, time := some (s.time.gen, s.time.tai / 1000000000) } }

/-- PWR_FAIL_QUIESCED (steps 3 to 5 of R67). A key command whose copy has not been verified by now had not begun to write it, and is
abandoned (R454; log entry 173). -/
def pwrQuiesced (s : State) : State :=
  if s.power.failState = 1 then
    let s1 := flushTime (journalFlush (abandonKeyCmd s))
    { s1 with power := { s1.power with failState := 2 } }
  else s
def execPwrFailQuiesced (dt : Nat) (s : State) : Host.Outcome State Fault Refusal := .next (s.act [.events, .stats, .power, .journal, .keyCmd, .records, .recFlash] dt pwrQuiesced)

/-- PWR_RESTORED: high for 50 ms (R68). What the warning kept out of the journals is written now: a transition and the time (R62, R76),
the entry of a recorder clear (R513). -/
def pwrRestored (s : State) : State :=
  if s.power.failState = 0 then s
  else
    let s1 := raiseFree 0x02 0 0 s
    let s2 := { s1 with power := { s1.power with failState := 0, failAt := s1.elapsed - 50000000 } }
    fallBack (resumeMode (when s2.time.utcOwed journalUtc (when s2.rec_.clearOwed journalClear (when s2.upd.owed (writeRecord 5 s2.inactive) (journalTime s2)))))
def execPwrRestored (dt : Nat) (s : State) : Host.Outcome State Fault Refusal := .next (s.act [.events, .stats, .free, .power, .request, .journal, .stored, .time, .upd, .records, .recFlash] dt pwrRestored)

/-- CONFIG_JOURNAL_FLUSH (R69, R76); no program is begun under the warning. -/
def configFlush (s : State) : State := if s.power.failState = 0 then flushTime s else s
def execConfigJournalFlush (dt : Nat) (s : State) : Host.Outcome State Fault Refusal := .next (s.act [.journal] dt configFlush)

end Sys2Proof.Machine
end

