-- ==== Sys2Proof/Machine/Reset.lean ====
section
/-! DEFINITION. Per-function resets (R70, R71, R556, R557) and the start of a whole-device reset; their commands. -/
namespace Sys2Proof.Machine
open Sys2Proof

/-- A unit is idle again. -/
def endReset (sub : Nat) (s : State) : State :=
  { s with rst := { s.rst with status := Table.drop s.rst.status sub, wroteAt := Table.drop s.rst.wroteAt sub } }

/-- The engine's clusters and counts go; the alarm states it holds do not (R70), and islands take them over by their anchors (R272). -/
def islReset (s : State) : State :=
  let x := s.isl
  { s with isl := { s.isl with state := 0, from_ := none, redo := none, clusters := 0,
                               formerly := if x.passed then (x.formerly.orElse (fun _ => some (x.chain.isl.map (fun p => (p.1, p.2.anchor))))) else none,
                               chain := { frozen := if s.isl.chain.reports != 0 || s.isl.chain.frozen != 0 then max 1 s.isl.chain.frozen else 0 } } }

/-- The snapshots the recorder's readers hold are discarded (R70, R419). -/
def readersReset (s : State) : State :=
  { s with osr := { s.osr with sessions := s.osr.sessions.map (fun x => match x.snap with
      | some k => if k.idx / 4096 = 0x0D then { x with snap := none } else x
      | none => x) } }

/-- What the reset of a cluster clears: cluster 0 ends every session, cluster 1 the client connections. -/
def clusterClear (c : Nat) (s : State) : State :=
  match c with
  | 0 => endSessions (clusterDown 0 s)
  | 1 => outDropAll (ingestTcpClose (clusterDown 1 s))
  | _ => clusterDown c s

/-- The Clears column of R70, by the subindex of the reset object. -/
def clearUnit (sub : Nat) (s : State) : State :=
  match sub with
  | 0x07 => ingestReset s
  | 0x08 => svReset (chainReset s)
  | 0x09 => alignReset s
  | 0x0A => oscReset s
  | 0x0B => islReset s
  | 0x0C => outDropAll s
  | 0x0D => acqStop s
  | 0x0E => hrReset s
  | 0x0F => clusterClear 0 s
  | 0x10 => clusterClear 1 s
  | 0x11 => clusterClear 2 s
  | 0x12 => clusterClear 3 s
  | 0x13 => servoReset s
  | 0x14 => readersReset s
  | 0x15 => keyPortReset s
  | 0x16 => updReset s
  | 0x17 => coppiceHalt s
  | _ => clearPort (sub - 1) s

/-- A reset object can be written now: the status it answers when it cannot. A whole-device reset waits for its response to
leave (R557); the update engine cannot be reset during an activation (R476). -/
def State.resetStatus (s : State) (sub : Nat) : Nat :=
  if [Mode.quickset, .provision, .zeroized].contains s.mode.cur then stRejected
  else if Table.getD s.rst.status sub 0 != 0 || (sub = 0x18 && s.rst.device.isSome) || (sub = 0x16 && s.upd.state = 3) then stBusy
  else stOk

/-- 1 is written to a reset object: what the unit's Clears column names goes, and the unit restores what it needs. -/
def unitReset (sub : Nat) (clear : State → State) (_x : Session) (_n : Nat) (s : State) : Nat × State :=
  let st := s.resetStatus sub
  if st != stOk then (st, s) else (stOk, raiseFree 0x03 sub 0 (beginReset sub (clear s)))

/-- 1 is written to 0x1121.18: the reset waits for its response to leave. -/
def wholeReset (_x : Session) (_n : Nat) (s : State) : Nat × State :=
  let st := s.resetStatus 0x18
  if st != stOk then (st, s) else (stOk, raiseFree 0x03 0x18 0 { s with rst := { s.rst with device := some (3, s.elapsed) } })

/-- The write of a reset object. -/
def resetWrite (m : Msg) (sub : Nat) (v : Bytes) (clear : State → State) (s : State) : State := onWrite m 0x1121 sub v (unitReset sub clear) s

/-- PORT_RESET: 0x1121.01 to .06. -/
def execPortReset (dt : Nat) (m : Msg) (p : Nat) (v : List (BitVec 8)) (s : State) : Host.Outcome State Fault Refusal :=
  .next (s.act [.events, .stats, .free, .reset, .sessions, .queues, .port, .keyPort] dt (if p < 6 then resetWrite m (p + 1) v (clearPort p) else id))
/-- INGEST_RESET: 0x1121.07. -/
def execIngestReset (dt : Nat) (m : Msg) (v : List (BitVec 8)) (s : State) : Host.Outcome State Fault Refusal := .next (s.act [.events, .stats, .free, .reset, .sessions, .ingest, .keyPort] dt (resetWrite m 0x07 v ingestReset))
/-- CHAIN_RESET: 0x1121.08. -/
def execChainReset (dt : Nat) (m : Msg) (v : List (BitVec 8)) (s : State) : Host.Outcome State Fault Refusal := .next (s.act [.events, .stats, .free, .reset, .sessions, .ingest, .chain, .alarm, .keyPort] dt (resetWrite m 0x08 v (fun t => svReset (chainReset t))))
/-- ALIGNMENT_RESET: 0x1121.09. -/
def execAlignmentReset (dt : Nat) (m : Msg) (v : List (BitVec 8)) (s : State) : Host.Outcome State Fault Refusal := .next (s.act [.events, .stats, .free, .reset, .sessions, .queues, .sched, .acq, .bus, .align, .hr, .keyPort] dt (resetWrite m 0x09 v alignReset))
/-- OSC_ENGINE_RESET: 0x1121.0A. -/
def execOscEngineReset (dt : Nat) (m : Msg) (v : List (BitVec 8)) (s : State) : Host.Outcome State Fault Refusal := .next (s.act [.events, .stats, .free, .reset, .sessions, .osc, .keyPort] dt (resetWrite m 0x0A v oscReset))
/-- ISL_ENGINE_RESET: 0x1121.0B. -/
def execIslEngineReset (dt : Nat) (m : Msg) (v : List (BitVec 8)) (s : State) : Host.Outcome State Fault Refusal := .next (s.act [.events, .stats, .free, .reset, .sessions, .isl, .keyPort] dt (resetWrite m 0x0B v islReset))
/-- ALARM_UNIT_RESET: 0x1121.0C. -/
def execAlarmUnitReset (dt : Nat) (m : Msg) (v : List (BitVec 8)) (s : State) : Host.Outcome State Fault Refusal := .next (s.act [.events, .stats, .free, .reset, .sessions, .out, .keyPort] dt (resetWrite m 0x0C v outDropAll))
/-- ACQ_RESET: 0x1121.0D. -/
def execAcqReset (dt : Nat) (m : Msg) (v : List (BitVec 8)) (s : State) : Host.Outcome State Fault Refusal := .next (s.act [.events, .stats, .free, .reset, .sessions, .acq, .keyPort] dt (resetWrite m 0x0D v acqStop))
/-- HEDGEROW_RESET: 0x1121.0E. -/
def execHedgerowReset (dt : Nat) (m : Msg) (v : List (BitVec 8)) (s : State) : Host.Outcome State Fault Refusal := .next (s.act [.events, .stats, .free, .reset, .sessions, .acq, .bus, .hr, .keyPort] dt (resetWrite m 0x0E v hrReset))
/-- CLUSTER_RESET: 0x1121.0F to .12. -/
def execClusterReset (dt : Nat) (m : Msg) (c : Nat) (v : List (BitVec 8)) (s : State) : Host.Outcome State Fault Refusal :=
  .next (s.act [.events, .stats, .free, .reset, .sessions, .sched, .ingest, .out, .keyPort] dt (if c < 4 then resetWrite m (c + 0x0F) v (clusterClear c) else id))
/-- TIMEBASE_SERVO_RESET: 0x1121.13. -/
def execTimebaseServoReset (dt : Nat) (m : Msg) (v : List (BitVec 8)) (s : State) : Host.Outcome State Fault Refusal := .next (s.act [.events, .stats, .free, .reset, .time, .sessions, .keyPort] dt (resetWrite m 0x13 v servoReset))
/-- RECORDER_READERS_RESET: 0x1121.14. -/
def execRecorderReadersReset (dt : Nat) (m : Msg) (v : List (BitVec 8)) (s : State) : Host.Outcome State Fault Refusal := .next (s.act [.events, .stats, .free, .reset, .sessions, .keyPort] dt (resetWrite m 0x14 v readersReset))
/-- KEY_PORT_RESET: 0x1121.15. -/
def execKeyPortReset (dt : Nat) (m : Msg) (v : List (BitVec 8)) (s : State) : Host.Outcome State Fault Refusal := .next (s.act [.events, .stats, .free, .reset, .sessions, .keyPort] dt (resetWrite m 0x15 v keyPortReset))
/-- UPDATE_ENGINE_RESET: 0x1121.16. -/
def execUpdateEngineReset (dt : Nat) (m : Msg) (v : List (BitVec 8)) (s : State) : Host.Outcome State Fault Refusal := .next (s.act [.events, .stats, .free, .reset, .sessions, .upd, .keyPort] dt (resetWrite m 0x16 v updReset))
/-- COPPICE_RESET: 0x1121.17. -/
def execCoppiceReset (dt : Nat) (m : Msg) (v : List (BitVec 8)) (s : State) : Host.Outcome State Fault Refusal := .next (s.act [.events, .stats, .free, .reset, .sessions, .sched, .cop, .keyPort] dt (resetWrite m 0x17 v coppiceHalt))
/-- WHOLE_DEVICE_RESET: 0x1121.18. -/
def execWholeDeviceReset (dt : Nat) (m : Msg) (v : List (BitVec 8)) (s : State) : Host.Outcome State Fault Refusal := .next (s.act [.events, .stats, .free, .reset, .sessions, .keyPort] dt (onWrite m 0x1121 0x18 v wholeReset))

/-- What a unit does as it takes its inputs again. -/
def resumeUnit (sub : Nat) (s : State) : State :=
  match sub with
  | 0x09 => alignResume s
  | 0x0A => oscResume s
  | 0x0B => islResume s
  | 0x0D => when s.mode.cur.full acqStart s
  | 0x0F => clusterUp 0 s
  | 0x10 => clusterUp 1 s
  | 0x11 => clusterUp 2 s
  | 0x12 => clusterUp 3 s
  | _ => s

/-- The restoring of Hedgerow ends (R556): its registrations are complete, or 200 ms have passed since the write. -/
def State.hrRestored (s : State) : Bool :=
  s.elapsed ≥ Table.getD s.rst.wroteAt 0x0E 0 + 200000000 ||
    (match s.hrRole with
     | 1 => s.hr.state = 3
     | 2 => (List.range 16).all (fun w => !bit (wkF s.cf w 0 1) 0 || (s.wkr w).state = 2)
     | _ => true)

/-- UNIT_RESET_COMPLETE (R556): the unit takes its inputs again and its status reads 0. -/
def unitResume (sub : Nat) (s : State) : State :=
  if Table.getD s.rst.status sub 0 != 0 && (sub != 0x0E || s.hrRestored) then resumeUnit sub (endReset sub s) else s
def execUnitResetComplete (dt sub : Nat) (s : State) : Host.Outcome State Fault Refusal := .next (s.act [.events, .stats, .reset, .sched, .acq, .align, .hr, .alarm, .goose, .osc, .isl] dt (unitResume sub))

/-- DEVICE_RESET_BEGIN (R557): the response to the write has left. -/
def deviceReset (s : State) : State :=
  match s.rst.device with
  | some (cause, _) =>
    let s1 := beginStart cause false s
    { s1 with power := { s1.power with start := { s1.power.start with quick := cause = 7 } } }
  | none => s
def execDeviceResetBegin (dt : Nat) (s : State) : Host.Outcome State Fault Refusal := .next (s.act [.power] dt deviceReset)

end Sys2Proof.Machine
end

