-- ==== Sys2Proof/Machine/Boot.lean ====
section
/-! DEFINITION. Supplies, RESET_N and thermal shutdown (R46 to R50, R538), the start-up sequence (R51 to R56, R60, R64) with
what it does to the journals, the banks (R478 to R483), the recorder (R516 to R521) and the key store; their commands. -/
namespace Sys2Proof.Machine
open Sys2Proof

/-! ## Supplies, RESET_N, temperature -/

def railNo (r : Rail) : Nat :=
  match r with
  | .vddCore => 0 | .vddTime => 1 | .vddSds => 2 | .vddMem11 => 3 | .vddMem18 => 4 | .vddIo18 => 5 | .vddIo33 => 6

def State.setPower (s : State) (p : PowerU) : State := { s with power := p }

/-- Step 1 of an attempt: power hold has ended and RESET_N is high (R51). -/
def beginBoot (s : State) : State :=
  s.setPower { s.power with phase := if s.power.resetLow then .reset else .booting, since := s.elapsed, attemptAt := s.elapsed }

/-- Power hold ends 2 ms after the last rail has risen above its good threshold (R47); with RESET_N high that is step 1 (R51).
Each command that looks at the start brings it about. -/
def wake (s : State) : State :=
  let at_ := s.power.since + 2000000
  if s.power.phase = .hold && s.power.good.all id && at_ ≤ s.elapsed then
    s.setPower { s.power with phase := if s.power.resetLow then .reset else .booting, attemptAt := at_ }
  else s

/-- RAIL_GOOD (R47): a rail has risen above its good threshold. -/
def railGood (r : Rail) (mV : Nat) (s : State) : State :=
  let k := railNo r
  if s.power.good.getD k true || mV ≤ railGoodAt k then s
  else s.setPower { s.power with good := s.power.good.set k true, since := s.elapsed }
def execRailGood (dt : Nat) (r : Rail) (mV : Nat) (s : State) : Host.Outcome State Fault Refusal := .next (s.within [.power] (railGood r mV (s.tick dt)))

/-- RAIL_FAIL (R49): power hold at once, in any mode; the start that follows is a cold one (R64). -/
def railFail (r : Rail) (mV : Nat) (s : State) : State :=
  let k := railNo r
  if mV < railFailAt k then s.setPower { s.power with phase := .hold, good := s.power.good.set k false, start := {} } else s
def execRailFail (dt : Nat) (r : Rail) (mV : Nat) (s : State) : Host.Outcome State Fault Refusal := .next (s.within [.power] (railFail r mV (wake (s.tick dt))))

/-- RESET_N_ASSERT (R50): a pulse shorter than 1 µs may or may not reset the device. The start that follows is a warm one with cause
0x0002 (R63, R64), unless the device is in power hold, or shut down, whose end is a cold start. -/
def resetAssert (width : Nat) (s : State) : State :=
  let (n, s1) := s.takeFree
  if width < 1000 && !Config.freeBool n then s1
  else
    let p := s1.power
    let start : PendingStart := if p.phase = .hold || p.phase = .thermal || p.phase = .reset then p.start
      else { cause := 2, cold := false, lost := p.phase != .running && (p.start.cold || p.start.lost) }
    s1.setPower { p with resetLow := true, phase := if p.phase = .hold || p.phase = .thermal then p.phase else .reset, start := start }
def execResetNAssert (dt width : Nat) (s : State) : Host.Outcome State Fault Refusal := .next (s.within [.free, .power] (resetAssert width (wake (s.tick dt))))

/-- RESET_N_RELEASE. -/
def resetRelease (s : State) : State :=
  let s1 := s.setPower { s.power with resetLow := false }
  if s1.power.phase = .reset then beginBoot s1 else s1
def execResetNRelease (dt : Nat) (s : State) : Host.Outcome State Fault Refusal := .next (s.within [.power] (resetRelease (wake (s.tick dt))))

/-- THERMAL_SHUTDOWN (R538): above 130 °C for 1 ms. -/
def thermalShutdown (tj : Int) (s : State) : State :=
  if 130000 < tj && s.power.phase != .hold && s.power.phase != .thermal then s.setPower { s.power with phase := .thermal, start := {} } else s
def execThermalShutdown (dt : Nat) (tj : Int) (s : State) : Host.Outcome State Fault Refusal := .next (s.within [.power] (thermalShutdown tj (s.tick dt)))

/-- THERMAL_RECOVERY (R538): below 115 °C for 1 s. -/
def thermalRecovery (tj : Int) (s : State) : State := if tj < 115000 && s.power.phase = .thermal then beginBoot s else s
def execThermalRecovery (dt : Nat) (tj : Int) (s : State) : Host.Outcome State Fault Refusal := .next (s.within [.power] (thermalRecovery tj (s.tick dt)))

/-! ## Banks and failed attempts (R53, R478, R480) -/

/-- The steps of a confirmed security version are completed at step 2 (R481); so is a destruction that the end of the supply cut short:
its root area, and the erase of the key area (R464; log entry 218). -/
def bootFuses (s : State) : State :=
  let k := s.key
  { s with upd := { s.upd with secVer := max s.upd.secVer s.upd.secGoal },
           key := { k with erasing := false, copies := if k.erasing then [] else k.copies, revJournal := if k.erasing then [] else k.revJournal,
                           roots := if k.zeroized then k.roots.map (fun r => if r.used then .burnt else r) else k.roots,
                           inForce := if k.zeroized then none else k.inForce } }

/-- A FALLBACK record for a bank, with the reason its event will give. -/
def fallRecord (b why : Nat) (s : State) : State :=
  let s1 := writeRecord 3 b (setBank b (fun k => { k with state := 2 }) s)
  s1.setUpd { s1.upd with fellBack := why }

/-- BANK_SELECT (R478): the bank, the cause of the start, and the records written. -/
def bankSelect (s : State) : Nat × Nat × State :=
  let cause := s.power.start.cause
  match s.upd.latest with
  | some (0, b) => (b, 5, writeRecord 1 b s)
  | some (1, b) => (1 - b, 6, fallRecord b 3 s)
  | some (2, b) => (b, cause, s)
  | some (_, b) => (1 - b, cause, s)
  | none => (0, cause, s)

/-- An attempt has failed (R53): it is counted, and the next follows 100 ms of power hold. That one is a warm start (R64), which finds
no content of before a supply loss. -/
def failAttempt (cause : Nat) (s : State) : State :=
  { s with jrn := { s.jrn with failedBoots := min 3 (s.jrn.failedBoots + 1), untold := s.jrn.untold + 1 }, power := { s.power with phase := .retry, attemptAt := s.elapsed, start := { cause := cause, cold := false, lost := s.power.start.cold || s.power.start.lost } } }

/-- A failed attempt on a bank (R480): a trial falls back; so does a confirmed bank at its second failure in a row when the
other is bootable. -/
def bootFail (b : Nat) (s : State) : State :=
  let trial := s.upd.latest = some (1, b)
  let second := s.jrn.failedBoots = 1 && s.upd.fellBack != 4 && (s.upd.banks.getD b {}).state = 3 && s.bootable (1 - b)
  if trial || second then failAttempt 6 (fallRecord b 4 s) else failAttempt 4 s

/-- BOOT_TIMEOUT (R53): step 7 has not come within 5 s of step 1. -/
def bootTimeout (s : State) : State :=
  if s.power.phase = .booting && s.power.attemptAt + 5000000000 ≤ s.elapsed then
    let (b, _, s1) := bankSelect (bootFuses s)
    bootFail b s1
  else s
def execBootTimeout (dt : Nat) (s : State) : Host.Outcome State Fault Refusal := .next (s.within [.power, .journal, .keys, .keyCmd, .upd] (bootTimeout (wake (s.tick dt))))

/-- BOOT_RETRY (R53): the 100 ms have passed. -/
def bootRetry (s : State) : State := if s.power.phase = .retry && s.power.attemptAt + 100000000 ≤ s.elapsed then beginBoot s else s
def execBootRetry (dt : Nat) (s : State) : Host.Outcome State Fault Refusal := .next (s.within [.power] (bootRetry (s.tick dt)))

/-! ## What a start keeps -/

/-- The key store as a start finds it: fuses and flash, and what the supply has kept; no command, request or mask is in progress. -/
def freshKeys (s : State) : State :=
  let k := s.key
  s.setKey { life := k.life, roots := k.roots, inForce := k.inForce, zeroize := k.zeroize, destroyed := k.destroyed || k.zeroized, lines := k.lines,
             copies := k.copies, revJournal := k.revJournal, result := { seq := k.result.seq } }

/-- A tamper source asserted at step 2 (R462), under the stored configuration (DEDUCED, log entry 218): a destruction runs then, and the
mode that R52 picks follows it. -/
def bootTamper (src : Nat) (s : State) : State :=
  let c : Cf := ⟨s.variant, if s.jrn.cfgValid then s.jrn.cfg else []⟩
  let s0 := tamperLine src false s
  if bit (c.u 0xA010 2 0 1) src then
    let now := s0.key.tamperNow + 2 ^ src
    let destroys := bit (c.u 0xA010 1 0 1) 1 && !s0.key.zeroized
    when destroys wipeKeys (raise 0xD2 0 (2 ^ 31 * b2n destroys + now)
      (count 0xA080 6 (s0.setKey { s0.key with tamperNow := now, tamperSince := now })))
  else s0

/-- A slot whose copy verifies is loaded, its secret under a fresh mask. -/
def loadSlot (n : Nat) (row : KeySlot) (b : Bytes) (s : State) : State :=
  if row.kind = 4 then s.setKslot n { row with point := b }
  else (let (sh, s1) := freshShares (BitVec.ofNat 256 (ofBE b)) s; s1.setKslot n { row with mat := sh })

/-- The copies of a slot (R448): the one with the higher commit counter is in force, or else the lower one; with neither the slot is
faulted, and its material a free value. `damage`: the copies that the flash gives damaged. -/
def bootSlot (wrap : BitVec 256) (damage : List (Nat × Nat)) (n : Nat) (s : State) : State :=
  let copy := fun (c : Nat) => Table.find s.key.copies (2 * n + c)
  let hi := match copy 0, copy 1 with
    | some a, some b => if a.row.copy < b.row.copy then 1 else 0
    | none, some _ => 1
    | _, _ => 0
  let good := fun (c : Nat) => match copy c with
    | some x => if damage.contains (n, c) then none else (copyOpen wrap n x).map (fun b => (x.row, b))
    | none => none
  match good hi with
  | some (row, b) => loadSlot n row b s
  | none => match good (1 - hi) with
    | some (row, b) => raise 0xD5 n (2 ^ 31 + n) (loadSlot n row b s)
    | none =>
      let (f, s1) := s.takeFree
      let (sh, s2) := freshShares (Config.free256 f) s1
      raise 0xD5 n n (s2.setKslot n { ((copy hi).map (·.row)).getD {} with state := 3, mat := sh, point := Config.freeBytes f })

/-- The key store at a start: the storage wrap key from the root in force (R440), the slots from their copies, and of these the revoked
ones (R457). -/
def bootKeys (i : StartIn) (s0 : State) : State :=
  let s := each ((List.range 5).filter (bit i.tamper)) bootTamper (freshKeys s0)
  match s.key.inForce with
  | none => s
  | some j =>
    let wrap := storageKey (unwrapRoot (s.key.roots.getD j {}).word)
    let (sh, s1) := freshShares wrap s
    let s2 := each (dedup ((Table.keys s.key.copies).map (· / 2))) (bootSlot wrap i.keyDamage) (s1.setKey { s1.key with wrap := sh })
    each s2.key.revJournal (fun p st =>
      each ((p.1 :: st.key.descendants p.1).filter (fun n => (st.kslot n).state = 1 || (st.kslot n).state = 3))
        (fun n t => t.setKslot n { t.kslot n with state := 2, revSeq := p.2 }) st) s2

/-- The recorder at a start (R516, R518, R521): from the mirror, or rebuilt from the journal with a jump; then its tests. -/
def bootRecorder (i : StartIn) (warm lost : Bool) (s : State) : State :=
  let u := s.rec_
  let keep := warm && !lost && i.mirrorOk && !bit u.state 1
  let last := match u.jcirc with | r :: _ => r.seq | [] => (u.jperm.getLast?.map (·.seq)).getD 0#32
  let base : RecU := { jcirc := u.jcirc, jperm := u.jperm, faults := u.faults, gasp := u.gasp }
  let v : RecU := if keep then { base with circ := u.circ, perm := u.perm, next := u.next, jumped := u.jumped }
    else { base with circ := u.jcirc, perm := u.jperm, next := last + 1048576#32, jumped := true }
  let s1 := s.setRec_ v
  let bad := [!i.sramTestOk, !(if warm then i.mirrorOk else i.mirrorTestOk), !i.journalTestOk]
  each ((List.range 3).filter (fun b => bad.getD b false)) (fun b st => let (n, t) := st.takeFree; recFault b (Config.free32 n).toNat t) s1

/-- The record area at a warm start whose check passes (R64, R72, R325, R334): a capture that the reset cut short is kept,
truncated. One whose check fails loses its records. -/
def bootAcq (i : StartIn) (old : AcqU) (s : State) : State :=
  let kept : AcqU := { recs := old.recs, nextSeq := old.nextSeq, newest := old.newest, writeAt := old.writeAt, edges := old.edges,
                       reader := Table.mapVals old.reader (fun x => { x with export_ := false, reading := none }) }
  if i.recordAreaOk then
    let s1 := each (old.recs.filter (fun r => !r.closed)) (fun r st =>
      raise 0x95 r.group r.seq.toNat (count 0x8080 5 (closeRecord { r with flags := if bit r.flags 0 then r.flags else r.flags + 1 } st))) { s with acq := kept }
    { s1 with acq := { s1.acq with edges := [] } }
  else loseRecords (old.recs.map (·.seq)) { s with acq := { kept with recs := [], writeAt := 0, edges := [] } }

/-- Coppice's record at a start (R72, R489): repairs, retired and fenced lanes, fuses and spare rows stay. -/
def bootCoppice (c : CopU) : CopU :=
  { lanes := Table.mapVals c.lanes (fun l => if l.state = 2 then { l with state := 1 } else l)
    rounds := c.rounds, lost := c.lost, bypass := c.bypass, words := c.words, soft := c.soft, rowsUsed := c.rowsUsed }

/-! ## Settings (R482, R483) -/

/-- Tuning preferences go back to their defaults (R482). -/
def dropTuning (m : List Host.Cell) : List Host.Cell :=
  m.filter (fun c => !((c.1 / 2 ^ 32 = 0x9000 && c.1 / 2 ^ 24 % 256 = 4) || (c.1 / 2 ^ 32 = 0x9200 && c.1 / 2 ^ 24 % 256 = 1)))

/-- SETTINGS_CONVERT: the image's own slot, or the other one converted into it, or unreadable. -/
def bootSettings (convertOk : Bool) (s : State) : State :=
  let fmt := s.ownFormat
  let u := s.upd
  let mine : FormatSlot := { format := u.format, valid := s.jrn.cfgValid, cells := s.jrn.cfg, gen := s.jrn.cfgGen }
  if u.format = fmt || (!s.jrn.cfgValid && u.other.isNone) then s.setUpd { u with format := fmt, settings := 0 }
  else
    let swap := match u.other with | some o => if o.format = fmt then some o else none | none => none
    match swap with
    | some o => { s with upd := { u with format := fmt, settings := 0, other := some mine }, jrn := { s.jrn with cfgValid := o.valid, cfg := Memory.apply s.variant [] o.cells, cfgGen := o.gen } }
    | none =>
      if convertOk then s.setUpd { u with format := fmt, settings := 1, other := some mine }
      else raise 0xE6 0 u.format (s.setUpd { u with settings := 2, lastOut := stUnreadable * 2 ^ 24 })

/-! ## Steps 6 and 7 -/

/-- The stored configuration passes through Topiary and goes live; the units take it (R51 step 6). -/
def bootConfig (s : State) : State :=
  let readable := s.jrn.cfgValid && s.upd.settings != 2
  let base : Cf := ⟨s.variant, []⟩
  let live := if readable then Memory.apply s.variant [] (lasting (topiary s base 2 true s.jrn.cfg).cf.mem)
    else []
  -- an offset that a leap has changed survives every start and update (R97)
  let live := match s.jrn.utc with
    | some u => Memory.writes s.variant live (cfgAddr 0x3050 1 0) (toBEi 4 u)
    | none => live
  let s1 := { s with cfg := { s.cfg with live := live, gen := s.jrn.cfgGen, lastGen := s.jrn.cfgGen, valid := readable } }
  let s2 := s1.within takeParts (takeConfig base s.jrn.cfgGen s.now (fun _ _ => false) s1)
  s2.within [.goose, .out] (gooseBoot { s2 with alm := { s2.alm with goose := [], out := [] } })

/-- The boot mode (R52). -/
def State.bootMode (s : State) (quick : Bool) : Mode :=
  if quick then .quickset
  else if s.key.zeroized then .zeroized
  else if s.key.life = .manufacture || s.key.life = .rma then .provision
  else if s.jrn.cfgValid then .standby else .configure

/-- Fences stay with their units across starts (R72, R491). -/
def bootFences (s : State) : State :=
  each (s.cop.lost.filter (fun x => [11, 14, 15].contains x.1)) (fun x st => fenceCost x.1 x.2 st) s

/-- What the start tells of failed attempts, a trial and a fall-back (R54, R479, R488), and the update state. Activations and
fall-backs are counted with their events, in the first mode after the start that sets every counter to 0 (R430, R487). -/
def bootTrial (s : State) : State :=
  let u := s.upd
  let trial := u.latest = some (1, u.running) && s.mode.cur != .quickset
  let s1 := when (s.jrn.untold != 0) (fun t => raise 0x06 0 s.jrn.untold { t with jrn := { t.jrn with untold := 0 } }) s
  let s2 := if trial then
      let s3 := setBank u.running (fun k => { k with state := 4 }) s1
      raise 0xE3 0 (match s3.upd.banks[u.running]? with | some k => mRelease k.manifest | none => 0)
        (count 0xB080 6 <| s3.setUpd { s3.upd with state := 4, trialEnd := some (s.elapsed + s.cf.u 0xB010 1 0 2 * 60000000000) })
    else s1.setUpd { s1.upd with state := if (s1.upd.banks.getD s1.inactive {}).state = 2 then 2 else 0, trialEnd := none }
  let s4 := s2.setUpd { s2.upd with parts := if s2.upd.state = 2 then s2.upd.parts else [] }
  if s4.upd.fellBack = 0 then s4 else raise 0xE5 0 s4.upd.fellBack (count 0xB080 8 <| s4.setUpd { s4.upd with fellBack := 0 })

/-- Auto-operate (R51 step 8, R59). -/
def autoOperate (s : State) : State :=
  if s.mode.cur = .standby && s.cf.u 0x1100 6 0 1 = 1 && s.upd.settings != 2 then
    if s.fenceLevel = 2 then rejectReq 4 s else pendMode .operate 0x0107 false s
  else s

/-- Step 7: the boot mode is entered, with the cause of the entry and that of the start. -/
def bootEnter (m : Mode) (cause start : Nat) (s : State) : State :=
  let prev := s.jrn.mode
  let s1 := { s with mode := { s.mode with cur := m, prev := prev, cause := cause, startCause := start, since := s.now } }
  let s2 := journalTime (raise 0x00 0 (cause * 65536 + prev * 256 + m.code) s1)
  when m.ingests ingestStart s2

/-- A MiB of the store that a warm start keeps: the record area and the event mirror, each when its check passes (R62, R64, R370). -/
def keptMiB (areaOk mirrorOk : Bool) (m : Nat) : Bool := (areaOk && inRegion 9 m) || (mirrorOk && inRegion 12 m)

/-- The machine as a start finds it, with what the flash, the fuses and, at a warm start, the store kept (R64, R72, R76). -/
def bootState (i : StartIn) (s : State) : State :=
  let took := i.took
  let gen : Gen := match s.jrn.time with | some (g, _) => g + 1#16 | none => 0#16
  let sec := match s.jrn.time with | some (_, t) => t | none => 0
  { pending := s.pending, variant := s.variant, freeCount := s.freeCount, jtag := if s.power.start.cold then .idcode else s.jtag
    power := { good := s.power.good }
    mode := { cur := .configure }
    jrn := { s.jrn with starts := min (s.jrn.starts + 1) ctrMax, steps := min (s.jrn.steps + 1) ctrMax }
    time := { elapsed := took, tai := sec * 1000000000 + took, gen := gen }
    store := { dram := if s.power.start.cold || s.power.start.lost then [] else s.store.dram.keep (fun g _ => keptMiB i.recordAreaOk i.mirrorOk (g / 16384)) }
    sched := { desc := Config.firmwareTasks }
    key := s.key, rec_ := s.rec_, cop := { bootCoppice s.cop with periodAt := took }
    upd := { s.upd with holder := none, waiting := none, lastOut := 0, committed := false, leaving := 0, resume := none, left := none, settings := 0,
                        banks := s.upd.banks.map (fun k => if k.state = 4 then { k with state := 2 } else k) }
    mon := { tj := s.mon.tj, sum := s.mon.sum, span := s.mon.span, life := s.mon.life, at_ := took } }

/-- EV_TIME_STEP, and EV_TIME_GEN_WRAP when the generation has wrapped; with no time entry the one before is 0xFFFF (R75, R76,
R99). -/
def bootTime (before : Option (Gen × Nat)) (s : State) : State :=
  let s1 := raise 0x10 0 (s.time.gen.toNat * 65536) s
  when ((before.map (·.1)).getD 0xFFFF#16 = 0xFFFF#16) (raise 0x17 0 0) s1

/-- What step 2 to step 5 change: what the start keeps of keys and records, and the events handed over. -/
def keepParts : List Part := [.events, .irq, .stats, .free, .sessions, .sched, .hr, .alarm, .goose, .keys, .keyPort, .keyCmd, .tamper, .records, .recFlash, .recFault]

/-- What the entry into the boot mode changes. -/
def enterParts : List Part := [.events, .fence, .stats, .free, .mode, .journal, .time, .queues, .sched, .port, .acq, .ingest, .align, .hr, .alarm, .goose, .osc, .isl, .upd]

/-- What the modes that follow the boot mode change. -/
def afterParts : List Part :=
  [.events, .stats, .free, .mode, .request, .journal, .previous, .sessions, .commitQueue, .queues, .sched, .acq, .ingest, .chain, .align, .hr, .alarm, .goose, .out,
   .keys, .keyPort, .keyCmd, .tamper, .osc, .isl, .cop]

/-- The part types taken from ROM: those the manifest omits (R471); in QUICKSET all. -/
def romParts (quick : Bool) (m : Bytes) : List Nat := (span 1 10).filter (fun t => quick || !(mTypes m).contains t)

/-- The start of an image, or of ROM in QUICKSET: steps 2 to 8 (R51). `rose`: step 2 has raised the security version.
An area cleared is told under instance 0x18 (DESIGN CHOICE, log entry 224). -/
def boot (i : StartIn) (quick rose : Bool) (bank cause : Nat) (s : State) : State :=
  let warm := !s.power.start.cold
  let fell := cause = 5 || cause = 6
  let s0 := bootState i s
  let lost := s.power.start.lost
  let s1 := s0.setUpd { s0.upd with running := bank, rom := romParts quick (s0.upd.banks.getD bank {}).manifest }
  let s2 := bootRecorder i warm lost (bootKeys i (when (!s.time.refPresent) refLost (bootTime s.jrn.time s1)))
  let lostArea := warm && (!i.recordAreaOk || !i.mirrorOk)
  let s3 := when lostArea (raiseFree 0x03 0x18 1) (when rose (raise 0xE4 0 s.upd.secVer) s2)
  let s4 := s1.within keepParts (handOverAll 1024 s3)
  let s5 := when (fell && !quick) (fun t => { t with jrn := { t.jrn with cfg := dropTuning t.jrn.cfg } }) s4
  let s6 := if quick then { s5 with cfg := { s5.cfg with gen := s5.jrn.cfgGen, lastGen := s5.jrn.cfgGen, valid := s5.jrn.cfgValid } }
    else bootConfig (bootSettings i.convertOk s5)
  let s7 := s6.within [.events, .stats, .acq, .reader] (if warm then bootAcq i (if lost then {} else s.acq) s6 else s6)
  let m := s7.bootMode quick
  let s8 := s7.within enterParts (bootTrial (bootEnter m (if m = .zeroized && s7.key.erasing then 0x0105 else cause) cause (bootFences s7)))
  let s9 := if quick && 3 ≤ s.jrn.failedBoots then s8 else { s8 with jrn := { s8.jrn with failedBoots := 0 } }
  s9.within afterParts (autoOperate (returnPassage s9))

/-- QUICKSET is selected: by R52 item 1, or by request 0, whose reset leads into ROM (R59). -/
def State.picksQuickset (s : State) (i : StartIn) : Bool :=
  (i.recoveryLow || 3 ≤ s.jrn.failedBoots || s.power.start.quick) && s.key.life != .scrapped

/-- The length of an image: its manifest and the parts it holds. -/
def mImage (m : Bytes) : Nat := 4096 + ((List.range (mCount m)).map (mLength m)).sum

/-- The selected image verifies within the time of step 5 (R51, R481). A flash without octal DTR makes an image above 14 MiB take
longer than that (R542). -/
def State.imageOk (s : State) (i : StartIn) (b : Nat) : Bool :=
  (if b = 0 then i.imageOkA else i.imageOkB)
    && (match s.upd.banks[b]? with | some k => decide (s.upd.secVer ≤ mVersion k.manifest) && (i.octal || decide (mImage k.manifest ≤ 14 * 2 ^ 20)) | none => false)

/-- START_UP (R51): the steps from 1 to 7 take `took` ns, and more than 5 s is a failed attempt. -/
def startUp (i : StartIn) (s : State) : State :=
  if s.power.phase != .booting then s
  else
    let rose : Bool := decide (s.upd.secVer < s.upd.secGoal)
    let s1 := s.within [.keys, .keyCmd, .upd] (bootFuses s)
    let late : Bool := decide (5000000000 < i.took)
    if s1.picksQuickset i then (if late then s1.within [.power, .journal] (failAttempt 4 s1) else boot i true rose s1.upd.running s1.power.start.cause s1)
    else
      let (b, cause, t) := bankSelect s1
      let s2 := s1.within [.upd] t
      if late || !s2.imageOk i b then s2.within [.power, .journal, .upd] (bootFail b s2) else boot i false rose b cause s2
def execStartUp (dt : Nat) (i : StartIn) (s : State) : Host.Outcome State Fault Refusal := .next (s.within [.events, .irq, .fence, .stats, .free, .pace, .power, .mode, .request, .reset, .journal, .stored, .time, .config, .commits, .previous, .sessions, .commitQueue, .lockouts, .queues, .store, .sched, .tasks, .port, .acq, .reader, .bus, .ingest, .slots, .chain, .align, .hr, .alarm, .goose, .out, .keys, .keyPort, .keyCmd, .tamper, .osc, .isl, .cop, .upd, .records, .recFlash, .recFault, .mon, .jtag] (startUp i (wake (s.tick dt))))

end Sys2Proof.Machine
end

