-- ==== Sys2Proof/Machine/Store.lean ====
section
/-! DEFINITION. Steps of the central store (R369 to R387): the arbiter's frame, pops and refills with their errors, the
scrubber; the clears of high-water marks, scheduler statistics and latency histograms. -/
namespace Sys2Proof.Machine
open Sys2Proof

/-! ## What a reading unit does with an uncorrectable burst (R377) -/

/-- A service core cluster is reset as under R70. -/
def clusterReset (c : Nat) (s : State) : State :=
  if Table.getD s.rst.status (0x0F + c) 0 != 0 then s else raiseFree 0x03 (0x0F + c) 0 (beginReset (0x0F + c) (clearUnit (0x0F + c) s))

/-- Value `i` of a run of values of `size` bytes each lies, in whole or in part, in burst `k` of the run. -/
def inBurst (size k i : Nat) : Bool := size * i < 64 * k + 64 && 64 * k < size * (i + 1)

/-- Those values of a set or contribution that lie in a burst carry condition bit 0: 12 bytes a value (R207). -/
def spoil (k : Nat) (vs : List Slotted) : List Slotted :=
  vs.mapIdx (fun i v => if inBurst 12 (k % (12 * vs.length / 64 + 1)) i then { v with cond := v.cond ||| 1#16, valid := false } else v)

/-- Burst `k` of an entry of a member's history, of a close of a group, or of a channel's raw samples, is damaged. -/
def spoilHistory (who n k : Nat) (s : State) : State :=
  let xs := Table.getD s.align.hist who []
  { s with align := { s.align with hist := Table.set s.align.hist who (xs.mapIdx (fun i h => if i = n % xs.length then { h with vals := spoil k h.vals } else h)) [] } }
def spoilClose (g n k : Nat) (s : State) : State :=
  let xs := (s.grpG g).closes
  s.setGrpG g { s.grpG g with closes := xs.mapIdx (fun i h => if i = n % xs.length then { h with vals := spoil k h.vals } else h) }
def spoilRaw (c k : Nat) (s : State) : State :=
  let x := s.chan c
  if x.raw.isEmpty then s
  else s.setChan c { x with raw := x.raw.mapIdx (fun i r => if inBurst 4 (k % (x.raw.length / 16 + 1)) i then { r with cond := r.cond ||| 1#16 } else r) }

/-- A burst of a row of a group's history ring is damaged: each value in it, of 4 bytes, is delivered with condition bit 0, from
which its row flag bit 0 comes. -/
def spoilRow (g n k : Nat) (s : State) : State :=
  let x := s.grp g
  if x.ring.isEmpty then s
  else s.setGrp g { x with ring := x.ring.mapIdx (fun i r => if i = n % x.ring.length then
    { r with vals := r.vals.mapIdx (fun j v => if inBurst 4 (k % (r.vals.length / 16 + 1)) j then (v.1, v.2.1 ||| 1#16, v.2.2) else v) } else r) }

/-- A stored record has a damaged burst at an offset of the record area. -/
def spoilRecord (off : Nat) (s : State) : State :=
  { s with acq := { s.acq with recs := s.acq.recs.map (fun r => if r.off ≤ off && off < r.off + r.size then { r with bad := dedup ((off - r.off) :: r.bad) } else r) } }

/-- The frame in a session's buffer is discarded and counted. -/
def spoilFrame (n : Nat) (s : State) : State :=
  let busy := (Table.keys s.alm.out).filter (fun k => !(s.out k).buf.isEmpty)
  match busy[n % max 1 busy.length]? with
  | some k => discardFrame k { s.out k with buf := (s.out k).buf.drop 1 } s
  | none => s

/-- The unit whose region holds the burst acts. Which cluster, session, engine, entry or burst of an entry it is, where the region's
layout does not say, is a free choice (log entry 213). `q`: the queue read. -/
def ueAction (e : StoreErr) (q : Option Nat) (s0 : State) : State :=
  let off := e.offset / 64 * 64
  let (k, s) := s0.takeFree
  let n := (Config.free32 k).toNat
  match e.region with
  | 0x0 => clusterReset (n % 4) s
  | 0x1 => match (s.osr.sessions.filter (fun x => x.stage.isSome))[n % 9]? with | some x => dropStage x s | none => s
  | 0x2 => count (0x2080 + (match q with | some k => if k ≤ 95 then k / 16 else n % 6 | none => off / 2 ^ 28 % 6)) 5 s
  | 0x4 => if s.align.hist.isEmpty || n % 2 = 1 then spoilRaw (n / 2 % 1024) (n / 2048) s
           else spoilHistory ((Table.keys s.align.hist).getD (n / 2 % s.align.hist.length) 0) (n / 65536 % 1024) (n / 2 ^ 26) s
  | 0x5 => spoilClose (n % 16) (n / 16 % 1024) (n / 16384) s
  | 0x6 => if n % 17 = 16 then islResume s else when (s.oscRuns (n % 17)) (oscRestart (n % 17) 4 s.now) s
  | 0x7 => spoilFrame n s
  | 0x8 => spoilRow (n % 16) (n / 64) (n / 16) s
  | 0x9 => spoilRecord off s
  | 0xA => abandonDownload s
  | 0xC => recFail 1 (off / 64) s
  | _ => s

/-- An uncorrectable read, with what follows from it; and a read that finds an error of either kind. -/
def uncorrectable (e : StoreErr) (q : Option Nat) (s : State) : State := ueAction e q (storeUe e s)
def readError (e : StoreErr) (q : Option Nat) (s : State) : State := if e.fixed then storeCe e s else uncorrectable e q s

/-! ## The arbiter (R22, R23, R371 to R376) -/

/-- Slots per channel of a reserved path in each frame, and the least that is left over (R371, R372). -/
def pathShare (p : Nat) : Nat := pathSlots p / 4

/-- Writes a path's posting buffer holds (R374). -/
def postingRoom (p : Nat) : Nat := 2 * pathSlots p

def State.posted (s : State) (p : Nat) : List Posted := Table.getD s.store.posted p []
def State.setPosted (s : State) (p : Nat) (xs : List Posted) : State :=
  { s with store := { s.store with posted := Table.set s.store.posted p xs [] } }

/-- Posted writes reach DRAM. -/
def reachDram (xs : List Posted) (s : State) : State :=
  { s with store := { s.store with dram := xs.foldl (fun t w => Table.set t w.granule w.data (zeros 64)) s.store.dram } }

/-- What a read of a granule gives: the newest write to it that still waits in a posting buffer, else what DRAM holds. No
granule is written by two reserved paths (R370). -/
def State.granule (s : State) (g : Nat) : Bytes :=
  match (((List.range 5).map s.posted).flatten.filter (fun w => w.granule = g)).getLast? with
  | some w => w.data
  | none => Table.getD s.store.dram g (zeros 64)

/-- A granule has a write waiting, so that a read of it does not reach DRAM. -/
def State.waits (s : State) (g : Nat) : Bool := ((List.range 5).map s.posted).flatten.any (fun w => w.granule = g)

/-- The place of a granule in its region. -/
def granuleAt (g : Nat) (fixed : Bool) : StoreErr := { region := regionOf (g / 16384), offset := 64 * g - regionBase (regionOf (g / 16384)) * 2 ^ 20, fixed := fixed }

/-- An access is taken at once (R24, R374): a write into the posting buffer, where the oldest makes room in a full one; a read is
answered, with an error in DRAM corrected or told (R377). -/
def storeAccess (a : StoreAccess) (s : State) : State :=
  match a.write with
  | none =>
    let bad : Bool := a.err != 0 && !s.waits a.granule
    let s1 := { s with store := { s.store with reads := s.store.reads ++ [(a.path, a.granule, if bad && a.err != 1 then [] else s.granule a.granule)] } }
    when bad (readError (granuleAt a.granule (a.err = 1)) none) s1
  | some d =>
    let xs := s.posted a.path ++ [⟨a.granule, d⟩]
    if xs.length ≤ postingRoom a.path then s.setPosted a.path xs else reachDram (xs.take 1) (s.setPosted a.path (xs.drop 1))

/-- Of the writes that wait, those that `quota` slots of each channel take to DRAM, oldest first, and those that stay. -/
def drain (quota : List Nat) (xs : List Posted) : List Posted × List Posted :=
  match xs with
  | [] => ([], [])
  | w :: rest =>
    let c := storeChannel w.granule
    if 0 < quota.getD c 0 then ((w :: (drain (quota.set c (quota.getD c 0 - 1)) rest).1), (drain (quota.set c (quota.getD c 0 - 1)) rest).2)
    else ((drain quota rest).1, w :: (drain quota rest).2)

/-- Reads of a path on a channel in a frame, moves of its queues' items that wait there, and slots it claims there: for these and for
the writes that wait, up to its share. -/
def readsOn (xs : List StoreAccess) (p c : Nat) : Nat := (xs.filter (fun a => a.path = p && a.write.isNone && storeChannel a.granule = c)).length
def State.moved (s : State) (p c : Nat) : Nat := Table.getD s.store.moves (4 * p + c) 0
def State.claimed (s : State) (xs : List StoreAccess) (p c : Nat) : Nat :=
  min (s.moved p c + readsOn xs p c + ((s.posted p).filter (fun w => storeChannel w.granule = c)).length) (pathShare p)

/-- Slots granted to a path on a channel: every slot claimed (R23), but for a fault of the channel's arbiter. -/
def State.granted (s : State) (xs : List StoreAccess) (f : SlotLoad) (p c : Nat) : Nat := if f.faults.contains (p, c) then 0 else s.claimed xs p c

/-- The use of a path over one frame, in 0xF120.01. -/
def noteUse (p claims grants : Nat) (s : State) : State :=
  let x := Table.getD s.store.arb p {}
  let y : ArbUse := { granted := satCount x.granted grants, frames := (s.elapsed, claims) :: x.frames.filter (fun f => s.elapsed < f.1 + 1000000000) }
  satEvent x.granted grants (recKey 0xF120 p 8) 0xB5 p 8 { s with store := { s.store with arb := Table.put s.store.arb p y } }

/-- Moves served by the slots granted. -/
def served (p : Nat) (given : List Nat) (s : State) : State :=
  { s with store := { s.store with moves := (List.range 4).foldl (fun t c => Table.modify t (4 * p + c) 0 (· - given.getD c 0)) s.store.moves } }

/-- A reserved path over one frame: moves first, then reads, and its oldest waiting writes take the slots these leave; a claim left ungranted is a
failure of the channel's arbiter (R376), unless that is fenced and its claims are unchecked (R491). -/
def pathFrame (xs : List StoreAccess) (f : SlotLoad) (p : Nat) (s : State) : State :=
  let claims := (List.range 4).map (s.claimed xs p)
  let grants := (List.range 4).map (s.granted xs f p)
  let (out, rest) := drain ((List.range 4).map (fun c => s.granted xs f p c - s.moved p c - readsOn xs p c)) (s.posted p)
  let s1 := noteUse p claims.sum grants.sum (served p grants (reachDram out (s.setPosted p rest)))
  each ((List.range 4).filter (fun c => decide (s.granted xs f p c < s.claimed xs p c)))
    (fun c st => if st.fenced 16 c then st else failUnit 16 c (raise 0xB6 c p st)) s1

/-- Slots given in turn, one at a time, to the six leftover classes that still claim; and the class whose turn is next. -/
def deal (room turn : Nat) (claims given : List Nat) : List Nat × Nat :=
  match room with
  | 0 => (given, turn)
  | n + 1 =>
    match ((List.range 6).map (fun i => (turn + i) % 6)).find? (fun k => 0 < claims.getD k 0) with
    | none => (given, turn)
    | some k => deal n ((k + 1) % 6) (claims.set k (claims.getD k 0 - 1)) (given.set k (given.getD k 0 + 1))

/-- What a leftover class claims on a channel: beside what is asked, moves of its queues' items. -/
def State.classClaim (s : State) (f : SlotLoad) (c k : Nat) : Nat := Table.getD f.classes (k * 4 + c) 0 + s.moved (5 + k) c

/-- The leftover of a channel (R23, R375): the guaranteed slots and the reserved ones that no path claimed; the scrubber's slot,
the event mirror's claims, then the six classes. The answer: what the eight claimants get, and the next turn. -/
def State.leftover (s : State) (f : SlotLoad) (free c : Nat) : List Nat × Nat :=
  let room := pathShare 5 + free
  let mirror := min (f.mirror.getD c 0) (room - 1)
  let (given, turn) := deal (room - 1 - mirror) (Table.getD s.store.turns c 0) ((List.range 6).map (s.classClaim f c)) (List.replicate 6 0)
  (1 :: mirror :: given, turn)

/-- The leftover slots of a frame. `free`: reserved slots unclaimed, by channel. -/
def leftoverFrame (f : SlotLoad) (free : List Nat) (s : State) : State :=
  let given := fun (c : Nat) => (s.leftover f (free.getD c 0) c).1
  let claims := (List.range 4).map (fun c => 1 + f.mirror.getD c 0 + ((List.range 6).map (s.classClaim f c)).sum)
  let s1 := each (List.range 6) (fun k => served (5 + k) ((List.range 4).map (fun c => (given c).getD (2 + k) 0))) s
  noteUse 5 claims.sum ((List.range 4).map (fun c => (given c).sum)).sum
    { s1 with store := { s1.store with
        given := (List.range 32).map (fun k => (k, (given (k % 4)).getD (k / 4) 0))
        turns := (List.range 4).map (fun c => (c, (s.leftover f (free.getD c 0) c).2)) } }

/-- SLOT_FRAME: the accesses of the reserved paths are taken, each path gets what it claims, and the rest is left over. -/
def slotFrame (xs : List StoreAccess) (f : SlotLoad) (s : State) : State :=
  let s1 := each xs storeAccess { s with store := { s.store with reads := [] } }
  let free := (List.range 4).map (fun c => ((List.range 5).map (fun p => pathShare p - s1.claimed xs p c)).sum)
  leftoverFrame f free (each (List.range 5) (pathFrame xs f) s1)
def execSlotFrame (dt : Nat) (accesses : List StoreAccess) (f : SlotLoad) (s : State) : Host.Outcome State Fault Refusal := .next (s.act [.events, .fence, .stats, .free, .reset, .mode, .journal, .time, .sessions, .previous, .queues, .store, .sched, .port, .acq, .bus, .ingest, .chain, .align, .hr, .alarm, .goose, .out, .keyPort, .osc, .isl, .cop, .upd, .recFlash, .recFault] dt (slotFrame accesses f))

/-! ## Queues (R380, R383) -/

/-- QUEUE_POP: with an uncorrectable burst of region 3 the item is delivered damaged; with one of region 2 its frame is dropped by
its consumer (R377); a corrected word is only counted. -/
def queuePop (q : Nat) (ue : Option StoreErr) (s : State) : State :=
  if 512 ≤ q then s
  else match ue with
    | some e =>
      let s1 := readError e (some q) s
      if e.region = 2 && !e.fixed then popQueue q false s1 else consumerPop q (e.region = 3 && !e.fixed) s1
    | none => consumerPop q false s
def execQueuePop (dt q : Nat) (ue : Option StoreErr) (s : State) : Host.Outcome State Fault Refusal := .next (s.act [.events, .stats, .free, .reset, .time, .sessions, .queues, .store, .sched, .port, .acq, .bus, .ingest, .chain, .align, .hr, .alarm, .goose, .out, .keyPort, .osc, .isl, .cop, .upd, .recFlash, .recFault] dt (queuePop q ue))

/-- QUEUE_REFILL: an uncorrectable burst of region 3 damages the first item that enters the head. -/
def queueRefill (q : Nat) (ue : Option StoreErr) (s : State) : State :=
  let x := s.queue q
  if 512 ≤ q || x.middle = 0 || 16 ≤ x.head || s.fenced 9 (q / 16) then s
  else match ue with
    | some e =>
      let y := if e.region = 3 && !e.fixed then { x with items := x.items.set x.head damagedMark } else x
      readError e (some q) (chargeMoves q x.seq x.refills (s.setQueue q y.refill))
    | none => chargeMoves q x.seq x.refills (s.setQueue q x.refill)
def execQueueRefill (dt q : Nat) (ue : Option StoreErr) (s : State) : Host.Outcome State Fault Refusal := .next (s.act [.events, .stats, .free, .reset, .time, .sessions, .queues, .store, .sched, .port, .acq, .bus, .ingest, .chain, .align, .hr, .alarm, .goose, .out, .keyPort, .osc, .isl, .cop, .upd, .recFlash, .recFault] dt (queueRefill q ue))

/-! ## The scrubber (R378) -/

/-- The row that holds a word, with the word's region. -/
def rowOf (w : ScrubWord) : Nat × Nat := ((errChannel w.at_), w.row)

/-- Rows in which two or more different words gave corrected errors, or any an uncorrectable one; with a word of each. -/
def badRows (r : ScrubReport) : List ScrubWord :=
  let words := fun (k : Nat × Nat) => (r.ce.filter (fun w => (rowOf w) = k)).map (fun w => (w.at_.region, w.at_.offset / 8))
  let bad := r.ce.filter (fun w => decide (2 ≤ (words (rowOf w)).eraseDups.length)) ++ r.ue
  (bad.map rowOf).eraseDups.filterMap (fun k => bad.find? (fun w => (rowOf w) = k))

/-- SCRUB_PASS_END. -/
def scrubEnd (r : ScrubReport) (s : State) : State :=
  let s1 := each r.ce (fun w => storeCe w.at_) s
  let s2 := { s1 with store := { s1.store with passCe := [], passTold := [] } }
  let s3 := each r.ue (fun w st => uncorrectable w.at_ none st) s2
  let s4 := each (badRows r) (fun w st => reportRow (errChannel w.at_) w.at_.region w.row st) s3
  let old := s4.ctr 0xF100 1
  let s5 := satEvent old 1 (recKey 0xF100 0 1) 0xB5 0 1 { s4 with stats := Table.set s4.stats (0xF100 * 256 + 1) (satCount old 1) 0 }
  { s5 with store := { s5.store with passMs := min r.ms 68000 } }
def execScrubPassEnd (dt : Nat) (r : ScrubReport) (s : State) : Host.Outcome State Fault Refusal := .next (s.act [.events, .stats, .free, .reset, .time, .sessions, .queues, .store, .sched, .port, .acq, .bus, .ingest, .chain, .align, .hr, .alarm, .goose, .out, .keyPort, .osc, .isl, .cop, .upd, .recFlash, .recFault] dt (scrubEnd r))

/-! ## Clears -/

/-- CLEAR_HIGH_WATER: a queue, 0xFFFE the pool, 0xFFFF all (R386). -/
def clearHighWater (_x : Session) (n : Nat) (s : State) : Nat × State :=
  let queue := fun (q : Nat) (st : State) => st.setQueue q { st.queue q with high := (st.queue q).items.length }
  let pool := fun (st : State) => { st with store := { st.store with poolHigh := st.store.poolUsed } }
  if n ≤ 511 then (stOk, queue n s)
  else if n = 0xFFFE then (stOk, pool s)
  else if n = 0xFFFF then (stOk, pool (each (Table.keys s.store.queues) queue s))
  else (stRejected, s)
def execClearHighWater (dt : Nat) (m : Msg) (v : List (BitVec 8)) (s : State) : Host.Outcome State Fault Refusal :=
  .next (s.act [.events, .stats, .sessions, .queues, .keyPort] dt (onWrite m 0xF100 8 v clearHighWater))

/-- SCHED_CLEAR: 0x9000.03 (R401). -/
def execSchedClear (dt : Nat) (m : Msg) (v : List (BitVec 8)) (s : State) : Host.Outcome State Fault Refusal :=
  .next (s.act [.events, .stats, .sessions, .sched, .keyPort] dt (onWrite m 0x9000 3 v (okWrite (fun _ t => schedClear t))))

/-- CLEAR_LEARNED_LATENCY: 0x6000.03, a context or 0xFFFF for all (R204). -/
def clearLearned (_x : Session) (n : Nat) (s : State) : Nat × State :=
  if n = 0xFFFF then (stOk, { s with align := { s.align with lat := [] } })
  else if n < s.contexts then (stOk, clearLatency n s) else (stRejected, s)
def execClearLearnedLatency (dt : Nat) (m : Msg) (v : List (BitVec 8)) (s : State) : Host.Outcome State Fault Refusal :=
  .next (s.act [.events, .stats, .sessions, .align, .keyPort] dt (onWrite m 0x6000 3 v clearLearned))

end Sys2Proof.Machine
end

