-- ==== Sys2Proof/Machine/Readers.lean ====
section
/-! DEFINITION. Records as bytes (R327), the eight readers (R331 to R334), export to C37.111 (R335), arming (R337); the
commands of the acquisition engine's objects. -/
namespace Sys2Proof.Machine
open Sys2Proof

/-! ## A record as bytes (R327) -/

def Tick.bytes (t : Tick) : Bytes := stampBytes ⟨t.gen, t.t8 / 8⟩

def rowFlags (r : Row) : Nat := flagsOf [r.vals.any (fun v => v.2.1.getLsbD 0), r.vals.any (fun v => v.2.1.getLsbD 7), r.vals.any (fun v => v.2.2.getLsbD 5)]
def rowBytes (r : Row) : Bytes := toBE 2 r.levels ++ toBE 2 (rowFlags r) ++ (r.vals.map (fun v => toBE 4 v.1.toNat)).flatten

/-- The trigger's row is the record's trigger row. -/
def Rec.onRow (r : Rec) (t : Trig) : Bool :=
  t.at_.upTo (stampTick r.trow.at_) &&
  (match (r.rows.filter (fun x => x.no < r.trow.no)).getLast? with
   | some p => !t.at_.upTo (stampTick p.at_)
   | none => decide (8 * r.trow.at_.ns < t.at_.t8 + 8000000000 / max 1 r.rate))

def Rec.trigBytes (r : Rec) (t : Trig) : Bytes :=
  let pos := nearestEven (((t.at_.t8 : Int) - 8 * r.trow.at_.ns) * r.rate * 256) 8000000000
  toBE 1 t.unit ++ toBE 1 (t.kind + 16 * t.src) ++ toBE 2 (flagsOf [r.onRow t, t.gate]) ++ t.at_.bytes ++ toBE 1 (t.at_.t8 % 8) ++ zeros 3 ++
    toBEi 4 (max (-2147483648) (min 2147483647 pos)) ++ toBE 4 (if t.kind = 0 || t.kind = 3 then 0 else satBits 32 (t.w8 / 8)) ++ toBE 4 t.val.toNat

def edgeEntry (e : DinEdge) : Bytes := toBE 1 e.din ++ toBE 1 (b2n e.level) ++ e.at_.bytes ++ toBE 1 (e.at_.t8 % 8) ++ zeros 1

/-- The header, its flags computed from the rows. -/
def Rec.header (r : Rec) : Bytes :=
  let pre := (r.rows.filter (fun x => x.no < r.trow.no)).length
  let any := fun (f : Row → Bool) => r.rows.any f
  let flags := r.flags % 16 + 16 * b2n (any (fun x => bit (rowFlags x) 0)) + 32 * b2n (any (fun x => x.at_.gen != r.trow.at_.gen)) +
    64 * b2n (any (fun x => bit (rowFlags x) 2)) + 128 * b2n r.closed
  let quals := (r.rows.map (fun x => x.vals.map (fun v => v.2.2))).flatten
  let qual := match quals with | [] => 0#16 | q :: _ => worstQual q quals
  fit 128 (toBE 1 0xA0 ++ toBE 1 r.group ++ toBE 1 flags ++ toBE 1 r.trigs.length ++ toBE 4 r.seq.toNat ++ toBE 8 r.cause ++ stampBytes r.trow.at_ ++
    stampBytes (r.rows.headD r.trow).at_ ++ toBE 4 r.rate ++ toBE 4 pre ++ toBE 4 (r.rows.length - pre) ++ toBE 2 r.chans.length ++ toBE 2 r.edges.length ++
    toBE 2 qual.toNat ++ toBE 2 r.mask ++ toBE 4 r.cfgGen.toNat ++ toBE 4 r.size)

/-- A record as it was written. -/
def Rec.clean (r : Rec) : Bytes :=
  fit r.size (r.header ++ fit 256 (r.trigs.map r.trigBytes).flatten ++ fit (48 * r.chans.length) r.table ++ (r.rows.map rowBytes).flatten ++ fit 4096 (r.edges.map edgeEntry).flatten)

/-- A byte lies in a damaged burst. -/
def Rec.damagedAt (r : Rec) (i : Nat) : Bool := r.bad.any (fun b => b ≤ i && i < b + 64)

/-- A record as it is read (R377): a damaged header or channel table reads as zero with header flag bit 0; a damaged row
takes row flag bit 0; what a damaged burst holds elsewhere is free. -/
def Rec.bytes (r : Rec) : Bytes :=
  if r.bad.isEmpty then r.clean
  else
    let c := r.chans.length
    let t0 := 384
    let t1 := 384 + 48 * c
    let rs := 4 + 4 * c
    let rows := r.rows.length
    let inHead := (List.range 128).any r.damagedAt
    let inTable := (List.range (48 * c)).any (fun i => r.damagedAt (t0 + i))
    let rowBad := fun (k : Nat) => (List.range rs).any (fun i => r.damagedAt (t1 + rs * k + i))
    r.clean.mapIdx (fun i b =>
      if i < 128 then (let v := if inHead then 0#8 else b; if i = 2 && (inHead || inTable) then v ||| 1#8 else v)
      else if t0 ≤ i && i < t1 then (if inTable then 0#8 else b)
      else
        let v := if r.damagedAt i then Config.damagedByte r.seq i else b
        if t1 ≤ i && i < t1 + rs * rows && (i - t1) % rs = 3 && rowBad ((i - t1) / rs) then v ||| 1#8 else v)

/-! ## Export (R335): the layouts of C37.111-2013 are the standard's (PRESUMED) -/

def decText (n : Nat) : Bytes := ascii (toString n)
def padText (k n : Nat) : Bytes := let t := decText n; List.replicate (k - t.length) 48#8 ++ t
def crlf : Bytes := [13#8, 10#8]
def joinComma (xs : List Bytes) : Bytes := match xs with | [] => [] | [x] => x | x :: r => x ++ [44#8] ++ joinComma r
def textLine (xs : List Bytes) : Bytes := joinComma xs ++ crlf

/-- Day, month and year of a number of days since 1970-01-01. -/
def civilDate (days : Nat) : Nat × Nat × Nat :=
  let z := days + 719468
  let era := z / 146097
  let doe := z % 146097
  let yoe := (doe - doe / 1460 + doe / 36524 - doe / 146096) / 365
  let doy := doe - (365 * yoe + yoe / 4 - yoe / 100)
  let mp := (5 * doy + 2) / 153
  let m := if mp < 10 then mp + 3 else mp - 9
  (doy - (153 * mp + 2) / 5 + 1, m, yoe + era * 400 + (if m ≤ 2 then 1 else 0))

/-- Date and time lines, in UTC. -/
def State.exportTime (s : State) (ns : Nat) : Bytes :=
  let soc := s.socOf (ns / 1000000000)
  let (d, m, y) := civilDate (soc / 86400)
  let t := soc % 86400
  textLine [padText 2 d ++ ascii "/" ++ padText 2 m ++ ascii "/" ++ padText 4 y,
    padText 2 (t / 3600) ++ ascii ":" ++ padText 2 (t / 60 % 60) ++ ascii ":" ++ padText 2 (t % 60) ++ ascii "." ++ padText 6 (ns % 1000000000 / 1000)]

/-- The inputs of the capture mask. -/
def Rec.inputs (r : Rec) : List Nat := (List.range 16).filter (bit r.mask)

/-- The configuration file. -/
def State.exportCfg (s : State) (r : Rec) : Bytes :=
  let text := Config.exportText
  let a := r.chans.length
  let d := r.inputs.length
  let col := fun (i : Nat) => r.rows.map (fun x => (x.vals.getD i (0#32, 1#16, 0#16)).1)
  let least := fun (xs : List F32) => Config.f32Text (f32of64 (f64least (xs.map f64of32)))
  let most := fun (xs : List F32) => Config.f32Text (f32of64 (f64most (xs.map f64of32)))
  let analog := (List.range a).map (fun i =>
    textLine [decText (i + 1), decText (r.chans.getD i 0), text 0, text 1, text 2, decText 1, decText 0, text 3, least (col i), most (col i), text 4, text 5, text 6])
  let digital := r.inputs.mapIdx (fun i x => textLine [decText (i + 1), ascii "DIN" ++ decText x, text 0, text 1, text 7])
  let first := (r.rows.headD r.trow).at_.ns
  let trig := match r.trigs with | t :: _ => t.at_.t8 / 8 | [] => r.trow.at_.ns
  textLine [text 8, text 9, ascii "2013"] ++ textLine [decText (a + d), decText a ++ ascii "A", decText d ++ ascii "D"] ++ analog.flatten ++ digital.flatten ++
    textLine [text 10] ++ textLine [decText 1] ++ textLine [decText r.rate, decText r.rows.length] ++ s.exportTime first ++ s.exportTime trig ++
    textLine [ascii "FLOAT32"] ++ textLine [decText 1] ++ textLine [decText 0, text 11] ++ textLine [text 12, text 13]

/-- The data file: sample number, time in µs from the first row, values, digital words; every field big-endian (R11). -/
def Rec.exportData (r : Rec) : Bytes :=
  let first := (r.rows.headD r.trow).at_.ns
  let word := fun (x : Row) (k : Nat) => flagsOf (((r.inputs.drop (16 * k)).take 16).map (bit x.levels))
  (r.rows.mapIdx (fun i x =>
    toBE 4 (i + 1) ++ toBE 4 ((x.at_.ns - first) / 1000) ++ (x.vals.map (fun v => toBE 4 v.1.toNat)).flatten ++
      ((List.range ((r.inputs.length + 15) / 16)).map (fun k => toBE 2 (word x k))).flatten)).flatten

/-! ## Readers (R331 to R334) -/

/-- The record a reader reads: its current sequence, closed. -/
def State.readerRec (s : State) (r : Nat) : Option Rec := s.acq.recs.find? (fun x => x.seq = (s.rdr r).cur && x.closed)

/-- The value of 0x8500+r (R331, R335). -/
def State.readerBytes (s : State) (r sub : Nat) : Bytes :=
  match s.readerRec r, sub with
  | some x, 1 => x.bytes
  | some x, 2 => if (s.rdr r).export_ then s.exportCfg x else []
  | some x, 3 => if (s.rdr r).export_ then x.exportData else []
  | _, _ => []

/-- The response to a READ (R418): type, length, offset, bytes. -/
def readBody (ty : Nat) (v : Bytes) (off maxLen : Nat) : Bytes :=
  if ty = 11 then toBE 1 ty ++ zeros 1 ++ toBE 4 v.length ++ toBE 4 off ++ slice v off maxLen else toBE 1 ty ++ zeros 1 ++ toBE 4 v.length ++ toBE 4 0 ++ v

/-- A session makes a READ: the snapshot it holds lasts 10 s more (R419); one older than that is gone. -/
def touchSnap (x : Session) (s : State) : State :=
  match s.session x.id with
  | some y => s.setSession { y with snap := match y.snap with
      | some p => if p.readAt + 10000000000 ≤ s.elapsed then none else some { p with readAt := s.elapsed }
      | none => none }
  | none => s

/-- A session holds no snapshot any more. -/
def dropSnap (x : Session) (s : State) : State :=
  match s.session x.id with
  | some y => s.setSession { y with snap := none }
  | none => s

/-- A segment read of a reader's record (R332): MARK_LOST once the record being read has lost its space. A read at offset 0
begins a record, and ends a snapshot the session holds (R419). -/
def readerRead (r sub off maxLen : Nat) (x : Session) (s0 : State) : Nat × Bytes × State :=
  let s := touchSnap x s0
  if objAbsent s.variant (0x8500 + r) sub then (stAbsent, [], s)
  else if maxLen = 0 || 1280 < maxLen || !s.reaches x.uart .look (0x8500 + r) sub then (stRejected, [], s)
  else
    let y := s.rdr r
    let gone := match y.reading with | some q => off != 0 && !s.acq.recs.any (fun z => z.seq = q) | none => false
    if gone then (stMarkLost, [], s.setRdr r { y with reading := none })
    else
      let s1 := if off = 0 then s.setRdr r { y with reading := (s.readerRec r).map (·.seq) } else s
      (stOk, readBody 11 (s.readerBytes r sub) off maxLen, if off = 0 then dropSnap x s1 else s1)
def execReaderRead (dt : Nat) (m : Msg) (r sub offset maxLen : Nat) (s : State) : Host.Outcome State Fault Refusal :=
  .next (s.act [.events, .stats, .sessions, .reader, .keyPort] dt (if r < 8 && 1 ≤ sub && sub ≤ 3 then onMsg m 0x10 (readPayload (0x8500 + r) sub offset maxLen) (readerRead r sub offset maxLen) else id))

/-- The next stored record after a sequence. -/
def State.nextStored (s : State) (q : Seq) : Option Seq :=
  (s.acq.recs.filter (fun x => seqLater x.seq q)).foldl (fun best x => match best with | none => some x.seq | some b => if seqLater b x.seq then some x.seq else best) none

/-- READER_ADVANCE: past the newest record the reader waits for the one after it. -/
def readerAdvance (r : Nat) (_x : Session) (_n : Nat) (s : State) : Nat × State :=
  let y := s.rdr r
  let next := match s.nextStored y.cur with | some q => q | none => if s.acq.recs.any (fun z => z.seq = y.cur) then y.cur + 1#32 else y.cur
  (stOk, s.setRdr r { y with cur := next, reading := none })
def execReaderAdvance (dt : Nat) (m : Msg) (r : Nat) (v : List (BitVec 8)) (s : State) : Host.Outcome State Fault Refusal :=
  .next (s.act [.events, .stats, .sessions, .reader, .keyPort] dt (if r < 8 then onWrite m (0x8410 + r) 3 v (readerAdvance r) else id))

/-- READER_REWIND: to the mark; with the mark lost, to the oldest record, and the range lost is reported (R333). -/
def readerRewind (r : Nat) (_x : Session) (_n : Nat) (s : State) : Nat × State :=
  let y := s.rdr r
  if bit y.flags 1 then (stMarkLost, s.setRdr r { y with cur := s.oldestSeq, first := y.mark, last := s.oldestSeq - 1#32, reading := none })
  else (stOk, s.setRdr r { y with cur := y.mark, reading := none })
def execReaderRewind (dt : Nat) (m : Msg) (r : Nat) (v : List (BitVec 8)) (s : State) : Host.Outcome State Fault Refusal :=
  .next (s.act [.events, .stats, .sessions, .reader, .keyPort] dt (if r < 8 then onWrite m (0x8410 + r) 4 v (readerRewind r) else id))

/-- A sequence written to a reader: itself when stored, else the oldest stored (R337). -/
def State.storedSeq (s : State) (n : Nat) : Nat × Seq :=
  let q := BitVec.ofNat 32 n
  if s.acq.recs.any (fun z => z.seq = q) then (stOk, q) else (stClamped, s.oldestSeq)

/-- A WRITE whose effect answers the value applied. -/
def onWriteVal (m : Msg) (idx sub : Nat) (v : Bytes) (f : Nat → State → Nat × Nat × State) (s : State) : State :=
  onMsg m 0x12 (objPayload idx sub (zeros 1 ++ v)) (fun x s1 =>
    let (st, n) := s1.checkWrite x idx sub v
    if st = stOk || st = stClamped then
      let (r, val, s2) := f n s1
      (r, if r = stClamped then toBE v.length val else [], s2)
    else (st, [], s1)) s

/-- READER_SET_SEQUENCE. -/
def readerSetSeq (r n : Nat) (s : State) : Nat × Nat × State :=
  let (st, q) := s.storedSeq n
  (st, q.toNat, s.setRdr r { s.rdr r with cur := q, reading := none })
def execReaderSetSequence (dt : Nat) (m : Msg) (r : Nat) (v : List (BitVec 8)) (s : State) : Host.Outcome State Fault Refusal :=
  .next (s.act [.events, .stats, .sessions, .reader, .keyPort] dt (if r < 8 then onWriteVal m (0x8410 + r) 1 v (readerSetSeq r) else id))

/-- READER_SET_MARK. -/
def readerSetMark (r n : Nat) (s : State) : Nat × Nat × State :=
  let (st, q) := s.storedSeq n
  let y := s.rdr r
  (st, q.toNat, s.setRdr r { y with mark := q, flags := y.flags % 2 })
def execReaderSetMark (dt : Nat) (m : Msg) (r : Nat) (v : List (BitVec 8)) (s : State) : Host.Outcome State Fault Refusal :=
  .next (s.act [.events, .stats, .sessions, .reader, .keyPort] dt (if r < 8 then onWriteVal m (0x8410 + r) 2 v (readerSetMark r) else id))

/-- READER_FLAGS_READ, a READ of the one byte at offset 0: the read clears bit 0. -/
def readerFlags (r : Nat) (x : Session) (s0 : State) : Nat × Bytes × State :=
  let s := touchSnap x s0
  if objAbsent s.variant (0x8410 + r) 8 then (stAbsent, [], s)
  else if !s.reaches x.uart .look (0x8410 + r) 8 then (stRejected, [], s)
  else
    let y := s.rdr r
    (stOk, readBody 1 (toBE 1 y.flags) 0 1, s.setRdr r { y with flags := y.flags / 2 * 2 })
def execReaderFlagsRead (dt : Nat) (m : Msg) (r : Nat) (s : State) : Host.Outcome State Fault Refusal :=
  .next (s.act [.events, .stats, .sessions, .reader, .keyPort] dt (if r < 8 then onMsg m 0x10 (readPayload (0x8410 + r) 8 0 1) (readerFlags r) else id))

/-- EXPORT_ENABLE. -/
def exportEnable (r : Nat) (_x : Session) (n : Nat) (s : State) : Nat × State := (stOk, s.setRdr r { s.rdr r with export_ := n = 1 })
def execExportEnable (dt : Nat) (m : Msg) (r : Nat) (v : List (BitVec 8)) (s : State) : Host.Outcome State Fault Refusal :=
  .next (s.act [.events, .stats, .sessions, .reader, .keyPort] dt (if r < 8 then onWrite m (0x8410 + r) 9 v (exportEnable r) else id))

/-! ## Arming (R322, R337) -/

def State.validGroups (s : State) : Nat := flagsOf ((List.range 16).map (groupValid s.cf))

/-- The named groups, those not valid cleared and reported. -/
def eachGroup (n : Nat) (f : Nat → State → State) (s : State) : Nat × Nat × State :=
  let k := n.land s.validGroups
  (if k = n then stOk else stClamped, k, each ((List.range 16).filter (bit k)) f s)

/-- ARM_GROUP: a disarmed group is armed at once. -/
def armGroup (g : Nat) (s : State) : State :=
  let x := s.grp g
  s.setGrp g { x with state := if x.state = 3 && s.acqRuns then 1 else x.state, off := false }
def execArmGroup (dt : Nat) (m : Msg) (v : List (BitVec 8)) (s : State) : Host.Outcome State Fault Refusal :=
  .next (s.act [.events, .stats, .sessions, .acq, .keyPort] dt (onWriteVal m 0x8000 3 v (fun n t => eachGroup n armGroup t)))

/-- DISARM_GROUP: a group in capture, or with a trigger that waits for its row, completes its record first. -/
def disarmGroup (g : Nat) (s : State) : State :=
  let x := s.grp g
  if x.state = 2 || (x.state = 1 && x.seq.isSome) then s.setGrp g { x with off := true }
  else s.setGrp g { x with state := if x.state = 1 then 3 else x.state }
def execDisarmGroup (dt : Nat) (m : Msg) (v : List (BitVec 8)) (s : State) : Host.Outcome State Fault Refusal :=
  .next (s.act [.events, .stats, .sessions, .acq, .keyPort] dt (onWriteVal m 0x8000 4 v (fun n t => eachGroup n disarmGroup t)))

end Sys2Proof.Machine
end

