-- ==== Sys2Proof/Machine/Objects.lean ====
section
/-! DEFINITION. The value every object reads as, and the commands READ, DESCRIBE and WRITE (R405 to R410, R418 to R420). -/
namespace Sys2Proof.Machine
open Sys2Proof

/-! ## Values of the status objects, chapter by chapter -/

/-- How many of the first `n` numbers meet a test. -/
def countIf (n : Nat) (f : Nat → Bool) : Nat := ((List.range n).filter f).length
/-- Records laid end to end. -/
def records (n : Nat) (f : Nat → Bytes) : Bytes := ((List.range n).map f).flatten

def tbCode (t : TbState) : Nat := match t with | .freerun => 0 | .acquiring => 1 | .locked => 2 | .holdover => 3 | .refFault => 4

/-- 0x1000 (R409). -/
def State.idNat (s : State) (sub : Nat) : Nat :=
  match sub with
  | 3 => Config.dieRevision.toNat
  | 4 => Config.serial.toNat
  | 5 => mRelease ((s.upd.banks.getD s.upd.running {}).manifest)
  | 6 => s.upd.secVer
  | _ => Config.romVersion.toNat
/-- The texts of 0x1000.01 and .02. -/
def State.idText (s : State) (sub : Nat) : Bytes :=
  if sub = 1 then ascii "Waintily Devices"
  else match s.variant with | 0 => ascii "CZ4096" | 1 => ascii "CZ2048-A" | _ => ascii "CZ1024-L"

/-- 0x1100 (R62). -/
def State.modeNat (s : State) (sub : Nat) : Nat :=
  match sub with
  | 1 => s.mode.cur.code
  | 3 => s.mode.reqStatus
  | 4 => s.mode.prev
  | 5 => s.mode.cause
  | 8 => s.jrn.failedBoots
  | 9 => s.mode.startCause
  | 0x0A => s.jrn.starts
  | _ => s.power.failState

/-- 0x2010+n.0B. -/
def State.linkStatus (s : State) (n : Nat) : Nat :=
  let x := Table.getD s.port n {}
  b2n x.up + 2 * x.rate + 16 * b2n x.an + 32 * b2n x.half + 64 * b2n x.pauseEnd.isSome + 128 * b2n x.holdoff.isSome

/-- A record of 0x4180.01 (R161). -/
def State.ctxStatus (s : State) (k : Nat) : Bytes :=
  let x := s.ctx k
  let p := x.pending.getD []
  let parsed := if p.isEmpty then none else parseCfg (ctxThree s.cf k) p
  let fault := if p.isEmpty then 0 else frameFaults s.cf k p
  toBE 1 (s.ctxState s.cf k) ++ toBE 1 (b2n x.lost + 2 * b2n x.statChange + fault + 32 * b2n x.tcp) ++
    toBE 2 (match x.accepted with | some b => fingerprint b | none => 0) ++ toBE 2 (if p.isEmpty then 0 else fingerprint p) ++
    toBE 1 (match parsed with | some q => satBits 8 q.pmus.length | none => 0) ++ toBE 1 (if ctxValid s.cf k then satBits 8 (s.ctxRate s.cf k) else 0) ++
    toBE 8 x.delivered ++ toBE 8 x.quarantined ++ toBE 8 x.dropped

/-- A record of 0x4280.01. -/
def State.svStatus (s : State) (r : Nat) : Bytes :=
  let x := s.svs r
  let on := svValid s.cf r
  toBE 1 (if !on then 0 else if x.rev.isSome then 3 else 2) ++ toBE 1 (b2n x.lost) ++ toBE 2 (if on then svF s.cf r 12 4 else 0) ++ toBE 2 (x.rev.getD 0) ++ zeros 1 ++
    toBE 1 (if on then svF s.cf r 1 1 else 0) ++ toBE 8 x.delivered ++ toBE 8 x.quarantined ++ toBE 8 x.dropped

/-- A valid channel with taps and an input rate, while the chain runs (0x5000.01). -/
def State.chanProduces (s : State) (ch : Nat) : Bool :=
  s.chainRuns && chanValid s.cf ch && inputRate s.cf ch != 0 && setN s.cf (chF s.cf ch 1 1) != 0

/-- A record of 0x5380.01. -/
def State.estStatus (s : State) (e : Nat) : Bytes :=
  let x := s.est e
  if estValid s.cf e then
    toBE 4 (f32of64 (if x.tracked then x.ft else f64ofInt (estF0 s.cf e))).toNat ++ toBE 4 (f32of64 x.lastF).toNat ++ toBE 1 (flagsOf [x.range, x.low, x.invalid]) ++ zeros 7
  else zeros 16

/-- 0x5480.01: bit 4c + k lies as bit k of 0xD010.01 does. -/
def State.compStates (s : State) : Bytes :=
  (List.range 512).map (fun i => BitVec.ofNat 8 (flagsOf ((List.range 8).map (fun b => (s.comp (8 * (511 - i) + b)).active))))

/-- Upper edges of a histogram at 500, 900 and 990 per mille (R204). -/
def Latency.edges (x : Latency) : Bytes := toBE 2 (x.quantile 500) ++ toBE 2 (x.quantile 900) ++ toBE 2 (x.quantile 990)

/-- A record of 0x6280.01. -/
def State.latStatus (s : State) (k : Nat) : Bytes :=
  let x := s.lat k
  toBE 4 (Table.total x.cur) ++ toBE 4 (Table.total x.prev) ++ x.edges ++ toBE 2 (satBits 16 x.last)

/-- The group forms sets (R58); one on a fenced lane forms none (R491). -/
def State.groupForms (s : State) (g : Nat) : Bool := s.aligns && agFlag s.cf g 0 && !s.fenced 4 (g / 4)

/-- A record of 0x6300.01: the fields from byte 4 are those of the last final close. -/
def State.groupStatus (s : State) (g : Nat) : Bytes :=
  let x := s.grpG g
  toBE 1 (b2n (s.groupForms g)) ++ toBE 1 (if agFlag s.cf g 0 then agRate s.cf g else 0) ++ toBE 2 x.open_.length ++
    (match x.closes.find? (fun c => c.kind != 0x20) with
     | some c => toBE 4 c.seq.toNat ++ stampBytes c.at_ ++ toBE 2 c.conf ++ toBE 2 c.qual.toNat ++ toBE 2 x.awaited ++ toBE 2 c.expected ++ toBE 4 c.decUs
     | none => zeros 28)

/-- 0x6800.04: inputs, bins and values per second of every group that runs the detector. -/
def foLoad (c : Cf) : Nat :=
  ((modeGroups c).map (fun g =>
    if mgFlag c g 2 then
      let (lo, hi) := foBins c g
      (inputsOf (signalsOf c g)).length * (hi + 1 - lo) * mgFg c g
    else 0)).sum

/-- 0xE000.09: a worker uses H0 for time, or H1 while H0 is down (R352). -/
def State.laneFlags (s : State) : Nat :=
  let h0 := s.hr.laneUp.getD 0 false
  let h1 := s.hr.laneUp.getD 1 false
  let w := s.hrRole = 1
  flagsOf [h0, h1, w && h0, w && !h0 && h1]

/-- A record of 0xE280.01 (R366). -/
def State.workerStatus (s : State) (w : Nat) : Bytes :=
  let x := s.wkr w
  let live := fun (l : Nat) => match x.burstAt.getD l none with | some t => x.state = 2 && decide (s.elapsed < t + s.lossNs) | none => false
  toBE 1 x.state ++ toBE 1 (flagsOf [live 0, live 1, x.above, x.reach, (List.range 16).any (fun g => s.workerMisfit s.cf g w)]) ++ toBE 2 x.rate ++ toBEi 4 (x.down.getD 0 0) ++ toBEi 4 (x.down.getD 1 0) ++
    toBE 4 (x.eqd.getD 0 0) ++ toBE 4 (x.eqd.getD 1 0) ++ toBEi 4 x.offset ++ (s.lat (0x8000 + w)).edges ++ toBE 6 x.received ++ zeros 4

/-- 0xE300.01. -/
def State.ownWorker (s : State) : Bytes :=
  let h := s.hr
  toBE 1 h.state ++ toBE 1 (flagsOf [h.laneUp.getD 0 false, h.laneUp.getD 1 false, h.idBad]) ++ toBE 2 h.mgrGen.toNat ++ toBE 4 (h.down.getD 0 0) ++ toBE 4 (h.down.getD 1 0) ++
    toBE 4 (h.eqd.getD 0 0) ++ toBE 4 (h.eqd.getD 1 0) ++ toBEi 4 h.offset ++ toBE 6 h.sent ++ toBE 6 h.discarded ++ zeros 4

/-- A record of 0xF110.01. -/
def ErrCount.bytes (x : ErrCount) : Bytes := toBE 6 x.ce ++ toBE 6 x.ue ++ toBE 2 x.rows ++ toBE 1 x.flags ++ zeros 1

/-- A record of 0xF120.01. -/
def State.arbStatus (s : State) (p : Nat) : Bytes :=
  let x := Table.getD s.store.arb p {}
  let fs := (x.frames.filter (fun f => s.elapsed < f.1 + 1000000000)).map (·.2)
  toBE 2 (pathSlots p) ++ toBE 2 (fs.foldl max 0) ++ toBE 2 (fs.sum / max 1 fs.length) ++ zeros 2 ++ toBE 8 x.granted

/-- A record of 0xF210.01. -/
def State.queueStatus (s : State) (q : Nat) : Bytes :=
  let x := s.queue q
  toBE 4 x.items.length ++ toBE 4 x.high ++ toBE 6 x.pushes ++ toBE 6 x.delivered ++ toBE 6 x.refused ++ toBE 6 x.idles

/-- A record of 0x9100.01 (R390). -/
def descBytes (d : TaskDesc) : Bytes :=
  toBE 1 (1 + 2 * b2n d.tunable) ++ toBE 1 d.plane ++ toBE 1 d.cluster ++ toBE 1 (flagsOf [d.byQueue, d.byPeriod, d.byEvent]) ++ toBE 2 (d.wq.getD 0xFFFF) ++ toBE 1 d.event ++
    toBE 1 d.base ++ toBE 1 d.ceil ++ toBE 1 d.affinity ++ toBE 1 d.delivery ++ zeros 1 ++ toBE 4 (if d.byPeriod then d.period else 0) ++ toBE 4 d.quantum ++ toBE 4 d.slice ++ fit 8 d.name
def State.descStatus (s : State) (t : Nat) : Bytes := match Table.find s.sched.desc t with | some d => descBytes d | none => zeros 32

/-- A record of 0x9300.01 (R402); W_t and A_t are those of the tuning in force (R397). -/
def taskStatus (wa : Nat × Nat) (x : Task) : Bytes :=
  toBE 1 x.state ++ toBE 1 x.level ++ toBE 1 x.core ++ toBE 1 (flagsOf [x.fallback, x.overrun, x.top]) ++ toBE 4 wa.1 ++ toBE 4 (satBits 32 x.longest) ++
    toBE 6 x.dispatches ++ toBE 6 x.preempted ++ toBE 6 x.overruns ++ toBE 2 wa.2

/-- A waiting-time histogram (R403). -/
def histBytes (h : Table Nat) : Bytes := records 24 (fun b => toBE 6 (Table.getD h b 0))

/-- A record of 0x9400.01. -/
def State.coreStatus (s : State) (k : Nat) : Bytes :=
  let x := s.core k
  let busy := x.busy + (if x.state = 1 then s.elapsed - x.startAt else 0)
  let mine := (x.loads.map (·.1)).sum
  let all := (x.loads.map (·.2)).sum
  toBE 1 x.state ++ toBE 1 (if x.state = 1 then (s.task x.task).level else 0) ++ toBE 2 (if x.state = 1 then x.task else 0xFFFF) ++ toBE 2 x.load ++ toBE 2 (mine * 1000 / max 1 all) ++
    toBE 6 x.dispatches ++ toBE 6 x.preempts ++ toBE 6 (satBits 48 (busy / 1000000)) ++ zeros 6 ++ histBytes x.hist

/-- A record of 0x9500.01. -/
def State.levelStatus (s : State) (l : Nat) : Bytes :=
  let x := s.level l
  toBE 2 (s.readyAt l).length ++ toBE 2 x.high ++ toBE 6 x.dispatches ++ toBE 6 x.rises ++ zeros 16 ++ histBytes x.hist

/-- 0xA200.02 (R466). -/
def KeyResult.bytes (x : KeyResult) : Bytes :=
  toBE 4 x.seq ++ toBE 1 x.cmd ++ toBE 1 x.status ++ toBE 1 x.reason ++ zeros 1 ++ toBE 2 x.target ++ toBE 2 x.revoked ++ toBE 4 (satBits 32 x.us)

/-- A record of 0xB110.01. -/
def PartU.bytes (x : PartU) : Bytes :=
  toBE 1 x.type ++ toBE 1 x.state ++ zeros 2 ++ toBE 4 x.data.length ++ toBE 4 x.length ++ toBE 2 (satBits 16 x.hashFails) ++ toBE 2 (satBits 16 x.readFails)

/-- A record of 0xB120.01: a bank below the security version in force reads 5. -/
def State.bankStatus (s : State) (b : Nat) : Bytes :=
  let x := s.upd.banks.getD b {}
  let m := x.manifest
  let low := 2 ≤ x.state && mVersion m < s.upd.secVer
  toBE 1 (if low then 5 else x.state) ++ toBE 1 (b2n (2 ≤ x.state && s.bootable b)) ++ toBE 2 (mVersion m) ++ toBE 4 (mRelease m) ++ toBE 2 (mFormat m) ++ zeros 6

/-- 0xB000.04. -/
def State.holderNat (s : State) : Nat := match s.upd.holder with | some (p, slot, _) => p * 2 ^ 24 + slot % 65536 | none => 0xFFFFFFFF

/-! ## Read-only numbers -/

/-- 0x1122 (R556, R557): 1 until the state that a reset clears has been cleared, 2 until the unit works again. The model clears it
with the write, so that 1 reads while no time has passed since (log entry 85). -/
def State.resetState (s : State) (sub : Nat) : Nat :=
  if sub = 0x18 then b2n s.rst.device.isSome
  else
    match Table.find s.rst.status sub with
    | none => 0
    | some _ => if Table.find s.rst.wroteAt sub = some s.elapsed then 1 else 2

/-- The number a status object of the pages 0x10 to 0x3F holds. -/
def State.lowNat (s : State) (idx sub : Nat) : Option Nat :=
  match idx with
  | 0x1000 => some (s.idNat sub)
  | 0x1030 => (match sub with
    | 1 => some s.pace.measured | 3 => some s.pace.margin | 5 => some s.pace.lowestMargin | 6 => some s.pace.lowestRing | _ => none)
  | 0x1050 => (match sub with
    | 4 => some (s.osr.sessions.filter (fun x => !x.uart)).length | 5 => some s.osr.queue.length | _ => none)
  | 0x1060 => (match sub with
    | 2 => some s.cfg.gen.toNat | 3 => some s.cfg.lastAcc.ns | 4 => some s.cfg.lastTc.ns | 5 => some (b2n s.cfg.prev.isSome) | _ => none)
  | 0x1100 => if sub = 7 then some s.mode.since.ns else some (s.modeNat sub)
  | 0x1122 => some (s.resetState sub)
  | 0x3000 => (match sub with
    | 1 => some (tbCode s.time.state) | 2 => some s.time.tai | 3 => some s.time.gen.toNat | 4 => some s.ownQual.toNat | 5 => some s.time.source
    | 6 => some s.errNow | 7 => some (ofBE (toBEi 8 s.time.offset)) | 9 => some s.jrn.steps | 0x0A => some (ofBE (toBEi 8 s.time.lastStep))
    | 0x0B => some s.time.elapsed | 0x0C => some (match s.unlockedFor with | some t => satBits 32 t | none => 0xFFFFFFFF)
    | 0x0D => some (ofBE (toBEi 8 (Table.getD s.time.stepSums s.time.gen.toNat 0))) | _ => none)
  | 0x3050 => (match sub with
    | 2 => some (ofBE (toBEi 4 s.time.utc)) | 3 => some s.time.leap | 4 => some s.time.leapAt | _ => none)
  | _ =>
    if 0x2010 ≤ idx && idx < 0x2016 then (if sub = 0x0A then some (portMac (idx - 0x2010)) else some (s.linkStatus (idx - 0x2010)))
    else if 0x3020 ≤ idx && idx < 0x3026 then
      let x := s.ptpP (idx - 0x3020)
      (match sub with | 5 => some x.state | 6 => some x.peerDelay | 7 => some x.gmId | _ => some x.gmInacc)
    else none

/-- The number a status object of the pages 0x40 to 0x8F holds. -/
def State.midNat (s : State) (idx sub : Nat) : Option Nat :=
  match idx with
  | 0x4000 => some (if sub = 0x16 then countIf s.contexts (fun k => s.ctxState s.cf k = 3) else s.ing.unresolved)
  | 0x5000 => (match sub with
    | 1 => some (countIf s.channels s.chanProduces) | 2 => some (countIf s.estimators (estValid s.cf)) | _ => none)
  | 0x6000 => some (if sub = 2 then countIf 16 s.groupForms else ((List.range 16).map (fun g => (s.grpG g).open_.length)).sum)
  | 0x6800 => (match sub with
    | 1 => some (countIf 16 (fun g => (s.oscG g).state = 2))
    | 3 => some ((s.lanesOf 5).filter (fun l => (s.lane 5 l).state ≤ 2)).length
    | _ => some (foLoad s.cf))
  | 0x7000 => (match sub with
    | 1 => some (if s.islIn s.cf then s.isl.state else 0) | 2 => some (s.isl.chain.ref.getD 0xFFFF) | 3 => some s.isl.chain.isl.length | _ => some s.isl.clusters)
  | 0x7800 => (match sub with
    | 1 => some (validAlarms s.cf).length | 2 => some ((validAlarms s.cf).filter (fun a => 0 < (s.alarm a).v)).length
    | 3 => some ((validPubs s.cf).filter s.pubSends).length | _ => some ((validOuts s.cf).filter (fun n => s.outState n = 3)).length)
  | 0x8000 => (match sub with
    | 1 => some ((List.range 16).map (fun g => (s.grp g).state * 4 ^ g)).sum | 5 => some s.acq.newest.toNat
    | _ => some (s.acq.closes.filter (fun t => s.elapsed < t + 60000000000)).length)
  | _ =>
    if 0x8410 ≤ idx && idx < 0x8418 then
      let x := s.rdr (idx - 0x8410)
      (match sub with
       | 1 => some x.cur.toNat | 2 => some x.mark.toNat | 5 => some x.lost | 6 => some x.first.toNat | 7 => some x.last.toNat | 8 => some x.flags | 9 => some (b2n x.export_)
       | _ => none)
    else none

/-- The number a status object of the pages from 0x90 holds. `free`: a free value, for a sequence the spec does not state: the
newest and the oldest while no record is held. -/
def State.highNat (s : State) (free idx sub : Nat) : Option Nat :=
  match idx with
  | 0x9000 => some (if sub = 1 then s.sched.desc.length else (s.sched.tasks.filter (fun p => p.2.state = 1)).length)
  | 0xA000 => (match sub with
    | 1 => some (lifeCode s.key.life) | 2 => some s.key.stateCode | 3 => some (s.key.roots.filter (·.used)).length
    | 6 => some (s.key.slots.filter (fun p => p.2.state = 1)).length | 7 => some s.key.tamperNow | 8 => some s.key.tamperSince | _ => none)
  | 0xB000 => (match sub with
    | 1 => some s.upd.state | 2 => some s.upd.running | 3 => some s.upd.settings | 4 => some s.holderNat
    | 5 => some (match s.upd.holder with | some (_, _, ip) => ip | none => 0)
    | 6 => some (match s.upd.trialEnd with | some t => (t - s.elapsed) / 1000000000 | none => 0) | 0x0B => some s.upd.lastOut | _ => none)
  | 0xC000 => (match sub with
    | 6 => some (ofBE s.testsRunning) | 7 => some s.cop.words | _ => some s.roundProgress)
  | 0xD000 => (match sub with
    | 1 => some (match s.rec_.circ with | r :: _ => r.seq.toNat | [] => free)
    | 2 => some (match s.rec_.circ.getLast? with | some r => r.seq.toNat | none => free)
    | 3 => some s.rec_.snap | 4 => some s.rec_.perm.length | _ => some s.rec_.state)
  | 0xE000 => some (if sub = 5 then Config.hrIdentity.toNat else s.laneFlags)
  | 0xF100 => (match sub with
    | 2 => some s.store.passMs | 4 => some s.store.ueOffset | 5 => some s.store.ueId | 6 => some s.store.poolUsed | 7 => some s.store.poolHigh | _ => none)
  | 0xF300 => (match sub with
    | 1 => some (ofBE (toBEi 4 s.mon.tj)) | 2 => some (ofBE (toBEi 4 (s.mon.high.getD s.mon.tj))) | 5 => some (ofBE (toBEi 4 s.mon.average))
    | _ => some (satBits 16 (Num.floor (n64 s.mon.life)).toNat))
  | 0xF410 => some (b2n (s.ev.irq != 0#256))
  | _ => none

/-- The number a read-only object holds: its own; a statistics counter (R430); or the fixed number of its table. -/
def State.roNat (s : State) (free : Nat) (o : Obj) (idx sub : Nat) : Nat :=
  if sub = 0 || idx = 0x1010 then o.dflt.getD 0
  else match (if idx < 0x4000 then s.lowNat idx sub else if idx < 0x9000 then s.midNat idx sub else s.highNat free idx sub) with
    | some n => n
    | none => if o.ty = 4 then s.ctr idx sub else o.dflt.getD 0

/-! ## Read-only blocks -/

/-- The bytes of a read-only DOMAIN. -/
def State.roBytes (s : State) (idx sub : Nat) : Bytes :=
  match idx with
  | 0x1060 => (match s.osr.reports with | r :: _ => reportBytes r | [] => [])
  | 0x4180 => records 4096 s.ctxStatus
  | 0x4280 => records 128 s.svStatus
  | 0x5380 => records 256 s.estStatus
  | 0x5480 => s.compStates
  | 0x6280 => records 4096 s.latStatus
  | 0x6300 => records 16 s.groupStatus
  | 0x6840 => modeResults (s.oscG (sub - 1))
  | 0x6850 => shownShapes s.cf (sub - 1) (s.oscG (sub - 1))
  | 0x6860 => foResults s.cf (sub - 1) (s.oscG (sub - 1))
  | 0x6870 => shownTracks s.cf (sub - 1) (s.oscG (sub - 1))
  | 0x7300 => fit 576 (if sub = 1 then s.isl.final else s.isl.latest)
  | 0x7310 => records 4096 (fun b => fit 8 (Table.getD s.isl.buses b []))
  | 0x7320 => records 16384 (fun e => let x := Table.getD s.isl.chain.edges e (0, 0); toBE 1 x.1 ++ toBE 1 x.2)
  | 0x7818 => records 512 (fun a => (s.alarm a).bytes)
  | 0x7980 => records 64 s.pubStatus
  | 0x7A80 => records 256 s.outStatus
  | 0x9100 => records 4096 s.descStatus
  | 0x9300 => records 4096 (fun k => taskStatus (s.bound k) (s.task k))
  | 0x9400 => records 32 s.coreStatus
  | 0x9500 => records 16 s.levelStatus
  | 0xA100 => records 512 s.key.slotBytes
  | 0xA200 => s.key.result.bytes
  | 0xB100 => fit 1280 (s.upd.banks.getD (sub - 3) {}).manifest
  | 0xB110 => fit 256 (s.upd.parts.map PartU.bytes).flatten
  | 0xB120 => records 2 s.bankStatus
  | 0xC100 => records 19 (fun k => s.unitStatus (k + 1))
  | 0xC110 => (s.laneList.map (fun (u, l) => s.laneResult u l)).flatten
  | 0xD020 => s.permBytes
  | 0xD030 => records 65536 s.circAt
  | 0xD0F0 => fit 64 s.rec_.gasp
  | 0xE280 => records 16 s.workerStatus
  | 0xE300 => s.ownWorker
  | 0xF110 => records 17 (fun k => (s.errRec k).bytes)
  | 0xF120 => records 6 s.arbStatus
  | 0xF210 => records 512 s.queueStatus
  | 0xF300 => records 7 s.railBytes
  | 0xF410 => toBE 32 s.ev.irq.toNat
  | _ =>
    if 0x8500 ≤ idx && idx < 0x8508 then s.readerBytes (idx - 0x8500) sub
    else Table.getD s.hr.summary ((idx - 0xE500) * 8 + sub) []

/-! ## Staged objects, as they are live -/

/-- The bytes of a staged DOMAIN: a coefficient set has its own length (R166), a tuning record its task's defaults until one
is committed (R391). -/
def State.cfgBytes (s : State) (o : Obj) (idx sub : Nat) : Bytes :=
  match idx with
  | 0x5200 => s.cf.bytes idx sub 0 (8 + 4 * setN s.cf (sub - 1))
  | 0x9200 => records 4096 (fun t => recBytes s s.cf ⟨0x9200, 1, t⟩ 16)
  | _ => s.cf.bytes idx sub 0 (o.recSize * o.recCount)

/-- The value a readable object has (R418). `n` numbers the free value a READ takes: what a request object reads as is not
stated. -/
def State.value (s : State) (n : Nat) (o : Obj) (idx sub : Nat) : Bytes :=
  if idx = 0x1000 && (sub = 1 || sub = 2) then s.idText sub
  else if o.acc = .ro then
    (if o.ty = 11 then s.roBytes idx sub
     else if o.ty = 9 then time80 (s.roNat (Config.free32 n).toNat o idx sub)
     else toBE (typeSize o.ty) (s.roNat (Config.free32 n).toNat o idx sub))
  else if o.direct then
    (if isSticky idx sub then toBE (typeSize o.ty) (Table.getD s.sticky (idx * 256 + sub) 0)
     else if 0x8410 ≤ idx && idx < 0x8418 then toBE (typeSize o.ty) ((s.midNat idx sub).getD 0)
     else if idx = 0xA200 then s.key.block
     else if idx = 0xB100 then (Config.freeBytes n).take (if sub = 1 then 1280 else 1288)
     else fit (typeSize o.ty) (Config.freeBytes n))
  else if o.ty = 11 then s.cfgBytes o idx sub
  else s.cf.bytes idx sub 0 (typeSize o.ty)

/-! ## READ (R418, R419) -/

/-- The DOMAINs larger than 1 MiB, which are read live. -/
def readLive (idx sub : Nat) : Bool := (0x8500 ≤ idx && idx < 0x8508) || (idx = 0xD030 && sub = 1)

/-- The rest of READ, once the object is known to be there: a snapshot at offset 0, then segments from it. -/
def readObject (o : Obj) (idx sub off maxLen : Nat) (x : Session) (s0 : State) : Nat × Bytes × State :=
  let (n, s) := s0.takeFree
  if o.ty != 11 then (stOk, readBody o.ty (s.value n o idx sub) 0 0, s)
  else if off = 0 then
    let v := s.value n o idx sub
    (stOk, readBody 11 v 0 maxLen,
      if readLive idx sub then dropSnap x s
      else match s.session x.id with
        | some y => s.setSession { y with snap := some { idx := idx, sub := sub, bytes := v, readAt := s.elapsed } }
        | none => s)
  else
    match (match s.session x.id with | some y => y.snap | none => none) with
    | some p => if p.idx = idx && p.sub = sub then (stOk, readBody 11 p.bytes off maxLen, s) else (stOk, readBody 11 (s.value n o idx sub) off maxLen, s)
    | none => (stOk, readBody 11 (s.value n o idx sub) off maxLen, s)

/-- READ. A record of a reader is read under R332, and a reader's flags under R332 too. Records of absent instances read as their
defaults (DESIGN CHOICE, log entry 222). -/
def readMsg (idx sub off maxLen : Nat) (x : Session) (s : State) : Nat × Bytes × State :=
  if 0x8500 ≤ idx && idx < 0x8508 && 1 ≤ sub && sub ≤ 3 then readerRead (idx - 0x8500) sub off maxLen x s
  else if maxLen = 0 || 1280 < maxLen then (stRejected, [], touchSnap x s)
  else if 0x8410 ≤ idx && idx < 0x8418 && sub = 8 then readerFlags (idx - 0x8410) x s
  else
    let t := touchSnap x s
    if !t.reaches x.uart .look idx sub then (stRejected, [], t)
    else match objAt t.variant idx sub with
      | none => (stRejected, [], t)
      | some o =>
        if objAbsent t.variant idx sub then (stAbsent, [], t)
        else if o.acc = .wo then (stRejected, [], t)
        else readObject o idx sub off maxLen x t
def execRead (dt : Nat) (m : Msg) (idx sub off maxLen : Nat) (s : State) : Host.Outcome State Fault Refusal :=
  .next (s.act [.events, .stats, .free, .sessions, .reader, .keyPort] dt (onMsg m 0x10 (readPayload idx sub off maxLen) (readMsg idx sub off maxLen)))

/-! ## DESCRIBE (R418) -/

def accCode (a : Acc) : Nat := match a with | .ro => 0 | .rw => 1 | .wo => 2 | .rws => 3

/-- The default column says where the value comes from, and it is the value (R132, R364, R409, R465). -/
def dfltIsValue (idx sub : Nat) : Bool :=
  idx = 0x1000 || (0x2010 ≤ idx && idx < 0x2016 && sub = 0x0A) || (idx = 0xE000 && sub = 5) || (idx = 0xA000 && (sub = 1 || sub = 3))

/-- The default of a number: per subindex for the UDP port list, the source order, the roles of ports and the filter. -/
def State.dfltNat (s : State) (o : Obj) (idx sub : Nat) : Nat :=
  if sub != 0 && dfltIsValue idx sub then s.roNat 0 o idx sub else o.dflt.getD 0

/-- A bound of a number in 8 bytes, right-aligned, signed values sign-extended. -/
def bound8 (v : Int) : Bytes := toBEi 8 v

/-- The body of a DESCRIBE response. -/
def State.describe (s : State) (o : Obj) (idx sub : Nat) : Bytes :=
  let head := toBE 1 o.ty ++ toBE 1 (accCode o.acc + 128 * b2n o.direct + 64 * b2n o.dflt.isNone)
  match o.ty with
  | 11 => head ++ toBE 4 o.recSize ++ toBE 4 o.recCount
  | 10 =>
    let d := if o.dflt.isNone then [] else s.idText sub
    head ++ toBE 8 1 ++ toBE 8 255 ++ toBE 1 d.length ++ d
  | 9 => head ++ time80 0 ++ time80 0 ++ (toBE 6 (2 ^ 48 - 1) ++ toBE 4 999999999)
  | _ => head ++ bound8 (typedInt o.ty (s.dfltNat o idx sub)) ++ bound8 o.lo ++ bound8 o.hi

/-- DESCRIBE. -/
def describeMsg (idx sub : Nat) (x : Session) (s : State) : Nat × Bytes × State :=
  if !s.reaches x.uart .look idx sub then (stRejected, [], s)
  else match objAt s.variant idx sub with
    | none => (stRejected, [], s)
    | some o => if objAbsent s.variant idx sub then (stAbsent, [], s) else (stOk, s.describe o idx sub, s)
def execDescribe (dt : Nat) (m : Msg) (idx sub : Nat) (s : State) : Host.Outcome State Fault Refusal :=
  .next (s.act [.events, .stats, .sessions, .keyPort] dt (onMsg m 0x11 (objPayload idx sub []) (describeMsg idx sub)))

/-! ## WRITE (R420) -/

/-- Free outcomes that the command does not carry. -/
def freeFlags (n : Nat) (s : State) : List Bool × State :=
  match n with
  | 0 => ([], s)
  | m + 1 => (let (k, t) := s.takeFree; let (r, u) := freeFlags m t; (Config.freeBool k :: r, u))

/-- A WRITE of 0xA000.05: the tests of the TRNG outputs and the antifuse's verify are free. -/
def rootFree (m : Msg) (v : Bytes) (s : State) : State :=
  let (f, s1) := freeFlags 7 s
  let on := fun (i : Nat) => f.getD i true
  onWrite m 0xA000 5 v (rootWrite [⟨on 0, on 1⟩, ⟨on 2, on 3⟩, ⟨on 4, on 5⟩] (on 6)) s1

/-- A WRITE of an action object has the effect of that action; of any other object it answers the status of its rule. -/
def writeMsg (m : Msg) (idx sub : Nat) (v : Bytes) (s : State) : State :=
  match idx, sub with
  | 0x1030, 7 => onWrite m idx sub v (okWrite clearLowest) s
  | 0x1100, 2 => onWrite m idx sub v modeReq s
  | 0x1121, 0x18 => onWrite m idx sub v wholeReset s
  | 0x1121, _ => resetWrite m sub v (clearUnit sub) s
  | 0x3000, 8 => onWrite m idx sub v (setTime v) s
  | 0x6000, 3 => onWrite m idx sub v clearLearned s
  | 0x6800, 2 => onWrite m idx sub v oscRestartWrite s
  | 0x7000, 5 => onWrite m idx sub v (okWrite islRestartWrite) s
  | 0x7800, 5 => onWrite m idx sub v (okWrite (fun _ t => each (validAlarms t.cf) release t)) s
  | 0x7820, 1 => onWrite m idx sub v ackWrite s
  | 0x8000, 3 => onWriteVal m idx sub v (fun n t => eachGroup n armGroup t) s
  | 0x8000, 4 => onWriteVal m idx sub v (fun n t => eachGroup n disarmGroup t) s
  | 0x9000, 3 => onWrite m idx sub v (okWrite (fun _ t => schedClear t)) s
  | 0xA000, 4 => onWrite m idx sub v lifeWrite s
  | 0xA000, 5 => rootFree m v s
  | 0xA200, 1 => onWrite m idx sub v (fun x _ => keyWrite v x) s
  | 0xB000, 7 => onWrite m idx sub v activate s
  | 0xB000, 8 => onWrite m idx sub v confirm s
  | 0xB000, 9 => onWrite m idx sub v rejectTrial s
  | 0xB000, 0x0A => onWrite m idx sub v releaseLock s
  | 0xB000, 0x0C => onWrite m idx sub v quicksetRestart s
  | 0xB100, 1 => manifestWrite m v s
  | 0xB100, 2 => onDomain m idx sub v (chunkWrite v) s
  | 0xC000, 5 => onWrite m idx sub v testNow s
  | 0xF100, 8 => onWrite m idx sub v clearHighWater s
  | 0xF300, 3 => onWrite m idx sub v (okWrite clearHigh) s
  | 0xF410, 2 => onWrite m idx sub v (irqClear v) s
  | _, _ =>
    if 0x8410 ≤ idx && idx < 0x8418 then
      let r := idx - 0x8410
      (match sub with
       | 1 => onWriteVal m idx sub v (readerSetSeq r) s
       | 2 => onWriteVal m idx sub v (readerSetMark r) s
       | 3 => onWrite m idx sub v (readerAdvance r) s
       | 4 => onWrite m idx sub v (readerRewind r) s
       | 9 => onWrite m idx sub v (exportEnable r) s
       | _ => onWrite m idx sub v (fun _ _ t => (stRejected, t)) s)
    else onWrite m idx sub v (stickyWrite idx sub) s
def execWrite (dt : Nat) (m : Msg) (idx sub : Nat) (v : List (BitVec 8)) (s : State) : Host.Outcome State Fault Refusal :=
  .next (s.act [.events, .irq, .stats, .free, .pace, .power, .mode, .request, .reset, .journal, .time, .commits, .previous, .sessions, .commitQueue, .queues, .store, .sched, .port, .acq, .reader, .bus, .ingest, .chain, .align, .hr, .alarm, .goose, .out, .keys, .life, .keyPort, .keyCmd, .tamper, .osc, .isl, .cop, .upd, .records, .recFlash, .mon] dt (writeMsg m idx sub v))

end Sys2Proof.Machine
end

