-- ==== Sys2Proof/Machine/Dispatch.lean ====
section
/-! DEFINITION. One arm per command: its meaning, by name. -/
namespace Sys2Proof.Machine

/-- The effect of a command on everything but the queue of waiting commands. -/
def exec (i : Instr) (s : State) : Host.Outcome State Fault Refusal :=
  match i with
  | .paceWindow dt rates => Sys2Proof.Machine.execPaceWindow dt rates s
  | .paceDeficit dt => Sys2Proof.Machine.execPaceDeficit dt s
  | .clearLowestMargin dt m v => Sys2Proof.Machine.execClearLowestMargin dt m v s
  | .configEffective dt => Sys2Proof.Machine.execConfigEffective dt s
  | .previousConfigRelease dt => Sys2Proof.Machine.execPreviousConfigRelease dt s
  | .eventRaise dt id inst param => Sys2Proof.Machine.execEventRaise dt id inst param s
  | .eventHandover dt => Sys2Proof.Machine.execEventHandover dt s
  | .keyRequest dt r => Sys2Proof.Machine.execKeyRequest dt r s
  | .keyRequestComplete dt asym => Sys2Proof.Machine.execKeyRequestComplete dt asym s
  | .railGood dt r mV => Sys2Proof.Machine.execRailGood dt r mV s
  | .railFail dt r mV => Sys2Proof.Machine.execRailFail dt r mV s
  | .resetNAssert dt width => Sys2Proof.Machine.execResetNAssert dt width s
  | .resetNRelease dt => Sys2Proof.Machine.execResetNRelease dt s
  | .startUp dt inp => Sys2Proof.Machine.execStartUp dt inp s
  | .bootTimeout dt => Sys2Proof.Machine.execBootTimeout dt s
  | .bootRetry dt => Sys2Proof.Machine.execBootRetry dt s
  | .pwrFail dt lowNs => Sys2Proof.Machine.execPwrFail dt lowNs s
  | .pwrFailQuiesced dt => Sys2Proof.Machine.execPwrFailQuiesced dt s
  | .pwrRestored dt => Sys2Proof.Machine.execPwrRestored dt s
  | .configJournalFlush dt => Sys2Proof.Machine.execConfigJournalFlush dt s
  | .modeRequestQuickset dt m => Sys2Proof.Machine.execModeRequestQuickset dt m s
  | .modeRequestConfigure dt m => Sys2Proof.Machine.execModeRequestConfigure dt m s
  | .modeRequestStandby dt m => Sys2Proof.Machine.execModeRequestStandby dt m s
  | .modeRequestOperate dt m => Sys2Proof.Machine.execModeRequestOperate dt m s
  | .modeRequestSafe dt m => Sys2Proof.Machine.execModeRequestSafe dt m s
  | .modeRequestZeroize dt m => Sys2Proof.Machine.execModeRequestZeroize dt m s
  | .operateStart dt => Sys2Proof.Machine.execOperateStart dt s
  | .stopInstant dt => Sys2Proof.Machine.execStopInstant dt s
  | .outputsStop dt => Sys2Proof.Machine.execOutputsStop dt s
  | .degradedReturn dt => Sys2Proof.Machine.execDegradedReturn dt s
  | .deviceResetBegin dt => Sys2Proof.Machine.execDeviceResetBegin dt s
  | .portReset dt m p v => Sys2Proof.Machine.execPortReset dt m p v s
  | .ingestReset dt m v => Sys2Proof.Machine.execIngestReset dt m v s
  | .chainReset dt m v => Sys2Proof.Machine.execChainReset dt m v s
  | .alignmentReset dt m v => Sys2Proof.Machine.execAlignmentReset dt m v s
  | .oscEngineReset dt m v => Sys2Proof.Machine.execOscEngineReset dt m v s
  | .islEngineReset dt m v => Sys2Proof.Machine.execIslEngineReset dt m v s
  | .alarmUnitReset dt m v => Sys2Proof.Machine.execAlarmUnitReset dt m v s
  | .acqReset dt m v => Sys2Proof.Machine.execAcqReset dt m v s
  | .hedgerowReset dt m v => Sys2Proof.Machine.execHedgerowReset dt m v s
  | .clusterReset dt m c v => Sys2Proof.Machine.execClusterReset dt m c v s
  | .timebaseServoReset dt m v => Sys2Proof.Machine.execTimebaseServoReset dt m v s
  | .recorderReadersReset dt m v => Sys2Proof.Machine.execRecorderReadersReset dt m v s
  | .keyPortReset dt m v => Sys2Proof.Machine.execKeyPortReset dt m v s
  | .updateEngineReset dt m v => Sys2Proof.Machine.execUpdateEngineReset dt m v s
  | .coppiceReset dt m v => Sys2Proof.Machine.execCoppiceReset dt m v s
  | .wholeDeviceReset dt m v => Sys2Proof.Machine.execWholeDeviceReset dt m v s
  | .unitResetComplete dt sub => Sys2Proof.Machine.execUnitResetComplete dt sub s
  | .sourceQualified dt src offset => Sys2Proof.Machine.execSourceQualified dt src offset s
  | .sourceDisqualified dt src => Sys2Proof.Machine.execSourceDisqualified dt src s
  | .servoLocked dt => Sys2Proof.Machine.execServoLocked dt s
  | .holdoverUpdate dt => Sys2Proof.Machine.execHoldoverUpdate dt s
  | .unlockedClassStep dt => Sys2Proof.Machine.execUnlockedClassStep dt s
  | .setTime dt m v => Sys2Proof.Machine.execSetTime dt m v s
  | .refClkLost dt => Sys2Proof.Machine.execRefClkLost dt s
  | .refClkRestored dt offset => Sys2Proof.Machine.execRefClkRestored dt offset s
  | .ptpFrameReceive dt f => Sys2Proof.Machine.execPtpFrameReceive dt f s
  | .ptpReceiptTimeout dt port => Sys2Proof.Machine.execPtpReceiptTimeout dt port s
  | .ptpTransmit dt port msgType domain seqId => Sys2Proof.Machine.execPtpTransmit dt port msgType domain seqId s
  | .ppsEdge dt width => Sys2Proof.Machine.execPpsEdge dt width s
  | .irigbFrame dt f => Sys2Proof.Machine.execIrigbFrame dt f s
  | .leapPendingStart dt => Sys2Proof.Machine.execLeapPendingStart dt s
  | .leapOccur dt => Sys2Proof.Machine.execLeapOccur dt s
  | .leapOccurredClear dt => Sys2Proof.Machine.execLeapOccurredClear dt s
  | .ppsOutPulse dt => Sys2Proof.Machine.execPpsOutPulse dt s
  | .frameReceive dt p f => Sys2Proof.Machine.execFrameReceive dt p f s
  | .ipReassemblyTimeout dt p src ident => Sys2Proof.Machine.execIpReassemblyTimeout dt p src ident s
  | .linkUp dt p rate half => Sys2Proof.Machine.execLinkUp dt p rate half s
  | .linkDown dt p => Sys2Proof.Machine.execLinkDown dt p s
  | .frameTransmit dt p => Sys2Proof.Machine.execFrameTransmit dt p s
  | .tcpSendOffload dt p x => Sys2Proof.Machine.execTcpSendOffload dt p x s
  | .udpSendOffload dt p x => Sys2Proof.Machine.execUdpSendOffload dt p x s
  | .pauseReceive dt p dst opcode quanta => Sys2Proof.Machine.execPauseReceive dt p dst opcode quanta s
  | .pauseExpire dt p => Sys2Proof.Machine.execPauseExpire dt p s
  | .pauseWatchdogTrip dt p => Sys2Proof.Machine.execPauseWatchdogTrip dt p s
  | .pauseHoldoffEnd dt p => Sys2Proof.Machine.execPauseHoldoffEnd dt p s
  | .c37DataFrame dt x => Sys2Proof.Machine.execC37DataFrame dt x s
  | .c37CfgFrame dt x => Sys2Proof.Machine.execC37CfgFrame dt x s
  | .c37HeaderFrame dt x => Sys2Proof.Machine.execC37HeaderFrame dt x s
  | .ingestTcpConnect dt ctx => Sys2Proof.Machine.execIngestTcpConnect dt ctx s
  | .ingestTcpLost dt ctx => Sys2Proof.Machine.execIngestTcpLost dt ctx s
  | .ingestRetry dt ctx => Sys2Proof.Machine.execIngestRetry dt ctx s
  | .svFrameReceive dt f => Sys2Proof.Machine.execSvFrameReceive dt f s
  | .streamLost dt sv k => Sys2Proof.Machine.execStreamLost dt sv k s
  | .estimatorReport dt e => Sys2Proof.Machine.execEstimatorReport dt e s
  | .setOpen dt g => Sys2Proof.Machine.execSetOpen dt g s
  | .setDeadline dt g seq => Sys2Proof.Machine.execSetDeadline dt g seq s
  | .setProvisionalDeadline dt g seq => Sys2Proof.Machine.execSetProvisionalDeadline dt g seq s
  | .clearLearnedLatency dt m v => Sys2Proof.Machine.execClearLearnedLatency dt m v s
  | .oscSetIntake dt g => Sys2Proof.Machine.execOscSetIntake dt g s
  | .oscUpdate dt g => Sys2Proof.Machine.execOscUpdate dt g s
  | .foEvaluation dt g => Sys2Proof.Machine.execFoEvaluation dt g s
  | .oscRestartRequest dt m v => Sys2Proof.Machine.execOscRestartRequest dt m v s
  | .islFinalReport dt => Sys2Proof.Machine.execIslFinalReport dt s
  | .islProvisionalRun dt => Sys2Proof.Machine.execIslProvisionalRun dt s
  | .islRestartRequest dt m v => Sys2Proof.Machine.execIslRestartRequest dt m v s
  | .alarmProvisionalDecision dt a => Sys2Proof.Machine.execAlarmProvisionalDecision dt a s
  | .alarmFinalReport dt a => Sys2Proof.Machine.execAlarmFinalReport dt a s
  | .alarmPulseEnd dt a => Sys2Proof.Machine.execAlarmPulseEnd dt a s
  | .alarmAcknowledge dt m v => Sys2Proof.Machine.execAlarmAcknowledge dt m v s
  | .releaseFrozenAlarms dt m v => Sys2Proof.Machine.execReleaseFrozenAlarms dt m v s
  | .gooseFrameBuild dt p => Sys2Proof.Machine.execGooseFrameBuild dt p s
  | .gooseRetransmit dt p => Sys2Proof.Machine.execGooseRetransmit dt p s
  | .gooseValueEvaluate dt p => Sys2Proof.Machine.execGooseValueEvaluate dt p s
  | .outCmdTurnOff dt n src => Sys2Proof.Machine.execOutCmdTurnOff dt n src s
  | .outCmdTurnOn dt n src => Sys2Proof.Machine.execOutCmdTurnOn dt n src s
  | .outCmdSendHeader dt n src => Sys2Proof.Machine.execOutCmdSendHeader dt n src s
  | .outCmdSendCfg1 dt n src => Sys2Proof.Machine.execOutCmdSendCfg1 dt n src s
  | .outCmdSendCfg2 dt n src => Sys2Proof.Machine.execOutCmdSendCfg2 dt n src s
  | .outCmdSendCfg3 dt n src => Sys2Proof.Machine.execOutCmdSendCfg3 dt n src s
  | .outCmdUnknown dt n src cmd => Sys2Proof.Machine.execOutCmdUnknown dt n src cmd s
  | .outClientConnect dt n ip tcpPort => Sys2Proof.Machine.execOutClientConnect dt n ip tcpPort s
  | .outClientDisconnect dt n => Sys2Proof.Machine.execOutClientDisconnect dt n s
  | .outDataFrame dt n => Sys2Proof.Machine.execOutDataFrame dt n s
  | .outFrameHandoff dt n => Sys2Proof.Machine.execOutFrameHandoff dt n s
  | .dinEdge dt d level frac => Sys2Proof.Machine.execDinEdge dt d level frac s
  | .dinEdgeAccept dt d => Sys2Proof.Machine.execDinEdgeAccept dt d s
  | .triggerTimeout dt u => Sys2Proof.Machine.execTriggerTimeout dt u s
  | .recordOpen dt g => Sys2Proof.Machine.execRecordOpen dt g s
  | .recordClose dt g => Sys2Proof.Machine.execRecordClose dt g s
  | .readerRead dt m r sub offset maxLen => Sys2Proof.Machine.execReaderRead dt m r sub offset maxLen s
  | .readerAdvance dt m r v => Sys2Proof.Machine.execReaderAdvance dt m r v s
  | .readerRewind dt m r v => Sys2Proof.Machine.execReaderRewind dt m r v s
  | .readerSetSequence dt m r v => Sys2Proof.Machine.execReaderSetSequence dt m r v s
  | .readerSetMark dt m r v => Sys2Proof.Machine.execReaderSetMark dt m r v s
  | .readerFlagsRead dt m r => Sys2Proof.Machine.execReaderFlagsRead dt m r s
  | .exportEnable dt m r v => Sys2Proof.Machine.execExportEnable dt m r v s
  | .armGroup dt m v => Sys2Proof.Machine.execArmGroup dt m v s
  | .disarmGroup dt m v => Sys2Proof.Machine.execDisarmGroup dt m v s
  | .cycleStart dt => Sys2Proof.Machine.execCycleStart dt s
  | .cycleHeaderReceive dt lane h => Sys2Proof.Machine.execCycleHeaderReceive dt lane h s
  | .workerBurst dt lane => Sys2Proof.Machine.execWorkerBurst dt lane s
  | .burstReceive dt lane w valid => Sys2Proof.Machine.execBurstReceive dt lane w valid s
  | .rangingResponse dt w identity lane seq => Sys2Proof.Machine.execRangingResponse dt w identity lane seq s
  | .driveFrame dt rx line riseNs8 lenNs => Sys2Proof.Machine.execDriveFrame dt rx line riseNs8 lenNs s
  | .offsetReport dt rx offset usable qual gen => Sys2Proof.Machine.execOffsetReport dt rx offset usable qual gen s
  | .setFragment dt rx f => Sys2Proof.Machine.execSetFragment dt rx f s
  | .summaryFrame dt rx x => Sys2Proof.Machine.execSummaryFrame dt rx x s
  | .laneLoss dt lane => Sys2Proof.Machine.execLaneLoss dt lane s
  | .workerLost dt w => Sys2Proof.Machine.execWorkerLost dt w s
  | .managerLost dt => Sys2Proof.Machine.execManagerLost dt s
  | .triggerLineFall dt line => Sys2Proof.Machine.execTriggerLineFall dt line s
  | .offsetClear dt w => Sys2Proof.Machine.execOffsetClear dt w s
  | .slotFrame dt accesses f => Sys2Proof.Machine.execSlotFrame dt accesses f s
  | .queuePop dt q ue => Sys2Proof.Machine.execQueuePop dt q ue s
  | .queueRefill dt q ue => Sys2Proof.Machine.execQueueRefill dt q ue s
  | .scrubPassEnd dt r => Sys2Proof.Machine.execScrubPassEnd dt r s
  | .rowRepair dt channel row => Sys2Proof.Machine.execRowRepair dt channel row s
  | .clearHighWater dt m v => Sys2Proof.Machine.execClearHighWater dt m v s
  | .taskPeriod dt t => Sys2Proof.Machine.execTaskPeriod dt t s
  | .taskYield dt core => Sys2Proof.Machine.execTaskYield dt core s
  | .sliceExpire dt core => Sys2Proof.Machine.execSliceExpire dt core s
  | .taskAgeRise dt t => Sys2Proof.Machine.execTaskAgeRise dt t s
  | .waitBoundExceeded dt t => Sys2Proof.Machine.execWaitBoundExceeded dt t s
  | .coreLoadUpdate dt core => Sys2Proof.Machine.execCoreLoadUpdate dt core s
  | .schedClear dt m v => Sys2Proof.Machine.execSchedClear dt m v s
  | .malformedDatagram dt port => Sys2Proof.Machine.execMalformedDatagram dt port s
  | .open_ dt m => Sys2Proof.Machine.execOpen dt m s
  | .close dt m => Sys2Proof.Machine.execClose dt m s
  | .keepalive dt m => Sys2Proof.Machine.execKeepalive dt m s
  | .rekey dt m => Sys2Proof.Machine.execRekey dt m s
  | .read dt m idx sub offset maxLen => Sys2Proof.Machine.execRead dt m idx sub offset maxLen s
  | .describe dt m idx sub => Sys2Proof.Machine.execDescribe dt m idx sub s
  | .write dt m idx sub v => Sys2Proof.Machine.execWrite dt m idx sub v s
  | .stageOpen dt m => Sys2Proof.Machine.execStageOpen dt m s
  | .stageWrite dt m idx sub offset v => Sys2Proof.Machine.execStageWrite dt m idx sub offset v s
  | .stageCommit dt m => Sys2Proof.Machine.execStageCommit dt m s
  | .stageAbort dt m => Sys2Proof.Machine.execStageAbort dt m s
  | .reportRead dt m gen offset maxLen => Sys2Proof.Machine.execReportRead dt m gen offset maxLen s
  | .subscribe dt m on => Sys2Proof.Machine.execSubscribe dt m on s
  | .notifyAck dt m echo => Sys2Proof.Machine.execNotifyAck dt m echo s
  | .notifySend dt sid => Sys2Proof.Machine.execNotifySend dt sid s
  | .notifyRetransmit dt sid => Sys2Proof.Machine.execNotifyRetransmit dt sid s
  | .sessionIdleTimeout dt sid => Sys2Proof.Machine.execSessionIdleTimeout dt sid s
  | .rekeyDue dt sid => Sys2Proof.Machine.execRekeyDue dt sid s
  | .rekeyDeadline dt sid => Sys2Proof.Machine.execRekeyDeadline dt sid s
  | .oldKeyExpire dt sid => Sys2Proof.Machine.execOldKeyExpire dt sid s
  | .authLockoutEnd dt ip => Sys2Proof.Machine.execAuthLockoutEnd dt ip s
  | .snapshotExpire dt sid => Sys2Proof.Machine.execSnapshotExpire dt sid s
  | .stagingTimeout dt sid => Sys2Proof.Machine.execStagingTimeout dt sid s
  | .topiaryCheck dt => Sys2Proof.Machine.execTopiaryCheck dt s
  | .commitAccept dt => Sys2Proof.Machine.execCommitAccept dt s
  | .stickyFlagClear dt m idx sub v => Sys2Proof.Machine.execStickyFlagClear dt m idx sub v s
  | .keyImportWrapped dt m v tagOk => Sys2Proof.Machine.execKeyImportWrapped dt m v tagOk s
  | .keyImportClear dt m v => Sys2Proof.Machine.execKeyImportClear dt m v s
  | .keyImportPublic dt m v onCurve => Sys2Proof.Machine.execKeyImportPublic dt m v onCurve s
  | .keyDerive dt m v => Sys2Proof.Machine.execKeyDerive dt m v s
  | .keyUpdate dt m v tagOk => Sys2Proof.Machine.execKeyUpdate dt m v tagOk s
  | .keyRevoke dt m v => Sys2Proof.Machine.execKeyRevoke dt m v s
  | .keyDestroy dt m v => Sys2Proof.Machine.execKeyDestroy dt m v s
  | .keyCommandComplete dt verifyOk => Sys2Proof.Machine.execKeyCommandComplete dt verifyOk s
  | .generateRoot dt m v trngPasses programmed => Sys2Proof.Machine.execGenerateRoot dt m v trngPasses programmed s
  | .lifecycleToProvisioned dt m v => Sys2Proof.Machine.execLifecycleToProvisioned dt m v s
  | .lifecycleToOperational dt m v => Sys2Proof.Machine.execLifecycleToOperational dt m v s
  | .lifecycleToRma dt m v => Sys2Proof.Machine.execLifecycleToRma dt m v s
  | .lifecycleToScrapped dt m v => Sys2Proof.Machine.execLifecycleToScrapped dt m v s
  | .tamperAssert dt src => Sys2Proof.Machine.execTamperAssert dt src s
  | .keyAreaEraseComplete dt => Sys2Proof.Machine.execKeyAreaEraseComplete dt s
  | .remaskStep dt slot => Sys2Proof.Machine.execRemaskStep dt slot s
  | .manifestWrite dt m v c => Sys2Proof.Machine.execManifestWrite dt m v c s
  | .chunkWrite dt m v hashOk => Sys2Proof.Machine.execChunkWrite dt m v hashOk s
  | .partReadback dt part hashOk => Sys2Proof.Machine.execPartReadback dt part hashOk s
  | .activate dt m v => Sys2Proof.Machine.execActivate dt m v s
  | .activationCommit dt => Sys2Proof.Machine.execActivationCommit dt s
  | .confirm dt m v => Sys2Proof.Machine.execConfirm dt m v s
  | .rejectTrial dt m v => Sys2Proof.Machine.execRejectTrial dt m v s
  | .trialWindowExpire dt => Sys2Proof.Machine.execTrialWindowExpire dt s
  | .releaseLock dt m v => Sys2Proof.Machine.execReleaseLock dt m v s
  | .lockLapse dt => Sys2Proof.Machine.execLockLapse dt s
  | .quicksetRestart dt m v => Sys2Proof.Machine.execQuicksetRestart dt m v s
  | .securityVersionStep dt => Sys2Proof.Machine.execSecurityVersionStep dt s
  | .handoverStart dt unit lane => Sys2Proof.Machine.execHandoverStart dt unit lane s
  | .handoverComplete dt unit matched => Sys2Proof.Machine.execHandoverComplete dt unit matched s
  | .sliceStart dt unit lane => Sys2Proof.Machine.execSliceStart dt unit lane s
  | .coppiceSliceEnd dt unit signatureOk element => Sys2Proof.Machine.execCoppiceSliceEnd dt unit signatureOk element s
  | .sliceYield dt unit => Sys2Proof.Machine.execSliceYield dt unit s
  | .sliceResume dt unit => Sys2Proof.Machine.execSliceResume dt unit s
  | .fuseProgram dt verified => Sys2Proof.Machine.execFuseProgram dt verified s
  | .testNow dt m v => Sys2Proof.Machine.execTestNow dt m v s
  | .rotationPeriodEnd dt => Sys2Proof.Machine.execRotationPeriodEnd dt s
  | .journalPageProgram dt verified => Sys2Proof.Machine.execJournalPageProgram dt verified s
  | .recorderScrub dt corrected ueWord => Sys2Proof.Machine.execRecorderScrub dt corrected ueWord s
  | .monitorSample dt tj railsMv => Sys2Proof.Machine.execMonitorSample dt tj railsMv s
  | .thermalShutdown dt tj => Sys2Proof.Machine.execThermalShutdown dt tj s
  | .thermalRecovery dt tj => Sys2Proof.Machine.execThermalRecovery dt tj s
  | .clearHighestTj dt m v => Sys2Proof.Machine.execClearHighestTj dt m v s
  | .irqClear dt m v => Sys2Proof.Machine.execIrqClear dt m v s
  | .tamperDeassert dt src => Sys2Proof.Machine.execTamperDeassert dt src s
  | .trngOutput dt repOk propOk => Sys2Proof.Machine.execTrngOutput dt repOk propOk s
  | .jtagInstruction dt inp => Sys2Proof.Machine.execJtagInstruction dt inp s
  | .uartFrameCrcFail dt => Sys2Proof.Machine.execUartFrameCrcFail dt s

end Sys2Proof.Machine
end

