-- ==== Sys2Proof/Safety.lean ====
section
/-! DEFINITION. What a safe run keeps: the configurations in canonical form, and each command within the parts of the state
that the rules let it change. -/
namespace Sys2Proof.Machine
open Sys2Proof

/-- The live and the stored configuration are in canonical form (R405, R425): addresses strictly rising, no byte listed that
equals its default. -/
def State.canonical (s : State) : Bool := Memory.wf s.variant s.cfg.live && Memory.wf s.variant s.jrn.cfg

/-- The parts of the state that a command may change. Beside them only the clock runs (elapsed time, internal time, and what
is left to slew). -/
def footprint (i : Instr) : List Part :=
  match i with
  | .paceWindow _ _ => [.events, .stats, .pace, .mode]
  | .paceDeficit _ => [.events, .stats, .free, .pace, .mode, .journal, .previous, .queues, .sched, .acq, .ingest, .chain, .hr, .alarm, .goose, .out, .osc, .isl, .cop]
  | .clearLowestMargin _ _ _ => [.events, .stats, .pace, .sessions, .keyPort]
  | .configEffective _ => [.events, .irq, .stats, .free, .mode, .request, .reset, .journal, .time, .config, .commits, .previous, .sessions, .queues, .sched, .port, .acq, .reader, .bus, .ingest, .slots, .chain, .align, .hr, .alarm, .goose, .out, .osc, .isl, .cop, .records, .recFlash, .recFault]
  | .previousConfigRelease _ => [.events, .stats, .previous, .hr, .alarm, .goose, .isl]
  | .eventRaise _ _ _ _ => [.events]
  | .eventHandover _ => [.events, .irq, .stats, .sessions, .sched, .hr, .alarm, .goose, .records, .recFlash, .recFault]
  | .keyRequest _ _ => [.events, .stats, .keyPort]
  | .keyRequestComplete _ _ => [.events, .stats, .free, .sessions, .keyPort, .upd]
  | .railGood _ _ _ => [.power]
  | .railFail _ _ _ => [.power]
  | .resetNAssert _ _ => [.free, .power]
  | .resetNRelease _ => [.power]
  | .startUp _ _ => [.events, .irq, .fence, .stats, .free, .pace, .power, .mode, .request, .reset, .journal, .stored, .time, .config, .commits, .previous, .sessions, .commitQueue, .lockouts, .queues, .store, .sched, .tasks, .port, .acq, .reader, .bus, .ingest, .slots, .chain, .align, .hr, .alarm, .goose, .out, .keys, .keyPort, .keyCmd, .tamper, .osc, .isl, .cop, .upd, .records, .recFlash, .recFault, .mon, .jtag]
  | .bootTimeout _ => [.power, .journal, .keys, .keyCmd, .upd]
  | .bootRetry _ => [.power]
  | .pwrFail _ _ => [.events, .stats, .free, .power, .request, .sched, .cop, .upd]
  | .pwrFailQuiesced _ => [.events, .stats, .power, .journal, .keyCmd, .records, .recFlash]
  | .pwrRestored _ => [.events, .stats, .free, .power, .request, .journal, .stored, .time, .upd, .records, .recFlash]
  | .configJournalFlush _ => [.journal]
  | .modeRequestQuickset _ _ => [.events, .stats, .request, .reset, .sessions, .keyPort]
  | .modeRequestConfigure _ _ => [.events, .stats, .free, .mode, .request, .journal, .previous, .sessions, .queues, .sched, .acq, .ingest, .chain, .hr, .alarm, .goose, .out, .osc, .isl, .cop, .keyPort]
  | .modeRequestStandby _ _ => [.events, .stats, .free, .mode, .request, .journal, .previous, .sessions, .queues, .sched, .acq, .ingest, .chain, .hr, .alarm, .goose, .out, .osc, .isl, .cop, .keyPort]
  | .modeRequestOperate _ _ => [.events, .stats, .request, .sessions, .keyPort]
  | .modeRequestSafe _ _ => [.events, .stats, .free, .mode, .request, .journal, .previous, .sessions, .queues, .sched, .acq, .ingest, .chain, .hr, .alarm, .goose, .out, .osc, .isl, .cop, .keyPort]
  | .modeRequestZeroize _ _ => [.events, .stats, .free, .mode, .request, .journal, .previous, .sessions, .commitQueue, .queues, .sched, .acq, .ingest, .chain, .align, .hr, .alarm, .goose, .out, .keys, .keyPort, .keyCmd, .osc, .isl, .cop]
  | .operateStart _ => [.events, .stats, .free, .mode, .request, .journal, .previous, .queues, .sched, .acq, .ingest, .chain, .align, .hr, .alarm, .goose, .out, .osc, .isl, .cop]
  | .stopInstant _ => [.events, .stats, .free, .mode, .request, .journal, .previous, .queues, .sched, .acq, .ingest, .chain, .hr, .alarm, .goose, .out, .osc, .isl, .cop, .upd]
  | .outputsStop _ => [.events, .stats, .power, .mode, .request, .journal, .previous, .queues, .sched, .acq, .ingest, .chain, .hr, .alarm, .goose, .out, .osc, .isl, .cop, .upd, .records, .recFlash]
  | .degradedReturn _ => [.events, .stats, .free, .mode, .journal, .previous, .queues, .sched, .acq, .ingest, .chain, .hr, .alarm, .goose, .out, .osc, .isl, .cop]
  | .deviceResetBegin _ => [.power]
  | .portReset _ _ _ _ => [.events, .stats, .free, .reset, .sessions, .queues, .port, .keyPort]
  | .ingestReset _ _ _ => [.events, .stats, .free, .reset, .sessions, .ingest, .keyPort]
  | .chainReset _ _ _ => [.events, .stats, .free, .reset, .sessions, .ingest, .chain, .alarm, .keyPort]
  | .alignmentReset _ _ _ => [.events, .stats, .free, .reset, .sessions, .queues, .sched, .acq, .bus, .align, .hr, .keyPort]
  | .oscEngineReset _ _ _ => [.events, .stats, .free, .reset, .sessions, .osc, .keyPort]
  | .islEngineReset _ _ _ => [.events, .stats, .free, .reset, .sessions, .isl, .keyPort]
  | .alarmUnitReset _ _ _ => [.events, .stats, .free, .reset, .sessions, .out, .keyPort]
  | .acqReset _ _ _ => [.events, .stats, .free, .reset, .sessions, .acq, .keyPort]
  | .hedgerowReset _ _ _ => [.events, .stats, .free, .reset, .sessions, .acq, .bus, .hr, .keyPort]
  | .clusterReset _ _ _ _ => [.events, .stats, .free, .reset, .sessions, .sched, .ingest, .out, .keyPort]
  | .timebaseServoReset _ _ _ => [.events, .stats, .free, .reset, .time, .sessions, .keyPort]
  | .recorderReadersReset _ _ _ => [.events, .stats, .free, .reset, .sessions, .keyPort]
  | .keyPortReset _ _ _ => [.events, .stats, .free, .reset, .sessions, .keyPort]
  | .updateEngineReset _ _ _ => [.events, .stats, .free, .reset, .sessions, .upd, .keyPort]
  | .coppiceReset _ _ _ => [.events, .stats, .free, .reset, .sessions, .sched, .cop, .keyPort]
  | .wholeDeviceReset _ _ _ => [.events, .stats, .free, .reset, .sessions, .keyPort]
  | .unitResetComplete _ _ => [.events, .stats, .reset, .sched, .acq, .align, .hr, .alarm, .goose, .osc, .isl]
  | .sourceQualified _ _ _ => [.events, .stats, .free, .request, .journal, .time, .commits, .queues, .sched, .acq, .bus, .align, .hr]
  | .sourceDisqualified _ _ => [.events, .stats, .free, .request, .journal, .time, .commits, .queues, .sched, .acq, .bus, .align, .hr]
  | .servoLocked _ => [.events, .time]
  | .holdoverUpdate _ => [.events, .time]
  | .unlockedClassStep _ => [.time]
  | .setTime _ _ _ => [.events, .stats, .free, .request, .journal, .time, .commits, .sessions, .queues, .sched, .acq, .bus, .align, .hr, .keyPort]
  | .refClkLost _ => [.events, .free, .time]
  | .refClkRestored _ _ => [.events, .stats, .free, .request, .journal, .time, .commits, .queues, .sched, .acq, .bus, .align, .hr]
  | .ptpFrameReceive _ _ => [.events, .stats, .free, .request, .journal, .time, .commits, .queues, .sched, .port, .acq, .bus, .align, .hr]
  | .ptpReceiptTimeout _ _ => [.events, .stats, .free, .request, .journal, .time, .commits, .queues, .sched, .acq, .bus, .align, .hr]
  | .ptpTransmit _ _ _ _ _ => [.events, .stats, .free, .time, .queues, .port]
  | .ppsEdge _ _ => [.events, .stats, .free, .request, .journal, .time, .commits, .queues, .sched, .acq, .bus, .align, .hr]
  | .irigbFrame _ _ => [.events, .stats, .free, .request, .journal, .time, .commits, .queues, .sched, .acq, .bus, .align, .hr]
  | .leapPendingStart _ => [.time]
  | .leapOccur _ => [.events, .journal, .stored, .time, .config]
  | .leapOccurredClear _ => [.time]
  | .ppsOutPulse _ => [.time]
  | .frameReceive _ _ _ => [.events, .stats, .free, .queues, .port, .ingest]
  | .ipReassemblyTimeout _ _ _ _ => [.events, .stats, .port]
  | .linkUp _ _ _ _ => [.events, .port]
  | .linkDown _ _ => [.events, .stats, .sessions, .queues, .port]
  | .frameTransmit _ _ => [.events, .stats, .free, .sessions, .queues, .port]
  | .tcpSendOffload _ _ _ => [.events, .stats, .queues, .port]
  | .udpSendOffload _ _ _ => [.events, .stats, .queues, .port]
  | .pauseReceive _ _ _ _ _ => [.events, .stats, .port]
  | .pauseExpire _ _ => [.events, .stats, .port]
  | .pauseWatchdogTrip _ _ => [.events, .stats, .port]
  | .pauseHoldoffEnd _ _ => [.port]
  | .c37DataFrame _ _ => [.events, .stats, .free, .queues, .sched, .acq, .bus, .ingest, .slots, .align, .hr]
  | .c37CfgFrame _ _ => [.events, .stats, .free, .queues, .sched, .acq, .bus, .ingest, .slots, .align, .hr]
  | .c37HeaderFrame _ _ => [.events, .stats, .free, .queues, .sched, .acq, .bus, .ingest, .slots, .align, .hr]
  | .ingestTcpConnect _ _ => [.events, .stats, .free, .queues, .ingest]
  | .ingestTcpLost _ _ => [.events, .stats, .ingest]
  | .ingestRetry _ _ => [.events, .stats, .free, .queues, .ingest]
  | .svFrameReceive _ _ => [.events, .stats, .acq, .bus, .ingest, .chain, .alarm]
  | .streamLost _ _ _ => [.events, .ingest, .chain]
  | .estimatorReport _ _ => [.events, .stats, .free, .queues, .sched, .acq, .bus, .ingest, .slots, .chain, .align, .hr]
  | .setOpen _ _ => [.events, .stats, .free, .queues, .sched, .acq, .bus, .align, .hr]
  | .setDeadline _ _ _ => [.events, .stats, .free, .queues, .sched, .acq, .bus, .align, .hr]
  | .setProvisionalDeadline _ _ _ => [.events, .stats, .free, .queues, .sched, .acq, .bus, .align, .hr]
  | .clearLearnedLatency _ _ _ => [.events, .stats, .sessions, .align, .keyPort]
  | .oscSetIntake _ _ => [.events, .stats, .hr, .alarm, .goose, .osc]
  | .oscUpdate _ _ => [.events, .stats, .hr, .alarm, .osc]
  | .foEvaluation _ _ => [.events, .stats, .hr, .alarm, .osc]
  | .oscRestartRequest _ _ _ => [.events, .stats, .sessions, .hr, .alarm, .goose, .osc, .keyPort]
  | .islFinalReport _ => [.events, .stats, .hr, .alarm, .goose, .isl]
  | .islProvisionalRun _ => [.events, .stats, .alarm, .isl]
  | .islRestartRequest _ _ _ => [.events, .stats, .sessions, .hr, .alarm, .goose, .isl, .keyPort]
  | .alarmProvisionalDecision _ _ => [.events, .stats, .hr, .alarm, .goose]
  | .alarmFinalReport _ _ => [.events, .stats, .hr, .alarm, .goose]
  | .alarmPulseEnd _ _ => [.events, .stats, .hr, .alarm, .goose]
  | .alarmAcknowledge _ _ _ => [.events, .stats, .sessions, .hr, .alarm, .goose, .keyPort]
  | .releaseFrozenAlarms _ _ _ => [.events, .stats, .sessions, .hr, .alarm, .goose, .keyPort]
  | .gooseFrameBuild _ _ => [.events, .stats, .free, .queues, .goose, .keyPort]
  | .gooseRetransmit _ _ => [.events, .stats, .free, .queues, .goose, .keyPort]
  | .gooseValueEvaluate _ _ => [.goose]
  | .outCmdTurnOff _ _ _ => [.events, .stats, .free, .queues, .sched, .port, .out]
  | .outCmdTurnOn _ _ _ => [.events, .stats, .free, .queues, .sched, .port, .out]
  | .outCmdSendHeader _ _ _ => [.events, .stats, .free, .queues, .sched, .port, .out]
  | .outCmdSendCfg1 _ _ _ => [.events, .stats, .free, .queues, .sched, .port, .out]
  | .outCmdSendCfg2 _ _ _ => [.events, .stats, .free, .queues, .sched, .port, .out]
  | .outCmdSendCfg3 _ _ _ => [.events, .stats, .free, .queues, .sched, .port, .out]
  | .outCmdUnknown _ _ _ _ => [.events, .stats, .free, .queues, .sched, .port, .out]
  | .outClientConnect _ _ _ _ => [.events, .stats, .out]
  | .outClientDisconnect _ _ => [.events, .out]
  | .outDataFrame _ _ => [.events, .stats, .out]
  | .outFrameHandoff _ _ => [.events, .stats, .free, .queues, .sched, .port, .out]
  | .dinEdge _ _ _ _ => [.events, .stats, .acq]
  | .dinEdgeAccept _ _ => [.events, .stats, .acq, .bus]
  | .triggerTimeout _ _ => [.events, .stats, .acq, .bus]
  | .recordOpen _ _ => [.events, .stats, .acq, .reader]
  | .recordClose _ _ => [.events, .stats, .acq]
  | .readerRead _ _ _ _ _ _ => [.events, .stats, .sessions, .reader, .keyPort]
  | .readerAdvance _ _ _ _ => [.events, .stats, .sessions, .reader, .keyPort]
  | .readerRewind _ _ _ _ => [.events, .stats, .sessions, .reader, .keyPort]
  | .readerSetSequence _ _ _ _ => [.events, .stats, .sessions, .reader, .keyPort]
  | .readerSetMark _ _ _ _ => [.events, .stats, .sessions, .reader, .keyPort]
  | .readerFlagsRead _ _ _ => [.events, .stats, .sessions, .reader, .keyPort]
  | .exportEnable _ _ _ _ => [.events, .stats, .sessions, .reader, .keyPort]
  | .armGroup _ _ _ => [.events, .stats, .sessions, .acq, .keyPort]
  | .disarmGroup _ _ _ => [.events, .stats, .sessions, .acq, .keyPort]
  | .cycleStart _ => [.events, .bus, .hr]
  | .cycleHeaderReceive _ _ _ => [.events, .stats, .acq, .bus, .hr]
  | .workerBurst _ _ => [.events, .stats, .bus, .hr]
  | .burstReceive _ _ _ _ => [.events, .hr]
  | .rangingResponse _ _ _ _ _ => [.events, .stats, .hr]
  | .driveFrame _ _ _ _ _ => [.events, .stats, .acq, .bus, .hr]
  | .offsetReport _ _ _ _ _ _ => [.events, .stats, .hr]
  | .setFragment _ _ _ => [.events, .stats, .free, .queues, .sched, .acq, .bus, .slots, .align, .hr]
  | .summaryFrame _ _ _ => [.events, .stats, .hr]
  | .laneLoss _ _ => [.events, .hr]
  | .workerLost _ _ => [.events, .hr]
  | .managerLost _ => [.events, .stats, .acq, .bus, .hr]
  | .triggerLineFall _ _ => [.events, .stats, .acq, .bus]
  | .offsetClear _ _ => [.events, .hr]
  | .slotFrame _ _ _ => [.events, .fence, .stats, .free, .reset, .mode, .journal, .time, .sessions, .previous, .queues, .store, .sched, .port, .acq, .bus, .ingest, .chain, .align, .hr, .alarm, .goose, .out, .keyPort, .osc, .isl, .cop, .upd, .recFlash, .recFault]
  | .queuePop _ _ _ => [.events, .stats, .free, .reset, .time, .sessions, .queues, .store, .sched, .port, .acq, .bus, .ingest, .chain, .align, .hr, .alarm, .goose, .out, .keyPort, .osc, .isl, .cop, .upd, .recFlash, .recFault]
  | .queueRefill _ _ _ => [.events, .stats, .free, .reset, .time, .sessions, .queues, .store, .sched, .port, .acq, .bus, .ingest, .chain, .align, .hr, .alarm, .goose, .out, .keyPort, .osc, .isl, .cop, .upd, .recFlash, .recFault]
  | .scrubPassEnd _ _ => [.events, .stats, .free, .reset, .time, .sessions, .queues, .store, .sched, .port, .acq, .bus, .ingest, .chain, .align, .hr, .alarm, .goose, .out, .keyPort, .osc, .isl, .cop, .upd, .recFlash, .recFault]
  | .rowRepair _ _ _ => [.events, .fence, .stats, .free, .mode, .journal, .time, .previous, .queues, .store, .sched, .port, .acq, .ingest, .chain, .align, .hr, .alarm, .goose, .out, .osc, .isl, .cop]
  | .clearHighWater _ _ _ => [.events, .stats, .sessions, .queues, .keyPort]
  | .taskPeriod _ _ => [.events, .stats, .sched]
  | .taskYield _ _ => [.events, .stats, .sched]
  | .sliceExpire _ _ => [.events, .stats, .sched]
  | .taskAgeRise _ _ => [.events, .stats, .sched]
  | .waitBoundExceeded _ _ => [.events, .fence, .stats, .free, .mode, .journal, .time, .previous, .queues, .sched, .port, .acq, .ingest, .chain, .align, .hr, .alarm, .goose, .out, .osc, .isl, .cop]
  | .coreLoadUpdate _ _ => [.events, .stats, .sched]
  | .schedClear _ _ _ => [.events, .stats, .sessions, .sched, .keyPort]
  | .malformedDatagram _ _ => [.events, .stats, .sessions]
  | .open_ _ _ => [.events, .stats, .free, .sessions, .lockouts, .keyPort]
  | .close _ _ => [.events, .stats, .sessions, .keyPort]
  | .keepalive _ _ => [.events, .stats, .sessions, .keyPort]
  | .rekey _ _ => [.events, .stats, .free, .sessions, .keyPort]
  | .read _ _ _ _ _ _ => [.events, .stats, .free, .sessions, .reader, .keyPort]
  | .describe _ _ _ _ => [.events, .stats, .sessions, .keyPort]
  | .write _ _ _ _ _ => [.events, .irq, .stats, .free, .pace, .power, .mode, .request, .reset, .journal, .time, .commits, .previous, .sessions, .commitQueue, .queues, .store, .sched, .port, .acq, .reader, .bus, .ingest, .chain, .align, .hr, .alarm, .goose, .out, .keys, .life, .keyPort, .keyCmd, .tamper, .osc, .isl, .cop, .upd, .records, .recFlash, .mon]
  | .stageOpen _ _ => [.events, .stats, .sessions, .keyPort]
  | .stageWrite _ _ _ _ _ _ => [.events, .stats, .sessions, .keyPort]
  | .stageCommit _ _ => [.events, .stats, .sessions, .commitQueue, .keyPort]
  | .stageAbort _ _ => [.events, .stats, .sessions, .keyPort]
  | .reportRead _ _ _ _ _ => [.events, .stats, .sessions, .keyPort]
  | .subscribe _ _ _ => [.events, .stats, .sessions, .keyPort]
  | .notifyAck _ _ _ => [.events, .stats, .sessions, .keyPort]
  | .notifySend _ _ => [.events, .stats, .sessions, .keyPort]
  | .notifyRetransmit _ _ => [.events, .stats, .sessions, .keyPort]
  | .sessionIdleTimeout _ _ => [.events, .stats, .sessions]
  | .rekeyDue _ _ => [.sessions]
  | .rekeyDeadline _ _ => [.events, .stats, .sessions]
  | .oldKeyExpire _ _ => [.sessions]
  | .authLockoutEnd _ _ => [.lockouts]
  | .snapshotExpire _ _ => [.sessions]
  | .stagingTimeout _ _ => [.events, .stats, .sessions]
  | .topiaryCheck _ => [.free, .commitQueue]
  | .commitAccept _ => [.events, .irq, .stats, .free, .mode, .request, .reset, .journal, .stored, .time, .config, .commits, .previous, .sessions, .commitQueue, .queues, .sched, .port, .acq, .reader, .bus, .ingest, .slots, .chain, .align, .hr, .alarm, .goose, .out, .osc, .isl, .cop, .upd, .records, .recFlash, .recFault]
  | .stickyFlagClear _ _ _ _ _ => [.events, .stats, .sessions, .store, .keyPort]
  | .keyImportWrapped _ _ _ _ => [.events, .stats, .free, .sessions, .keyCmd, .keyPort]
  | .keyImportClear _ _ _ => [.events, .stats, .free, .sessions, .keyCmd, .keyPort]
  | .keyImportPublic _ _ _ _ => [.events, .stats, .free, .sessions, .keyCmd, .keyPort]
  | .keyDerive _ _ _ => [.events, .stats, .free, .sessions, .keyCmd, .keyPort]
  | .keyUpdate _ _ _ _ => [.events, .stats, .free, .sessions, .keyCmd, .keyPort]
  | .keyRevoke _ _ _ => [.events, .stats, .free, .sessions, .keyCmd, .keyPort]
  | .keyDestroy _ _ _ => [.events, .stats, .free, .sessions, .keyCmd, .keyPort]
  | .keyCommandComplete _ _ => [.events, .stats, .free, .sessions, .keys, .keyPort, .keyCmd]
  | .generateRoot _ _ _ _ _ => [.events, .stats, .free, .sessions, .keys, .tamper, .keyPort]
  | .lifecycleToProvisioned _ _ _ => [.events, .stats, .free, .mode, .request, .journal, .previous, .sessions, .commitQueue, .queues, .sched, .acq, .ingest, .chain, .align, .hr, .alarm, .goose, .out, .keys, .life, .keyPort, .keyCmd, .osc, .isl, .cop]
  | .lifecycleToOperational _ _ _ => [.events, .stats, .free, .mode, .request, .journal, .previous, .sessions, .commitQueue, .queues, .sched, .acq, .ingest, .chain, .align, .hr, .alarm, .goose, .out, .keys, .life, .keyPort, .keyCmd, .osc, .isl, .cop]
  | .lifecycleToRma _ _ _ => [.events, .stats, .free, .mode, .request, .journal, .previous, .sessions, .commitQueue, .queues, .sched, .acq, .ingest, .chain, .align, .hr, .alarm, .goose, .out, .keys, .life, .keyPort, .keyCmd, .osc, .isl, .cop]
  | .lifecycleToScrapped _ _ _ => [.events, .stats, .free, .mode, .request, .journal, .previous, .sessions, .commitQueue, .queues, .sched, .acq, .ingest, .chain, .align, .hr, .alarm, .goose, .out, .keys, .life, .keyPort, .keyCmd, .osc, .isl, .cop]
  | .tamperAssert _ _ => [.events, .stats, .free, .mode, .request, .journal, .previous, .sessions, .commitQueue, .queues, .sched, .acq, .ingest, .chain, .align, .hr, .alarm, .goose, .out, .keys, .keyPort, .keyCmd, .tamper, .osc, .isl, .cop]
  | .keyAreaEraseComplete _ => [.keys, .keyCmd]
  | .remaskStep _ _ => [.events, .stats, .free, .sessions, .keys, .keyCmd]
  | .manifestWrite _ _ _ _ => [.events, .stats, .free, .sessions, .upd, .keyPort]
  | .chunkWrite _ _ _ _ => [.events, .stats, .sessions, .upd, .keyPort]
  | .partReadback _ _ _ => [.events, .stats, .keyPort, .upd]
  | .activate _ _ _ => [.events, .stats, .power, .request, .journal, .sessions, .upd, .keyPort]
  | .activationCommit _ => [.events, .stats, .power, .journal, .upd, .records, .recFlash]
  | .confirm _ _ _ => [.events, .stats, .request, .sessions, .upd, .keyPort]
  | .rejectTrial _ _ _ => [.events, .stats, .power, .request, .journal, .sessions, .upd, .records, .recFlash, .keyPort]
  | .trialWindowExpire _ => [.events, .stats, .power, .request, .journal, .upd, .records, .recFlash]
  | .releaseLock _ _ _ => [.events, .stats, .sessions, .upd, .keyPort]
  | .lockLapse _ => [.events, .upd]
  | .quicksetRestart _ _ _ => [.events, .stats, .power, .journal, .sessions, .keyPort]
  | .securityVersionStep _ => [.events, .upd]
  | .handoverStart _ _ _ => [.events, .stats, .sched, .cop]
  | .handoverComplete _ _ _ => [.events, .stats, .cop]
  | .sliceStart _ _ _ => [.cop]
  | .coppiceSliceEnd _ _ _ _ => [.events, .fence, .stats, .free, .mode, .journal, .time, .previous, .sessions, .queues, .sched, .port, .acq, .ingest, .chain, .align, .hr, .alarm, .goose, .out, .osc, .isl, .cop]
  | .sliceYield _ _ => [.events, .stats, .sched, .cop]
  | .sliceResume _ _ => [.cop]
  | .fuseProgram _ _ => [.events, .stats, .cop]
  | .testNow _ _ _ => [.events, .stats, .sessions, .cop, .keyPort]
  | .rotationPeriodEnd _ => [.events, .stats, .cop]
  | .journalPageProgram _ _ => [.events, .free, .records, .recFlash, .recFault]
  | .recorderScrub _ _ _ => [.events, .stats, .recFlash, .recFault]
  | .monitorSample _ _ _ => [.events, .stats, .free, .mode, .request, .journal, .previous, .sessions, .commitQueue, .queues, .sched, .acq, .ingest, .chain, .align, .hr, .alarm, .goose, .out, .keys, .keyPort, .keyCmd, .tamper, .osc, .isl, .cop, .mon]
  | .thermalShutdown _ _ => [.power]
  | .thermalRecovery _ _ => [.power]
  | .clearHighestTj _ _ _ => [.events, .stats, .sessions, .mon, .keyPort]
  | .irqClear _ _ _ => [.events, .irq, .stats, .sessions, .keyPort]
  | .tamperDeassert _ _ => [.tamper]
  | .trngOutput _ _ _ => [.events, .tamper]
  | .jtagInstruction _ _ => [.jtag]
  | .uartFrameCrcFail _ => [.events, .stats, .sessions]

/-! ## Words the statements share -/

/-- The latch of an event source holds an occurrence. -/
def Latched (s : State) (id inst : Nat) : Prop := ∃ e ∈ s.ev.latch, e.id = id ∧ e.inst = inst

/-- The device takes a message of session `x`, of a type and with a payload: it comes by the session's way, the way reaches the
server, the request port takes the class B request of the message and finds the session's credential fit, and the number is
new, under the key in force or, while it is still taken, under the one before, which the tag verifies under (R411, R415, R416,
R447). -/
abbrev Takes (s : State) (m : Msg) (x : Session) (type : Nat) (payload : Bytes) : Prop :=
  s.viaOk m.via = true ∧ s.session m.sid = some x ∧ x.uart = viaUart m.via ∧ (x.anon = true ∨ s.portBusy 1 = false) ∧ s.credOk x = true ∧
    ((x.authOf m type payload = .current ∧ seqNew x.hi x.seen m.seq = true) ∨
      (x.authOf m type payload = .previous ∧ x.oldUntil.any (fun u => decide (s.elapsed < u)) = true ∧ seqNew x.oldHi x.oldSeen m.seq = true))

/-- The message is a WRITE of `v` to an object, and its checks take it as the value `n` (R420). -/
abbrev TakesWrite (s : State) (m : Msg) (x : Session) (idx sub : Nat) (v : List (BitVec 8)) (n : Nat) : Prop :=
  Takes s m x 0x12 (objPayload idx sub (zeros 1 ++ v)) ∧ s.checkWrite x idx sub v = (stOk, n)

/-- The response that went out answers the message with a status. -/
def Answered (t : State) (m : Msg) (x : Session) (type status : Nat) : Prop :=
  ∃ r, t.osr.resp = some r ∧ r.sid = x.id ∧ r.type = type ∧ r.tag = m.tag ∧ r.seq = x.txSeq ∧ r.status = status

/-- A C37.118 frame of a kind that passes checks 1 to 3 (R140): its sync byte, kind and version; its size; its check word. -/
abbrev SoundC37 (x : C37Rx) (kind : Nat) : Prop :=
  16 ≤ x.bytes.length ∧ field x.bytes 0 1 = 0xAA ∧ field x.bytes 1 1 / 16 % 8 = kind ∧ field x.bytes 2 2 = x.bytes.length ∧
    ((field x.bytes 1 1 % 16 = 1 ∧ kind < 5) ∨ (field x.bytes 1 1 % 16 = 2 ∧ kind ≤ 5)) ∧
    crc16 x.bytes.dropLast.dropLast = field x.bytes (x.bytes.length - 2) 2

/-- Nothing but the parts named differs, and the clock, which runs for `dt` ns. -/
def OnlyParts (s : State) (dt : Nat) (ps : List Part) (t : State) : Prop :=
  (∃ u, t = s.within ps u) ∧ t.time.elapsed = s.time.elapsed + dt

/-- A step of a run: the first command of the queue is taken, and the state stays canonical. -/
def safeStep (s : State) : Prop := ∃ t, step s = .next t ∧ (s.canonical = true → t.canonical = true) ∧ t.pending = s.pending.tail ∧ t.variant = s.variant

/-- A safe run: `n` steps from `s`, each of them safe. -/
def safeRun : Nat → State → Prop
  | 0, _ => True
  | n + 1, s => safeStep s ∧ ∀ t, step s = .next t → safeRun n t

end Sys2Proof.Machine
end

