-- ==== Sys2Proof/WellFormed.lean ====
section
/-! DEFINITION. Which commands are well formed: every number fits the field or the count the manual gives it. A meaning is
total and does not ask for it; statements about what can arrive do. -/
namespace Sys2Proof

def below (n bound : Nat) : Bool := decide (n < bound)

/-- A way in: a port of the device with 32-bit address and 16-bit UDP port, or the UART (R411, R434). -/
def Via.wf (v : Via) : Bool :=
  match v with
  | .port p ip udp => below p 6 && below ip (2 ^ 32) && below udp 65536
  | .uart => true

/-- The header of a message (R412). -/
def Msg.wf (m : Msg) : Bool := below m.sid (2 ^ 32) && below m.seq (2 ^ 32) && below m.tag 65536 && m.via.wf
def OpenMsg.wf (m : OpenMsg) : Bool := below m.slot 65536 && below m.role 256 && below m.tag 65536 && decide (m.nonce.length = 16) && m.via.wf

def RekeyMsg.wf (m : RekeyMsg) : Bool := m.head.wf && decide (m.nonce.length = 16)

/-- A value in a payload of at most 1424 bytes, after its 4 bytes of address (R412, R413). -/
def valueWf (v : List (BitVec 8)) : Bool := decide (v.length ≤ 1420)

def optWf {α : Type} (x : Option α) (f : α → Bool) : Bool := match x with | some a => f a | none => true

/-- A key request (R30): its handle; an initialisation vector of 96 bits for GCM; a tag or signature of the length its operation has, and a
signature always. -/
def KeyReq.wf (r : KeyReq) : Bool :=
  below r.handle 65536 && (if r.op = .gooseGcm then decide (r.iv.length = 12) else r.iv.isEmpty) &&
    optWf r.mac (fun t => decide (t.length = if r.op = .manifestVerify then 96 else if r.op = .gooseHmac || r.op = .chunkHash then 32 else 16)) &&
    (r.op != .manifestVerify || r.mac.isSome)

/-- What a start finds: tamper sources (R462) and key slots. -/
def StartIn.wf (i : StartIn) : Bool := below i.tamper 32 && i.keyDamage.all (fun x => below x.1 512 && below x.2 2)

/-- The payload of an Osrider datagram is that of a UDP datagram (R411). -/
def Datagram.wf (d : Datagram) : Bool := d.via.wf && below d.bytes.length 65508

/-- What a tamper source sees (R461, R462). -/
def TamperIn.wf (t : TamperIn) : Bool := match t with
  | .rail _ mv _ => below mv 65536
  | .line _ _ | .junction _ _ | .glitch _ _ | .refClock _ => true

/-- Signature and co-signature of a manifest (R470). -/
def Sigs.wf (c : Sigs) : Bool := decide (c.sig.length = 96) && decide (c.coSig.length = 96)

/-- The data set of a grandmaster (R82). -/
def PtpDs.wf (x : PtpDs) : Bool :=
  below x.priority1 256 && below x.clockClass 256 && below x.accuracy 256 && below x.variance 65536 && below x.priority2 256 && below x.gmId (2 ^ 64) &&
    below x.steps 65536
def PtpMsg.wf (f : PtpMsg) : Bool :=
  below f.port 6 && below f.msgType 16 && below f.domain 256 && below f.seqId 65536 && below f.sender (2 ^ 80) && f.ds.wf && below f.leap 3

/-- An IRIG-B frame (R81): a day of the year, a second of the day with its leap second, a year of the century. -/
def IrigFrame.wf (f : IrigFrame) : Bool :=
  decide (1 ≤ f.day) && below f.day 367 && below f.second 86401 && optWf f.ext (fun x => below x.year 100 && below x.leap 3 && below x.quality 16)

/-- A frame as it stands on the wire (R108 to R116). -/
def Frame.wf (f : Frame) : Bool := below f.bytes.length 65536

/-- A send by offload (R123, R124). -/
def OffloadSend.wf (x : OffloadSend) : Bool := below x.template.length 257 && below x.payload.length 65536 && below x.mss 65536
/-- A C37.118 frame (R137): over UDP a local port, over TCP a context. -/
def C37Rx.wf (x : C37Rx) : Bool :=
  below x.transport 2 && below x.src (2 ^ 32) && below x.port 6 && below x.via (if x.transport = 0 then 65536 else 4096) && below x.bytes.length 65536

/-- A sampled-value frame (R152), with an svID as long as a frame holds. -/
def SvFrame.wf (f : SvFrame) : Bool :=
  below f.appid 65536 && below f.srcMac (2 ^ 48) &&
    f.asdus.all (fun a => below a.smpCnt 65536 && below a.confRev (2 ^ 32) && below a.smpSynch 256 && below a.dataLen 65536 && below a.svId.length 65536)

def CycleHeader.wf (h : CycleHeader) : Bool :=
  below h.cycle 10000 && optWf h.invited (fun w => below w 16) && below h.identity (2 ^ 64) && below h.worker 16 && below h.eqd (2 ^ 32) && below h.dDown (2 ^ 32) &&
    below h.edges.length 65 && h.edges.all (fun e => below e.1 16)
def Summary.wf (x : Summary) : Bool := below x.kind 5 && below x.num 65536 && below x.body.length 6473
def Fragment.wf (f : Fragment) : Bool := below f.index f.count && below f.count 256 && below f.rate 256 && below f.chunk.length 6473
def HrRx.wf (x : HrRx) : Bool := below x.worker 16 && below x.lane 2 && below x.seq (2 ^ 32)

/-- A place in a region of the store (R370). -/
def StoreErr.wf (e : StoreErr) : Bool := below e.region 13 && below e.offset (regionSize e.region * 2 ^ 20)
/-- A word in error with its row of the channel (R378). -/
def ScrubWord.wf (x : ScrubWord) : Bool := x.at_.wf && below x.row (2 ^ 17)
def ScrubReport.wf (r : ScrubReport) : Bool := r.ce.all ScrubWord.wf && r.ue.all ScrubWord.wf
/-- An access of one of the five reserved paths to a granule of the regions charged to it (R369, R370, R372): 64 bytes written, or a
read with what it finds. -/
def StoreAccess.wf (x : StoreAccess) : Bool :=
  below x.path 5 && below x.granule (2 ^ 28) && (regionPaths (regionOf (x.granule / 16384))).contains x.path &&
    optWf x.write (fun d => decide (d.length = 64)) && below x.err 3
/-- What is asked of the arbiter: claims for each of the four channels, and of the six leftover classes on each (R375). -/
def SlotLoad.wf (f : SlotLoad) : Bool :=
  decide (f.mirror.length = 4) && f.classes.all (fun x => below x.1 24) && f.faults.all (fun x => below x.1 6 && below x.2 4)

/-- The handshake rates of the eight rings (R38). -/
def ratesWf (xs : List Nat) : Bool := decide (xs.length = 8) && xs.all (fun x => below x (2 ^ 32))
/-- One measurement of each rail (R533). -/
def railsWf (xs : List Nat) : Bool := decide (xs.length = 7) && xs.all (fun x => below x 65536)

/-- A command is well formed. -/
def Instr.wf (i : Instr) : Bool :=
  match i with
  | .paceWindow _ rates => ratesWf rates
  | .paceDeficit _ => true
  | .clearLowestMargin _ m v => m.wf && valueWf v
  | .configEffective _ => true
  | .previousConfigRelease _ => true
  | .eventRaise _ id inst _ => below id 256 && below inst 65536
  | .eventHandover _ => true
  | .keyRequest _ r => r.wf
  | .keyRequestComplete _ _ => true
  | .railGood _ _ mV => below mV 65536
  | .railFail _ _ mV => below mV 65536
  | .resetNAssert _ _ => true
  | .resetNRelease _ => true
  | .startUp _ i => i.wf
  | .bootTimeout _ => true
  | .bootRetry _ => true
  | .pwrFail _ _ => true
  | .pwrFailQuiesced _ => true
  | .pwrRestored _ => true
  | .configJournalFlush _ => true
  | .modeRequestQuickset _ m => m.wf
  | .modeRequestConfigure _ m => m.wf
  | .modeRequestStandby _ m => m.wf
  | .modeRequestOperate _ m => m.wf
  | .modeRequestSafe _ m => m.wf
  | .modeRequestZeroize _ m => m.wf
  | .operateStart _ => true
  | .stopInstant _ => true
  | .outputsStop _ => true
  | .degradedReturn _ => true
  | .deviceResetBegin _ => true
  | .portReset _ m p v => m.wf && below p 6 && valueWf v
  | .ingestReset _ m v => m.wf && valueWf v
  | .chainReset _ m v => m.wf && valueWf v
  | .alignmentReset _ m v => m.wf && valueWf v
  | .oscEngineReset _ m v => m.wf && valueWf v
  | .islEngineReset _ m v => m.wf && valueWf v
  | .alarmUnitReset _ m v => m.wf && valueWf v
  | .acqReset _ m v => m.wf && valueWf v
  | .hedgerowReset _ m v => m.wf && valueWf v
  | .clusterReset _ m c v => m.wf && below c 4 && valueWf v
  | .timebaseServoReset _ m v => m.wf && valueWf v
  | .recorderReadersReset _ m v => m.wf && valueWf v
  | .keyPortReset _ m v => m.wf && valueWf v
  | .updateEngineReset _ m v => m.wf && valueWf v
  | .coppiceReset _ m v => m.wf && valueWf v
  | .wholeDeviceReset _ m v => m.wf && valueWf v
  | .unitResetComplete _ sub => below sub 25
  | .sourceQualified _ src _ => below src 9
  | .sourceDisqualified _ src => below src 9
  | .servoLocked _ => true
  | .holdoverUpdate _ => true
  | .unlockedClassStep _ => true
  | .setTime _ m v => m.wf && valueWf v
  | .refClkLost _ => true
  | .refClkRestored _ _ => true
  | .ptpFrameReceive _ f => f.wf
  | .ptpReceiptTimeout _ port => below port 6
  | .ptpTransmit _ port msgType domain seqId => below port 6 && below msgType 16 && below domain 256 && below seqId 65536
  | .ppsEdge _ _ => true
  | .irigbFrame _ f => f.wf
  | .leapPendingStart _ => true
  | .leapOccur _ => true
  | .leapOccurredClear _ => true
  | .ppsOutPulse _ => true
  | .frameReceive _ p f => below p 6 && f.wf
  | .ipReassemblyTimeout _ p src ident => below p 6 && below src (2 ^ 32) && below ident 65536
  | .linkUp _ p rate _ => below p 6 && below rate 5
  | .linkDown _ p => below p 6
  | .frameTransmit _ p => below p 6
  | .tcpSendOffload _ p x => below p 6 && x.wf
  | .udpSendOffload _ p x => below p 6 && x.wf
  | .pauseReceive _ p dst opcode quanta => below p 6 && below dst (2 ^ 48) && below opcode 65536 && below quanta 65536
  | .pauseExpire _ p => below p 6
  | .pauseWatchdogTrip _ p => below p 6
  | .pauseHoldoffEnd _ p => below p 6
  | .c37DataFrame _ x => x.wf
  | .c37CfgFrame _ x => x.wf
  | .c37HeaderFrame _ x => x.wf
  | .ingestTcpConnect _ ctx => below ctx 4096
  | .ingestTcpLost _ ctx => below ctx 4096
  | .ingestRetry _ ctx => below ctx 4096
  | .svFrameReceive _ f => f.wf
  | .streamLost _ _ k => below k 4096
  | .estimatorReport _ e => below e 256
  | .setOpen _ g => below g 16
  | .setDeadline _ g _ => below g 16
  | .setProvisionalDeadline _ g _ => below g 16
  | .clearLearnedLatency _ m v => m.wf && valueWf v
  | .oscSetIntake _ g => below g 16
  | .oscUpdate _ g => below g 16
  | .foEvaluation _ g => below g 16
  | .oscRestartRequest _ m v => m.wf && valueWf v
  | .islFinalReport _ => true
  | .islProvisionalRun _ => true
  | .islRestartRequest _ m v => m.wf && valueWf v
  | .alarmProvisionalDecision _ a => below a 512
  | .alarmFinalReport _ a => below a 512
  | .alarmPulseEnd _ a => below a 512
  | .alarmAcknowledge _ m v => m.wf && valueWf v
  | .releaseFrozenAlarms _ m v => m.wf && valueWf v
  | .gooseFrameBuild _ p => below p 64
  | .gooseRetransmit _ p => below p 64
  | .gooseValueEvaluate _ p => below p 64
  | .outCmdTurnOff _ n src => below n 256 && below src (2 ^ 32)
  | .outCmdTurnOn _ n src => below n 256 && below src (2 ^ 32)
  | .outCmdSendHeader _ n src => below n 256 && below src (2 ^ 32)
  | .outCmdSendCfg1 _ n src => below n 256 && below src (2 ^ 32)
  | .outCmdSendCfg2 _ n src => below n 256 && below src (2 ^ 32)
  | .outCmdSendCfg3 _ n src => below n 256 && below src (2 ^ 32)
  | .outCmdUnknown _ n src cmd => below n 256 && below src (2 ^ 32) && below cmd 65536
  | .outClientConnect _ n ip tcpPort => below n 256 && below ip (2 ^ 32) && below tcpPort 65536
  | .outClientDisconnect _ n => below n 256
  | .outDataFrame _ n => below n 256
  | .outFrameHandoff _ n => below n 256
  | .dinEdge _ d _ frac => below d 16 && below frac 8
  | .dinEdgeAccept _ d => below d 16
  | .triggerTimeout _ u => below u 64
  | .recordOpen _ g => below g 16
  | .recordClose _ g => below g 16
  | .readerRead _ m r sub offset maxLen => m.wf && below r 8 && below sub 256 && below offset (2 ^ 32) && below maxLen 65536
  | .readerAdvance _ m r v => m.wf && below r 8 && valueWf v
  | .readerRewind _ m r v => m.wf && below r 8 && valueWf v
  | .readerSetSequence _ m r v => m.wf && below r 8 && valueWf v
  | .readerSetMark _ m r v => m.wf && below r 8 && valueWf v
  | .readerFlagsRead _ m r => m.wf && below r 8
  | .exportEnable _ m r v => m.wf && below r 8 && valueWf v
  | .armGroup _ m v => m.wf && valueWf v
  | .disarmGroup _ m v => m.wf && valueWf v
  | .cycleStart _ => true
  | .cycleHeaderReceive _ lane h => below lane 2 && h.wf
  | .workerBurst _ lane => below lane 2
  | .burstReceive _ lane w _ => below lane 2 && below w 16
  | .rangingResponse _ w identity lane seq => below w 16 && below identity (2 ^ 64) && below lane 2 && optWf seq (fun q => below q (2 ^ 32))
  | .driveFrame _ rx line _ _ => rx.wf && below line 16
  | .offsetReport _ rx _ _ _ _ => rx.wf
  | .setFragment _ rx f => rx.wf && f.wf
  | .summaryFrame _ rx x => rx.wf && x.wf
  | .laneLoss _ lane => below lane 2
  | .workerLost _ w => below w 16
  | .managerLost _ => true
  | .triggerLineFall _ line => below line 16
  | .offsetClear _ w => below w 16
  | .slotFrame _ accesses f => accesses.all StoreAccess.wf && f.wf
  | .queuePop _ q ue => below q 512 && optWf ue StoreErr.wf
  | .queueRefill _ q ue => below q 512 && optWf ue StoreErr.wf
  | .scrubPassEnd _ r => r.wf
  | .rowRepair _ channel row => below channel 4 && below row (2 ^ 17)
  | .clearHighWater _ m v => m.wf && valueWf v
  | .taskPeriod _ t => below t 4096
  | .taskYield _ core => below core 32
  | .sliceExpire _ core => below core 32
  | .taskAgeRise _ t => below t 4096
  | .waitBoundExceeded _ t => below t 4096
  | .coreLoadUpdate _ core => below core 32
  | .schedClear _ m v => m.wf && valueWf v
  | .malformedDatagram _ d => d.wf
  | .open_ _ m => m.wf
  | .close _ m => m.wf
  | .keepalive _ m => m.wf
  | .rekey _ m => m.wf
  | .read _ m idx sub offset maxLen => m.wf && below idx 65536 && below sub 256 && below offset (2 ^ 32) && below maxLen 65536
  | .describe _ m idx sub => m.wf && below idx 65536 && below sub 256
  | .write _ m idx sub v => m.wf && below idx 65536 && below sub 256 && valueWf v
  | .stageOpen _ m => m.wf
  | .stageWrite _ m idx sub offset v => m.wf && below idx 65536 && below sub 256 && below offset (2 ^ 32) && valueWf v
  | .stageCommit _ m => m.wf
  | .stageAbort _ m => m.wf
  | .reportRead _ m _ offset maxLen => m.wf && below offset (2 ^ 32) && below maxLen 65536
  | .subscribe _ m on => m.wf && below on 256
  | .notifyAck _ m echo => m.wf && below echo (2 ^ 32)
  | .notifySend _ sid => below sid (2 ^ 32)
  | .notifyRetransmit _ sid => below sid (2 ^ 32)
  | .sessionIdleTimeout _ sid => below sid (2 ^ 32)
  | .rekeyDue _ sid => below sid (2 ^ 32)
  | .rekeyDeadline _ sid => below sid (2 ^ 32)
  | .oldKeyExpire _ sid => below sid (2 ^ 32)
  | .authLockoutEnd _ ip => below ip (2 ^ 32)
  | .snapshotExpire _ sid => below sid (2 ^ 32)
  | .stagingTimeout _ sid => below sid (2 ^ 32)
  | .topiaryCheck _ => true
  | .commitAccept _ => true
  | .stickyFlagClear _ m idx sub v => m.wf && below idx 65536 && below sub 256 && valueWf v
  | .keyImportWrapped _ m v data => m.wf && valueWf (v ++ data)
  | .keyImportClear _ m v => m.wf && valueWf v
  | .keyImportPublic _ m v data => m.wf && valueWf (v ++ data)
  | .keyDerive _ m v => m.wf && valueWf v
  | .keyUpdate _ m v data => m.wf && valueWf (v ++ data)
  | .keyRevoke _ m v => m.wf && valueWf v
  | .keyDestroy _ m v => m.wf && valueWf v
  | .keyCommandComplete _ _ => true
  | .generateRoot _ m v draws _ => m.wf && valueWf v && decide (draws.length = 3)
  | .lifecycleToProvisioned _ m v => m.wf && valueWf v
  | .lifecycleToOperational _ m v => m.wf && valueWf v
  | .lifecycleToRma _ m v => m.wf && valueWf v
  | .lifecycleToScrapped _ m v => m.wf && valueWf v
  | .tamperAssert _ src => src.wf
  | .keyAreaEraseComplete _ => true
  | .remaskStep _ slot => below slot 612
  | .manifestWrite _ m v c => m.wf && valueWf (v ++ c.sig ++ c.coSig) && c.wf
  | .chunkWrite _ m v data => m.wf && valueWf (v ++ data)
  | .partReadback _ part data => below part 16 && below data.length (2 ^ 32)
  | .activate _ m v => m.wf && valueWf v
  | .activationCommit _ => true
  | .confirm _ m v => m.wf && valueWf v
  | .rejectTrial _ m v => m.wf && valueWf v
  | .trialWindowExpire _ => true
  | .releaseLock _ m v => m.wf && valueWf v
  | .lockLapse _ => true
  | .quicksetRestart _ m v => m.wf && valueWf v
  | .securityVersionStep _ => true
  | .handoverStart _ unit lane => below unit 20 && below lane 64
  | .handoverComplete _ unit _ => below unit 20
  | .sliceStart _ unit lane => below unit 20 && below lane 64
  | .coppiceSliceEnd _ unit _ _ => below unit 20
  | .sliceYield _ unit => below unit 20
  | .sliceResume _ unit => below unit 20
  | .fuseProgram _ _ => true
  | .testNow _ m v => m.wf && valueWf v
  | .rotationPeriodEnd _ => true
  | .journalPageProgram _ _ => true
  | .recorderScrub _ corrected _ => below corrected (2 ^ 48)
  | .monitorSample _ _ railsMv => railsWf railsMv
  | .thermalShutdown _ _ => true
  | .thermalRecovery _ _ => true
  | .clearHighestTj _ m v => m.wf && valueWf v
  | .irqClear _ m v => m.wf && valueWf v
  | .tamperDeassert _ src => below src 5
  | .trngOutput _ _ _ => true
  | .jtagInstruction _ _ => true
  | .uartFrameCrcFail f => below f.bytes.length 65536

end Sys2Proof
end

