-- ==== Sys2Proof/Certificates/Slice0/Obligations.lean ====
section
/-! DEFINITION. The statements about the CZ4096, family by family. `s.tick dt` is the state once the clock has run for `dt` ns;
a command of a running device acts on it. Where a statement speaks of an open value it holds for every value. -/
open Sys2Proof Sys2Proof.Machine

/-! ## Osrider sessions (R411 to R434) -/

/-- The timers of a session (R416, R417, R419, R428), each once its time has passed. A session without a message for the time at
0x1050.03 ends with EV_OSR_SESSION, and so does one 60 s after its re-key fell due; no other session changes. A re-key falls due
when the interval at 0x1050.06 has run out, or after 2^30 messages in either direction, whichever comes first. The key before
the last REKEY goes at the end of its time, a snapshot 10 s after its last read. A staging area that is not frozen is discarded
after the time at 0x1050.02 without a message, counted at 0x1080.06 and told with EV_STAGE_ABANDONED; the configuration stays.
A source address is heard again when its lock-out ends, and no other lock-out changes. -/
def Obligations.SessionTimersAct : Prop :=
  (∀ (dt sid : Nat) (s : State) (x : Session), s.runs = true → s.session sid = some x →
    x.lastAt + s.cf.u 0x1050 3 0 2 * 1000000000 ≤ s.elapsed + dt →
    ∃ t, exec (.sessionIdleTimeout dt sid) s = .next t ∧ t.session sid = none ∧ (∀ j, j ≠ sid → t.session j = s.session j) ∧ Latched t 0x0A (sid % 65536)) ∧
  (∀ (dt sid : Nat) (s : State) (x : Session) (at_ : Nat), s.runs = true → s.session sid = some x → x.dueAt = some at_ → at_ + 60000000000 ≤ s.elapsed + dt →
    ∃ t, exec (.rekeyDeadline dt sid) s = .next t ∧ t.session sid = none ∧ (∀ j, j ≠ sid → t.session j = s.session j) ∧ Latched t 0x0A (sid % 65536)) ∧
  (∀ (dt sid : Nat) (s : State) (x : Session), s.runs = true → s.session sid = some x → x.anon = false → x.dueAt = none →
    x.keyAt + s.cf.u 0x1050 6 0 4 * 1000000000 ≤ s.elapsed + dt → x.rx < 2 ^ 30 → x.tx < 2 ^ 30 →
    exec (.rekeyDue dt sid) s = .next ((s.tick dt).setSession { x with dueAt := some (x.keyAt + s.cf.u 0x1050 6 0 4 * 1000000000) })) ∧
  (∀ (dt sid : Nat) (s : State) (x : Session) (at_ : Nat), s.runs = true → s.session sid = some x → x.oldUntil = some at_ → at_ ≤ s.elapsed + dt →
    exec (.oldKeyExpire dt sid) s = .next ((s.tick dt).setSession { x with oldUntil := none, oldKey := none, oldSeen := [], oldHi := 0 })) ∧
  (∀ (dt sid : Nat) (s : State) (x : Session) (p : Snapshot), s.runs = true → s.session sid = some x → x.snap = some p → p.readAt + 10000000000 ≤ s.elapsed + dt →
    exec (.snapshotExpire dt sid) s = .next ((s.tick dt).setSession { x with snap := none })) ∧
  (∀ (dt sid : Nat) (s : State) (x : Session) (a : Staging), s.runs = true → s.session sid = some x → x.stage = some a → a.frozen = false →
    a.lastAt + s.cf.u 0x1050 2 0 2 * 1000000000 ≤ s.elapsed + dt →
    ∃ t, exec (.stagingTimeout dt sid) s = .next t ∧ t.session sid = some { x with stage := none } ∧ t.ctr 0x1080 6 = min (s.ctr 0x1080 6 + 1) ctrMax ∧
      t.cfg = s.cfg ∧ Latched t 0x09 (sid % 65536)) ∧
  (∀ (dt ip at_ : Nat) (s : State), s.runs = true → Table.find s.osr.lockouts ip = some at_ → at_ ≤ s.elapsed + dt →
    ∃ t, exec (.authLockoutEnd dt ip) s = .next t ∧ Table.find t.osr.lockouts ip = none ∧ (∀ j, j ≠ ip → Table.find t.osr.lockouts j = Table.find s.osr.lockouts j)) ∧
  (∀ (dt sid : Nat) (s : State) (x : Session), s.runs = true → s.session sid = some x → x.anon = false → x.dueAt = none → (2 ^ 30 ≤ x.rx ∨ 2 ^ 30 ≤ x.tx) →
    exec (.rekeyDue dt sid) s = .next ((s.tick dt).setSession { x with dueAt := some (min (x.keyAt + s.cf.u 0x1050 6 0 4 * 1000000000) (s.elapsed + dt)) }))

/-- What a running session's messages do (R413, R414, R416, R430). KEEPALIVE is answered OK and counted as a message. CLOSE is
answered OK and then ends the session, and no other, with EV_OSR_SESSION. REKEY is answered OK under the old number with a new
device nonce; the new key is derived from the credential key, the two nonces and the session ID; the old key is taken for 2 s
more; the numbers start again at 1 in both directions. A sticky flag written with 1 is cleared, and no counter changes but that
of messages, that of requests served at 0xA080.02 and those of the ports; a write to 0xF100.09 clears the store's flags of every region. -/
def Obligations.SessionMessagesAct : Prop :=
  (∀ (dt : Nat) (m : Msg) (s : State) (x : Session), s.runs = true → Takes (s.tick dt) m x 3 [] →
    ∃ t, exec (.keepalive dt m) s = .next t ∧ Answered t m x 3 stOk ∧ t.ctr 0x1080 1 = min (s.ctr 0x1080 1 + 1) ctrMax ∧ OnlyParts s dt [.events, .stats, .sessions, .keyPort] t) ∧
  (∀ (dt : Nat) (m : Msg) (s : State) (x : Session), s.runs = true → Takes (s.tick dt) m x 2 [] →
    ∃ t, exec (.close dt m) s = .next t ∧ Answered t m x 2 stOk ∧ t.session m.sid = none ∧ (∀ j, j ≠ m.sid → t.session j = s.session j) ∧
      Latched t 0x0A (m.sid % 65536)) ∧
  (∀ (dt : Nat) (m : Msg) (nonce : List (BitVec 8)) (s : State) (x : Session), s.runs = true → Takes (s.tick dt) m x 4 (fit 16 nonce) → x.anon = false → s.key.trngFail = false →
    ∃ t y r, exec (.rekey dt ⟨m, nonce⟩) s = .next t ∧ Answered t m x 4 stOk ∧ t.session m.sid = some y ∧ t.osr.resp = some r ∧ r.body.length = 16 ∧
      y.key.key = s.sessionKey x.slot nonce r.body x.id ∧ y.oldKey = some x.key ∧
      y.oldUntil = some (s.elapsed + dt + 2000000000) ∧ y.hi = 0 ∧ y.seen = [] ∧ y.rx = 0 ∧ y.tx = 0 ∧ y.txSeq = 1 ∧ y.dueAt = none) ∧
  (∀ (dt : Nat) (m : Msg) (s : State) (x : Session) (idx sub n : Nat) (v : List (BitVec 8)), s.runs = true → TakesWrite (s.tick dt) m x idx sub v n →
    isSticky idx sub = true →
    ∃ t, exec (.stickyFlagClear dt m idx sub v) s = .next t ∧ Answered t m x 0x12 stOk ∧
      OnlyParts s dt [.events, .stats, .sessions, .store, .keyPort] t ∧ t.store = s.store ∧
      (∀ j k, j * 256 + k ≠ 0x1080 * 256 + 1 → j * 256 + k ≠ 0xA080 * 256 + 2 → (j * 256 + k < 0x2080 * 256 ∨ 0x2086 * 256 ≤ j * 256 + k) → t.ctr j k = s.ctr j k) ∧
      ∀ b, bit n b = true → bit (Table.getD t.sticky (idx * 256 + sub) 0) b = false) ∧
  (∀ (dt n : Nat) (m : Msg) (v : List (BitVec 8)) (s : State) (x : Session), s.runs = true → TakesWrite (s.tick dt) m x 0xF100 9 v n →
    ∃ t, exec (.stickyFlagClear dt m 0xF100 9 v) s = .next t ∧ Answered t m x 0x12 stOk ∧
      t.store = { s.store with errs := Table.mapVals s.store.errs (fun e => { e with flags := 0 }) })

/-- The staging area of a session (R421, R422, R423): STAGE_OPEN gives an empty one, and a second one is BUSY; STAGE_WRITE to an object
that is staged and within the session's reach and role puts the bytes it brings at their offset and keeps every other
byte that is staged; STAGE_ABORT discards the area; STAGE_COMMIT, with fewer than four waiting, no
power-fail warning and no activation, freezes it and queues its bytes, answers nothing yet, and the configuration stays. -/
def Obligations.StagingActs : Prop :=
  (∀ (dt : Nat) (m : Msg) (s : State) (x : Session), s.runs = true → Takes (s.tick dt) m x 0x20 [] → x.stage = none →
    s.mode.cur ≠ .quickset → s.mode.cur ≠ .zeroized →
    ∃ t y, exec (.stageOpen dt m) s = .next t ∧ Answered t m x 0x20 stOk ∧ t.session m.sid = some y ∧
      y.stage = some { cells := [], lastAt := s.elapsed + dt, frozen := false }) ∧
  (∀ (dt : Nat) (m : Msg) (s : State) (x : Session) (a : Staging), s.runs = true → Takes (s.tick dt) m x 0x20 [] → x.stage = some a →
    s.mode.cur ≠ .quickset → s.mode.cur ≠ .zeroized →
    ∃ t, exec (.stageOpen dt m) s = .next t ∧ Answered t m x 0x20 stBusy) ∧
  (∀ (dt idx sub off : Nat) (m : Msg) (v : List (BitVec 8)) (s : State) (x : Session) (a : Staging) (o : Obj), s.runs = true → Takes (s.tick dt) m x 0x21 (objPayload idx sub (zeros 1 ++ toBE 4 off ++ v)) →
    x.stage = some a → a.frozen = false → 0 < v.length → v.length ≤ 1280 → s.reaches x.uart .stage idx sub = true → objAt s.variant idx sub = some o →
    objAbsent s.variant idx sub = false → o.direct = false → (o.acc = .rw ∨ (o.acc = .rws ∧ x.role = 2)) →
    (o.ty = 11 → domainOk o (stagedOf a.cells idx sub).length off v.length = true) → off + v.length ≤ 16777216 → a.cells.length + v.length ≤ 16777216 →
    ∃ t y b, exec (.stageWrite dt m idx sub off v) s = .next t ∧ Answered t m x 0x21 stOk ∧ t.session m.sid = some y ∧ y.stage = some b ∧
      b.frozen = false ∧ b.lastAt = s.elapsed + dt ∧
      (∀ k, k < v.length → Table.find b.cells (cfgAddr idx sub off + k) = v[k]?) ∧
      (∀ j, (∀ k, k < v.length → j ≠ cfgAddr idx sub off + k) → Table.find b.cells j = Table.find a.cells j)) ∧
  (∀ (dt : Nat) (m : Msg) (s : State) (x : Session) (a : Staging), s.runs = true → Takes (s.tick dt) m x 0x23 [] → x.stage = some a → a.frozen = false →
    s.mode.cur ≠ .zeroized →
    ∃ t y, exec (.stageAbort dt m) s = .next t ∧ Answered t m x 0x23 stOk ∧ t.session m.sid = some y ∧ y.stage = none) ∧
  (∀ (dt : Nat) (m : Msg) (s : State) (x : Session) (a : Staging), s.runs = true → Takes (s.tick dt) m x 0x22 [] → x.stage = some a → a.frozen = false →
    s.mode.cur ≠ .zeroized → s.osr.queue.length < 4 → s.power.failState = 0 → s.upd.state ≠ 3 →
    ∃ t y, exec (.stageCommit dt m) s = .next t ∧ t.osr.queue = s.osr.queue ++ [⟨x.id, x.role, m.tag, a.cells, m.via⟩] ∧ t.session m.sid = some y ∧
      y.stage = some { a with frozen := true, lastAt := s.elapsed + dt } ∧ t.osr.resp = none ∧ t.cfg = s.cfg)

/-- Notifications (R432): SUBSCRIBE with 1 subscribes the session, with 0 it ends that and empties its queue; NOTIFY_SEND, with
none outstanding, records queued and the session's
credential fit, sends up to 32 of them in their order under the session's next number; the NOTIFY response
with its number releases it, and gets no answer; unanswered for 200 ms it is sent again, up to the number of times at 0x1050.07,
after which it is dropped, its records are counted at 0x1080.07, and the next NOTIFY will say that records were lost. -/
def Obligations.NotificationsAct : Prop :=
  (∀ (dt on : Nat) (m : Msg) (s : State) (x : Session), s.runs = true → Takes (s.tick dt) m x 0x30 (toBE 1 on) → on ≤ 1 → s.mode.cur ≠ .zeroized →
    ∃ t y, exec (.subscribe dt m on) s = .next t ∧ Answered t m x 0x30 stOk ∧ t.session m.sid = some y ∧ (y.subscribed = true ↔ on = 1) ∧
      (on = 0 → y.queue = []) ∧ (on = 1 → y.queue = x.queue)) ∧
  (∀ (dt sid : Nat) (s : State) (x : Session), s.runs = true → s.session sid = some x → x.out = none → x.queue ≠ [] →
    (x.anon = true ∨ s.portBusy 1 = false) → s.credOk x = true →
    ∃ t y, exec (.notifySend dt sid) s = .next t ∧ t.osr.notify = some (sid, x.txSeq, x.queue.take 32, x.lost) ∧ t.session sid = some y ∧
      y.out = some ⟨x.txSeq, x.queue.take 32, 0, s.elapsed + dt, x.lost⟩ ∧ y.queue = x.queue.drop 32 ∧ y.txSeq = (x.txSeq + 1) % 2 ^ 32 ∧ y.lost = false) ∧
  (∀ (dt : Nat) (m : Msg) (s : State) (x : Session) (o : Outstanding), s.runs = true → Takes (s.tick dt) m x 0x31 (toBE 4 o.seq) → x.out = some o →
    ∃ t y, exec (.notifyAck dt m o.seq) s = .next t ∧ t.session m.sid = some y ∧ y.out = none ∧ y.queue = x.queue ∧ t.osr.resp = none) ∧
  (∀ (dt sid : Nat) (s : State) (x : Session) (o : Outstanding), s.runs = true → s.session sid = some x → x.out = some o →
    o.sentAt + 200000000 ≤ s.elapsed + dt → o.tries < s.cf.u 0x1050 7 0 1 → (x.anon = true ∨ s.portBusy 1 = false) → s.credOk x = true →
    ∃ t y, exec (.notifyRetransmit dt sid) s = .next t ∧ t.osr.notify = some (sid, o.seq, o.recs, o.lost) ∧ t.session sid = some y ∧
      y.out = some { o with tries := o.tries + 1, sentAt := s.elapsed + dt }) ∧
  (∀ (dt sid : Nat) (s : State) (x : Session) (o : Outstanding), s.runs = true → s.session sid = some x → x.out = some o →
    o.sentAt + 200000000 ≤ s.elapsed + dt → s.cf.u 0x1050 7 0 1 ≤ o.tries →
    ∃ t y, exec (.notifyRetransmit dt sid) s = .next t ∧ t.session sid = some y ∧ y.out = none ∧ y.lost = true ∧
      t.ctr 0x1080 7 = min (s.ctr 0x1080 7 + o.recs.length) ctrMax)

/-- Sessions open (R414, R416, R417, R434). An OPEN whose tag, the HMAC over its bytes, verifies under an active HMAC credential
key with the usage bit of its role is a class B request served by the port, and is answered OK with the session ID, a device nonce of 16 bytes and the role, adds one session of that role, slot and
way, and raises EV_OSR_SESSION; the session key is derived from the credential key, the two nonces and the ID. An OPEN with a zero
tag is taken so where the mode takes it without authentication. With no session left, either is answered BUSY. Any other OPEN
gets no reply, is counted at 0x1080.02 and raises EV_OSR_AUTH_FAIL; the failure with which the count at 0x1050.08 is reached within
60 s locks its source address out for 60 s. -/
def Obligations.SessionsOpen : Prop :=
  (∀ (dt : Nat) (o : OpenMsg) (s : State), s.runs = true → (s.tick dt).viaOk o.via = true → (o.role = 1 ∨ o.role = 2) →
    (s.anonOk (viaUart o.via) = false ∨ s.mode.cur = .provision) → (s.mode.cur = .quickset → o.role = 2) → s.tagOk o = true → openTagZero o = false →
    s.portBusy 1 = false → s.keyFit o.slot (o.role - 1) = true → s.key.trngFail = false → s.sessionsFull (viaUart o.via) false = false →
    ∃ t x r, exec (.open_ dt o) s = .next t ∧ t.osr.sessions = s.osr.sessions ++ [x] ∧ x.role = o.role ∧ x.slot = o.slot ∧ x.anon = false ∧ x.via = o.via ∧
      x.stage = none ∧ x.subscribed = false ∧ t.ctr 0xA080 2 = min (s.ctr 0xA080 2 + 1) ctrMax ∧ t.osr.resp = some r ∧ r.sid = x.id ∧ r.type = 1 ∧ r.tag = o.tag ∧ r.status = stOk ∧
      r.body = toBE 4 x.id ++ slice r.body 4 16 ++ toBE 1 o.role ∧ x.key.key = s.sessionKey o.slot o.nonce (slice r.body 4 16) x.id ∧
      Latched t 0x0A (x.id % 65536)) ∧
  (∀ (dt : Nat) (o : OpenMsg) (s : State), s.runs = true → (s.tick dt).viaOk o.via = true → (o.role = 1 ∨ o.role = 2) →
    openTagZero o = true → s.anonOk (viaUart o.via) = true → s.key.trngFail = false → s.sessionsFull (viaUart o.via) true = false →
    ∃ t x r, exec (.open_ dt o) s = .next t ∧ t.osr.sessions = s.osr.sessions ++ [x] ∧ x.role = o.role ∧ x.anon = true ∧ x.via = o.via ∧
      t.osr.resp = some r ∧ r.sid = x.id ∧ r.status = stOk ∧ Latched t 0x0A (x.id % 65536)) ∧
  (∀ (dt : Nat) (o : OpenMsg) (s : State), s.runs = true → (s.tick dt).viaOk o.via = true → (o.role = 1 ∨ o.role = 2) →
    openTagZero o = true → s.anonOk (viaUart o.via) = true → s.sessionsFull (viaUart o.via) true = true →
    ∃ t r, exec (.open_ dt o) s = .next t ∧ t.osr.sessions = s.osr.sessions ∧ t.osr.resp = some r ∧ r.tag = o.tag ∧ r.status = stBusy) ∧
  (∀ (dt : Nat) (o : OpenMsg) (s : State), s.runs = true → (s.tick dt).viaOk o.via = true →
    (openTagZero o = false ∨ s.anonOk (viaUart o.via) = false ∨ (o.role ≠ 1 ∧ o.role ≠ 2)) → s.portBusy 1 = false →
    (s.tagOk o = false ∨ (s.anonOk (viaUart o.via) = true ∧ s.mode.cur ≠ .provision) ∨ s.keyFit o.slot (o.role - 1) = false ∨
      (o.role ≠ 1 ∧ o.role ≠ 2) ∨ (s.mode.cur = .quickset ∧ o.role ≠ 2)) →
    ∃ t, exec (.open_ dt o) s = .next t ∧ t.osr.sessions = s.osr.sessions ∧ t.osr.resp = none ∧ t.ctr 0x1080 2 = min (s.ctr 0x1080 2 + 1) ctrMax ∧
      Latched t 0x0B 0) ∧
  (∀ (dt : Nat) (o : OpenMsg) (s : State), s.runs = true → (s.tick dt).viaOk o.via = true → (o.role = 1 ∨ o.role = 2) →
    (s.anonOk (viaUart o.via) = false ∨ s.mode.cur = .provision) → (s.mode.cur = .quickset → o.role = 2) → s.tagOk o = true → openTagZero o = false →
    s.portBusy 1 = false → s.keyFit o.slot (o.role - 1) = true → s.sessionsFull (viaUart o.via) false = true →
    ∃ t r, exec (.open_ dt o) s = .next t ∧ t.osr.sessions = s.osr.sessions ∧ t.osr.resp = some r ∧ r.tag = o.tag ∧ r.status = stBusy) ∧
  (∀ (dt p ip udp : Nat) (o : OpenMsg) (s : State), s.runs = true → (s.tick dt).viaOk o.via = true → o.via = .port p ip udp → s.tagOk o = false → openTagZero o = false → s.portBusy 1 = false →
    s.cf.u 0x1050 8 0 1 ≤ ((Table.getD s.osr.failures ip []).filter (fun a => decide (s.elapsed + dt < a + 60000000000))).length + 1 →
    ∃ t, exec (.open_ dt o) s = .next t ∧ Table.find t.osr.lockouts ip = some (s.elapsed + dt + 60000000000) ∧ t.viaOk o.via = false)

/-- What the device drops (R411, R415, R434), shown for KEEPALIVE: a message of no session, or whose tag fails, is dropped without
reply and counted at 0x1080.02; one whose number is not new under the key in force at 0x1080.03. A datagram that is no message is
counted at 0x1080.08, and a UART frame whose check word fails at 0x1080.09. No session changes. -/
def Obligations.BadMessagesAreDropped : Prop :=
  (∀ (dt : Nat) (m : Msg) (s : State), s.runs = true → (s.tick dt).viaOk m.via = true → s.session m.sid = none →
    ∃ t, exec (.keepalive dt m) s = .next t ∧ t.osr.resp = none ∧ t.osr.sessions = s.osr.sessions ∧ t.ctr 0x1080 2 = min (s.ctr 0x1080 2 + 1) ctrMax) ∧
  (∀ (dt : Nat) (m : Msg) (s : State) (x : Session), s.runs = true → (s.tick dt).viaOk m.via = true → s.session m.sid = some x → x.uart = viaUart m.via →
    (x.anon = true ∨ s.portBusy 1 = false) → x.authOf m 3 [] = .current → seqNew x.hi x.seen m.seq = false →
    ∃ t, exec (.keepalive dt m) s = .next t ∧ t.osr.resp = none ∧ t.osr.sessions = s.osr.sessions ∧ t.ctr 0x1080 3 = min (s.ctr 0x1080 3 + 1) ctrMax) ∧
  (∀ (dt : Nat) (d : Datagram) (s : State), s.runs = true → (s.tick dt).viaOk d.via = true → viaUart d.via = false → badDatagram d.bytes = true →
    ∃ t, exec (.malformedDatagram dt d) s = .next t ∧ t.osr.resp = none ∧ t.osr.sessions = s.osr.sessions ∧ t.ctr 0x1080 8 = min (s.ctr 0x1080 8 + 1) ctrMax) ∧
  (∀ (f : UartRx) (s : State), s.runs = true → (s.tick f.dt).viaOk .uart = true → badUartFrame f.bytes = true →
    ∃ t, exec (.uartFrameCrcFail f) s = .next t ∧ t.osr.resp = none ∧ t.osr.sessions = s.osr.sessions ∧ t.ctr 0x1080 9 = min (s.ctr 0x1080 9 + 1) ctrMax) ∧
  (∀ (dt : Nat) (m : Msg) (s : State) (x : Session), s.runs = true → (s.tick dt).viaOk m.via = true → s.session m.sid = some x → s.portBusy 1 = false →
    x.authOf m 3 [] = .bad →
    ∃ t, exec (.keepalive dt m) s = .next t ∧ t.osr.resp = none ∧ t.osr.sessions = s.osr.sessions ∧ t.ctr 0x1080 2 = min (s.ctr 0x1080 2 + 1) ctrMax)

/-- A report of a commit is read by any session that asks for its generation (R418, R426, R558): the answer holds the report's bytes
from the offset; a generation whose report is not kept, and a length of 0 or above 1280, are REJECTED; in ZEROIZED every
REPORT_READ is. -/
def Obligations.ReportsAreRead : Prop :=
  (∀ (dt off n : Nat) (gen : BitVec 32) (m : Msg) (s : State) (x : Session) (r : Report), s.runs = true → Takes (s.tick dt) m x 0x24 (toBE 4 gen.toNat ++ toBE 4 off ++ toBE 2 n) → 0 < n → n ≤ 1280 →
    s.mode.cur ≠ .zeroized → s.osr.reports.find? (fun y => y.gen = gen) = some r →
    ∃ t a, exec (.reportRead dt m gen off n) s = .next t ∧ Answered t m x 0x24 stOk ∧ t.osr.resp = some a ∧ a.body = slice (reportBytes r) off n) ∧
  (∀ (dt off n : Nat) (gen : BitVec 32) (m : Msg) (s : State) (x : Session), s.runs = true → Takes (s.tick dt) m x 0x24 (toBE 4 gen.toNat ++ toBE 4 off ++ toBE 2 n) →
    (n = 0 ∨ 1280 < n ∨ s.mode.cur = .zeroized ∨ ∀ r ∈ s.osr.reports, r.gen ≠ gen) →
    ∃ t, exec (.reportRead dt m gen off n) s = .next t ∧ Answered t m x 0x24 stRejected)

/-! ## The commit point and the objects (R16 to R21, R405 to R420, R424 to R426) -/

/-- T_c of an accepted commit (R16), with no earlier configuration held and none waiting: while sets form it is the first instant
at least 20 ms after the acceptance that is a whole multiple of 100 ms, in the current time generation; otherwise it is the
instant of acceptance. The report of the commit gives both. -/
def Obligations.EffectiveInstantOfACommit : Prop :=
  ∀ (dt : Nat) (s : State) (k : Checked), s.runs = true → s.osr.checked = some k → s.power.failState = 0 → s.cfg.prev = none → s.cfg.waiting = [] →
    ∃ t r, exec (.commitAccept dt) s = .next t ∧ t.osr.reports.head? = some r ∧ r.acc = (s.tick dt).now ∧ r.tc.gen = s.time.gen ∧
      (s.mode.cur.forms = true → r.tc.ns % 100000000 = 0 ∧ r.acc.ns + 20000000 ≤ r.tc.ns ∧ r.tc.ns < r.acc.ns + 120000000) ∧
      (s.mode.cur.forms = false → r.tc = r.acc)

/-- A commit from its place in the queue to the live configuration (R17, R18, R19, R424 to R426). The check takes the first one that
is queued and leaves the configurations alone; the acceptance, while sets form, gives it the next generation, writes it to the
configuration journal, puts it behind those that wait for their T_c, keeps its report with the seven before it and leaves the live
configuration alone; at T_c its bytes are live, under its generation; and an earlier configuration is released once every set before
its T_c has closed, or while no sets form, and what is decided under it stays. -/
def Obligations.CommitsTakeEffect : Prop :=
  (∀ (dt : Nat) (s : State) (q : Queued) (r : List Queued), s.runs = true → s.osr.queue = q :: r → s.osr.checked = none →
    (∀ p, s.mode.pend = some p → p.activate = true) →
    ∃ t k, exec (.topiaryCheck dt) s = .next t ∧ t.osr.queue = r ∧ t.osr.checked = some k ∧ k.sid = q.sid ∧ k.tag = q.tag ∧ t.cfg = s.cfg ∧ t.jrn = s.jrn) ∧
  (∀ (dt : Nat) (s : State) (k : Checked), s.runs = true → s.osr.checked = some k → s.power.failState = 0 → s.mode.cur.forms = true →
    ∃ t r, exec (.commitAccept dt) s = .next t ∧ t.cfg.lastGen = s.cfg.lastGen + 1#32 ∧ t.cfg.live = s.cfg.live ∧ t.cfg.gen = s.cfg.gen ∧
      t.osr.checked = none ∧ t.osr.reports = (r :: s.osr.reports).take 8 ∧ r.gen = s.cfg.lastGen + 1#32 ∧ r.sid = k.sid ∧
      t.jrn.cfgValid = true ∧ t.jrn.cfgGen = s.cfg.lastGen + 1#32 ∧ t.jrn.cfg = Memory.apply s.variant s.journaled (lasting k.cells) ∧ t.cfg.lastTc = r.tc ∧
      t.cfg.waiting = s.cfg.waiting ++ [⟨s.cfg.lastGen + 1#32, k.cells, r.tc, r.acc⟩]) ∧
  (∀ (dt : Nat) (s : State) (c : Commit) (r : List Commit), s.runs = true → s.cfg.waiting = c :: r → c.tc.gen = s.time.gen → c.tc.ns ≤ (s.tick dt).time.tai →
    ∃ t, exec (.configEffective dt) s = .next t ∧ t.cfg.live = Memory.apply s.variant s.cfg.live (lasting c.cells) ∧ t.cfg.gen = c.gen ∧ t.cfg.valid = true ∧
      t.jrn.cfg = s.jrn.cfg) ∧
  (∀ (dt : Nat) (s : State) (p : List Host.Cell × BitVec 32 × Stamp), s.runs = true → s.cfg.prev = some p →
    (s.forming = false ∨ (s.tick dt).closedBefore p.2.2 = true) →
    ∃ t, exec (.previousConfigRelease dt) s = .next t ∧ t.cfg = { s.cfg with prev := none, spent := some p } ∧
      OnlyParts s dt [.events, .stats, .previous, .hr, .alarm, .goose, .isl] t)

/-- READ and DESCRIBE (R405, R418): the answer to a READ of a staged object holds its type and the bytes that are live, of a DOMAIN up
to the length asked for; the answer to DESCRIBE of an object whose default is a number holds its type, access and bounds; DESCRIBE of
an index that holds no object is REJECTED, and of one of an absent unit ABSENT. Only the session, the count of messages and its
event change, and with a READ the number of free values taken. -/
def Obligations.ObjectsAnswer : Prop :=
  (∀ (dt idx sub off n : Nat) (m : Msg) (s : State) (x : Session) (o : Obj), s.runs = true → Takes (s.tick dt) m x 0x10 (readPayload idx sub off n) → 0 < n → n ≤ 1280 →
    (idx < 0x8410 ∨ 0x8508 ≤ idx) → s.reaches x.uart .look idx sub = true → objAt s.variant idx sub = some o → objAbsent s.variant idx sub = false →
    (o.acc = .rw ∨ o.acc = .rws) → o.direct = false → o.ty ≠ 11 →
    ∃ t r, exec (.read dt m idx sub off n) s = .next t ∧ Answered t m x 0x10 stOk ∧ t.osr.resp = some r ∧
      r.body = readBody o.ty (s.cf.bytes idx sub 0 (typeSize o.ty)) 0 0 ∧ OnlyParts s dt [.events, .stats, .free, .sessions, .keyPort] t) ∧
  (∀ (dt idx sub : Nat) (m : Msg) (s : State) (x : Session) (o : Obj), s.runs = true → Takes (s.tick dt) m x 0x11 (objPayload idx sub []) →
    s.reaches x.uart .look idx sub = true → objAt s.variant idx sub = some o → objAbsent s.variant idx sub = false → dfltIsValue idx sub = false → o.ty ≠ 10 →
    ∃ t r, exec (.describe dt m idx sub) s = .next t ∧ Answered t m x 0x11 stOk ∧ t.osr.resp = some r ∧ r.body = s.describe o idx sub ∧
      OnlyParts s dt [.events, .stats, .sessions, .keyPort] t) ∧
  (∀ (dt idx sub : Nat) (m : Msg) (s : State) (x : Session), s.runs = true → Takes (s.tick dt) m x 0x11 (objPayload idx sub []) → objAt s.variant idx sub = none →
    ∃ t, exec (.describe dt m idx sub) s = .next t ∧ Answered t m x 0x11 stRejected ∧ OnlyParts s dt [.events, .stats, .sessions, .keyPort] t) ∧
  (∀ (dt idx sub : Nat) (m : Msg) (s : State) (x : Session) (o : Obj), s.runs = true → Takes (s.tick dt) m x 0x11 (objPayload idx sub []) →
    s.reaches x.uart .look idx sub = true → objAt s.variant idx sub = some o → objAbsent s.variant idx sub = true →
    ∃ t, exec (.describe dt m idx sub) s = .next t ∧ Answered t m x 0x11 stAbsent ∧ OnlyParts s dt [.events, .stats, .sessions, .keyPort] t) ∧
  (∀ (dt idx sub n : Nat) (m : Msg) (s : State) (x : Session) (o : Obj), s.runs = true → Takes (s.tick dt) m x 0x10 (readPayload idx sub 0 n) → 0 < n → n ≤ 1280 →
    (idx < 0x8410 ∨ 0x8508 ≤ idx) → s.reaches x.uart .look idx sub = true → objAt s.variant idx sub = some o → objAbsent s.variant idx sub = false →
    (o.acc = .rw ∨ o.acc = .rws) → o.direct = false → o.ty = 11 →
    ∃ t r, exec (.read dt m idx sub 0 n) s = .next t ∧ Answered t m x 0x10 stOk ∧ t.osr.resp = some r ∧
      r.body = readBody 11 (s.cfgBytes o idx sub) 0 n ∧ OnlyParts s dt [.events, .stats, .free, .sessions, .keyPort] t)

/-- WRITE (R420, R430): written to sticky flags it clears those whose bit is 1; the others stay, but that the counts of messages, of
requests served and of the ports may set their own at 0x1080, 0xA080 and 0x2080 to 0x2085. A WRITE to an object that takes no direct write is REJECTED and changes nothing but the session, the
count of messages and its event, and free values taken. -/
def Obligations.WritesAct : Prop :=
  (∀ (dt idx sub n : Nat) (m : Msg) (v : List (BitVec 8)) (s : State) (x : Session), s.runs = true → TakesWrite (s.tick dt) m x idx sub v n →
    isSticky idx sub = true →
    ∃ t, exec (.write dt m idx sub v) s = .next t ∧ Answered t m x 0x12 stOk ∧ OnlyParts s dt [.events, .stats, .sessions, .keyPort] t ∧
      (∀ b, bit n b = true → bit (Table.getD t.sticky (idx * 256 + sub) 0) b = false) ∧
      (idx ≠ 0x1080 → idx ≠ 0xA080 → (idx < 0x2080 ∨ 0x2085 < idx) → ∀ b, bit n b = false → bit (Table.getD t.sticky (idx * 256 + sub) 0) b = bit (Table.getD s.sticky (idx * 256 + sub) 0) b)) ∧
  (∀ (dt idx sub : Nat) (m : Msg) (v : List (BitVec 8)) (s : State) (x : Session) (o : Obj), s.runs = true → Takes (s.tick dt) m x 0x12 (objPayload idx sub (zeros 1 ++ v)) →
    objAt s.variant idx sub = some o → o.direct = false → objAbsent s.variant idx sub = false →
    ∃ t, exec (.write dt m idx sub v) s = .next t ∧ Answered t m x 0x12 stRejected ∧ OnlyParts s dt [.events, .stats, .free, .sessions, .keyPort] t)

/-! ## Modes (R57 to R63) -/

/-- The mode requests, each from a mode it is taken in with no transition in progress (R58, R59, R60, R61, R63, R460). CONFIGURE, SAFE
and, from CONFIGURE, STANDBY are answered OK and entered at once, with EV_MODE_CHANGE; OPERATE, and STANDBY from a mode that forms
sets, are answered PENDING and wait for the first whole multiple of 100 ms at least 20 ms later; QUICKSET is answered OK and a
reset is due, with the mode as it was until then. A zeroize request is answered OK, also under the power-fail warning; every key but the verification key and the
root are gone, the zeroize flag is set, and ZEROIZED is entered; under RMA with a root area free it passes on to PROVISION with the
flag clear. -/
def Obligations.ModeRequestsAct : Prop :=
  (∀ (dt : Nat) (m : Msg) (s : State) (x : Session), s.runs = true → TakesWrite (s.tick dt) m x 0x1100 2 (toBE 1 0) 0 → s.inTransition = false →
    ∃ t, exec (.modeRequestQuickset dt m) s = .next t ∧ Answered t m x 0x12 stOk ∧ t.rst.device = some (7, s.elapsed + dt) ∧ t.mode = { s.mode with reqStatus := 0 }) ∧
  (∀ (dt : Nat) (m : Msg) (s : State) (x : Session), s.runs = true → TakesWrite (s.tick dt) m x 0x1100 2 (toBE 1 2) 2 → s.inTransition = false →
    s.mode.cur = .standby →
    ∃ t, exec (.modeRequestConfigure dt m) s = .next t ∧ Answered t m x 0x12 stOk ∧ Latched t 0x00 0 ∧ t.mode.cur = .configure ∧ t.mode.prev = 3 ∧ t.mode.cause = 0x0101 ∧ t.mode.reqStatus = 0) ∧
  (∀ (dt : Nat) (m : Msg) (s : State) (x : Session), s.runs = true → TakesWrite (s.tick dt) m x 0x1100 2 (toBE 1 3) 3 → s.inTransition = false →
    s.mode.cur = .configure → s.cfg.valid = true →
    ∃ t, exec (.modeRequestStandby dt m) s = .next t ∧ Answered t m x 0x12 stOk ∧ Latched t 0x00 0 ∧ t.mode.cur = .standby ∧ t.mode.prev = 2 ∧ t.mode.cause = 0x0101 ∧ t.mode.reqStatus = 0) ∧
  (∀ (dt : Nat) (m : Msg) (s : State) (x : Session), s.runs = true → TakesWrite (s.tick dt) m x 0x1100 2 (toBE 1 3) 3 → s.inTransition = false →
    s.mode.cur.forms = true →
    ∃ t p, exec (.modeRequestStandby dt m) s = .next t ∧ Answered t m x 0x12 stPending ∧ t.mode.cur = s.mode.cur ∧ t.mode.pend = some p ∧ p.target = .standby ∧
      p.atNs = effInstant (s.tick dt).time.tai ∧ p.stopped = false ∧ t.mode.reqStatus = 3) ∧
  (∀ (dt : Nat) (m : Msg) (s : State) (x : Session), s.runs = true → TakesWrite (s.tick dt) m x 0x1100 2 (toBE 1 4) 4 → s.inTransition = false →
    s.mode.cur = .standby → s.readable = true → s.fenceLevel < 2 →
    ∃ t p, exec (.modeRequestOperate dt m) s = .next t ∧ Answered t m x 0x12 stPending ∧ t.mode.cur = .standby ∧ t.mode.pend = some p ∧ p.target = .operate ∧
      p.atNs = effInstant (s.tick dt).time.tai ∧ t.mode.reqStatus = 3) ∧
  (∀ (dt : Nat) (m : Msg) (s : State) (x : Session), s.runs = true → TakesWrite (s.tick dt) m x 0x1100 2 (toBE 1 6) 6 → s.inTransition = false →
    s.mode.cur.full = true →
    ∃ t, exec (.modeRequestSafe dt m) s = .next t ∧ Answered t m x 0x12 stOk ∧ Latched t 0x00 0 ∧ t.mode.cur = .safe ∧ t.mode.cause = 0x0101 ∧ t.mode.reqStatus = 0) ∧
  (∀ (dt : Nat) (m : Msg) (s : State) (x : Session), s.runs = true → TakesWrite (s.tick dt) m x 0x1100 2 (toBE 1 7) 7 → s.underWay = false →
    s.mode.cur ≠ .zeroized → (s.key.life ≠ .rma ∨ s.key.areaFree = false) →
    ∃ t, exec (.modeRequestZeroize dt m) s = .next t ∧ Answered t m x 0x12 stOk ∧ t.mode.cur = .zeroized ∧ t.mode.cause = 0x0101 ∧ t.key.slots.map (·.1) = [0] ∧
      t.key.inForce = none ∧ t.key.wrap = {} ∧ t.key.destroyed = true ∧ t.key.zeroized = true) ∧
  (∀ (dt : Nat) (m : Msg) (s : State) (x : Session), s.runs = true → TakesWrite (s.tick dt) m x 0x1100 2 (toBE 1 7) 7 → s.underWay = false →
    s.mode.cur ≠ .zeroized → s.key.life = .rma → s.key.inForce = none → s.key.areaFree = true →
    ∃ t, exec (.modeRequestZeroize dt m) s = .next t ∧ Answered t m x 0x12 stOk ∧ t.mode.cur = .provision ∧ t.mode.cause = 0x0108 ∧ t.key.slots.map (·.1) = [0] ∧
      t.key.wrap = {} ∧ t.key.destroyed = false ∧ t.key.zeroized = false)

/-- What is not a transition of the table (R59): a request for CONFIGURE, STANDBY, OPERATE or SAFE from a mode, or under a condition,
that the table does not give is REJECTED, the mode stays, 0x1100.03 reads REJECTED and EV_MODE_REQ_REJECTED is raised; while a
transition is in progress, and but for zeroize under the power-fail warning, every request is BUSY, 0x1100.03 reads BUSY and the mode stays. -/
def Obligations.OtherModeRequestsAreRefused : Prop :=
  (∀ (dt : Nat) (m : Msg) (s : State) (x : Session), s.runs = true → TakesWrite (s.tick dt) m x 0x1100 2 (toBE 1 4) 4 → s.inTransition = false →
    (s.mode.cur ≠ .standby ∨ s.readable = false ∨ 2 ≤ s.fenceLevel) →
    ∃ t, exec (.modeRequestOperate dt m) s = .next t ∧ Answered t m x 0x12 stRejected ∧ t.mode = { s.mode with reqStatus := 1 } ∧ Latched t 0x07 0) ∧
  (∀ (dt : Nat) (m : Msg) (s : State) (x : Session), s.runs = true → TakesWrite (s.tick dt) m x 0x1100 2 (toBE 1 6) 6 → s.inTransition = false →
    s.mode.cur.full = false →
    ∃ t, exec (.modeRequestSafe dt m) s = .next t ∧ Answered t m x 0x12 stRejected ∧ t.mode = { s.mode with reqStatus := 1 } ∧ Latched t 0x07 0) ∧
  (∀ (dt : Nat) (m : Msg) (s : State) (x : Session), s.runs = true → TakesWrite (s.tick dt) m x 0x1100 2 (toBE 1 2) 2 → s.inTransition = false →
    s.mode.cur ≠ .standby →
    ∃ t, exec (.modeRequestConfigure dt m) s = .next t ∧ Answered t m x 0x12 stRejected ∧ t.mode = { s.mode with reqStatus := 1 } ∧ Latched t 0x07 0) ∧
  (∀ (dt : Nat) (m : Msg) (s : State) (x : Session), s.runs = true → TakesWrite (s.tick dt) m x 0x1100 2 (toBE 1 3) 3 → s.inTransition = false →
    s.mode.cur.forms = false → (s.mode.cur ≠ .configure ∨ s.cfg.valid = false) →
    ∃ t, exec (.modeRequestStandby dt m) s = .next t ∧ Answered t m x 0x12 stRejected ∧ t.mode = { s.mode with reqStatus := 1 } ∧ Latched t 0x07 0) ∧
  (∀ (dt n : Nat) (m : Msg) (c : Instr) (s : State) (x : Session), s.runs = true →
    (n, c) ∈ [(0, .modeRequestQuickset dt m), (2, .modeRequestConfigure dt m), (3, .modeRequestStandby dt m), (4, .modeRequestOperate dt m),
      (6, .modeRequestSafe dt m), (7, .modeRequestZeroize dt m)] →
    TakesWrite (s.tick dt) m x 0x1100 2 (toBE 1 n) n → (s.underWay = true ∨ (n ≠ 7 ∧ s.inTransition = true)) →
    ∃ t, exec c s = .next t ∧ Answered t m x 0x12 stBusy ∧ t.mode = { s.mode with reqStatus := 2 })

/-- The transitions that wait (R19, R58, R59). At its instant a device in STANDBY enters OPERATE, or DEGRADED while a fence or a pace
deficit asks for it, and forms sets from that instant on; where a fence asks for SAFE the request is refused and STANDBY stays. At
a stop instant STANDBY is entered, with EV_MODE_CHANGE, and the transition goes on; once every set before that instant has closed,
the transition is over and no previous configuration is held. DEGRADED goes back to OPERATE once its conditions have been clear
for the time at 0x1100.0C. -/
def Obligations.PendingTransitionsAct : Prop :=
  (∀ (dt : Nat) (s : State) (p : ModePending), s.runs = true → s.mode.pend = some p → p.target = .operate → p.gen = s.time.gen → p.atNs ≤ (s.tick dt).time.tai →
    s.mode.cur = .standby → s.fenceLevel < 2 →
    ∃ t, exec (.operateStart dt) s = .next t ∧ t.mode.pend = none ∧ t.mode.reqStatus = 0 ∧
      t.mode.cur = (if s.fenceLevel = 1 ∨ (s.tick dt).paceDeficit = true then .degraded else .operate) ∧ t.mode.formFrom = p.atNs) ∧
  (∀ (dt : Nat) (s : State) (p : ModePending), s.runs = true → s.mode.pend = some p → p.target = .operate → p.gen = s.time.gen → p.atNs ≤ (s.tick dt).time.tai →
    s.mode.cur = .standby → s.fenceLevel = 2 →
    ∃ t, exec (.operateStart dt) s = .next t ∧ t.mode.pend = none ∧ t.mode.reqStatus = 1 ∧ t.mode.cur = .standby ∧ Latched t 0x07 0) ∧
  (∀ (dt : Nat) (s : State) (p : ModePending), s.runs = true → s.mode.pend = some p → p.target = .standby → p.gen = s.time.gen → p.atNs ≤ (s.tick dt).time.tai →
    p.stopped = false →
    ∃ t, exec (.stopInstant dt) s = .next t ∧ t.mode.cur = .standby ∧ t.mode.prev = s.mode.cur.code ∧ t.mode.cause = p.cause ∧
      t.mode.pend = some { p with stopped := true } ∧ Latched t 0x00 0) ∧
  (∀ (dt : Nat) (s : State) (p : ModePending), s.runs = true → s.mode.pend = some p → p.stopped = true →
    s.closedBefore ⟨p.gen, p.atNs⟩ = true → s.upd.resume = none → s.upd.leaving = 0 →
    ∃ t, exec (.outputsStop dt) s = .next t ∧ t.mode = { s.mode with pend := none, reqStatus := if p.activate then s.mode.reqStatus else 0 } ∧ t.cfg.prev = none) ∧
  (∀ (dt : Nat) (s : State) (c : Nat), s.runs = true → s.mode.cur = .degraded → s.mode.clearSince = some c →
    c + s.cf.u 0x1100 0x0C 0 4 * 1000000 ≤ s.elapsed + dt →
    ∃ t, exec (.degradedReturn dt) s = .next t ∧ t.mode.cur = .operate ∧ t.mode.prev = 5 ∧ t.mode.cause = 0x0104)

/-- The pace monitor (R38 to R40). A window takes its rate and margin from the slowest ring that is not fenced, the first of those, and
keeps the lowest margin; with the margin at or above the threshold at 0x1030.04 it raises and counts nothing. A margin below the
threshold raises EV_PACE_LOW, counted at 0x1030.08, and then no more until the margin has reached the threshold and 50 per mille.
100 ms below 1000 per mille raise EV_PACE_DEFICIT, counted at 0x1030.09, and lead from OPERATE to DEGRADED, with EV_MODE_CHANGE. A
write clears the lowest margin to the present one. -/
def Obligations.PaceMonitorActs : Prop :=
  (∀ (dt k r : Nat) (rates : List Nat) (s : State), s.runs = true → k < 8 → s.fenced 19 k = false → rates.getD k 0 = r → (∀ j, j < 8 → rates.getD j 0 < 2 ^ 32) →
    (∀ j, j < 8 → s.fenced 19 j = false → r ≤ rates.getD j 0 ∧ (j < k → r < rates.getD j 0)) → s.cf.u 0x1030 4 0 2 ≤ min r 65535 →
    ∃ t, exec (.paceWindow dt rates) s = .next t ∧ t.pace.measured = r ∧ t.pace.margin = min r 65535 ∧ t.pace.ring = k ∧
      t.pace.lowestMargin = min s.pace.lowestMargin (min r 65535) ∧ t.pace.windowDone = true ∧ t.ev = s.ev ∧ t.stats = s.stats ∧ t.mode.cur = s.mode.cur) ∧
  (∀ (dt r : Nat) (s : State), s.runs = true → s.cop.lost = [] → r < s.cf.u 0x1030 4 0 2 → r < 65536 → s.pace.lowArmed = true →
    ∃ t, exec (.paceWindow dt (List.replicate 8 r)) s = .next t ∧ t.pace.margin = r ∧ t.pace.lowArmed = false ∧
      t.ctr 0x1030 8 = min (s.ctr 0x1030 8 + 1) ctrMax ∧ Latched t 0x04 0) ∧
  (∀ (dt r : Nat) (s : State), s.runs = true → s.cop.lost = [] → r < s.cf.u 0x1030 4 0 2 + 50 → r < 65536 → s.pace.lowArmed = false →
    ∃ t, exec (.paceWindow dt (List.replicate 8 r)) s = .next t ∧ t.pace.margin = r ∧ t.pace.lowArmed = false ∧ t.ev = s.ev ∧ t.stats = s.stats) ∧
  (∀ (dt r : Nat) (s : State), s.runs = true → s.cop.lost = [] → s.cf.u 0x1030 4 0 2 + 50 ≤ r → r < 65536 →
    ∃ t, exec (.paceWindow dt (List.replicate 8 r)) s = .next t ∧ t.pace.margin = r ∧ t.pace.lowArmed = true) ∧
  (∀ (dt since l : Nat) (s : State), s.runs = true → s.pace.below = some (since, l) → since + 100000000 ≤ s.elapsed + dt → s.pace.deficitRaised = false →
    ∃ t, exec (.paceDeficit dt) s = .next t ∧ t.pace.deficitRaised = true ∧ t.mode.cur = (if s.mode.cur = .operate then .degraded else s.mode.cur) ∧
      t.ctr 0x1030 9 = min (s.ctr 0x1030 9 + 1) ctrMax ∧ Latched t 0x05 0 ∧ (s.mode.cur = .operate → t.mode.cause = 0x0103 ∧ Latched t 0x00 0)) ∧
  (∀ (dt n : Nat) (m : Msg) (v : List (BitVec 8)) (s : State) (x : Session), s.runs = true → TakesWrite (s.tick dt) m x 0x1030 7 v n → s.pace.windowDone = true →
    ∃ t, exec (.clearLowestMargin dt m v) s = .next t ∧ Answered t m x 0x12 stOk ∧
      t.pace = { s.pace with lowestMargin := s.pace.margin, lowestRing := s.pace.ring })

/-- The power-fail warning (R62, R67, R68, R69, R76): longer than 20 µs low, it is told with EV_PWR_FAIL and 0x1100.0B reads 1, and the mode
stays; a pulse within the filter does nothing. At step 5 the recorder's pending entries are in its journal, the generation, seconds
and mode are in the configuration journal, and 0x1100.0B reads 2. Back for 50 ms, EV_PWR_RESTORED is raised, it reads 0, and the
mode is as it was. Without the warning a flush writes generation, seconds and mode. -/
def Obligations.PowerFailWarning : Prop :=
  (∀ (dt low : Nat) (s : State), s.runs = true → 20000 < low → s.power.failState = 0 →
    ∃ t, exec (.pwrFail dt low) s = .next t ∧ t.power.failState = 1 ∧ t.power.failAt = s.elapsed + dt ∧ Latched t 0x01 0 ∧ t.mode.cur = s.mode.cur) ∧
  (∀ (dt low : Nat) (s : State), s.runs = true → low ≤ 20000 → exec (.pwrFail dt low) s = .next (s.tick dt)) ∧
  (∀ (dt : Nat) (s : State), s.runs = true → s.power.failState = 1 →
    ∃ t, exec (.pwrFailQuiesced dt) s = .next t ∧ t.power.failState = 2 ∧ t.jrn.time = some (s.time.gen, (s.tick dt).time.tai / 1000000000) ∧
      t.jrn.mode = s.mode.cur.code ∧ t.rec_.pend = []) ∧
  (∀ (dt : Nat) (s : State), s.runs = true → s.power.failState ≠ 0 → s.upd.resume = none → s.upd.leaving = 0 →
    ∃ t, exec (.pwrRestored dt) s = .next t ∧ t.power.failState = 0 ∧ Latched t 0x02 0 ∧ t.mode = s.mode) ∧
  (∀ (dt : Nat) (s : State), s.runs = true → s.power.failState = 0 →
    exec (.configJournalFlush dt) s = .next { s.tick dt with jrn := { s.jrn with mode := s.mode.cur.code, time := some (s.time.gen, (s.tick dt).time.tai / 1000000000) } })

/-! ## Supplies, starts, resets (R47 to R56, R70, R481, R538, R556, R557) -/

/-- Supplies, RESET_N and temperature (R47 to R50, R538): a rail that rises above its good threshold is good; once all are, power
hold lasts 2 ms more, in which nothing starts, and then step 1 begins, or RESET_N's hold while that is low; a rail below its
fail threshold puts the device into power hold at once and makes the next start a cold one; RESET_N low for 1 µs holds the device,
its release begins the start, a warm one; above 130 °C the device holds until it is below 115 °C, and then starts cold. -/
def Obligations.SuppliesAndResetAct : Prop :=
  (∀ (dt mV : Nat) (r : Rail) (s : State), s.power.good[railNo r]? = some false → railGoodAt (railNo r) < mV →
    exec (.railGood dt r mV) s = .next { s.tick dt with power := { s.power with good := s.power.good.set (railNo r) true, since := s.elapsed + dt } }) ∧
  (∀ (dt : Nat) (i : StartIn) (s : State), s.power.phase = .hold → (s.power.good.all id = false ∨ s.elapsed + dt < s.power.since + 2000000) →
    exec (.startUp dt i) s = .next (s.tick dt) ∧ exec (.resetNRelease dt) s = .next { s.tick dt with power := { s.power with resetLow := false } }) ∧
  (∀ (dt : Nat) (s : State), s.power.phase = .hold → s.power.good.all id = true → s.power.since + 2000000 ≤ s.elapsed + dt →
    (wake (s.tick dt)).power = { s.power with phase := if s.power.resetLow then .reset else .booting, attemptAt := s.power.since + 2000000 }) ∧
  (∀ (dt mV : Nat) (r : Rail) (s : State), mV < railFailAt (railNo r) →
    ∃ t, exec (.railFail dt r mV) s = .next t ∧ OnlyParts s dt [.power] t ∧ t.power.phase = .hold ∧ t.power.good = s.power.good.set (railNo r) false ∧
      t.power.start = { cause := 1, cold := true } ∧ t.power.resetLow = s.power.resetLow) ∧
  (∀ (dt width : Nat) (s : State), 1000 ≤ width → s.power.phase = .running →
    ∃ t, exec (.resetNAssert dt width) s = .next t ∧ t.power = { s.power with resetLow := true, phase := .reset, start := { cause := 2, cold := false } } ∧
      OnlyParts s dt [.free, .power] t) ∧
  (∀ (dt : Nat) (s : State), s.power.phase = .reset →
    exec (.resetNRelease dt) s = .next { s.tick dt with power := { s.power with resetLow := false, phase := .booting, since := s.elapsed + dt, attemptAt := s.elapsed + dt } }) ∧
  (∀ (dt : Nat) (tj : Int) (s : State), 130000 < tj → s.power.phase ≠ .hold → s.power.phase ≠ .thermal →
    exec (.thermalShutdown dt tj) s = .next { s.tick dt with power := { s.power with phase := .thermal, start := { cause := 1, cold := true } } }) ∧
  (∀ (dt : Nat) (tj : Int) (s : State), tj < 115000 → s.power.phase = .thermal → s.power.resetLow = false →
    exec (.thermalRecovery dt tj) s = .next { s.tick dt with power := { s.power with phase := .booting, since := s.elapsed + dt, attemptAt := s.elapsed + dt } })

/-- Starts that fail (R53): 5 s after step 1 without step 7 the attempt is counted, up to three, the stored configuration stays, and the
next begins after 100 ms of power hold; a start that took longer than 5 s is such an attempt. -/
def Obligations.FailedStartsAreRetried : Prop :=
  (∀ (dt : Nat) (s : State), s.power.phase = .booting → s.power.attemptAt + 5000000000 ≤ s.elapsed + dt →
    ∃ t, exec (.bootTimeout dt) s = .next t ∧ t.power.phase = .retry ∧ t.power.attemptAt = s.elapsed + dt ∧ t.jrn.failedBoots = min 3 (s.jrn.failedBoots + 1) ∧
      t.jrn.untold = s.jrn.untold + 1 ∧ t.jrn.cfg = s.jrn.cfg ∧ t.mode = s.mode ∧ t.cfg = s.cfg) ∧
  (∀ (dt : Nat) (s : State), s.power.phase = .retry → s.power.attemptAt + 100000000 ≤ s.elapsed + dt →
    exec (.bootRetry dt) s = .next { s.tick dt with
      power := { s.power with phase := if s.power.resetLow then .reset else .booting, since := s.elapsed + dt, attemptAt := s.elapsed + dt } }) ∧
  (∀ (dt : Nat) (i : StartIn) (s : State), s.power.phase = .booting → 5000000000 < i.took → s.jrn.failedBoots < 3 →
    ∃ t, exec (.startUp dt i) s = .next t ∧ t.power.phase = .retry ∧ t.jrn.failedBoots = s.jrn.failedBoots + 1 ∧ t.jrn.cfg = s.jrn.cfg ∧ t.cfg = s.cfg)

/-- A start that succeeds (R51, R52, R54, R59): with the recovery pin high, fewer than three failed attempts, no request for
QUICKSET and an image that verifies within the time its flash allows, the device runs, in PROVISION from MANUFACTURE and RMA, else in STANDBY with a valid stored
configuration of the image's own format and in CONFIGURE without one; the count of failed attempts is 0 again. With the pin low,
after three failed attempts, or after mode request 0, it is in QUICKSET, unless it is scrapped. Either tells the failed attempts
not yet told with EV_BOOT_RECOVERED. -/
def Obligations.StartsEnterTheBootMode : Prop :=
  (∀ (dt b : Nat) (i : StartIn) (s : State) (k : BankU), s.power.phase = .booting → i.took ≤ 5000000000 → i.recoveryLow = false → s.jrn.failedBoots < 3 →
    s.power.start.quick = false →
    i.tamper = 0 → s.upd.latest = some (2, b) → s.upd.banks[b]? = some k → (if b = 0 then i.imageOkA else i.imageOkB) = true →
    (i.octal = true ∨ mImage k.manifest ≤ 14 * 2 ^ 20) → max s.upd.secVer s.upd.secGoal ≤ mVersion k.manifest → mFormat k.manifest = s.upd.format → s.key.zeroized = false →
    ∃ t, exec (.startUp dt i) s = .next t ∧ t.power.phase = .running ∧ t.jrn.failedBoots = 0 ∧ t.mode.startCause = s.power.start.cause ∧
      t.mode.cur = (if s.key.life = .manufacture ∨ s.key.life = .rma then .provision else if s.jrn.cfgValid then .standby else .configure) ∧
      t.jrn.untold = 0 ∧ (s.jrn.untold ≠ 0 → Latched t 0x06 0)) ∧
  (∀ (dt : Nat) (i : StartIn) (s : State), s.power.phase = .booting → i.took ≤ 5000000000 →
    (i.recoveryLow = true ∨ 3 ≤ s.jrn.failedBoots ∨ s.power.start.quick = true) → s.key.life ≠ .scrapped → i.tamper = 0 →
    ∃ t, exec (.startUp dt i) s = .next t ∧ t.power.phase = .running ∧ t.mode.cur = .quickset ∧ t.jrn.untold = 0 ∧ (s.jrn.untold ≠ 0 → Latched t 0x06 0))

/-- Resets of single units and of the device (R70, R556, R557): 1 written to a reset object, in a mode that takes it and with no
reset of that unit in progress, is answered OK and EV_UNIT_RESET is raised; the unit's status reads 1, then 2, until the unit takes
its inputs again (Hedgerow with its registrations complete, or 200 ms after the write) and it reads 0; the status of no other unit
changes. The whole device waits for its response to leave, and then starts, warm, with the cause of the request. -/
def Obligations.UnitResetsAct : Prop :=
  (∀ (dt p k sub : Nat) (m : Msg) (v : List (BitVec 8)) (s : State) (x : Session) (c : Instr), p < 6 → k < 4 →
    (c, sub) ∈ [(Instr.portReset dt m p v, p + 1), (.ingestReset dt m v, 0x07), (.chainReset dt m v, 0x08), (.alignmentReset dt m v, 0x09),
      (.oscEngineReset dt m v, 0x0A), (.islEngineReset dt m v, 0x0B), (.alarmUnitReset dt m v, 0x0C), (.acqReset dt m v, 0x0D), (.hedgerowReset dt m v, 0x0E),
      (.clusterReset dt m k v, k + 0x0F), (.timebaseServoReset dt m v, 0x13), (.recorderReadersReset dt m v, 0x14), (.keyPortReset dt m v, 0x15),
      (.updateEngineReset dt m v, 0x16), (.coppiceReset dt m v, 0x17)] →
    s.runs = true → TakesWrite (s.tick dt) m x 0x1121 sub v 1 → s.resetStatus sub = stOk →
    ∃ t, exec c s = .next t ∧ Answered t m x 0x12 stOk ∧ t.resetState sub = 1 ∧ (∀ d, 0 < d → (t.tick d).resetState sub = 2) ∧ Table.getD t.rst.status sub 0 = 2 ∧
      (∀ j, j ≠ sub → Table.getD t.rst.status j 0 = Table.getD s.rst.status j 0) ∧ Latched t 0x03 sub ∧ t.cfg = s.cfg ∧ t.mode = s.mode) ∧
  (∀ (dt sub : Nat) (s : State), s.runs = true → Table.getD s.rst.status sub 0 = 2 →
    (sub = 0x0E → (s.tick dt).hrRestored = true) →
    ∃ t, exec (.unitResetComplete dt sub) s = .next t ∧ t.resetState sub = 0 ∧ Table.getD t.rst.status sub 0 = 0 ∧ (∀ j, j ≠ sub → Table.getD t.rst.status j 0 = Table.getD s.rst.status j 0)) ∧
  (∀ (dt : Nat) (m : Msg) (v : List (BitVec 8)) (s : State) (x : Session), s.runs = true → TakesWrite (s.tick dt) m x 0x1121 0x18 v 1 → s.resetStatus 0x18 = stOk →
    ∃ t, exec (.wholeDeviceReset dt m v) s = .next t ∧ Answered t m x 0x12 stOk ∧ t.rst.device = some (3, s.elapsed + dt) ∧ Latched t 0x03 0x18 ∧ t.power = s.power) ∧
  (∀ (dt cause at_ : Nat) (s : State), s.runs = true → s.rst.device = some (cause, at_) →
    ∃ t, exec (.deviceResetBegin dt) s = .next t ∧ t.power.phase = .booting ∧ t.power.start = { cause := cause, cold := false, quick := cause = 7 } ∧ OnlyParts s dt [.power] t)

/-! ## Events, the key request port, monitors, JTAG (R25 to R33, R447, R538 to R555) -/

/-- The pending latch of an event source (R25): an occurrence of a source that holds none is latched with its time, behind what is
latched; one of a source and instance that holds one counts it, up to 0xFFFF, and latches nothing more. Nothing else happens, and
an absent unit's source never fires (R7). -/
def Obligations.OccurrencesAreLatched : Prop :=
  (∀ (dt id inst : Nat) (p : BitVec 32) (s : State), s.runs = true → inst < 65536 → eventAbsent s.variant id inst = false → eventReserved id = false →
    s.ev.fenced = false → (∀ e ∈ s.ev.latch, ¬ (e.id = id ∧ e.inst = inst)) →
    ∃ t, exec (.eventRaise dt id inst p) s = .next t ∧ OnlyParts s dt [.events] t ∧
      t.ev.latch = s.ev.latch ++ [{ id := id, inst := inst, stamp := (s.tick dt).now, param := p, rep := 0, direct := false, el := s.elapsed + dt }]) ∧
  (∀ (dt id inst : Nat) (p : BitVec 32) (s : State) (l r : List Ev) (e : Ev), s.runs = true → inst < 65536 → eventAbsent s.variant id inst = false →
    eventReserved id = false → s.ev.fenced = false → s.ev.latch = l ++ e :: r → e.id = id → e.inst = inst → e.direct = false →
    (∀ y ∈ l, ¬ (y.id = id ∧ y.inst = inst)) →
    ∃ t, exec (.eventRaise dt id inst p) s = .next t ∧ OnlyParts s dt [.events] t ∧ t.ev.latch = l ++ { e with rep := min (e.rep + 1) 0xFFFF } :: r) ∧
  (∀ (dt id inst : Nat) (p : BitVec 32) (s : State), s.runs = true → inst < 65536 → (eventAbsent s.variant id inst = true ∨ eventReserved id = true) →
    exec (.eventRaise dt id inst p) s = .next (s.tick dt))

/-- Hand-over and the IRQ bits (R26, R27, R550, R554): the event handed over next is the earliest that is latched, by time generation
and time, then by ID, then by instance; if its source is enabled with the IRQ target and
its rate limit lets it pass, it sets its bit of 0xF410.01 and no other; one that its rate limit holds back is counted with those
held before it, and reaches neither IRQ_N nor the recorder; a write of 0xF410.02 clears the bits that are 1 in it and no other. -/
def Obligations.EventsReachTheHost : Prop :=
  (∀ (s : State) (g : Gen), s.ev.latch ≠ [] → s.ev.fenced = false → (∀ x ∈ s.ev.latch, (x.stamp.gen - g).toNat ≤ 32767) →
    ∃ e ∈ s.ev.latch, s.nextEvent = some e ∧ ∀ x ∈ s.ev.latch, Stamp.before x.stamp e.stamp = false ∧ (x.stamp = e.stamp → e.id < x.id ∨ (e.id = x.id ∧ e.inst ≤ x.inst))) ∧
  (∀ (dt : Nat) (s : State) (e : Ev), s.runs = true → s.nextEvent = some e → e.direct = false → e.id < 256 →
    bit ((s.routing e).u 0xF400 1 (8 * e.id) 1) 0 = true → bit ((s.routing e).u 0xF400 1 (8 * e.id + 1) 1) 0 = true →
    (∀ u, Table.find s.ev.lastOut (e.id * 65536 + e.inst) = some u → u + (s.routing e).u 0xF400 1 (8 * e.id + 2) 2 * 1000000 ≤ s.elapsed + dt) →
    ∃ t, exec (.eventHandover dt) s = .next t ∧ t.ev.irq = s.ev.irq ||| (1#256 <<< e.id) ∧ t.cfg = s.cfg ∧ t.mode = s.mode) ∧
  (∀ (dt u : Nat) (s : State) (e : Ev), s.runs = true → s.nextEvent = some e → e.direct = false → e.id ≠ 0x0D →
    (bit ((s.routing e).u 0xF400 1 (8 * e.id) 1) 0 = true ∨ permSelected (s.routing e) e.id = true) →
    Table.find s.ev.lastOut (e.id * 65536 + e.inst) = some u → s.elapsed + dt < u + (s.routing e).u 0xF400 1 (8 * e.id + 2) 2 * 1000000 →
    ∃ t, exec (.eventHandover dt) s = .next t ∧ Table.getD t.ev.held (e.id * 65536 + e.inst) 0 = Table.getD s.ev.held (e.id * 65536 + e.inst) 0 + 1 + e.rep ∧
      t.ev.latch = s.ev.latch.erase e ∧ OnlyParts s dt [.events] t) ∧
  (∀ (dt n : Nat) (m : Msg) (v : List (BitVec 8)) (s : State) (x : Session), s.runs = true → TakesWrite (s.tick dt) m x 0xF410 2 v n → v.length = 32 →
    ∃ t, exec (.irqClear dt m v) s = .next t ∧ Answered t m x 0x12 stOk ∧ t.ev.irq = s.ev.irq &&& ~~~(BitVec.ofNat 256 n) ∧
      OnlyParts s dt [.events, .irq, .stats, .sessions, .keyPort] t)

/-- The key request port (R30 to R33, R446, R447, R455, R467, R292): a request with a fit key takes its lane when that is free and otherwise
waits behind the others, with the key it found; one without a fit key is answered KEY_REVOKED and counted at 0xA080.04; while the
engine is fenced any is answered BUSY. A lane that ends its request answers with what the operation gives: the HMAC or the GMAC of the data, and of
data with a tag OK or REJECTED as it verifies under that key; it counts the request for its class and its key, and, where no
manifest waits, takes the next that waits for it: of the highest class, and of that class the one whose requester follows the one served last. -/
def Obligations.KeyRequestsAreServed : Prop :=
  (∀ (dt : Nat) (r : KeyReq) (s : State), s.runs = true → s.fenced 12 0 = false → (r.cls = 0 ∨ Table.getD s.rst.status 0x15 0 = 0) → s.keyFit r.handle r.usage (r.op = .gooseGcm) = true →
    ∃ t, exec (.keyRequest dt r) s = .next t ∧ OnlyParts s dt [.keyPort] t ∧ t.key.answer = none ∧
      (r.asym = true → s.key.asym = none → t.key.asym = some ⟨r, (s.kslot r.handle).mat, (s.kslot r.handle).point⟩ ∧ t.key.waiting = s.key.waiting ∧ t.key.sym = s.key.sym) ∧
      (r.asym = false → s.key.sym = none → t.key.sym = some ⟨r, (s.kslot r.handle).mat, (s.kslot r.handle).point⟩ ∧ t.key.waiting = s.key.waiting ∧ t.key.asym = s.key.asym) ∧
      ((if r.asym then s.key.asym else s.key.sym).isSome = true → t.key.waiting = s.key.waiting ++ [⟨r, (s.kslot r.handle).mat, (s.kslot r.handle).point⟩] ∧ t.key.sym = s.key.sym ∧ t.key.asym = s.key.asym)) ∧
  (∀ (dt : Nat) (r : KeyReq) (s : State), s.runs = true → s.fenced 12 0 = false → (r.cls = 0 ∨ Table.getD s.rst.status 0x15 0 = 0) → s.keyFit r.handle r.usage (r.op = .gooseGcm) = false →
    ∃ t, exec (.keyRequest dt r) s = .next t ∧ t.key = { s.key with answer := some (r, stRevoked, []) } ∧ t.ctr 0xA080 4 = min (s.ctr 0xA080 4 + 1) ctrMax) ∧
  (∀ (dt : Nat) (r : KeyReq) (s : State), s.runs = true → s.fenced 12 0 = true →
    ∃ t, exec (.keyRequest dt r) s = .next t ∧ t.key = { s.key with answer := some (r, stBusy, []) } ∧ OnlyParts s dt [.keyPort] t) ∧
  (∀ (dt : Nat) (b : Bool) (r : KeyReq) (a : Shares) (q : List (BitVec 8)) (s : State), s.runs = true → s.upd.waiting = none →
    (if b then s.key.asym else s.key.sym) = some ⟨r, a, q⟩ →
    ∃ t, exec (.keyRequestComplete dt b) s = .next t ∧
      (r.op = .gooseHmac → r.mac = none → t.key.answer = some (r, stOk, hmac a.key r.data)) ∧
      (r.op = .gooseGcm → r.mac = none → t.key.answer = some (r, stOk, gcmTag a.key r.iv r.data [])) ∧
      (r.op = .manifestVerify → t.key.answer = some (r, if ecdsaVerify q r.data (r.mac.getD []) then stOk else stRejected, [])) ∧
      (r.op = .gooseHmac → r.mac.isSome = true → t.key.answer = some (r, if r.mac = some (hmac a.key r.data) then stOk else stRejected, [])) ∧
      t.ctr 0xA080 (r.cls + 1) = min (s.ctr 0xA080 (r.cls + 1) + 1) ctrMax ∧
      (r.usage < 16 → Table.getD t.key.uses r.handle 0 = satCount (Table.getD s.key.uses r.handle 0) 1) ∧
      (∀ n, n ≠ r.handle → Table.getD t.key.uses n 0 = Table.getD s.key.uses n 0) ∧ (∀ n, t.kslot n = s.kslot n) ∧
      (if b then t.key.sym = s.key.sym else t.key.asym = s.key.asym) ∧
      ((∀ y ∈ s.key.waiting, y.req.asym ≠ b) → (if b then t.key.asym else t.key.sym) = none ∧ t.key.waiting = s.key.waiting) ∧
      ((∃ y ∈ s.key.waiting, y.req.asym = b) → (if b then t.key.asym else t.key.sym) ≠ none) ∧
      (∀ y, (if b then t.key.asym else t.key.sym) = some y → y ∈ s.key.waiting ∧ y.req.asym = b ∧ t.key.waiting = s.key.waiting.erase y ∧
        (∀ z ∈ s.key.waiting, z.req.asym = b → y.req.cls ≤ z.req.cls) ∧
        (y.req.cls = r.cls → ∀ z ∈ s.key.waiting, z.req.asym = b → z.req.cls = r.cls →
          if r.requester < y.req.requester then r.requester < z.req.requester → y.req.requester ≤ z.req.requester
          else z.req.requester ≤ r.requester ∧ y.req.requester ≤ z.req.requester)))

/-- The monitors (R462, R538, R540, R547, R548): a sample that asserts and releases no tamper source keeps the temperature within the sensor's range, the highest seen, the sum over
time and the rails as they were measured; above the threshold at 0xF300.04 it raises EV_TJ_HIGH, once until the temperature has
fallen 5 °C below; a rail out of its rated range for 1 ms raises EV_RAIL_RANGE once; a write sets the highest back to the present temperature. JTAG takes every instruction in
MANUFACTURE and RMA and only IDCODE and BYPASS elsewhere. -/
def Obligations.MonitorsAct : Prop :=
  (∀ (dt : Nat) (tj h : Int) (rails : List Nat) (s : State), s.runs = true → s.mon.high = some h → max (-60000) (min 150000 tj) ≤ s.cf.u 0xF300 4 0 1 * 1000 →
    bit s.key.tamperNow 2 = false → bit s.key.tamperNow 3 = false → (bit (s.cf.u 0xA010 2 0 1) 2 = false ∨ railsAbove rails = false) →
    (bit (s.cf.u 0xA010 2 0 1) 3 = false ∨ tjOut tj = false) →
    ∃ t, exec (.monitorSample dt tj rails) s = .next t ∧ t.mon.tj = max (-60000) (min 150000 tj) ∧ t.mon.high = some (max (max (-60000) (min 150000 tj)) h) ∧
      t.mon.sum = s.mon.sum + max (-60000) (min 150000 tj) * (s.elapsed + dt - s.mon.at_ : Nat) ∧ t.mon.span = s.mon.span + (s.elapsed + dt - s.mon.at_) ∧
      (rails = [] → t.ev = s.ev) ∧ (∀ k w, k < 7 → rails[k]? = some w → (t.rail k).mv = w) ∧ OnlyParts s dt [.events, .mon] t) ∧
  (∀ (dt : Nat) (tj : Int) (rails : List Nat) (s : State), s.runs = true → s.cf.u 0xF300 4 0 1 * 1000 < max (-60000) (min 150000 tj) → s.mon.armed = true →
    ∃ t, exec (.monitorSample dt tj rails) s = .next t ∧ t.mon.tj = max (-60000) (min 150000 tj) ∧ t.mon.armed = false ∧ Latched t 0xF8 0) ∧
  (∀ (dt : Nat) (tj : Int) (s : State), s.runs = true → s.cf.u 0xF300 4 0 1 * 1000 < tj + 5000 → tj ≤ 150000 → s.mon.armed = false →
    bit s.key.tamperNow 2 = false → bit s.key.tamperNow 3 = false → (bit (s.cf.u 0xA010 2 0 1) 3 = false ∨ tjOut tj = false) →
    ∃ t, exec (.monitorSample dt tj []) s = .next t ∧ t.mon.tj = max (-60000) tj ∧ t.mon.armed = false ∧ t.ev = s.ev) ∧
  (∀ (dt k mv u : Nat) (tj : Int) (rails : List Nat) (s : State), s.runs = true → k < 7 → rails[k]? = some mv → (s.rail k).armed = true → (s.rail k).out = true →
    (s.rail k).since = some u → u + 1000000 ≤ s.elapsed + dt → railFailAt k ≤ mv → (mv < (railRange k).1 ∨ (railRange k).2 < mv) →
    ∃ t, exec (.monitorSample dt tj rails) s = .next t ∧ (t.rail k).mv = mv ∧ (t.rail k).armed = false ∧ Latched t 0xF9 0) ∧
  (∀ (dt n : Nat) (m : Msg) (v : List (BitVec 8)) (s : State) (x : Session), s.runs = true → TakesWrite (s.tick dt) m x 0xF300 3 v n →
    ∃ t, exec (.clearHighestTj dt m v) s = .next t ∧ Answered t m x 0x12 stOk ∧ t.mon = { s.mon with high := some s.mon.tj }) ∧
  (∀ (dt : Nat) (i : Jtag) (s : State), s.runs = true →
    exec (.jtagInstruction dt i) s = .next { s.tick dt with jtag := if i = .idcode then .idcode else if (s.key.life = .manufacture ∨ s.key.life = .rma) ∧ i ≠ .other then i else .bypass })

/-! ## Time: sources, the servo, steps, leap seconds (R81 to R102, R560, R561) -/

/-- Sources (R83 to R86). One that has been valid for the qualification time becomes qualified; the timebase, free-running or
in holdover with no other qualified, takes it and enters ACQUIRING, slewing the offset out when it is within the slew limit, with no
step, and otherwise stepping by the whole offset into the next generation, with EV_TIME_STEP; of 1PPS only the phase counts while
no source gives it time of day. A source valid for less stays unqualified. The source in use losing its qualification with no
other leads from LOCKED to HOLDOVER, with no step, and one that is not qualified loses its validity alone. The offset within
100 ns for 16 s leads from ACQUIRING to LOCKED, with its event. -/
def Obligations.SourcesAndServoAct : Prop :=
  (∀ (dt k v : Nat) (off : Int) (s : State), s.runs = true → s.cop.bypass.contains 14 = false → (s.time.state = .freerun ∨ s.time.state = .holdover) →
    k ∈ s.srcOrder → (∀ j ∈ s.srcOrder, (s.src j).qualified = false) → (s.src k).validSince = some v →
    v + s.cf.u 0x3010 9 0 2 * 1000000000 ≤ s.elapsed + dt → (s.offsetOf k off).natAbs ≤ s.cf.u 0x3040 1 0 4 * 1000 →
    ∃ t, exec (.sourceQualified dt k off) s = .next t ∧ (t.src k).qualified = true ∧ t.time.state = .acquiring ∧ t.time.source = k ∧ t.time.slew = s.offsetOf k off ∧
      t.time.gen = s.time.gen ∧ t.time.tai = (s.tick dt).time.tai) ∧
  (∀ (dt k v : Nat) (off : Int) (s : State), s.runs = true → s.cop.bypass.contains 14 = false → (s.time.state = .freerun ∨ s.time.state = .holdover) →
    k ∈ s.srcOrder → (∀ j ∈ s.srcOrder, (s.src j).qualified = false) → (s.src k).validSince = some v →
    v + s.cf.u 0x3010 9 0 2 * 1000000000 ≤ s.elapsed + dt → s.cf.u 0x3040 1 0 4 * 1000 < (s.offsetOf k off).natAbs →
    ∃ t, exec (.sourceQualified dt k off) s = .next t ∧ (t.src k).qualified = true ∧ t.time.state = .acquiring ∧ t.time.source = k ∧ t.time.slew = 0 ∧
      t.time.gen = s.time.gen + 1#16 ∧ t.time.tai = (((s.tick dt).time.tai : Int) - s.offsetOf k off).toNat ∧ t.time.lastStep = -(s.offsetOf k off) ∧ Latched t 0x10 0) ∧
  (∀ (dt k v : Nat) (off : Int) (s : State), s.runs = true → (s.src k).validSince = some v → s.elapsed + dt < v + s.cf.u 0x3010 9 0 2 * 1000000000 →
    exec (.sourceQualified dt k off) s = .next (s.tick dt)) ∧
  (∀ (dt k : Nat) (s : State), s.runs = true → s.cop.bypass.contains 14 = false → s.time.state = .locked → s.time.source = k → (s.src k).qualified = true →
    (∀ j ∈ s.srcOrder, (s.src j).qualified = true → j = k) →
    ∃ t, exec (.sourceDisqualified dt k) s = .next t ∧ (t.src k).qualified = false ∧ (t.src k).validSince = none ∧ t.time.state = .holdover ∧
      t.time.holdAt = s.elapsed + dt ∧ t.time.unlockedAt = some (s.elapsed + dt) ∧ t.time.gen = s.time.gen ∧ t.time.tai = (s.tick dt).time.tai ∧ Latched t 0x12 0) ∧
  (∀ (dt k : Nat) (s : State), s.runs = true → (s.src k).qualified = false →
    exec (.sourceDisqualified dt k) s = .next ((s.tick dt).setSrc k { s.src k with validSince := none, fault := false })) ∧
  (∀ (dt since : Nat) (s : State), s.runs = true → s.cop.bypass.contains 14 = false → s.time.state = .acquiring → s.time.settled = some since →
    since + 16000000000 ≤ s.elapsed + dt →
    ∃ t, exec (.servoLocked dt) s = .next t ∧ t.time.state = .locked ∧ t.time.unlocked = false ∧ t.time.gen = s.time.gen ∧ t.time.source = s.time.source ∧
      Latched t 0x14 0 ∧ OnlyParts s dt [.events, .time] t)

/-- Without a source (R85, R87, R89, R91, R92). In HOLDOVER, and in a switch of sources, which counts as that, the estimated error is
e(t), and the time is unlocked unless that is below the threshold, with EV_TIME_UNLOCKED as it becomes so; the unlocked duration
gives its class; a lost reference clock leads to REF_FAULT without a step, the backup oscillator running at its last measured
frequency, which no rule gives, with its event; a restored one leads to FREERUN, without a step while no source is qualified. -/
def Obligations.UnlockedTimeActs : Prop :=
  (∀ (dt : Nat) (s : State), s.runs = true → s.time.inHoldover = true →
    ∃ t, exec (.holdoverUpdate dt) s = .next t ∧ t.time.err = (s.tick dt).holdError ∧ t.time.unlocked = !decide (t.time.err < s.cf.u 0x3040 5 0 4) ∧
      (t.time.unlocked = true → s.time.unlocked = false → Latched t 0x13 0) ∧ OnlyParts s dt [.events, .time] t) ∧
  (∀ (dt u : Nat) (s : State), s.runs = true → s.time.state ≠ .locked → s.time.unlockedAt = some u →
    ∃ t, exec (.unlockedClassStep dt) s = .next t ∧ OnlyParts s dt [.time] t ∧
      t.time = { (s.tick dt).time with durClass := if (s.elapsed + dt - u) / 1000000000 < 10 then 0 else if (s.elapsed + dt - u) / 1000000000 < 100 then 1
                                                    else if (s.elapsed + dt - u) / 1000000000 < 1000 then 2 else 3 }) ∧
  (∀ (dt : Nat) (s : State), s.runs = true → s.time.refPresent = true →
    ∃ t, exec (.refClkLost dt) s = .next t ∧ t.time.state = .refFault ∧ t.time.refPresent = false ∧ t.time.gen = s.time.gen ∧ t.time.tai = (s.tick dt).time.tai ∧
      t.time.backup = Config.freeFreq s.freeCount ∧ t.time.freq = s.time.freq ∧ Latched t 0x16 0 ∧ OnlyParts s dt [.events, .free, .time] t) ∧
  (∀ (dt : Nat) (off : Int) (s : State), s.runs = true → s.time.refPresent = false → (∀ j ∈ s.srcOrder, (s.src j).qualified = false) →
    ∃ t, exec (.refClkRestored dt off) s = .next t ∧ t.time.state = .freerun ∧ t.time.source = 0 ∧ t.time.refPresent = true ∧ t.time.gen = s.time.gen ∧
      t.time.tai = (s.tick dt).time.tai)

/-- A step by request (R88): a write of 0x3000.08 while no source is qualified is accepted, steps internal time to the value, begins a
new time generation and leaves the timebase in FREERUN; while a source is qualified it is REJECTED and time stays. -/
def Obligations.TimeIsSetByRequest : Prop :=
  (∀ (dt n : Nat) (m : Msg) (v : List (BitVec 8)) (s : State) (x : Session), s.runs = true → TakesWrite (s.tick dt) m x 0x3000 8 v n →
    field v 6 4 ≤ 999999999 → (∀ k, 1 ≤ k → k ≤ 8 → (s.src k).qualified = false) →
    ∃ t, exec (.setTime dt m v) s = .next t ∧ Answered t m x 0x12 stOk ∧ t.time.tai = field v 0 6 * 1000000000 + field v 6 4 ∧ t.time.gen = s.time.gen + 1#16 ∧
      t.time.state = .freerun ∧ t.time.source = 0 ∧ Latched t 0x10 0) ∧
  (∀ (dt n k : Nat) (m : Msg) (v : List (BitVec 8)) (s : State) (x : Session), s.runs = true → TakesWrite (s.tick dt) m x 0x3000 8 v n →
    1 ≤ k → k ≤ 8 → (s.src k).qualified = true →
    ∃ t, exec (.setTime dt m v) s = .next t ∧ Answered t m x 0x12 stRejected ∧ t.time = (s.tick dt).time)

/-- What the sources bring (R81 to R84, R96, R101, R128, R131). An Announce of the port's domain, from the sender followed or from a
better one, is followed, and gives port state, grandmaster, UTC offset and leap. A Sync of the sender followed gives its time of
arrival, and with its stamp, or its Follow_Up with the Sync's, the offset. A peer delay follow-up gives half of the round trip less
the turnaround. A receipt timeout ends what was followed, and the source with it. A Pdelay_Req goes out in class 1 asking for its
stamp; Sync and Announce do so on a port in MASTER state, Sync in LOCKED only. A PPS edge 1 s ± 10 µs after the last is valid, another
is not, and a pulse shorter than 1 µs or longer than 500 ms is none. An IRIG-B frame with its marker on time is valid, and its
extension gives UTC offset and leap; one that does not decode is not. -/
def Obligations.TimeSourcesAreRead : Prop :=
  (∀ (dt : Nat) (f : PtpMsg) (s : State), s.runs = true → f.port < s.ports → s.cf.u (0x3020 + f.port) 1 0 1 ≠ 0 → f.domain = s.cf.u (0x3020 + f.port) 3 0 1 →
    f.msgType = 0x0B → (∀ d who, (s.ptpP f.port).best = some (d, who) → who = f.sender ∨ PtpDs.better f.ds d = true) →
    ∃ t, exec (.ptpFrameReceive dt f) s = .next t ∧ (t.ptpP f.port).announceAt = some (s.elapsed + dt) ∧ (t.ptpP f.port).best = some (f.ds, f.sender) ∧
      (t.ptpP f.port).gmId = f.ds.gmId ∧ (t.ptpP f.port).state = s.ptpState f.port (some f.ds) ∧ (t.src (f.port + 1)).utc = f.utcOffset ∧
      (t.src (f.port + 1)).leap = f.leap) ∧
  (∀ (dt : Nat) (f : PtpMsg) (s : State) (d : PtpDs), s.runs = true → f.port < s.ports → s.cf.u (0x3020 + f.port) 1 0 1 ≠ 0 →
    f.domain = s.cf.u (0x3020 + f.port) 3 0 1 → f.msgType = 0 → (s.ptpP f.port).best = some (d, f.sender) →
    ∃ t, exec (.ptpFrameReceive dt f) s = .next t ∧ (t.ptpP f.port).syncAt = some (s.elapsed + dt)) ∧
  (∀ (dt : Nat) (f : PtpMsg) (s : State) (d : PtpDs) (e : TsEntry) (r : List TsEntry), s.runs = true → f.port < s.ports → s.cf.u (0x3020 + f.port) 1 0 1 ≠ 0 →
    f.domain = s.cf.u (0x3020 + f.port) 3 0 1 → f.msgType = 0 → f.twoStep = false → (s.ptpP f.port).best = some (d, f.sender) → d.clockClass < 248 →
    (s.ptpP f.port).state = 9 → (s.ptpP f.port).announceAt.isSome = true → (s.prt f.port).tsq = e :: r → e.tx = false → e.kind = 0 → e.domain = f.domain →
    e.seqId = f.seqId → e.stamp.gen = s.time.gen →
    ∃ t, exec (.ptpFrameReceive dt f) s = .next t ∧ (t.src (f.port + 1)).offset = (e.stamp.ns : Int) - f.origin - (s.ptpP f.port).peerDelay ∧
      (t.src (f.port + 1)).validSince.isSome = true ∧ (t.prt f.port).tsq = r) ∧
  (∀ (dt : Nat) (f : PtpMsg) (s : State) (d : PtpDs) (rx : Stamp), s.runs = true → f.port < s.ports → s.cf.u (0x3020 + f.port) 1 0 1 ≠ 0 →
    f.domain = s.cf.u (0x3020 + f.port) 3 0 1 → f.msgType = 8 → (s.ptpP f.port).best = some (d, f.sender) → (s.ptpP f.port).synced = some (f.seqId, rx) →
    rx.gen = s.time.gen →
    ∃ t, exec (.ptpFrameReceive dt f) s = .next t ∧ (t.src (f.port + 1)).offset = (rx.ns : Int) - f.origin - (s.ptpP f.port).peerDelay ∧
      (t.ptpP f.port).synced = none) ∧
  (∀ (dt : Nat) (f : PtpMsg) (s : State) (a b : Stamp), s.runs = true → f.port < s.ports → s.cf.u (0x3020 + f.port) 1 0 1 ≠ 0 →
    f.domain = s.cf.u (0x3020 + f.port) 3 0 1 → f.msgType = 0x0A → (s.ptpP f.port).answered = some (f.seqId, a, b) → a.gen = b.gen →
    ∃ t, exec (.ptpFrameReceive dt f) s = .next t ∧ (t.ptpP f.port).peerDelay = (b.ns - a.ns - f.turnaround) / 2 ∧ (t.ptpP f.port).answered = none) ∧
  (∀ (dt p : Nat) (s : State), s.runs = true → p < s.ports → s.cf.u (0x3020 + p) 1 0 1 ≠ 0 →
    ∃ t, exec (.ptpReceiptTimeout dt p) s = .next t ∧ (t.ptpP p).best = none ∧ (t.ptpP p).announceAt = none ∧ (t.ptpP p).syncAt = none ∧
      (t.src (p + 1)).validSince = none ∧ (t.src (p + 1)).qualified = false) ∧
  (∀ (dt p dom seq : Nat) (s : State), s.runs = true → s.portRuns p = true → (s.prt p).up = true → s.cf.u (0x3020 + p) 1 0 1 ≠ 0 → s.queueFull (97 + 4 * p) = false →
    72 ≤ s.maxFrame p 0 →
    ∃ t, exec (.ptpTransmit dt p 2 dom seq) s = .next t ∧ (t.queue (97 + 4 * p)).items = (s.queue (97 + 4 * p)).items ++ [txItem p 1 72 (some (2, dom, seq))] ∧
      t.time = (s.tick dt).time ∧ t.port = s.port) ∧
  (∀ (dt p dom seq k : Nat) (s : State), s.runs = true → s.portRuns p = true → (s.prt p).up = true → s.cf.u (0x3020 + p) 1 0 1 ≠ 0 → s.queueFull (97 + 4 * p) = false →
    82 ≤ s.maxFrame p 0 → (k = 0 ∨ k = 0x0B) →
    ∃ t, exec (.ptpTransmit dt p k dom seq) s = .next t ∧
      (t.queue (97 + 4 * p)).items = (if (s.ptpP p).state = 6 ∧ k = 0x0B then (s.queue (97 + 4 * p)).items ++ [txItem p 1 82 none]
        else if (s.ptpP p).state = 6 ∧ s.time.state = .locked then (s.queue (97 + 4 * p)).items ++ [txItem p 1 64 (some (0, dom, seq))]
        else (s.queue (97 + 4 * p)).items)) ∧
  (∀ (dt v width : Nat) (s : State), s.runs = true → 1000 ≤ width → width ≤ 500000000 → s.time.ppsLast = some v → v + 999990000 ≤ s.elapsed + dt →
    s.elapsed + dt ≤ v + 1000010000 →
    ∃ t, exec (.ppsEdge dt width) s = .next t ∧ t.time.ppsLast = some (s.elapsed + dt) ∧ (t.src 7).validSince.isSome = true ∧
      (t.src 7).offset = (s.tick dt).offsetOf 7 (s.tick dt).ppsOffset ∧ (t.src 7).qualified = (s.src 7).qualified) ∧
  (∀ (dt v width : Nat) (s : State), s.runs = true → 1000 ≤ width → width ≤ 500000000 → s.time.ppsLast = some v →
    (s.elapsed + dt < v + 999990000 ∨ v + 1000010000 < s.elapsed + dt) →
    ∃ t, exec (.ppsEdge dt width) s = .next t ∧ t.time.ppsLast = some (s.elapsed + dt) ∧ (t.src 7).validSince = none ∧ (t.src 7).qualified = false) ∧
  (∀ (dt width : Nat) (s : State), s.runs = true → (width < 1000 ∨ 500000000 < width) → exec (.ppsEdge dt width) s = .next (s.tick dt)) ∧
  (∀ (dt v : Nat) (x : IrigExt) (f : IrigFrame) (s : State), s.runs = true → s.cf.u 0x3030 2 0 1 ≠ 0 → f.decodes = true → f.ext = some x →
    s.time.irigLast = some v → f.ago ≤ s.elapsed + dt → v + 999990000 ≤ s.elapsed + dt - f.ago → s.elapsed + dt - f.ago ≤ v + 1000010000 →
    ∃ t, exec (.irigbFrame dt f) s = .next t ∧ (t.src 8).validSince.isSome = true ∧ (t.src 8).utc = some x.utcOffset ∧ (t.src 8).leap = x.leap ∧
      t.time.irigExt = true ∧ t.time.irigLast = some (s.elapsed + dt - f.ago)) ∧
  (∀ (dt : Nat) (f : IrigFrame) (s : State), s.runs = true → s.cf.u 0x3030 2 0 1 ≠ 0 → f.decodes = false →
    ∃ t, exec (.irigbFrame dt f) s = .next t ∧ (t.src 8).validSince = none ∧ (t.src 8).qualified = false)

/-- Leap seconds and the pulse output (R90, R97): from 60 s before a scheduled leap the pending bit is set; at its instant the UTC
offset moves by one, up for an inserted second and down for a deleted one, the occurred bit is set, the configured offset
follows, within its range, when no source gives one, and EV_LEAP is raised; 24 h later the occurred bit is clear; a pulse of
10 ms begins on each TAI second while enabled. -/
def Obligations.LeapSecondsAct : Prop :=
  (∀ (dt : Nat) (s : State), s.runs = true → s.time.leap ≠ 0 → s.time.leapAt ≤ (s.tick dt).time.tai + 60000000000 →
    exec (.leapPendingStart dt) s = .next { s.tick dt with time := { (s.tick dt).time with leapPend := true } }) ∧
  (∀ (dt : Nat) (s : State), s.runs = true → (s.time.leap = 1 ∨ s.time.leap = 2) → s.time.leapAt ≤ (s.tick dt).time.tai →
    ∃ t, exec (.leapOccur dt) s = .next t ∧ t.time.utc = (if s.time.leap = 1 then s.time.utc + 1 else s.time.utc - 1) ∧ t.time.leap = 0 ∧ t.time.leapPend = false ∧
      t.time.leapDone = true ∧ t.time.doneAt = s.time.leapAt ∧ t.time.doneDel = decide (s.time.leap = 2) ∧ Latched t 0x15 0 ∧
      t.cfg = (if s.utcSource.isNone then
        { s.cfg with live := Memory.writes s.variant s.cfg.live (cfgAddr 0x3050 1 0) (toBEi 4 (max 0 (min 100 t.time.utc))) } else s.cfg)) ∧
  (∀ (dt : Nat) (s : State), s.runs = true → s.time.leapDone = true → s.time.leapDoneAt + 86400000000000 ≤ s.elapsed + dt →
    exec (.leapOccurredClear dt) s = .next { s.tick dt with time := { (s.tick dt).time with leapDone := false } }) ∧
  (∀ (dt : Nat) (s : State), s.runs = true → s.cf.u 0x3040 6 0 1 = 1 → (s.tick dt).time.tai % 1000000000 = 0 →
    ∃ t, exec (.ppsOutPulse dt) s = .next t ∧ t.ppsLevel = true ∧ (t.tick 10000000).ppsLevel = false ∧
      t.time = { (s.tick dt).time with ppsOut := true, ppsOutAt := s.elapsed + dt } ∧ OnlyParts s dt [.time] t)

/-! ## Ethernet ports (R103 to R134) -/

/-- A received frame (R107 to R121), outside QUICKSET, where no port statistic is kept: one shorter than 64 bytes is counted at .03, one
longer than the port takes at .04, one whose FCS fails at .05, and does nothing else. A good one that no filter entry decides goes
to the queue of the default action, as one item of type 0x10 with its length and, beside it, its bytes, when that queue's consumer is
stream ingest or the archive and takes its type; it is counted at .01, and its bytes at .02. One that an entry rejects is counted
at .09 and goes nowhere. A datagram still incomplete 2 s after its first fragment is dropped, and counted unless it was refused. -/
def Obligations.ReceivedFramesAreSteered : Prop :=
  (∀ (dt p : Nat) (f : Frame) (c : Cf) (s : State), s.runs = true → s.portRuns p = true → (s.prt p).up = true → s.mode.cur ≠ .quickset → f.pcsErrors = 0 →
    ((s.tick dt).cfFor (s.tick dt).now).1 = c → (frameLen f.bytes ≤ 63 ∨ longest c p (tagCount f.bytes) < frameLen f.bytes ∨ f.fcsOk = false) →
    ∃ t k, exec (.frameReceive dt p f) s = .next t ∧ k = (if frameLen f.bytes ≤ 63 then 3 else if longest c p (tagCount f.bytes) < frameLen f.bytes then 4 else 5) ∧
      t.ctr (0x2080 + p) k = min (s.ctr (0x2080 + p) k + 1) ctrMax ∧ OnlyParts s dt [.events, .stats] t) ∧
  (∀ (dt p q : Nat) (f : Frame) (c : Cf) (s : State), s.runs = true → s.portRuns p = true → (s.prt p).up = true → s.mode.cur.ingests = true → f.pcsErrors = 0 →
    f.fcsOk = true → ((s.tick dt).cfFor (s.tick dt).now).1 = c → 64 ≤ frameLen f.bytes → frameLen f.bytes ≤ longest c p (tagCount f.bytes) →
    frameType f.bytes ≠ 0x8808 → (destClass p (field f.bytes 0 6) = 3 → portF c p 4 1 = 1) → filterFor c p f.bytes = none → portF c p 8 1 = q → q < 16 →
    (consumerOf c p q = 1 ∨ consumerOf c p q = 2) → consumerTakes (consumerOf c p q) f.bytes = true → s.queueFull (16 * p + q) = false →
    s.portBuffer p + frameLen f.bytes ≤ 268435456 →
    ∃ t it, exec (.frameReceive dt p f) s = .next t ∧ (t.queue (16 * p + q)).items = (s.queue (16 * p + q)).items ++ [it] ∧ it.take 1 = [0x10#8] ∧
      (it.drop 22).take 2 = toBE 2 (frameLen f.bytes) ∧ (t.queue (16 * p + q)).data = (s.queue (16 * p + q)).data ++ [f.bytes] ∧
      t.ctr (0x2080 + p) 1 = min (s.ctr (0x2080 + p) 1 + 1) ctrMax ∧
      t.ctr (0x2080 + p) 2 = min (s.ctr (0x2080 + p) 2 + frameLen f.bytes) ctrMax ∧ t.port = s.port) ∧
  (∀ (dt p k e : Nat) (f : Frame) (c : Cf) (s : State), s.runs = true → s.portRuns p = true → (s.prt p).up = true → s.mode.cur ≠ .quickset → f.pcsErrors = 0 →
    f.fcsOk = true → ((s.tick dt).cfFor (s.tick dt).now).1 = c → 64 ≤ frameLen f.bytes → frameLen f.bytes ≤ longest c p (tagCount f.bytes) →
    frameType f.bytes ≠ 0x8808 → (destClass p (field f.bytes 0 6) = 3 → portF c p 4 1 = 1) → filterFor c p f.bytes = some (k, e) → bit e 21 = true →
    ∃ t, exec (.frameReceive dt p f) s = .next t ∧ t.ctr (0x2080 + p) 9 = min (s.ctr (0x2080 + p) 9 + 1) ctrMax ∧ OnlyParts s dt [.events, .stats] t) ∧
  (∀ (dt p src ident : Nat) (r : Reasm) (s : State), s.runs = true → s.mode.cur ≠ .quickset → r ∈ (s.prt p).reasm → r.src = src → r.ident = ident →
    r.start + 2000000000 ≤ s.elapsed + dt → (∀ x ∈ (s.prt p).reasm, x.src = src → x.ident = ident → x = r) → (s.prt p).reasm.Nodup →
    ∃ t, exec (.ipReassemblyTimeout dt p src ident) s = .next t ∧ r ∉ (t.prt p).reasm ∧ (∀ x ∈ (s.prt p).reasm, x ≠ r → x ∈ (t.prt p).reasm) ∧
      t.ctr (0x2080 + p) 0x1D = min (s.ctr (0x2080 + p) 0x1D + b2n (!r.refused)) ctrMax)

/-- Sending (R113, R122 to R124): the frame in progress ends and is counted with its bytes; the next comes from the highest class that is
not empty, and a paused port starts none; a message of the Osrider server for the port joins class 3 first. A TCP send is cut into
segments that hold each byte of the payload once, in order, and none of more than the MSS, counted at .14. A UDP datagram that
fits one frame goes out whole; one that does not is refused and counted at .16 with DF set, and with DF clear is cut into fragments
that hold each byte of it once, in order, all but the last of a multiple of 8 bytes, counted at .15. No count is kept in QUICKSET. -/
def Obligations.FramesAreSent : Prop :=
  (∀ (dt p e : Nat) (b : Bytes) (s : State), s.runs = true → s.portRuns p = true → (s.prt p).up = true → s.mode.cur ≠ .quickset → s.osr.outbox = [] →
    (s.prt p).sending = some b → (s.prt p).pauseEnd = some e →
    ∃ t, exec (.frameTransmit dt p) s = .next t ∧ t.prt p = { s.prt p with sending := none } ∧ t.ctr (0x2080 + p) 0x11 = min (s.ctr (0x2080 + p) 0x11 + 1) ctrMax ∧
      t.ctr (0x2080 + p) 0x12 = min (s.ctr (0x2080 + p) 0x12 + frameLen b) ctrMax ∧ t.store = s.store) ∧
  (∀ (dt p c : Nat) (it b : Bytes) (r d : List Bytes) (s : State), s.runs = true → s.portRuns p = true → (s.prt p).up = true → s.osr.outbox = [] →
    (s.prt p).sending = none → (s.prt p).pauseEnd = none → c < 4 → (∀ k, k < c → s.qlen (96 + 4 * p + k) = 0) → (s.queue (96 + 4 * p + c)).items = it :: r →
    (s.queue (96 + 4 * p + c)).data = b :: d → s.fenced 9 ((96 + 4 * p + c) / 16) = false → field it 3 1 = 0 →
    ∃ t, exec (.frameTransmit dt p) s = .next t ∧ t.prt p = { s.prt p with sending := some b } ∧ (t.queue (96 + 4 * p + c)).items = r ∧
      (t.queue (96 + 4 * p + c)).data = d) ∧
  (∀ (dt p ip udp e : Nat) (msg : Bytes) (s : State), s.runs = true → s.portRuns p = true → (s.prt p).up = true → s.osr.outbox = [(.port p ip udp, msg)] →
    (s.prt p).pauseEnd = some e → s.queueFull (99 + 4 * p) = false → msg.length + 46 ≤ s.maxFrame p 0 →
    ∃ t, exec (.frameTransmit dt p) s = .next t ∧ t.osr.outbox = [] ∧
      (t.queue (99 + 4 * p)).items = (s.queue (99 + 4 * p)).items ++ [txItem p 3 (max (msg.length + 46) 64) none]) ∧
  (∀ (dt p : Nat) (x : OffloadSend) (s : State), s.runs = true → s.portRuns p = true → s.mode.cur ≠ .quickset → x.payload.length ≤ 65536 → x.template.length ≤ 128 →
    0 < x.mss → x.template.length + 4 < s.maxFrame p (tagCount x.template) →
    ∃ t cut, exec (.tcpSendOffload dt p x) s = .next t ∧ (t.prt p).cut = cut ∧ (cut.map (·.payload)).sum = x.payload.length ∧ (∀ k ∈ cut, k.payload ≤ x.mss) ∧
      cut.map (·.offset) = (List.range cut.length).map (fun i => ((cut.take i).map (·.payload)).sum) ∧
      t.ctr (0x2080 + p) 0x14 = min (s.ctr (0x2080 + p) 0x14 + cut.length) ctrMax) ∧
  (∀ (dt p : Nat) (x : OffloadSend) (s : State), s.runs = true → s.portRuns p = true → (s.prt p).up = true → s.queueFull (99 + 4 * p) = false →
    x.payload.length ≤ s.room p x.template → x.payload.length ≤ 65507 → s.maxFrame p (tagCount (padFrame (udpFrame x))) ≥ frameLen (padFrame (udpFrame x)) →
    ∃ t, exec (.udpSendOffload dt p x) s = .next t ∧
      (t.queue (99 + 4 * p)).items = (s.queue (99 + 4 * p)).items ++ [txItem p 3 (frameLen (padFrame (udpFrame x))) none] ∧
      (t.queue (99 + 4 * p)).data = (s.queue (99 + 4 * p)).data ++ [padFrame (udpFrame x)]) ∧
  (∀ (dt p : Nat) (x : OffloadSend) (s : State), s.runs = true → s.portRuns p = true → s.mode.cur ≠ .quickset → s.room p x.template < x.payload.length →
    bit (field (offHead x.template).2.1 6 2) 14 = true →
    ∃ t, exec (.udpSendOffload dt p x) s = .next t ∧ t.ctr (0x2080 + p) 0x16 = min (s.ctr (0x2080 + p) 0x16 + 1) ctrMax ∧ OnlyParts s dt [.events, .stats] t) ∧
  (∀ (dt p : Nat) (x : OffloadSend) (s : State), s.runs = true → s.portRuns p = true → s.mode.cur ≠ .quickset → s.room p x.template < x.payload.length →
    x.payload.length ≤ 65507 → bit (field (offHead x.template).2.1 6 2) 14 = false → (offHead x.template).2.2.length = 8 →
    (offHead x.template).1.length + 72 ≤ s.maxFrame p (tagCount x.template) →
    ∃ t cut, exec (.udpSendOffload dt p x) s = .next t ∧ (t.prt p).cut = cut ∧ (cut.map (·.payload)).sum = x.payload.length + 8 ∧
      (∀ k ∈ cut.dropLast, k.payload % 8 = 0) ∧ cut.map (·.offset) = (List.range cut.length).map (fun i => ((cut.take i).map (·.payload)).sum) ∧
      t.ctr (0x2080 + p) 0x15 = min (s.ctr (0x2080 + p) 0x15 + cut.length) ctrMax)

/-- Links and pause (R103 to R105, R125, R126, R133): a link that comes up has the rate of its port's mode, or in SGMII the PHY's, and
raises EV_LINK_CHANGE; one that negotiates half duplex stays down; one that goes down drops and counts what waits to be sent, Osrider
messages too, and keeps what was received; a pause frame to 01-80-C2-00-00-01, or to the port's address, pauses an enabled port for its quanta, told or received
as a frame's bytes, and another control frame is counted at .0D; the pause ends at its time, or at the limit on an episode, which starts a holdoff that ends in its
turn. -/
def Obligations.LinksAndPauseAct : Prop :=
  (∀ (dt p rate : Nat) (s : State), s.runs = true → s.portRuns p = true → (s.prt p).up = false → s.fenced 17 p = false →
    ∃ t, exec (.linkUp dt p rate false) s = .next t ∧ (t.prt p).up = true ∧ (t.prt p).rate = s.linkRate p rate ∧ (t.prt p).an = s.negotiates p ∧
      Latched t 0x20 p ∧ OnlyParts s dt [.events, .port] t) ∧
  (∀ (dt p rate : Nat) (s : State), s.runs = true → s.portRuns p = true → (s.prt p).up = false → s.fenced 17 p = false → s.negotiates p = true →
    ∃ t, exec (.linkUp dt p rate true) s = .next t ∧ (t.prt p).up = false ∧ (t.prt p).half = true ∧ Latched t 0x20 p ∧ OnlyParts s dt [.events, .port] t) ∧
  (∀ (dt p m : Nat) (s : State), s.runs = true → s.portRuns p = true → (s.prt p).up = true → s.mode.cur ≠ .quickset →
    (s.osr.outbox.filter (fun x => match x.1 with | .port q _ _ => decide (q = p) | .uart => false)).length = m →
    ∃ t, exec (.linkDown dt p) s = .next t ∧ (t.prt p).up = false ∧ (∀ c, c < 4 → (t.queue (96 + 4 * p + c)).items = []) ∧ (∀ q, q < 96 → t.queue q = s.queue q) ∧
      t.ctr (0x2080 + p) 0x13 = min (s.ctr (0x2080 + p) 0x13 +
        (m + s.qlen (96 + 4 * p) + s.qlen (96 + 4 * p + 1) + s.qlen (96 + 4 * p + 2) + s.qlen (96 + 4 * p + 3))) ctrMax ∧
      t.ctr (0x2080 + p) 0x1B = min (s.ctr (0x2080 + p) 0x1B + 1) ctrMax ∧ Latched t 0x20 p) ∧
  (∀ (dt p dst quanta : Nat) (s : State), s.runs = true → s.portRuns p = true → (s.prt p).up = true → s.mode.cur ≠ .quickset → s.pcfg p 5 1 = 1 →
    (s.prt p).holdoff = none → 0 < quanta → (dst = 0x0180C2000001 ∨ dst = portMac p) →
    ∃ t, exec (.pauseReceive dt p dst 1 quanta) s = .next t ∧ (t.prt p).pauseEnd = some (s.elapsed + dt + pauseNs (s.prt p).rate quanta) ∧
      t.ctr (0x2080 + p) 0x0C = min (s.ctr (0x2080 + p) 0x0C + 1) ctrMax ∧ OnlyParts s dt [.events, .stats, .port] t) ∧
  (∀ (dt p dst op quanta : Nat) (s : State), s.runs = true → s.portRuns p = true → (s.prt p).up = true → s.mode.cur ≠ .quickset → op ≠ 1 →
    ∃ t, exec (.pauseReceive dt p dst op quanta) s = .next t ∧ t.ctr (0x2080 + p) 0x0D = min (s.ctr (0x2080 + p) 0x0D + 1) ctrMax ∧
      OnlyParts s dt [.events, .stats] t) ∧
  (∀ (dt p : Nat) (f : Frame) (s : State), s.runs = true → s.portRuns p = true → (s.prt p).up = true → s.mode.cur ≠ .quickset → s.pcfg p 5 1 = 1 →
    (s.prt p).holdoff = none → f.pcsErrors = 0 → f.fcsOk = true → 64 ≤ frameLen f.bytes → frameLen f.bytes ≤ longest ((s.tick dt).cfFor (s.tick dt).now).1 p 0 →
    tagCount f.bytes = 0 → frameType f.bytes = 0x8808 → field f.bytes 0 6 = 0x0180C2000001 → field f.bytes 14 2 = 1 → 0 < field f.bytes 16 2 →
    ∃ t, exec (.frameReceive dt p f) s = .next t ∧ (t.prt p).pauseEnd = some (s.elapsed + dt + pauseNs (s.prt p).rate (field f.bytes 16 2)) ∧
      t.ctr (0x2080 + p) 0x0C = min (s.ctr (0x2080 + p) 0x0C + 1) ctrMax) ∧
  (∀ (dt p e : Nat) (s : State), s.runs = true → s.mode.cur ≠ .quickset → (s.prt p).pauseEnd = some e → e ≤ s.elapsed + dt →
    ∃ t, exec (.pauseExpire dt p) s = .next t ∧ t.prt p = { s.prt p with pauseEnd := none } ∧
      t.ctr (0x2080 + p) 0x19 = min (s.ctr (0x2080 + p) 0x19 + (e - (s.prt p).episode) / 1000) ctrMax) ∧
  (∀ (dt p e : Nat) (s : State), s.runs = true → p < s.ports → s.mode.cur ≠ .quickset → (s.prt p).pauseEnd = some e →
    (s.prt p).episode + s.pcfg p 6 2 * 1000000 ≤ s.elapsed + dt → (s.prt p).episode + s.pcfg p 6 2 * 1000000 ≤ e →
    ∃ t, exec (.pauseWatchdogTrip dt p) s = .next t ∧ (t.prt p).pauseEnd = none ∧ (t.prt p).holdoff = some (s.elapsed + dt + s.pcfg p 7 2 * 1000000) ∧
      t.ctr (0x2080 + p) 0x18 = min (s.ctr (0x2080 + p) 0x18 + 1) ctrMax ∧ Latched t 0x21 p) ∧
  (∀ (dt p e : Nat) (s : State), s.runs = true → (s.prt p).holdoff = some e → e ≤ s.elapsed + dt →
    ∃ t, exec (.pauseHoldoffEnd dt p) s = .next t ∧ t.prt p = { s.prt p with holdoff := none } ∧ OnlyParts s dt [.port] t)

/-! ## Stream ingest, the chain, alignment (R135 to R219) -/

/-- C37.118 frames (R137, R140 to R142, R145, R147, R148): a sound data frame of a context with an accepted configuration, passing its
checks, is delivered, and its instant noted; one of a context with a pending configuration is quarantined and writes nothing; a
frame with a wrong check word is counted at .04 and reaches no context; one on TCP that fails check 1 is counted at .02 and closes
the connection it came on; a first configuration, of a context that does not accept it by itself, is pending, and told with EV_CFG_PENDING;
a header frame is dropped and counted. -/
def Obligations.SourceFramesAreTaken : Prop :=
  (∀ (dt k tr : Nat) (x : C37Rx) (a : Bytes) (p : CfgP) (s : State), s.runs = true → s.ingestRuns = true → SoundC37 x 0 → s.matchCtx x = some k →
    s.fenced 1 (k / 512) = false → (s.ctx k).accepted = some a → (s.ctx k).pending = none → (s.ctx k).since = none → parseCfg (ctxThree s.cf k) a = some p →
    (s.tick dt).dataChecks (s.ctx k) p x.bytes ((s.tick dt).rxNs x) = (0, tr) →
    ∃ t, exec (.c37DataFrame dt x) s = .next t ∧ (t.ctx k).delivered = satCount (s.ctx k).delivered 1 ∧ (t.ctx k).lastAt = s.elapsed + dt ∧ (t.ctx k).lost = false ∧
      (t.ctx k).seen.head? = some ⟨s.time.gen, tr⟩ ∧ (t.ctx k).accepted = some a ∧ t.ctr 0x4080 1 = min (s.ctr 0x4080 1 + 1) ctrMax) ∧
  (∀ (dt k : Nat) (x : C37Rx) (b : Bytes) (s : State), s.runs = true → s.ingestRuns = true → SoundC37 x 0 → s.matchCtx x = some k →
    s.fenced 1 (k / 512) = false → (s.ctx k).pending = some b →
    ∃ t, exec (.c37DataFrame dt x) s = .next t ∧ (t.ctx k).quarantined = satCount (s.ctx k).quarantined 1 ∧ (t.ctx k).delivered = (s.ctx k).delivered ∧
      t.ctr 0x4080 8 = min (s.ctr 0x4080 8 + 1) ctrMax ∧ t.ing.slots = s.ing.slots ∧ t.align = s.align) ∧
  (∀ (dt : Nat) (x : C37Rx) (s : State), s.runs = true → s.ingestRuns = true → 16 ≤ x.bytes.length → field x.bytes 0 1 = 0xAA → field x.bytes 1 1 = 0x01 →
    field x.bytes 2 2 = x.bytes.length → crc16 x.bytes.dropLast.dropLast ≠ field x.bytes (x.bytes.length - 2) 2 →
    ∃ t, exec (.c37DataFrame dt x) s = .next t ∧ t.ctr 0x4080 4 = min (s.ctr 0x4080 4 + 1) ctrMax ∧ t.ing.ctx = s.ing.ctx ∧ t.align = s.align) ∧
  (∀ (dt : Nat) (x : C37Rx) (s : State), s.runs = true → s.ingestRuns = true → x.transport = 1 → field x.bytes 0 1 ≠ 0xAA → (s.ctx x.via).tcp = true →
    ∃ t, exec (.c37DataFrame dt x) s = .next t ∧ t.ctr 0x4080 2 = min (s.ctr 0x4080 2 + 1) ctrMax ∧ (t.ctx x.via).tcp = false ∧
      t.ctr 0x4080 0x15 = min (s.ctr 0x4080 0x15 + 1) ctrMax ∧ (∀ k, k ≠ x.via → t.ctx k = s.ctx k)) ∧
  (∀ (dt k : Nat) (x : C37Rx) (s : State), s.runs = true → s.ingestRuns = true → SoundC37 x (if ctxThree s.cf k then 5 else 3) → s.matchCtx x = some k →
    s.fenced 1 (k / 512) = false → (s.ctx k).accepted = none → (s.ctx k).pending = none → bit (ctxF s.cf k 0 1) 2 = false →
    ∃ t, exec (.c37CfgFrame dt x) s = .next t ∧ (t.ctx k).pending = some x.bytes ∧ (t.ctx k).accepted = none ∧ Latched t 0x30 k ∧ t.align = s.align) ∧
  (∀ (dt k : Nat) (x : C37Rx) (s : State), s.runs = true → s.ingestRuns = true → SoundC37 x 1 → s.matchCtx x = some k → s.fenced 1 (k / 512) = false →
    ∃ t, exec (.c37HeaderFrame dt x) s = .next t ∧ (t.ctx k).dropped = satCount (s.ctx k).dropped 1 ∧ (t.ctx k).delivered = (s.ctx k).delivered ∧
      t.ctr 0x4080 6 = min (s.ctr 0x4080 6 + 1) ctrMax ∧ t.align = s.align)

/-- Connections, losses, sampled values, estimators (R138, R151 to R154, R161, R179, R186): a TCP context's connection that is being opened is made, and
then asks for the configuration and for data where the context says so; it is lost, counted, and opened again no earlier than
the retry interval later; a UDP context without a configuration asks in the same way when its retry interval has passed; a
sampled-value frame in sequence is delivered; a stream with nothing delivered for the timeout is lost, with EV_STREAM_LOST; an
estimator whose window is complete reports its next instant. -/
def Obligations.StreamsAreFollowed : Prop :=
  (∀ (dt k : Nat) (s : State), s.runs = true → s.ingestRuns = true → ctxValid s.cf k = true → ctxF s.cf k 1 1 = 1 → (s.ctx k).trying = true →
    ∃ t, exec (.ingestTcpConnect dt k) s = .next t ∧ (t.ctx k).tcp = true ∧ (t.ctx k).trying = false ∧ (t.ctx k).accepted = (s.ctx k).accepted ∧
      (ctxF s.cf k 4 4 ≠ 0 → t.ing.sent.map (fun c => (c.ctx, field c.bytes 14 2)) =
        if bit (ctxF s.cf k 0 1) 1 then [(k, if ctxThree s.cf k then 6 else 5), (k, 2)] else [])) ∧
  (∀ (dt k : Nat) (s : State), s.runs = true → s.mode.cur.ingests = true → (s.ctx k).tcp = true →
    ∃ t, exec (.ingestTcpLost dt k) s = .next t ∧ t.ctx k = { s.ctx k with tcp := false, lastReq := some (s.elapsed + dt) } ∧
      t.ctr 0x4080 0x15 = min (s.ctr 0x4080 0x15 + 1) ctrMax) ∧
  (∀ (dt k : Nat) (s : State), s.runs = true → s.ingestRuns = true → ctxValid s.cf k = true → ctxF s.cf k 1 1 = 0 → ctxF s.cf k 4 4 ≠ 0 →
    bit (ctxF s.cf k 0 1) 1 = true → (∀ u, (s.ctx k).lastReq = some u → u + s.cf.u 0x4000 0x14 0 2 * 1000000000 ≤ s.elapsed + dt) → (s.ctx k).accepted = none →
    ∃ t, exec (.ingestRetry dt k) s = .next t ∧ t.ing.sent.map (fun c => (c.ctx, field c.bytes 14 2)) = [(k, if ctxThree s.cf k then 6 else 5), (k, 2)] ∧
      (t.ctx k).lastReq = some (s.elapsed + dt)) ∧
  (∀ (dt k : Nat) (s : State), s.runs = true → s.ingestRuns = true → ctxValid s.cf k = true → ctxF s.cf k 1 1 = 1 → (s.ctx k).tcp = false →
    (∀ u, (s.ctx k).lastReq = some u → u + s.cf.u 0x4000 0x14 0 2 * 1000000000 ≤ s.elapsed + dt) →
    ∃ t, exec (.ingestRetry dt k) s = .next t ∧ t.ctx k = { s.ctx k with lastReq := some (s.elapsed + dt), trying := true } ∧ OnlyParts s dt [.ingest] t) ∧
  (∀ (dt r : Nat) (f : SvFrame) (a : Asdu) (s : State), s.runs = true → s.mode.cur.ingests = true → Table.getD s.rst.status 8 0 = 0 → f.decodes = true →
    f.simulate = false → f.asdus = [a] → matchSv s.cf f a = some r → a.confRev = svF s.cf r 12 4 → a.dataLen = 8 * svF s.cf r 18 1 → a.samples.length = svF s.cf r 18 1 →
    a.smpCnt < svRate (svF s.cf r 1 1) → (s.svs r).next = some a.smpCnt →
    ∃ t, exec (.svFrameReceive dt f) s = .next t ∧ (t.svs r).delivered = satCount (s.svs r).delivered 1 ∧ (t.svs r).lost = false ∧ (t.svs r).lastAt = s.elapsed + dt ∧
      (t.svs r).next = some ((a.smpCnt + 1) % svRate (svF s.cf r 1 1))) ∧
  (∀ (dt k : Nat) (s : State), s.runs = true → s.ingestRuns = true → k < s.contexts → ctxValid s.cf k = true → (s.ctx k).lost = false →
    (s.ctx k).lastAt + s.cf.u 0x4000 0x11 0 2 * 1000000 ≤ s.elapsed + dt →
    ∃ t, exec (.streamLost dt false k) s = .next t ∧ t.ctx k = { s.ctx k with lost := true } ∧ Latched t 0x33 k ∧ t.chain = s.chain) ∧
  (∀ (dt e : Nat) (tr : Stamp) (c : Cf) (s : State), s.runs = true → s.chainRuns = true → e < s.estimators →
    s.fenced 3 (e / 16) = false → (s.tick dt).earliest ((s.tick dt).estNext e) = some (tr, c) → (estChans c e).all (s.windowDone c (estWindow c e) tr) = true →
    ∃ t, exec (.estimatorReport dt e) s = .next t ∧ (t.est e).last = some tr ∧ (∀ i, i ≠ e → t.est i = s.est i))

/-- Alignment (R197, R199 to R202, R204, R208): a group's next instant opens its set, with the next sequence number; a set whose
deadline has passed is closed and published with its cause, and is open no more; at E_r + D_p a set with enough of its
members closes provisionally and stays open; each close is counted by its cause; learned latencies are cleared on request. -/
def Obligations.SetsOpenAndClose : Prop :=
  (∀ (dt g tr : Nat) (s : State), s.runs = true → s.aligns = true → g < 16 → s.fenced 4 (g / 4) = false → s.groupNext g = some tr → tr ≤ (s.tick dt).time.tai →
    s.stopNs = none → (∀ o ∈ (s.grpG g).open_, o.at_.ns ≠ tr) → (∀ c ∈ (s.grpG g).closes, c.kind ≠ 0x20 → c.at_.ns ≠ tr) →
    ∃ t, exec (.setOpen dt g) s = .next t ∧ (t.grpG g).upto = tr ∧ (t.grpG g).high = ⟨s.time.gen, tr⟩ ∧ (t.grpG g).next = (s.grpG g).next + 1#32 ∧
      (t.grpG g).opened = true ∧
      ((∃ y ∈ (t.grpG g).open_, y.at_ = ⟨s.time.gen, tr⟩ ∧ y.seq = (s.grpG g).next) ∨ (s.grpG g).pubs < (t.grpG g).pubs)) ∧
  (∀ (dt g cause : Nat) (seq : Seq) (tc : Int) (o : OpenSet) (s : State), s.runs = true → g < 16 → (s.grpG g).open_.find? (fun o => o.seq = seq) = some o →
    agFlag (s.cfFor o.at_).1 g 2 = false → o.closeAt (agF (s.cfFor o.at_).1 g 2 2) = (tc, cause) → tc ≤ ((s.elapsed + dt : Nat) : Int) → o.prov = none →
    ∃ t cl, exec (.setDeadline dt g seq) s = .next t ∧ (∀ y ∈ (t.grpG g).open_, y.seq ≠ seq) ∧ (t.grpG g).pubs = (s.grpG g).pubs + 1 ∧
      (t.grpG g).closes.head? = some cl ∧ cl.at_ = o.at_ ∧ cl.seq = seq ∧ cl.cause = cause ∧ cl.kind = 0x21 ∧
      t.ctr 0x6080 (cause + 1) = min (s.ctr 0x6080 (cause + 1) + 1) ctrMax) ∧
  (∀ (dt g cause : Nat) (seq : Seq) (tc : Int) (o : OpenSet) (s : State), s.runs = true → g < 16 → (s.grpG g).open_.find? (fun o => o.seq = seq) = some o →
    agFlag (s.cfFor o.at_).1 g 2 = true → o.prov = none → o.lostRaised = false → o.closeAt (agF (s.cfFor o.at_).1 g 2 2) = (tc, cause) →
    o.base + msNs (agF (s.cfFor o.at_).1 g 4 2) ≤ ((s.elapsed + dt : Nat) : Int) → ((s.elapsed + dt : Nat) : Int) < tc →
    (s.tick dt).provisionalOk g (s.cfFor o.at_).1 o (o.base + msNs (agF (s.cfFor o.at_).1 g 4 2)) = true →
    ∃ t cl, exec (.setProvisionalDeadline dt g seq) s = .next t ∧ (t.grpG g).closes.head? = some cl ∧ cl.kind = 0x20 ∧ cl.cause = 3 ∧ cl.at_ = o.at_ ∧
      (t.grpG g).open_.map (·.seq) = (s.grpG g).open_.map (·.seq) ∧ (∃ y ∈ (t.grpG g).open_, y.seq = seq ∧ y.prov.isSome = true) ∧
      t.ctr 0x6080 4 = min (s.ctr 0x6080 4 + 1) ctrMax) ∧
  (∀ (dt n : Nat) (m : Msg) (v : List (BitVec 8)) (s : State) (x : Session), s.runs = true → TakesWrite (s.tick dt) m x 0x6000 3 v n → n < s.contexts →
    ∃ t, exec (.clearLearnedLatency dt m v) s = .next t ∧ Answered t m x 0x12 stOk ∧ t.lat n = {} ∧ (∀ j, j ≠ n → t.lat j = s.lat j) ∧ t.align.group = s.align.group)

/-! ## Oscillation, islanding, alarms, publications, output sessions (R220 to R305) -/

/-- The oscillation engine (R221, R232, R236, R237, R243, R250, R251): the next final close of a group's alignment group, of an
engine that has seen none, is taken as its next instant; an update that is due is made once, under the next number and its instant,
and ends a freeze; so is an evaluation of the detector; a restart request empties the window of the group named, with the results'
number kept and its conditions frozen. Each leaves every other group as it was. -/
def Obligations.OscillationEngineActs : Prop :=
  (∀ (dt g : Nat) (cl : Close) (s : State), s.runs = true → s.oscRuns g = true → (s.oscG g).due = none → (s.oscG g).foDue = none → (s.oscG g).seen = none →
    (s.oscG g).redo = none → (s.oscG g).from_ = none →
    s.nextFinal (fun c => if mgFlag c g 0 then some (mgGroup c g) else none) none (fun _ _ => true) = some cl → mgFlag (s.cfFor cl.at_).1 g 0 = true →
    ∃ t, exec (.oscSetIntake dt g) s = .next t ∧ (t.oscG g).seen = some cl.at_ ∧
      (t.oscG g).foCount = (if mgFlag (s.cfFor cl.at_).1 g 2 && !(signalsOf (s.cfFor cl.at_).1 g).isEmpty then (s.oscG g).foCount + 1 else 0) ∧
      (∀ h, h ≠ g → t.oscG h = s.oscG h)) ∧
  (∀ (dt g : Nat) (at_ : Stamp) (gen : BitVec 32) (s : State), s.runs = true → s.oscRuns g = true → (s.oscG g).due = some (at_, gen) →
    ∃ t, exec (.oscUpdate dt g) s = .next t ∧ (t.oscG g).due = none ∧ (t.oscG g).head.seq = ((s.oscG g).head.seq + 1) % 2 ^ 32 ∧ (t.oscG g).head.at_ = at_ ∧
      (t.oscG g).head.cfgGen = gen ∧ (t.oscG g).frozen = false ∧ (t.oscG g).window = (s.oscG g).window ∧ (∀ h, h ≠ g → t.oscG h = s.oscG h)) ∧
  (∀ (dt g : Nat) (at_ : Stamp) (gen : BitVec 32) (s : State), s.runs = true → s.oscRuns g = true → (s.oscG g).foDue = some (at_, gen) →
    ∃ t, exec (.foEvaluation dt g) s = .next t ∧ (t.oscG g).foDue = none ∧ (t.oscG g).foHead.seq = ((s.oscG g).foHead.seq + 1) % 2 ^ 32 ∧ (t.oscG g).foHead.at_ = at_ ∧
      (t.oscG g).foHead.cfgGen = gen ∧ (t.oscG g).foFrozen = false ∧ (t.oscG g).modes = (s.oscG g).modes ∧ t.ctr 0x6880 8 = min (s.ctr 0x6880 8 + 1) ctrMax ∧
      (∀ h, h ≠ g → t.oscG h = s.oscG h)) ∧
  (∀ (dt g : Nat) (m : Msg) (v : List (BitVec 8)) (s : State) (x : Session), s.runs = true → TakesWrite (s.tick dt) m x 0x6800 2 v g → s.oscRuns g = true →
    mgFlag s.cf g 0 = true →
    ∃ t, exec (.oscRestartRequest dt m v) s = .next t ∧ Answered t m x 0x12 stOk ∧ (t.oscG g).state = 1 ∧ (t.oscG g).cause = 5 ∧ (t.oscG g).window = [] ∧
      (t.oscG g).fo = [] ∧ (t.oscG g).frozen = true ∧ (t.oscG g).foFrozen = true ∧ (t.oscG g).head.seq = (s.oscG g).head.seq ∧ (∀ h, h ≠ g → t.oscG h = s.oscG h))

/-- The islanding engine (R269 to R272, R276, R277): the next final close, of a chain that has processed none, is its first report,
and its results are the final and the latest ones; a provisional close, with no final close waiting, is counted and leaves the
final chain and its results as they were; a restart request begins the chain afresh, in state 1 with no report and no island,
with EV_ISL_RESTART. -/
def Obligations.IslandingEngineActs : Prop :=
  (∀ (dt : Nat) (cl : Close) (s : State), s.runs = true → s.islRuns = true → s.isl.chain.last = none → s.isl.redo = none → s.isl.from_ = none →
    s.islNext = some cl →
    ∃ t, exec (.islFinalReport dt) s = .next t ∧ t.isl.chain.last = some cl.at_ ∧ t.isl.chain.reports = s.isl.chain.reports + 1 ∧
      t.isl.chain.frozen = s.isl.chain.frozen - 1 ∧ t.isl.latest = t.isl.final ∧ t.ctr 0x7080 1 = min (s.ctr 0x7080 1 + 1) ctrMax) ∧
  (∀ (dt g : Nat) (cl : Close) (s : State), s.runs = true → s.islRuns = true → s.islNext = none →
    s.nextPub (fun c => if islProv c then islTakes c else none) s.isl.provSeen (fun c => c.kind = 0x20) = some (g, cl) →
    s.isl.chain.last = none → s.isl.from_ = none → s.isl.redo = none →
    ∃ t, exec (.islProvisionalRun dt) s = .next t ∧ Table.getD t.isl.provSeen g 0 = cl.pub ∧ t.isl.chain = s.isl.chain ∧ t.isl.final = s.isl.final ∧
      t.ctr 0x7080 2 = min (s.ctr 0x7080 2 + 1) ctrMax) ∧
  (∀ (dt n : Nat) (m : Msg) (v : List (BitVec 8)) (s : State) (x : Session), s.runs = true → TakesWrite (s.tick dt) m x 0x7000 5 v n → s.islAble = true →
    s.islIn s.cf = true →
    ∃ t, exec (.islRestartRequest dt m v) s = .next t ∧ Answered t m x 0x12 stOk ∧ t.isl.state = 1 ∧ t.isl.chain = { frozen := s.freezeReports s.cf } ∧
      t.ctr 0x7080 8 = min (s.ctr 0x7080 8 + 1) ctrMax ∧ Latched t 0x77 0)

/-- Alarms (R282, R283, R285 to R287), under the configuration of the decision's instant: a provisional decision of enough
confidence above the value raises it, with the next number; one of less confidence changes nothing but a count; a final decision
gives an alarm without latch, provisional value and freeze its value, with the next number when that is a change; the pulse of an
event alarm ends at 0; an acknowledgement gives the final value and lets the latch go; a release gives each frozen alarm its final
value. A decision for an instant that a commit still to come serves, of an alarm which that commit changes, waits. Alarms that none of
this names stay as they were. -/
def Obligations.AlarmsAct : Prop :=
  (∀ (dt a : Nat) (w : Waiting) (s : State), s.runs = true → s.alarmRuns = true → s.alm.inbox.find? (fun w => w.alarm = a) = some w → w.final = false →
    s.tooEarly w = false → alFlag (s.cfFor w.d.at_).1 a 2 = true → alF (s.cfFor w.d.at_).1 a 6 2 ≤ w.d.conf → (s.alarmFor a w.d.at_).v < w.d.value →
    ∃ t x, exec (.alarmProvisionalDecision dt a) s = .next t ∧ t.alarmFor a w.d.at_ = x ∧ x.v = w.d.value ∧ x.prov = true ∧ x.vf = (s.alarmFor a w.d.at_).vf ∧
      x.frozen = false ∧ x.seq = ((s.alarmFor a w.d.at_).seq + 1) % 2 ^ 32 ∧ x.at_ = w.d.at_ ∧ t.alm.inbox = s.alm.inbox.erase w ∧
      (∀ b, b ≠ a → t.alarm b = s.alarm b)) ∧
  (∀ (dt a : Nat) (w : Waiting) (s : State), s.runs = true → s.alarmRuns = true → s.alm.inbox.find? (fun w => w.alarm = a) = some w → w.final = false →
    s.tooEarly w = false → alFlag (s.cfFor w.d.at_).1 a 2 = true → w.d.conf < alF (s.cfFor w.d.at_).1 a 6 2 →
    ∃ t, exec (.alarmProvisionalDecision dt a) s = .next t ∧ (∀ b, t.alarm b = s.alarm b) ∧ t.ctr 0x7880 6 = min (s.ctr 0x7880 6 + 1) ctrMax ∧
      t.alm.inbox = s.alm.inbox.erase w) ∧
  (∀ (dt a : Nat) (w : Waiting) (s : State), s.runs = true → s.alarmRuns = true → s.alm.inbox.find? (fun w => w.alarm = a) = some w → w.final = true →
    s.tooEarly w = false → alFlag (s.cfFor w.d.at_).1 a 1 = false → (s.alarmFor a w.d.at_).prov = false → (s.alarmFor a w.d.at_).frozen = false →
    ∃ t x, exec (.alarmFinalReport dt a) s = .next t ∧ t.alarmFor a w.d.at_ = x ∧ x.v = w.d.value ∧ x.vf = w.d.value ∧ x.prov = false ∧
      x.seq = (if w.d.value = (s.alarmFor a w.d.at_).v then (s.alarmFor a w.d.at_).seq else ((s.alarmFor a w.d.at_).seq + 1) % 2 ^ 32) ∧
      (∀ b, b ≠ a → t.alarm b = s.alarm b)) ∧
  (∀ (dt a : Nat) (w : Waiting) (c : Instr) (s : State), c ∈ [Instr.alarmProvisionalDecision dt a, .alarmFinalReport dt a] → s.runs = true →
    s.alm.inbox.find? (fun w => w.alarm = a) = some w → s.tooEarly w = true → ∃ t, exec c s = .next t ∧ t.alm = s.alm ∧ t.stats = s.stats ∧ t.ev = s.ev) ∧
  (∀ (dt a e : Nat) (at_ : Stamp) (s : State), s.runs = true → s.alarmRuns = true → (s.alarm a).pulse = some (e, at_) → e ≤ s.elapsed + dt →
    (s.beforeChange at_ = false ∨ Table.find s.alm.old a = none) →
    alFlag (s.cfFor { at_ with ns := at_.ns + alF (s.cfFor at_).1 a 12 2 * 1000000 }).1 a 1 = false → (s.alarm a).prov = false →
    ∃ t, exec (.alarmPulseEnd dt a) s = .next t ∧ (t.alarm a).pulse = none ∧ (t.alarm a).v = 0 ∧ (t.alarm a).vf = 0 ∧ (∀ b, b ≠ a → t.alarm b = s.alarm b)) ∧
  (∀ (dt a : Nat) (m : Msg) (v : List (BitVec 8)) (s : State) (x : Session), s.runs = true → TakesWrite (s.tick dt) m x 0x7820 1 v a → a < 512 →
    a ∈ validAlarms s.cf → s.beforeChange (s.tick dt).now = false →
    ∃ t, exec (.alarmAcknowledge dt m v) s = .next t ∧ Answered t m x 0x12 stOk ∧ (t.alarm a).v = (s.alarm a).vf ∧ (t.alarm a).vf = (s.alarm a).vf ∧
      (t.alarm a).peak = (s.alarm a).vf ∧ (t.alarm a).latched = false ∧ (∀ b, b ≠ a → t.alarm b = s.alarm b)) ∧
  (∀ (dt n : Nat) (m : Msg) (v : List (BitVec 8)) (s : State) (x : Session), s.runs = true → TakesWrite (s.tick dt) m x 0x7800 5 v n →
    s.beforeChange (s.tick dt).now = false →
    ∃ t, exec (.releaseFrozenAlarms dt m v) s = .next t ∧ Answered t m x 0x12 stOk ∧
      (∀ a ∈ validAlarms s.cf, (t.alarm a).frozen = false ∧ ((s.alarm a).frozen = true → (t.alarm a).v = (s.alarm a).vf ∧ (t.alarm a).prov = false)) ∧
      (∀ b, b ∉ validAlarms s.cf → t.alarm b = s.alarm b))

/-- Publications without authentication (R289, R290): the first frame of a state has the next stNum, sqNum 0, the first interval T1
and the members' present contents; a retransmission of an unchanged state the next sqNum, at an interval that doubles up to T0; a
publication whose contents have changed by then goes out as its next state instead; the values of a value publication are those of
the next final close of its group, and nothing else changes with them. -/
def Obligations.PublicationsAct : Prop :=
  (∀ (dt p : Nat) (s : State), s.runs = true → s.pubSends p = true → (s.pub p).due = none → bit (gpF (s.pubCf p) p 0 1) 2 = false →
    ∃ t, exec (.gooseFrameBuild dt p) s = .next t ∧ (t.pub p).stNum = nextNum (s.pub p).stNum ∧ (t.pub p).sqNum = 0 ∧ (t.pub p).interval = gpF (s.pubCf p) p 18 2 ∧
      (t.pub p).due = some (s.elapsed + dt + gpF (s.pubCf p) p 18 2 * 1000000) ∧ (t.pub p).built = (s.tick dt).pubContent p ∧ (t.pub p).dirty = [] ∧
      (∀ q, q ≠ p → t.pub q = s.pub q)) ∧
  (∀ (dt p e : Nat) (s : State), s.runs = true → s.pubSends p = true → (s.pub p).due = some e → e ≤ s.elapsed + dt → bit (gpF (s.pubCf p) p 0 1) 2 = false →
    (s.tick dt).pubContent p = (s.pub p).built →
    ∃ t, exec (.gooseRetransmit dt p) s = .next t ∧ (t.pub p).stNum = (s.pub p).stNum ∧ (t.pub p).sqNum = nextNum (s.pub p).sqNum ∧
      (t.pub p).interval = (if (s.pub p).sqNum = 0 then (s.pub p).interval else min (2 * (s.pub p).interval) (gpF (s.pubCf p) p 16 2)) ∧
      (t.pub p).due = some (e + (t.pub p).interval * 1000000) ∧ (t.pub p).built = (s.pub p).built ∧ (∀ q, q ≠ p → t.pub q = s.pub q)) ∧
  (∀ (dt p e : Nat) (s : State), s.runs = true → s.pubSends p = true → (s.pub p).due = some e → e ≤ s.elapsed + dt → bit (gpF (s.pubCf p) p 0 1) 2 = false →
    (s.tick dt).pubContent p ≠ (s.pub p).built →
    ∃ t, exec (.gooseRetransmit dt p) s = .next t ∧ (t.pub p).stNum = nextNum (s.pub p).stNum ∧ (t.pub p).sqNum = 0 ∧
      (t.pub p).built = (s.tick dt).pubContent p ∧ (∀ q, q ≠ p → t.pub q = s.pub q)) ∧
  (∀ (dt p g : Nat) (cl : Close) (s : State), s.runs = true → s.pubSends p = true → pubValue s.cf p = true →
    s.nextPub (pubGroup p) (s.pub p).cursor (fun c => c.kind != 0x20) = some (g, cl) →
    ∃ t, exec (.gooseValueEvaluate dt p) s = .next t ∧ Table.getD (t.pub p).cursor g 0 = cl.pub ∧ OnlyParts s dt [.goose] t ∧
      (∀ (i k : Nat), (i, k) ∈ pubMembers (s.cfFor cl.at_).1 p → ∀ v, cl.vals.find? (fun v => v.slot = k) = some v →
        Table.find (t.pub p).vals k = some { val := v.val, q := if v.valid then 0 else 2, at_ := cl.at_, qual := cl.qual }))

/-- Output sessions (R295, R297, R298, R301): commands 1 and 2 turn data off, with nothing left in the buffer, and on; 3 to 6 are answered with the header, CFG-1,
CFG-2 and CFG-3 frames; any other is counted and does nothing else; a permitted client connects, with data off; another client, or
one that is not permitted, is refused and counted; a client that leaves takes its buffer with it; the next close of the session's
group that it takes (no provisional one: bit 1 clear) gives one frame in the buffer, which loses its oldest when it holds 2 F_g
or the store's region is full; the oldest is handed to transport and counted, in SAFE with declared values. -/
def Obligations.OutputSessionsAct : Prop :=
  (∀ (dt n src : Nat) (s : State), s.runs = true → s.outHears n src = true →
    ∃ t, exec (.outCmdTurnOff dt n src) s = .next t ∧ t.out n = { s.out n with on := false, buf := [], burst := false } ∧ OnlyParts s dt [.out] t) ∧
  (∀ (dt n src : Nat) (s : State), s.runs = true → s.outHears n src = true →
    ∃ t, exec (.outCmdTurnOn dt n src) s = .next t ∧ (t.out n).on = true ∧ (t.out n).buf = (s.out n).buf ∧ OnlyParts s dt [.out] t) ∧
  (∀ (dt n src k : Nat) (b : BitVec 8) (c : Instr) (s : State),
    (c, k, b) ∈ [(Instr.outCmdSendHeader dt n src, 3, 0x12#8), (.outCmdSendCfg1 dt n src, 4, 0x22#8), (.outCmdSendCfg2 dt n src, 5, 0x32#8),
      (.outCmdSendCfg3 dt n src, 6, 0x52#8)] → s.runs = true → s.outHears n src = true →
    ∃ t, exec c s = .next t ∧ t.out n = { s.out n with answer := (s.tick dt).outAnswer n k } ∧ (t.out n).answer.take 2 = [0xAA#8, b] ∧
      OnlyParts s dt [.events, .stats, .free, .queues, .sched, .port, .out] t) ∧
  (∀ (dt n src cmd : Nat) (s : State), s.runs = true → s.outHears n src = true → (cmd = 0 ∨ 6 < cmd) →
    ∃ t, exec (.outCmdUnknown dt n src cmd) s = .next t ∧ t.ctr 0x7880 0x0F = min (s.ctr 0x7880 0x0F + 1) ctrMax ∧ OnlyParts s dt [.events, .stats] t) ∧
  (∀ (dt n ip port : Nat) (s : State), s.runs = true → s.outServes n = true → outTcp s.cf n = true → (s.out n).client = none →
    (ouF s.cf n 8 4 = 0 ∨ ouF s.cf n 8 4 = ip) →
    ∃ t, exec (.outClientConnect dt n ip port) s = .next t ∧ (t.out n).client = some (ip, port) ∧ (t.out n).on = false ∧ Latched t 0x83 n) ∧
  (∀ (dt n ip port : Nat) (s : State), s.runs = true → s.outServes n = true → outTcp s.cf n = true →
    ((s.out n).client.isSome = true ∨ (ouF s.cf n 8 4 ≠ 0 ∧ ouF s.cf n 8 4 ≠ ip)) →
    ∃ t, exec (.outClientConnect dt n ip port) s = .next t ∧ t.alm = s.alm ∧ t.ctr 0x7880 0x0E = min (s.ctr 0x7880 0x0E + 1) ctrMax ∧ Latched t 0x83 n) ∧
  (∀ (dt n : Nat) (s : State), s.runs = true → (s.out n).client.isSome = true →
    ∃ t, exec (.outClientDisconnect dt n) s = .next t ∧ (t.out n).client = none ∧ (t.out n).on = false ∧ (t.out n).buf = [] ∧ Latched t 0x83 n) ∧
  (∀ (dt n g : Nat) (cl : Close) (s : State), s.runs = true → s.forming = true → s.outServes n = true → s.outActive (s.cfFor cl.at_).1 n = true →
    s.outFirst n cl.at_ = false →
    s.nextPub (fun c => if outValid c n then some (outGroup c n) else none) (s.out n).cursor (fun c => s.outFirst n c.at_ || c.kind != 0x20) = some (g, cl) →
    ∃ t f full, exec (.outDataFrame dt n) s = .next t ∧ Table.getD (t.out n).cursor g 0 = cl.pub ∧ f.seq = cl.seq ∧ f.bytes.take 2 = [0xAA#8, 0x02#8] ∧
      full = decide (2 * cl.rate ≤ (s.out n).buf.length ∨ 2 ^ 30 < s.outBytes + f.bytes.length) ∧
      (t.out n).buf = (if full then ((s.out n).buf ++ [f]).tail else (s.out n).buf ++ [f]) ∧
      (t.out n).discarded = (if full then satCount (s.out n).discarded 1 else (s.out n).discarded)) ∧
  (∀ (dt n : Nat) (f : OutFrame) (r : List OutFrame) (s : State), s.runs = true → s.forming = true → s.outServes n = true →
    s.outActive s.cf n = true → (s.out n).buf = f :: r →
    ∃ t, exec (.outFrameHandoff dt n) s = .next t ∧ (t.out n).buf = r ∧ (t.out n).sent = satCount (s.out n).sent 1 ∧ (t.out n).lastSeq = f.seq ∧
      (t.out n).out = if s.safeOut then safeFrame (s.out n).lastBody f else f.bytes)

/-! ## Acquisition, readers, Hedgerow (R308 to R368) -/

/-- Inputs, triggers, records (R36, R312, R319, R322, R324, R329): an edge is stamped with own time, the TDC's fraction and the
input's compensation, and waits; two edges less than 5 ns apart discard each other and count 2; a waiting edge whose filter time has
passed sets the level, with its own time; a timeout of a digital source that is due fires its unit and latches EV_ACQ_TRIGGER; the oldest
waiting trigger of an armed group opens its record under the sequence reserved for it, and the group is in capture unless its last
row is there already; the oldest captured record of a group is closed, becomes the newest, and latches EV_ACQ_CLOSED. -/
def Obligations.AcquisitionActs : Prop :=
  (∀ (dt d frac : Nat) (level : Bool) (s : State), s.runs = true → s.acqRuns = true → dinEnabled s.cf d = true → (s.din d).pend = [] →
    ∃ t, exec (.dinEdge dt d level frac) s = .next t ∧ (t.din d).level = (s.din d).level ∧
      (t.din d).pend = [(level != dinInvert s.cf d,
        ⟨s.time.gen, (8 * ((s.tick dt).time.tai : Int) + (frac % 8 : Nat) - 8 * s.cf.i 0x8300 1 (8 * d + 4) 4).toNat⟩, 8 * (s.elapsed + dt) + frac % 8)] ∧
      OnlyParts s dt [.acq] t) ∧
  (∀ (dt d frac e8 : Nat) (l level : Bool) (p : Tick) (s : State), s.runs = true → s.acqRuns = true → dinEnabled s.cf d = true → (s.din d).pend = [(l, p, e8)] →
    8 * (s.elapsed + dt) + frac % 8 < e8 + 40 →
    ∃ t, exec (.dinEdge dt d level frac) s = .next t ∧ (t.din d).pend = [] ∧ (t.din d).level = (s.din d).level ∧
      t.ctr 0x8080 7 = min (s.ctr 0x8080 7 + 2) ctrMax) ∧
  (∀ (dt d e8 : Nat) (lv : Bool) (at_ : Tick) (rest : List (Bool × Tick × Nat)) (s : State), s.runs = true → s.acqRuns = true →
    (s.din d).pend = (lv, at_, e8) :: rest → e8 + dinFilter8 s.cf d ≤ 8 * (s.elapsed + dt) →
    ∃ t, exec (.dinEdgeAccept dt d) s = .next t ∧ (t.din d).level = lv ∧ (t.din d).pend = rest ∧ t.acq.edges = ⟨d, lv, at_⟩ :: s.acq.edges) ∧
  (∀ (dt n : Nat) (at_ : Tick) (s : State), s.runs = true → s.acqRuns = true → n < 64 → bit (unitCf s.cf n).flags 0 = true → bit (unitCf s.cf n).flags 2 = false →
    (unitCf s.cf n).kind = 3 → (unitCf s.cf n).src = 3 → (unitCf s.cf n).group < 256 → (s.unit n).pos = [at_] → (s.unit n).posDue ≤ s.elapsed + dt →
    (s.unit n).neg = [] → (s.unit n).fired = none →
    ∃ t, exec (.triggerTimeout dt n) s = .next t ∧ (t.unit n).pos = [] ∧ (t.unit n).fired = some ((s.tick dt).elapsed8 at_) ∧ Latched t 0x90 n) ∧
  (∀ (dt g : Nat) (w : Trig) (ws : List Trig) (q : Seq) (row : Row) (s : State), s.runs = true → s.acqRuns = true → (s.grp g).state = 1 → (s.grp g).pend = w :: ws →
    (s.grp g).seq = some q → (s.grp g).rowFor w.at_ = some row → s.capture g = none →
    ∃ t, exec (.recordOpen dt g) s = .next t ∧ (∃ r ∈ t.acq.recs, r.seq = q ∧ r.group = g ∧ r.trow = row) ∧ (t.grp g).pend = [] ∧ (t.grp g).seq = none ∧
      t.ctr 0x8080 1 = min (s.ctr 0x8080 1 + 1) ctrMax ∧
      ((∀ r ∈ (s.grp g).ring, r.no + 1 < row.no + groupPost s.cf g) → (t.grp g).state = 2)) ∧
  (∀ (dt g : Nat) (r : Rec) (s : State), s.runs = true → s.hasAcq = true → s.acq.recs.find? (fun r => r.group = g && r.captured && !r.closed) = some r →
    (∀ x ∈ s.acq.recs, x.closed = true → seqLater x.seq r.seq = false) →
    ∃ t, exec (.recordClose dt g) s = .next t ∧ t.acq.newest = r.seq ∧ (∃ y ∈ t.acq.recs, y.seq = r.seq ∧ y.group = g ∧ y.closed = true ∧ y.rows = r.rows) ∧
      t.ctr 0x8080 2 = min (s.ctr 0x8080 2 + 1) ctrMax ∧ Latched t 0x91 g)

/-- The readers (R331 to R335, R337): a read at offset 0 gives the bytes of the current record from there, and begins that record;
advance moves to the next stored record; rewind goes to the mark, or with the mark lost answers MARK_LOST and goes to the oldest; a
stored sequence that is written is the current one, or the mark, whose lost flag is cleared; a read of the flags gives them and
clears bit 0; export is enabled or disabled; a disarmed group that is named is armed; an armed one without a waiting trigger is
disarmed, and one in capture is disarmed after its record; groups not named stay as they were. -/
def Obligations.ReadersAct : Prop :=
  (∀ (dt r sub n : Nat) (m : Msg) (s : State) (x : Session), s.runs = true → Takes (s.tick dt) m x 0x10 (readPayload (0x8500 + r) sub 0 n) → r < 8 → 1 ≤ sub → sub ≤ 3 → 0 < n → n ≤ 1280 →
    objAbsent s.variant (0x8500 + r) sub = false → s.reaches x.uart .look (0x8500 + r) sub = true →
    ∃ t rp, exec (.readerRead dt m r sub 0 n) s = .next t ∧ Answered t m x 0x10 stOk ∧ t.osr.resp = some rp ∧
      rp.body = readBody 11 ((s.tick dt).readerBytes r sub) 0 n ∧ (t.rdr r).reading = (s.readerRec r).map (·.seq) ∧ (t.rdr r).cur = (s.rdr r).cur) ∧
  (∀ (dt r n : Nat) (q : Seq) (m : Msg) (v : List (BitVec 8)) (s : State) (x : Session), s.runs = true → TakesWrite (s.tick dt) m x (0x8410 + r) 3 v n → r < 8 →
    s.nextStored (s.rdr r).cur = some q →
    ∃ t, exec (.readerAdvance dt m r v) s = .next t ∧ Answered t m x 0x12 stOk ∧ t.rdr r = { s.rdr r with cur := q, reading := none } ∧ (∀ k, k ≠ r → t.rdr k = s.rdr k)) ∧
  (∀ (dt r n : Nat) (m : Msg) (v : List (BitVec 8)) (s : State) (x : Session), s.runs = true → TakesWrite (s.tick dt) m x (0x8410 + r) 4 v n → r < 8 →
    ∃ t, exec (.readerRewind dt m r v) s = .next t ∧ Answered t m x 0x12 (if bit (s.rdr r).flags 1 then stMarkLost else stOk) ∧
      (t.rdr r).cur = (if bit (s.rdr r).flags 1 then s.oldestSeq else (s.rdr r).mark) ∧ (∀ k, k ≠ r → t.rdr k = s.rdr k)) ∧
  (∀ (dt r n : Nat) (m : Msg) (v : List (BitVec 8)) (s : State) (x : Session), s.runs = true → TakesWrite (s.tick dt) m x (0x8410 + r) 1 v n → r < 8 →
    s.acq.recs.any (fun z => z.seq = BitVec.ofNat 32 n) = true →
    ∃ t, exec (.readerSetSequence dt m r v) s = .next t ∧ Answered t m x 0x12 stOk ∧ t.rdr r = { s.rdr r with cur := BitVec.ofNat 32 n, reading := none }) ∧
  (∀ (dt r n : Nat) (m : Msg) (v : List (BitVec 8)) (s : State) (x : Session), s.runs = true → TakesWrite (s.tick dt) m x (0x8410 + r) 2 v n → r < 8 →
    s.acq.recs.any (fun z => z.seq = BitVec.ofNat 32 n) = true →
    ∃ t, exec (.readerSetMark dt m r v) s = .next t ∧ Answered t m x 0x12 stOk ∧ t.rdr r = { s.rdr r with mark := BitVec.ofNat 32 n, flags := (s.rdr r).flags % 2 }) ∧
  (∀ (dt r : Nat) (m : Msg) (s : State) (x : Session), s.runs = true → Takes (s.tick dt) m x 0x10 (readPayload (0x8410 + r) 8 0 1) → r < 8 → objAbsent s.variant (0x8410 + r) 8 = false →
    s.reaches x.uart .look (0x8410 + r) 8 = true →
    ∃ t rp, exec (.readerFlagsRead dt m r) s = .next t ∧ Answered t m x 0x10 stOk ∧ t.osr.resp = some rp ∧ rp.body = readBody 1 (toBE 1 (s.rdr r).flags) 0 1 ∧
      t.rdr r = { s.rdr r with flags := (s.rdr r).flags / 2 * 2 }) ∧
  (∀ (dt r n : Nat) (m : Msg) (v : List (BitVec 8)) (s : State) (x : Session), s.runs = true → TakesWrite (s.tick dt) m x (0x8410 + r) 9 v n → r < 8 →
    ∃ t, exec (.exportEnable dt m r v) s = .next t ∧ Answered t m x 0x12 stOk ∧ t.rdr r = { s.rdr r with export_ := decide (n = 1) }) ∧
  (∀ (dt n g : Nat) (m : Msg) (v : List (BitVec 8)) (s : State) (x : Session), s.runs = true → TakesWrite (s.tick dt) m x 0x8000 3 v n → n.land s.validGroups = n →
    g < 16 → bit n g = true → s.acqRuns = true → (s.grp g).state = 3 →
    ∃ t, exec (.armGroup dt m v) s = .next t ∧ Answered t m x 0x12 stOk ∧ t.grp g = { s.grp g with state := 1, off := false } ∧
      (∀ k, bit n k = false → t.grp k = s.grp k)) ∧
  (∀ (dt n g : Nat) (m : Msg) (v : List (BitVec 8)) (s : State) (x : Session), s.runs = true → TakesWrite (s.tick dt) m x 0x8000 4 v n → n.land s.validGroups = n →
    g < 16 → bit n g = true →
    ∃ t, exec (.disarmGroup dt m v) s = .next t ∧ Answered t m x 0x12 stOk ∧ ((s.grp g).state = 1 → (s.grp g).seq = none → (t.grp g).state = 3) ∧
      ((s.grp g).state = 2 → (t.grp g).state = 2 ∧ (t.grp g).off = true) ∧ (∀ k, bit n k = false → t.grp k = s.grp k))

/-- The manager's side of Hedgerow (R343 to R353, R356, R359, R363): each new cycle sends one header, under one number, on both
lanes, with the first 64 edges that wait, and registers the workers whose EqD has gone out; a ranging response of the worker invited
sets the lane's EqD and delay, or, out of reach, latches EV_HR_RANGE; a burst marks its worker as heard, and a valid one its lane, and joins the
last 16 of its lane, each less the EqD it was sent under: an average that under the EqD assigned is within 8 ns of its due value leaves
EqD as it is, any other sets it anew; a first good copy of a drive raises its line and relays the edge, or holds a raised line longer; of an
offset above the limit latches EV_HR_OFFSET, which ends once offsets have stayed low for 1 s; of a fragment keeps it until the close is
whole, which is then written to the mapped slots; of a summary replaces the one before. A damaged copy is counted and does nothing else; so
is a good one of a worker that is not registered. A worker silent for the loss time is lost. -/
def Obligations.ManagerFollowsItsWorkers : Prop :=
  (∀ (dt : Nat) (s : State), s.runs = true → s.hrRuns 2 = true → (s.tick dt).time.tai / 100000 * 100000 ≠ s.hr.m →
    ∃ t, exec (.cycleStart dt) s = .next t ∧ t.hr.m = (s.tick dt).time.tai / 100000 * 100000 ∧ t.hr.cycle = t.hr.m % 1000000000 / 100000 ∧
      t.hr.frames.map (fun f => (f.seq, f.lane)) = [(Table.getD s.hr.txSeq 1 0, some 0), (Table.getD s.hr.txSeq 1 0, some 1)] ∧
      (∀ f ∈ t.hr.frames, f.bytes.take 2 = [1#8, 0x10#8]) ∧ t.bus.out = s.bus.out.drop 64 ∧
      (∀ w, w < 16 → (s.wkr w).informed = true → (t.wkr w).state = 2)) ∧
  (∀ (dt w m lane q : Nat) (r : Int) (s : State), s.runs = true → s.hrRuns 2 = true → wkValid s.cf w = true → (s.wkr w).state ≠ 2 → s.hr.asked = some (w, m) →
    lane < 2 → s.fenced 18 lane = false → (s.wkr w).rts = [none, none] → r = (((s.tick dt).time.tai - m - 6000 : Nat) : Int) →
    r + wkAsym s.cf w lane ≤ 200000 → r - wkAsym s.cf w lane ≤ 200000 →
    ∃ t, exec (.rangingResponse dt w (wkF s.cf w 8 8) lane (some q)) s = .next t ∧ (t.wkr w).ranged = true ∧ (((t.wkr w).eqd.getD lane 0 : Nat) : Int) = max 0 (250000 - r) ∧
      (t.wkr w).down.getD lane 0 = (r + wkAsym s.cf w lane) / 2 ∧ (t.wkr w).reach = false ∧ t.ctr 0xE080 1 = min (s.ctr 0xE080 1 + 1) ctrMax) ∧
  (∀ (dt w m lane q : Nat) (r : Int) (s : State), s.runs = true → s.hrRuns 2 = true → wkValid s.cf w = true → (s.wkr w).state ≠ 2 → s.hr.asked = some (w, m) →
    lane < 2 → s.fenced 18 lane = false → (s.wkr w).rts = [none, none] → r = (((s.tick dt).time.tai - m - 6000 : Nat) : Int) →
    (200000 < r + wkAsym s.cf w lane ∨ 200000 < r - wkAsym s.cf w lane) →
    ∃ t, exec (.rangingResponse dt w (wkF s.cf w 8 8) lane (some q)) s = .next t ∧ (t.wkr w).ranged = false ∧ (t.wkr w).reach = true ∧ (t.wkr w).eqd = (s.wkr w).eqd ∧
      Latched t 0xA4 w) ∧
  (∀ (dt lane w m : Nat) (b : List Int) (v : Bool) (s : State), s.runs = true → s.hrRuns 2 = true → lane < 2 → w < 16 → (s.wkr w).state = 2 → s.fenced 18 lane = false →
    m = burstCycle (s.tick dt).time.tai w → b = ((((s.tick dt).time.tai : Int) - m - (s.wkr w).eqdAt lane m) :: (s.wkr w).bursts.getD lane []).take 16 →
    ∃ t, exec (.burstReceive dt lane w v) s = .next t ∧ (v = true → t.hr.laneUp.getD lane false = true ∧ t.hr.laneAt.getD lane none = some (s.elapsed + dt)) ∧
      (v = false → t.hr.laneUp = s.hr.laneUp ∧ t.hr.laneAt = s.hr.laneAt) ∧
      (t.wkr w).burstAt.getD lane none = some (s.elapsed + dt) ∧ (t.wkr w).state = 2 ∧ (t.wkr w).bursts.getD lane [] = b ∧
      ((nearestDiv (b.foldl (· + ·) 0) b.length - 6000 * w + (s.wkr w).eqd.getD lane 0 - 250000).natAbs ≤ 8 → (t.wkr w).eqd = (s.wkr w).eqd) ∧
      (8 < (nearestDiv (b.foldl (· + ·) 0) b.length - 6000 * w + (s.wkr w).eqd.getD lane 0 - 250000).natAbs →
        (t.wkr w).eqd.getD lane 0 = (250000 - (nearestDiv (b.foldl (· + ·) 0) b.length - 6000 * w)).toNat)) ∧
  (∀ (dt l rise len : Nat) (x : HrRx) (s : State), s.runs = true → s.takesFrom x.worker = true → x.lane < 2 → s.fenced 18 x.lane = false →
    (takeCopy x.worker 0x10 x.lane x.seq x.crcOk false (s.tick dt)).1 = true → l < 16 → (s.line l).level = true →
    ∃ t, exec (.driveFrame dt x l rise len) s = .next t ∧
      t.line l = { s.line l with fall := max (s.line l).fall (((rise : Int) - 8 * (s.wkr x.worker).offset).toNat + 8 * len) } ∧ t.bus.out = s.bus.out) ∧
  (∀ (dt l rise len : Nat) (x : HrRx) (s : State), s.runs = true → s.takesFrom x.worker = true → x.lane < 2 → s.fenced 18 x.lane = false →
    (takeCopy x.worker 0x10 x.lane x.seq x.crcOk false (s.tick dt)).1 = true → l < 16 → (s.line l).level = false →
    ∃ t, exec (.driveFrame dt x l rise len) s = .next t ∧ (t.line l).level = true ∧
      (⟨l, true, ⟨s.time.gen, max ((rise : Int) - 8 * (s.wkr x.worker).offset).toNat ((s.line l).last + 8)⟩⟩ : LineEdge) ∈ t.bus.out) ∧
  (∀ (dt : Nat) (o : Int) (q g : BitVec 16) (x : HrRx) (s : State), s.runs = true → s.takesFrom x.worker = true → x.lane < 2 → s.fenced 18 x.lane = false →
    (takeCopy x.worker 0x11 x.lane x.seq x.crcOk false (s.tick dt)).1 = true → bit (wkF s.cf x.worker 0 1) 1 = true → s.cf.u 0xE000 6 0 4 < o.natAbs →
    (s.wkr x.worker).above = false →
    ∃ t, exec (.offsetReport dt x o true q g) s = .next t ∧ (t.wkr x.worker).offset = o ∧ (t.wkr x.worker).above = true ∧ Latched t 0xA3 x.worker) ∧
  (∀ (dt w since : Nat) (s : State), s.runs = true → s.hasHr = true → (s.wkr w).above = true → (s.wkr w).clearSince = some since → since + 1000000000 ≤ s.elapsed + dt →
    ∃ t, exec (.offsetClear dt w) s = .next t ∧ t.wkr w = { s.wkr w with above := false, clearSince := none } ∧ Latched t 0xA3 w) ∧
  (∀ (dt : Nat) (f : Fragment) (x : HrRx) (s : State), s.runs = true → s.takesFrom x.worker = true → x.lane < 2 → s.fenced 18 x.lane = false →
    (takeCopy x.worker 0x12 x.lane x.seq x.crcOk false (s.tick dt)).1 = true → f.index < f.count → 1 < f.count → (s.wkr x.worker).frags = none →
    ∃ t, exec (.setFragment dt x f) s = .next t ∧ t.wkr x.worker = { s.wkr x.worker with frags := some ((x.seq + 2 ^ 32 - f.index) % 2 ^ 32, [(f.index, f.chunk)]) } ∧
      t.ing = s.ing ∧ t.align = s.align) ∧
  (∀ (dt tr : Nat) (f : Fragment) (x : HrRx) (s : State), s.runs = true → s.takesFrom x.worker = true → x.lane < 2 → s.fenced 18 x.lane = false →
    (takeCopy x.worker 0x12 x.lane x.seq x.crcOk false (s.tick dt)).1 = true → f.index = 0 → f.count = 1 → s.forming = true →
    tr = field f.chunk 10 6 * 1000000000 + field f.chunk 16 4 →
    ∃ t, exec (.setFragment dt x f) s = .next t ∧
      t.ing.slots = (writeSlots ((s.tick dt).uplinkVals (s.cfFor ⟨s.time.gen, tr⟩).1 x.worker (closeVals f.chunk)) ⟨s.time.gen, tr⟩ s).ing.slots) ∧
  (∀ (dt : Nat) (y : Summary) (x : HrRx) (s : State), s.runs = true → s.takesFrom x.worker = true → x.lane < 2 → s.fenced 18 x.lane = false →
    (takeCopy x.worker 0x13 x.lane x.seq x.crcOk false (s.tick dt)).1 = true → 1 ≤ y.kind → y.kind ≤ 4 →
    ∃ t, exec (.summaryFrame dt x y) s = .next t ∧ Table.find t.hr.summary (x.worker * 8 + y.kind) = some (toBE 1 y.kind ++ toBE 2 y.num ++ [0#8] ++ y.body) ∧
      (∀ k, k ≠ x.worker * 8 + y.kind → Table.find t.hr.summary k = Table.find s.hr.summary k)) ∧
  (∀ (dt l rise len : Nat) (o : Int) (u : Bool) (q g : BitVec 16) (f : Fragment) (y : Summary) (x : HrRx) (c : Instr) (s : State),
    c ∈ [Instr.driveFrame dt x l rise len, .offsetReport dt x o u q g, .setFragment dt x f, .summaryFrame dt x y] →
    s.runs = true → s.hrRuns 2 = true → x.worker < 16 → x.lane < 2 → s.fenced 18 x.lane = false → x.crcOk = false →
    ∃ t, exec c s = .next t ∧ t.ctr 0xE080 2 = min (s.ctr 0xE080 2 + 1) ctrMax ∧ OnlyParts s dt [.events, .stats] t) ∧
  (∀ (dt l rise len : Nat) (o : Int) (u : Bool) (q g : BitVec 16) (f : Fragment) (y : Summary) (x : HrRx) (c : Instr) (s : State),
    c ∈ [Instr.driveFrame dt x l rise len, .offsetReport dt x o u q g, .setFragment dt x f, .summaryFrame dt x y] →
    s.runs = true → s.hrRuns 2 = true → x.worker < 16 → (s.wkr x.worker).state ≠ 2 → x.lane < 2 → s.fenced 18 x.lane = false → x.crcOk = true →
    ∃ t, exec c s = .next t ∧ t.ctr 0xE080 1 = min (s.ctr 0xE080 1 + 1) ctrMax ∧ t.hr.worker = s.hr.worker ∧ OnlyParts s dt [.events, .stats, .hr] t) ∧
  (∀ (dt w : Nat) (s : State), s.runs = true → s.takesFrom w = true →
    (∀ b ∈ (s.wkr w).burstAt, ∀ at_, b = some at_ → at_ + s.lossNs ≤ s.elapsed + dt) →
    ∃ t, exec (.workerLost dt w) s = .next t ∧ (t.wkr w).state = 3 ∧ Latched t 0xA1 w ∧ (∀ k, k ≠ w → t.wkr k = s.wkr k))

/-- The worker's side and the lines (R341, R343, R350, R351, R354, R359, R361): a good header brings a searching worker to awaiting
its invitation, with EV_HR_MANAGER, and marks its lane as heard; a damaged one is counted and does nothing else; a registered worker
sends its oldest burst of a lane when it is due, with the lane's BURST_EN high, and fills it when its header is a new one; a lane
silent for the loss time is down; both lanes down, the manager of a registered worker is lost and what waited to go up is discarded; a
line falls at its time, and a manager relays the edge. A manager's BURST_EN is high all the time; in power hold, reset and start every BURST_EN is low. -/
def Obligations.WorkerFollowsItsManager : Prop :=
  (∀ (dt lane : Nat) (h : CycleHeader) (s : State), s.runs = true → s.hrRuns 1 = true → lane < 2 → s.fenced 18 lane = false → h.crcOk = true → s.hr.state = 1 →
    h.invited ≠ some s.myNumber →
    ∃ t, exec (.cycleHeaderReceive dt lane h) s = .next t ∧ t.hr.state = 2 ∧ t.hr.laneUp.getD lane false = true ∧
      t.hr.laneAt.getD lane none = some (s.elapsed + dt) ∧ t.ctr 0xE080 1 = min (s.ctr 0xE080 1 + 1) ctrMax ∧ Latched t 0xA2 0) ∧
  (∀ (dt lane : Nat) (h : CycleHeader) (s : State), s.runs = true → s.hrRuns 1 = true → lane < 2 → s.fenced 18 lane = false → h.crcOk = false →
    ∃ t, exec (.cycleHeaderReceive dt lane h) s = .next t ∧ t.ctr 0xE080 2 = min (s.ctr 0xE080 2 + 1) ctrMax ∧ OnlyParts s dt [.events, .stats] t) ∧
  (∀ (dt lane : Nat) (d : BurstDue) (s : State), s.runs = true → s.hrRuns 1 = true → lane < 2 → s.fenced 18 lane = false → s.hr.state = 3 →
    s.hr.dues.find? (fun d => d.lane = lane) = some d → d.at_ ≤ s.elapsed + dt →
    ∃ t, exec (.workerBurst dt lane) s = .next t ∧ t.hr.dues = s.hr.dues.erase d ∧ t.hr.pulse.getD lane (0, 0) = (s.elapsed + dt, s.elapsed + dt + 6000) ∧
      t.burstEnable lane = true ∧ t.hr.state = 3 ∧
      (s.hr.builtFor.all (fun q => seqAfter q d.seq) = true → t.hr.builtFor = some d.seq ∧ (s.bus.drives = [] → t.hr.reported = some (d.cyc / 16)))) ∧
  (∀ (dt lane at_ : Nat) (s : State), s.runs = true → (s.hrRuns 1 = true ∨ s.hrRuns 2 = true) → s.hr.laneUp.getD lane false = true →
    s.hr.laneAt.getD lane none = some at_ → at_ + s.lossNs ≤ s.elapsed + dt →
    ∃ t, exec (.laneLoss dt lane) s = .next t ∧ t.hr.laneUp.getD lane true = false ∧ (∀ k, k ≠ lane → t.hr.laneUp.getD k false = s.hr.laneUp.getD k false) ∧
      Latched t 0xA0 lane) ∧
  (∀ (dt : Nat) (s : State), s.runs = true → s.hrRuns 1 = true → s.hr.state = 3 → s.hr.laneUp = [false, false] →
    ∃ t, exec (.managerLost dt) s = .next t ∧ t.hr.state = 4 ∧ t.hr.up = [] ∧ t.hr.dues = [] ∧ t.hr.discarded = satCount s.hr.discarded s.hr.up.length ∧
      t.bus.remote = false ∧ Latched t 0xA2 0) ∧
  (∀ (dt l : Nat) (s : State), s.runs = true → (s.line l).level = true → (s.line l).fall ≤ 8 * (s.tick dt).time.tai → s.bus.remote = false → s.acqRuns = false →
    ∃ t, exec (.triggerLineFall dt l) s = .next t ∧ (t.line l).level = false ∧ (t.line l).last = (s.line l).fall ∧
      (s.hrRole = 2 → t.bus.out = s.bus.out ++ [⟨l, false, ⟨s.time.gen, (s.line l).fall⟩⟩])) ∧
  (∀ (dt l : Nat) (s : State), s.runs = true → (s.line l).level = true → (s.line l).fall ≤ 8 * (s.tick dt).time.tai → s.bus.remote = false → s.hrRole = 2 →
    ∃ t, exec (.triggerLineFall dt l) s = .next t ∧ (⟨l, false, ⟨s.time.gen, (s.line l).fall⟩⟩ : LineEdge) ∈ t.bus.out) ∧
  (∀ (lane : Nat) (s : State), s.hasHr = true → s.fenced 18 lane = false → s.hrRuns 2 = true → s.runs = true → s.burstEnable lane = true) ∧
  (∀ (lane : Nat) (s : State), s.runs = false → s.burstEnable lane = false)

/-! ## Central store and scheduler (R369 to R404) -/

/-- The store (R22, R23, R118, R371 to R378, R380, R383, R386, R504). In a slot frame a read gives what was posted before it, and one in error
nothing; a
reserved path without a fault is granted on each channel what it claims up to its quarter there, moves of its queues' items among it,
and drains its waiting writes; of
what is left the scrubber has one slot of each channel, the event mirror its claims, and the six classes as many of theirs as there
are slots; a claim left ungranted fences its channel's arbiter, with EV_ARB_FAULT. A pop gives the oldest item, from the archive
service's receive queues into the archive queue too, or the idle item with the last sequence number; a damaged one gives the
marker with the number after the last, EV_STORE_UE, and leaves that number; a corrected one is counted; a refill moves items from the middle to the head; a
scrubber pass counts a corrected word in its channel and its region; an uncorrectable one is told and its row reported, which is
repaired from the spare rows of its channel, or fences the channel when none is left; a clear sets a queue's high-water mark to what
it holds, and forgets learned latencies. -/
def Obligations.StoreActs : Prop :=
  (∀ (dt p g e : Nat) (d : Bytes) (f : SlotLoad) (s : State), s.runs = true → p < 5 →
    (s.posted p).length < postingRoom p → (∀ q, q < 5 → q ≠ p → ∀ w ∈ s.posted q, w.granule ≠ g) →
    ∃ t, exec (.slotFrame dt [⟨p, g, some d, 0⟩, ⟨p, g, none, e⟩] f) s = .next t ∧ t.store.reads = [(p, g, d)]) ∧
  (∀ (dt p g c : Nat) (f : SlotLoad) (s : State), s.runs = true → regionOf (g / 16384) = 3 → s.waits g = false → c = storeChannel g →
    ∃ t, exec (.slotFrame dt [⟨p, g, none, 2⟩] f) s = .next t ∧ t.store.reads = [(p, g, [])] ∧ t.store.ueId = c * 256 + 3 ∧
      (t.errRec c).ue = min ((s.errRec c).ue + 1) ctrMax) ∧
  (∀ (dt p : Nat) (xs : List StoreAccess) (f : SlotLoad) (s u : State), s.runs = true → p < 5 → f.faults = [] → (∀ a ∈ xs, a.err ≤ 1) → u = each xs storeAccess (s.tick dt) →
    ∃ t, exec (.slotFrame dt xs f) s = .next t ∧
      (Table.getD t.store.arb p {}).granted = min ((Table.getD s.store.arb p {}).granted + ((List.range 4).map (fun c =>
        min (u.moved p c + readsOn xs p c + ((u.posted p).filter (fun w => storeChannel w.granule = c)).length) (pathSlots p / 4))).sum) ctrMax ∧
      (xs = [] → (∀ c, c < 4 → s.moved p c + ((s.posted p).filter (fun w => storeChannel w.granule = c)).length ≤ pathSlots p / 4) → t.posted p = []) ∧
      OnlyParts s dt [.events, .stats, .queues, .store] t) ∧
  (∀ (dt c room : Nat) (xs : List StoreAccess) (f : SlotLoad) (s u : State), s.runs = true → c < 4 → f.faults = [] → (∀ a ∈ xs, a.err ≤ 1) → u = each xs storeAccess (s.tick dt) →
    room = pathSlots 5 / 4 + ((List.range 5).map (fun p => pathSlots p / 4 - u.claimed xs p c)).sum →
    ∃ t, exec (.slotFrame dt xs f) s = .next t ∧ Table.getD t.store.given c 0 = 1 ∧ Table.getD t.store.given (4 + c) 0 = min (f.mirror.getD c 0) (room - 1) ∧
      ((List.range 6).map (fun k => Table.getD t.store.given (4 * (k + 2) + c) 0)).sum =
        min ((List.range 6).map (u.classClaim f c)).sum (room - 1 - min (f.mirror.getD c 0) (room - 1))) ∧
  (∀ (dt p c : Nat) (f : SlotLoad) (s : State), s.runs = true → p < 5 → c < 4 → f.faults = [(p, c)] →
    (s.posted p).any (fun w => storeChannel w.granule = c) = true → s.fenced 16 c = false → (s.lane 16 c).state ≠ 5 →
    ∃ t, exec (.slotFrame dt [] f) s = .next t ∧ Latched t 0xB6 c ∧ t.fenced 16 c = true ∧
      (t.posted p).filter (fun w => storeChannel w.granule = c) = (s.posted p).filter (fun w => storeChannel w.granule = c)) ∧
  (∀ (dt q : Nat) (it : Bytes) (r : List Bytes) (s : State), s.runs = true → q < 512 → s.fenced 9 (q / 16) = false → (s.queue q).items = it :: r → it ≠ damagedMark →
    (95 < q ∨ consumerOf (s.cfFor (stampAt it 8)).1 (q / 16) (q % 16) ≠ 2) →
    ∃ t, exec (.queuePop dt q none) s = .next t ∧ t.store.popped = some (q, it) ∧ (t.queue q).items = r ∧
      (t.queue q).delivered = min ((s.queue q).delivered + 1) ctrMax ∧ (∀ k, k ≠ q → t.queue k = s.queue k)) ∧
  (∀ (dt q : Nat) (it : Bytes) (r : List Bytes) (s : State), s.runs = true → q ≤ 95 → s.fenced 9 (q / 16) = false → (s.queue q).items = it :: r → it.take 1 = [0x10#8] →
    consumerOf (s.cfFor (stampAt it 8)).1 (q / 16) (q % 16) = 2 → s.queueFull 136 = false →
    ∃ t, exec (.queuePop dt q none) s = .next t ∧ (t.queue q).items = r ∧
      (t.queue 136).items = (s.queue 136).items ++ [it.take 4 ++ toBE 4 ((s.queue 136).seq + 1) ++ it.drop 8]) ∧
  (∀ (dt q : Nat) (s : State), s.runs = true → q < 512 → (s.queue q).items = [] →
    ∃ t, exec (.queuePop dt q none) s = .next t ∧ (t.queue q).items = [] ∧ (t.queue q).idles = min ((s.queue q).idles + 1) ctrMax ∧
      t.store.popped = some (q, zeros 4 ++ toBE 4 (if (s.queue q).fresh then 0 else (s.queue q).last) ++ zeros 56)) ∧
  (∀ (dt q o : Nat) (it : Bytes) (r : List Bytes) (s : State), s.runs = true → q < 512 → s.fenced 9 (q / 16) = false → (s.queue q).items = it :: r →
    ∃ t, exec (.queuePop dt q (some ⟨3, o, false⟩)) s = .next t ∧ t.store.popped = some (q, [1#8, 0#8, 0#8, 0#8] ++ toBE 4 ((s.queue q).last + 1) ++ zeros 56) ∧
      (t.queue q).items = r ∧ (t.queue q).last = (s.queue q).last ∧ t.store.ueId = storeChannel (o / 64) * 256 + 3 ∧ Latched t 0xB1 (storeChannel (o / 64))) ∧
  (∀ (dt q o c : Nat) (it : Bytes) (r : List Bytes) (s : State), s.runs = true → 95 < q → q < 512 → (s.queue q).items = it :: r → it ≠ damagedMark →
    c = storeChannel (o / 64) →
    ∃ t, exec (.queuePop dt q (some ⟨3, o, true⟩)) s = .next t ∧ t.store.popped = some (q, it) ∧ (t.queue q).items = r ∧
      (t.errRec c).ce = min ((s.errRec c).ce + 1) ctrMax ∧ (t.errRec 7).ce = min ((s.errRec 7).ce + 1) ctrMax) ∧
  (∀ (dt q : Nat) (s : State), s.runs = true → q < 512 → (s.queue q).middle ≠ 0 → (s.queue q).head < 16 → s.fenced 9 (q / 16) = false →
    ∃ t, exec (.queueRefill dt q none) s = .next t ∧ t.queue q = { s.queue q with
      head := (s.queue q).head + min (16 - (s.queue q).head) (s.queue q).middle, middle := (s.queue q).middle - min (16 - (s.queue q).head) (s.queue q).middle } ∧
      (∀ k, k ≠ q → t.queue k = s.queue k)) ∧
  (∀ (dt ms : Nat) (w : ScrubWord) (s : State), s.runs = true →
    ∃ t, exec (.scrubPassEnd dt ⟨ms, [w], []⟩) s = .next t ∧ (t.errRec (errChannel w.at_)).ce = min ((s.errRec (errChannel w.at_)).ce + 1) ctrMax ∧
      (t.errRec (4 + w.at_.region)).ce = min ((s.errRec (4 + w.at_.region)).ce + 1) ctrMax ∧ t.store.rowsDue = s.store.rowsDue ∧ t.store.passMs = min ms 68000 ∧
      t.ctr 0xF100 1 = min (s.ctr 0xF100 1 + 1) ctrMax) ∧
  (∀ (dt ms row o c : Nat) (s : State), s.runs = true → c = storeChannel (o / 64) →
    ∃ t, exec (.scrubPassEnd dt ⟨ms, [], [⟨⟨3, o, false⟩, row⟩]⟩) s = .next t ∧ (t.errRec c).ue = min ((s.errRec c).ue + 1) ctrMax ∧
      (c, row) ∈ t.store.rowsDue ∧ Latched t 0xB1 c ∧ Latched t 0xB2 c) ∧
  (∀ (dt c row : Nat) (s : State), s.runs = true → s.store.rowsDue.contains (c, row) = true → Table.getD s.cop.rowsUsed c 0 < 256 →
    ∃ t, exec (.rowRepair dt c row) s = .next t ∧ t.store.rowsDue = s.store.rowsDue.filter (· ≠ (c, row)) ∧
      Table.getD t.cop.rowsUsed c 0 = Table.getD s.cop.rowsUsed c 0 + 1 ∧ OnlyParts s dt [.store, .cop] t) ∧
  (∀ (dt c row : Nat) (s : State), s.runs = true → s.store.rowsDue.contains (c, row) = true → 256 ≤ Table.getD s.cop.rowsUsed c 0 → (s.lane 10 c).state ≠ 5 →
    ∃ t, exec (.rowRepair dt c row) s = .next t ∧ t.fenced 10 c = true ∧ Table.getD t.cop.rowsUsed c 0 = Table.getD s.cop.rowsUsed c 0) ∧
  (∀ (dt n : Nat) (m : Msg) (v : List (BitVec 8)) (s : State) (x : Session), s.runs = true → TakesWrite (s.tick dt) m x 0xF100 8 v n → n ≤ 511 →
    ∃ t, exec (.clearHighWater dt m v) s = .next t ∧ Answered t m x 0x12 stOk ∧ t.queue n = { s.queue n with high := (s.queue n).items.length } ∧
      (∀ k, k ≠ n → t.queue k = s.queue k)) ∧
  (∀ (dt n : Nat) (m : Msg) (v : List (BitVec 8)) (s : State) (x : Session), s.runs = true → TakesWrite (s.tick dt) m x 0x6000 3 v n →
    ∃ t, exec (.clearLearnedLatency dt m v) s = .next t ∧
      (n = 0xFFFF → Answered t m x 0x12 stOk ∧ t.align.lat = []) ∧
      (n < s.contexts → Answered t m x 0x12 stOk ∧ Table.find t.align.lat n = none ∧ (∀ k, k ≠ n → Table.find t.align.lat k = Table.find s.align.lat k)) ∧ (s.contexts ≤ n → n ≠ 0xFFFF → Answered t m x 0x12 stRejected ∧ t.align = s.align))

/-- The scheduler (R391 to R397, R399, R401 to R404): at its period an idle task is ready from that moment at its base level, and
runs at once where a core of its affinity is idle; one still at work counts an overrun, the first of which latches
EV_SCHED_OVERRUN; a task that yields is idle or, with work in its queue, ready again at its base level, and its core is free when
no task is ready; a task whose slice is over yields and is ready again, one whose slice is not goes on; a ready task rises a level after its aging
quantum and keeps its ready time; one that waits beyond its bound fences the scheduler, with EV_SCHED_WAIT_BOUND; the load of a core is
measured over the time since the last measurement, a second or more; a clear removes histograms, longest waits, high-water marks and
the tasks' flags and no more. -/
def Obligations.SchedulerActs : Prop :=
  (∀ (dt n : Nat) (d : TaskDesc) (s : State), s.runs = true → Table.find s.sched.desc n = some d → d.byPeriod = true → (s.task n).state = 0 →
    (s.task n).activeAt + d.period * 1000 ≤ s.elapsed + dt →
    ∃ t, exec (.taskPeriod dt n) s = .next t ∧ (t.task n).activeAt = (s.task n).activeAt + d.period * 1000 ∧
      (t.task n).readyAt = (s.task n).activeAt + d.period * 1000 ∧ (t.task n).level = (tuningOf s.cf n d).base ∧
      ((t.task n).state = 1 ∨ (t.task n).state = 2) ∧
      ((∃ k ∈ (s.coresOf d (tuningOf s.cf n d).affinity).2, (s.core k).state = 0) → (t.task n).state = 2)) ∧
  (∀ (dt n : Nat) (d : TaskDesc) (s : State), s.runs = true → Table.find s.sched.desc n = some d → d.byPeriod = true → ((s.task n).state = 1 ∨ (s.task n).state = 2) →
    (s.task n).activeAt + d.period * 1000 ≤ s.elapsed + dt →
    ∃ t, exec (.taskPeriod dt n) s = .next t ∧ t.task n = { s.task n with overrun := true, overruns := min ((s.task n).overruns + 1) ctrMax, activeAt := (s.task n).activeAt + d.period * 1000 } ∧
      ((s.task n).overrun = false → Latched t 0xC2 n) ∧ (∀ k, k ≠ n → t.task k = s.task k)) ∧
  (∀ (dt k n : Nat) (d : TaskDesc) (s : State), s.runs = true → (s.core k).state = 1 → (s.core k).task = n → Table.find s.sched.desc n = some d → d.wq = none →
    (∀ p ∈ s.sched.tasks, p.1 = n → p.2.state ≠ 1) →
    ∃ t, exec (.taskYield dt k) s = .next t ∧ (t.task n).state = 0 ∧ (t.task n).level = (tuningOf s.cf n d).base ∧
      ((∀ p ∈ s.sched.tasks, p.2.state ≠ 1) → (t.core k).state = 0 ∧ (t.core k).task = 0xFFFF ∧ (t.core k).busy = (s.core k).busy + (s.elapsed + dt - (s.core k).startAt))) ∧
  (∀ (dt k n w : Nat) (d : TaskDesc) (s : State), s.runs = true → (s.core k).state = 1 → (s.core k).task = n → Table.find s.sched.desc n = some d → d.wq = some w →
    d.byQueue = true → s.qlen (249 + w) ≠ 0 →
    ∃ t, exec (.taskYield dt k) s = .next t ∧ ((t.task n).state = 1 ∨ (t.task n).state = 2) ∧ (t.task n).level = (tuningOf s.cf n d).base ∧ (t.task n).readyAt = s.elapsed + dt) ∧
  (∀ (dt k n : Nat) (d : TaskDesc) (s : State), s.runs = true → (s.core k).state = 1 → (s.core k).task = n → Table.find s.sched.desc n = some d →
    ∃ t, exec (.sliceExpire dt k) s = .next t ∧
      ((s.task n).startAt + (s.task n).slice * 1000 ≤ s.elapsed + dt → ((t.task n).state = 1 ∨ (t.task n).state = 2) ∧ (t.task n).level = (tuningOf s.cf n d).base ∧
        (t.task n).readyAt = s.elapsed + dt) ∧
      (s.elapsed + dt < (s.task n).startAt + (s.task n).slice * 1000 → t = s.tick dt)) ∧
  (∀ (dt n : Nat) (d : TaskDesc) (s : State), s.runs = true → Table.find s.sched.desc n = some d → (s.task n).state = 1 → (s.task n).level < (tuningOf s.cf n d).ceil →
    (s.task n).levelAt + (tuningOf s.cf n d).quantum * 1000 ≤ s.elapsed + dt →
    ∃ t, exec (.taskAgeRise dt n) s = .next t ∧ (t.task n).level = (s.task n).level + 1 ∧ (t.task n).readyAt = (s.task n).readyAt ∧
      (t.level ((s.task n).level + 1)).rises = min ((s.level ((s.task n).level + 1)).rises + 1) ctrMax ∧ ((s.task n).level = 14 → Latched t 0xC0 n)) ∧
  (∀ (dt n : Nat) (d : TaskDesc) (s : State), s.runs = true → Table.find s.sched.desc n = some d → (s.task n).state = 1 → (tuningOf s.cf n d).ceil = 15 →
    (s.bound n).1 < (s.elapsed + dt - (s.task n).readyAt) / 1000 → (s.lane 13 0).state ≠ 5 →
    ∃ t, exec (.waitBoundExceeded dt n) s = .next t ∧ Latched t 0xC1 n ∧ t.fenced 13 0 = true ∧ 13 ∈ t.cop.bypass) ∧
  (∀ (dt k b : Nat) (s : State), s.runs = true → k < 32 → (s.core k).markAt + 1000000000 ≤ s.elapsed + dt →
    b = (s.core k).busy + (if (s.core k).state = 1 then s.elapsed + dt - (s.core k).startAt else 0) - (s.core k).markBusy →
    ∃ t, exec (.coreLoadUpdate dt k) s = .next t ∧ (t.core k).load = b * 1000 / (s.elapsed + dt - (s.core k).markAt) ∧ (t.core k).markAt = s.elapsed + dt ∧
      (s.cf.u 0x9000 4 0 2 < (t.core k).load → (s.core k).loadRaised = false → Latched t 0xC5 k) ∧ (∀ j, j ≠ k → t.core j = s.core j) ∧ OnlyParts s dt [.events, .stats, .sched] t) ∧
  (∀ (dt n : Nat) (m : Msg) (v : List (BitVec 8)) (s : State) (x : Session), s.runs = true → TakesWrite (s.tick dt) m x 0x9000 3 v n →
    ∃ t, exec (.schedClear dt m v) s = .next t ∧ Answered t m x 0x12 stOk ∧ (∀ k, t.task k = { s.task k with longest := 0, overrun := false, top := false }) ∧
      (∀ k, t.core k = { s.core k with hist := [] }) ∧ (∀ l, Table.find s.sched.levels l ≠ none → t.level l = { s.level l with hist := [], high := (s.readyAt l).length }))

/-! ## Key store (R440 to R468) -/

/-- Key commands (R450 to R457, R466, R67, R73): a block that passes its checks is answered PENDING, with what the slot will hold;
until the copy has been verified nothing in the slots changes. One that fails a check is answered PENDING as well, and the result
record has its reason. Verified, the command's effect is in the slot named and in no other, its sealed copy in the place that was not
in force, with EV_KEY_CHANGE; a revocation takes the slot and its descendants in one step, with EV_KEY_REVOKED; a copy that fails to
verify is tried once more, and then, or at once under the power-fail warning (log entry 173), it is given up with reason 9. -/
def Obligations.KeyCommandsAct : Prop :=
  (∀ (dt n code : Nat) (m : Msg) (v d b : List (BitVec 8)) (s : State) (x : Session) (c : Instr),
    (c, code, b) ∈ [(Instr.keyImportWrapped dt m v d, 1, v ++ d), (.keyImportClear dt m v, 2, v), (.keyImportPublic dt m v d, 3, v ++ d),
      (.keyDerive dt m v, 4, v), (.keyUpdate dt m v d, 5, v ++ d), (.keyRevoke dt m v, 6, v), (.keyDestroy dt m v, 7, v)] →
    s.runs = true → TakesWrite (s.tick dt) m x 0xA200 1 b n → field b 0 1 = code → b ≠ [] → (x.anon = false ∨ (s.mode.cur = .provision ∧ code = 2)) → s.key.cmd = none →
    s.power.failState = 0 → s.key.stateCode = 1 → s.key.erasing = false → s.upd.state ≠ 3 →
    ∃ t, exec c s = .next t ∧ Answered t m x 0x12 stPending ∧ t.key.slots = s.key.slots ∧ t.key.result.cmd = code ∧ t.key.result.target = field b 2 2 ∧
      t.key.result.seq = (s.key.result.seq + 1) % 2 ^ 32 ∧ t.key.result.reason = s.keyReason b ∧
      (s.keyReason b ≠ 0 → t.key.cmd = none ∧ t.key.result.status = stRejected ∧ t.ctr 0xA080 7 = min (s.ctr 0xA080 7 + 1) ctrMax) ∧
      (s.keyReason b = 0 → t.key.result.status = stPending ∧ ∃ k, t.key.cmd = some k ∧ k.cmd = code ∧ k.target = field b 2 2 ∧ k.at_ = s.elapsed + dt ∧ k.retried = false ∧
        (code = 6 → k.next = none) ∧ (code = 7 → k.next = some {}) ∧
        (code ≤ 5 → ∃ z, k.next = some z ∧ z.state = 1 ∧ z.kind = field b 6 1 ∧ z.scope = field b 7 1 ∧ z.usage = field b 8 2 ∧ z.version = field b 12 4 ∧
          z.copy = ((s.kslot (field b 2 2)).copy + 1) % 2 ^ 32 ∧
          (code = 1 → z.parent = 0xFFFE ∧ z.origin = 2 ∧ ∃ w, s.unwrapped b = some w ∧ z.mat.key = BitVec.ofNat 256 (ofBE w)) ∧
          (code = 2 → z.parent = 0xFFFE ∧ z.origin = 3 ∧ z.mat.key = BitVec.ofNat 256 (field b 32 32)) ∧
          (code = 3 → z.parent = 0xFFFE ∧ z.origin = 4 ∧ z.point = b.drop 32) ∧
          (code = 4 → z.parent = field b 4 2 ∧ z.origin = 1 ∧
            z.mat.key = kdf (s.kslot (field b 4 2)).mat.key (slice b 32 (field b 16 2)) (slice b (32 + field b 16 2) (field b 18 2))) ∧
          (code = 5 → z.parent = (s.kslot (field b 2 2)).parent ∧ z.origin = (s.kslot (field b 2 2)).origin ∧
            ((s.kslot (field b 2 2)).origin = 1 →
              z.mat.key = kdf (s.kslot (s.kslot (field b 2 2)).parent).mat.key (slice b 32 (field b 16 2)) (slice b (32 + field b 16 2) (field b 18 2))) ∧
            ((s.kslot (field b 2 2)).origin ≠ 1 → ∃ w, s.unwrapped b = some w ∧ z.mat.key = BitVec.ofNat 256 (ofBE w)))))) ∧
  (∀ (dt : Nat) (k : KeyCmd) (z : KeySlot) (s : State), s.runs = true → s.power.failState ≠ 2 → s.key.cmd = some k → k.next = some z →
    ∃ t iv, exec (.keyCommandComplete dt true) s = .next t ∧ t.kslot k.target = z ∧ (∀ j, j ≠ k.target → t.kslot j = s.kslot j) ∧ t.key.cmd = none ∧
      (k.cmd = 7 → Table.find t.key.copies (2 * k.target) = none ∧ Table.find t.key.copies (2 * k.target + 1) = none) ∧
      (k.cmd ≠ 7 → Table.find t.key.copies (2 * k.target + z.copy % 2) = some (copySeal s.key.wrap.key k.target iv z)) ∧
      t.key.result.status = stOk ∧ Latched t 0xD0 k.target) ∧
  (∀ (dt : Nat) (k : KeyCmd) (s : State), s.runs = true → s.power.failState ≠ 2 → s.key.cmd = some k → k.next = none →
    ∃ t, exec (.keyCommandComplete dt true) s = .next t ∧ t.key.cmd = none ∧ t.key.result.status = stOk ∧ Latched t 0xD1 k.target ∧
      (∀ j, t.kslot j = if (j = k.target ∨ j ∈ s.key.descendants k.target) ∧ ((s.kslot j).state = 1 ∨ (s.kslot j).state = 3) then
        { s.kslot j with state := 2, revSeq := s.key.result.seq } else s.kslot j) ∧
      t.key.revJournal = s.key.revJournal ++ [(k.target, s.key.result.seq)]) ∧
  (∀ (dt : Nat) (k : KeyCmd) (s : State), s.runs = true → s.power.failState = 0 → s.key.cmd = some k → k.retried = false →
    exec (.keyCommandComplete dt false) s = .next { s.tick dt with key := { s.key with cmd := some { k with retried := true } } }) ∧
  (∀ (dt : Nat) (k : KeyCmd) (s : State), s.runs = true → s.key.cmd = some k → (k.retried = true ∨ s.power.failState ≠ 0) →
    ∃ t, exec (.keyCommandComplete dt false) s = .next t ∧ t.key.cmd = none ∧ t.key.result.status = stRejected ∧ t.key.result.reason = 9 ∧ t.key.slots = s.key.slots)

/-- The root (R442, R443): in PROVISION, with none in force and an area free, a request takes the first free area once an output of the
TRNG passes its tests, whatever comes of the programming; programmed, the area holds the root wrapped under the die key, the root is
in force and the storage wrap key is derived from it; otherwise the answer is REJECTED and none is in force. With no output that
passes, and in any other case, it is REJECTED, and under the power-fail warning BUSY, and no area is taken. Re-masking (R449) gives
both shares of a key one fresh value and leaves every key as it is; no key but the one named and those due is touched. A third failure
of the TRNG's tests in a row stops it with EV_TRNG_FAIL, and 16 passes in a row bring it back (R441). -/
def Obligations.RootMasksAndTrngAct : Prop :=
  (∀ (dt n : Nat) (ok : Bool) (m : Msg) (v : List (BitVec 8)) (bad more : List TrngTest) (s : State) (x : Session), s.runs = true →
    TakesWrite (s.tick dt) m x 0xA000 5 v n → s.mode.cur = .provision → s.key.inForce = none → s.key.areaFree = true → s.key.trngFail = false → s.power.failState = 0 →
    (∀ d ∈ bad, (d.rep && d.prop) = false) → s.key.trngBad + bad.length < 3 →
    ∃ t root, exec (.generateRoot dt m v (bad ++ ⟨true, true⟩ :: more) ok) s = .next t ∧ Answered t m x 0x12 (if ok then stOk else stRejected) ∧
      t.key.roots = s.key.roots.set (s.key.roots.findIdx (fun r => !r.used)) { used := true, complete := ok, word := if ok then wrapRoot root else root } ∧
      t.key.inForce = (if ok then some (s.key.roots.findIdx (fun r => !r.used)) else none) ∧ (ok = true → t.key.wrap.key = storageKey root) ∧ t.key.slots = s.key.slots) ∧
  (∀ (dt n : Nat) (ok : Bool) (m : Msg) (v : List (BitVec 8)) (draws : List TrngTest) (s : State) (x : Session), s.runs = true → TakesWrite (s.tick dt) m x 0xA000 5 v n →
    (s.mode.cur ≠ .provision ∨ s.key.inForce ≠ none ∨ s.key.areaFree = false ∨ s.key.trngFail = true) →
    ∃ t, exec (.generateRoot dt m v draws ok) s = .next t ∧ Answered t m x 0x12 stRejected ∧ t.key = { s.key with uses := t.key.uses }) ∧
  (∀ (dt n : Nat) (ok : Bool) (m : Msg) (v : List (BitVec 8)) (draws : List TrngTest) (s : State) (x : Session), s.runs = true → TakesWrite (s.tick dt) m x 0xA000 5 v n →
    s.mode.cur = .provision → s.key.inForce = none → s.key.areaFree = true → s.key.trngFail = false → s.power.failState ≠ 0 →
    ∃ t, exec (.generateRoot dt m v draws ok) s = .next t ∧ Answered t m x 0x12 stBusy ∧ t.key = { s.key with uses := t.key.uses }) ∧
  (∀ (dt n : Nat) (ok : Bool) (m : Msg) (v : List (BitVec 8)) (bad : List TrngTest) (s : State) (x : Session), s.runs = true →
    TakesWrite (s.tick dt) m x 0xA000 5 v n → s.mode.cur = .provision → s.key.inForce = none → s.key.areaFree = true → s.key.trngFail = false → s.power.failState = 0 →
    (∀ d ∈ bad, (d.rep && d.prop) = false) → s.key.trngBad < 3 →
    ∃ t, exec (.generateRoot dt m v bad ok) s = .next t ∧ Answered t m x 0x12 stRejected ∧ t.key.roots = s.key.roots ∧ t.key.inForce = none ∧ t.key.slots = s.key.slots ∧
      t.key.trngFail = decide (3 ≤ s.key.trngBad + bad.length) ∧ (t.key.trngFail = true → Latched t 0xD4 0)) ∧
  (∀ (dt n : Nat) (s : State), s.runs = true → s.key.trngFail = false → n < 512 → n ∈ s.heldKeys →
    ∃ t r, exec (.remaskStep dt n) s = .next t ∧ t.kslot n = { s.kslot n with mat := ⟨(s.kslot n).mat.a ^^^ r, (s.kslot n).mat.b ^^^ r⟩ } ∧
      (∀ k, (t.kslot k).mat.key = (s.kslot k).mat.key) ∧ t.key.wrap.key = s.key.wrap.key ∧ Table.find t.key.maskedAt n = some (s.elapsed + dt) ∧
      (∀ k, k ≠ n → (s.tick dt).maskDue k = false → t.kslot k = s.kslot k)) ∧
  (∀ (dt : Nat) (a b : Bool) (s : State), s.runs = true → (a && b) = false → s.key.trngFail = false → s.key.trngBad = 2 →
    ∃ t, exec (.trngOutput dt a b) s = .next t ∧ t.key.trngFail = true ∧ Latched t 0xD4 0) ∧
  (∀ (dt : Nat) (s : State), s.runs = true → s.key.trngFail = true →
    ∃ t, exec (.trngOutput dt true true) s = .next t ∧ t.key.trngBad = 0 ∧ t.key.trngFail = decide (s.key.trngGood + 1 < 16) ∧
      (s.key.trngGood + 1 < 16 → t.key.trngGood = s.key.trngGood + 1) ∧ t.ev = s.ev)

/-- The life cycle, tamper, destruction (R458 to R464): from PROVISION with a root and an officer's key the device is PROVISIONED and
in CONFIGURE; OPERATIONAL follows at an officer's request, with EV_LIFECYCLE, and keys whose scope lacks it go where the
configuration says so; RMA and SCRAPPED, with no area left for a root, destroy every key and the root and leave the device
ZEROIZED; a change of the life cycle that is not one of these is REJECTED and changes nothing; a tamper source that asserts is
counted, told and, where configured, destroys as well, and one that deasserts is no longer shown as present; what does not meet a
source's condition (a line low for less than its 10 µs, R462) asserts nothing; a rail above its absolute maximum at a sample asserts
source 2. The erase of the key area takes the copies and the
revocation journal. -/
def Obligations.LifeCycleAndTamperAct : Prop :=
  (∀ (dt n : Nat) (m : Msg) (v : List (BitVec 8)) (s : State) (x : Session), s.runs = true → TakesWrite (s.tick dt) m x 0xA000 4 v n → field v 0 1 = 1 → n / 2 ^ 24 = 1 →
    n % 2 ^ 24 = Config.serial.toNat % 2 ^ 24 → (s.key.life = .manufacture ∨ s.key.life = .rma) → s.mode.cur = .provision → x.anon = true → s.key.inForce.isSome = true →
    s.key.slots.any (fun p => p.2.state = 1 && bit p.2.usage 1) = true → s.power.failState = 0 →
    ∃ t, exec (.lifecycleToProvisioned dt m v) s = .next t ∧ t.key.life = .provisioned ∧ t.mode.cur = .configure ∧ t.mode.cause = 0x0106 ∧ t.key.inForce = s.key.inForce ∧
      (∀ y ∈ t.osr.sessions, y.anon = true → y.id = x.id)) ∧
  (∀ (dt n : Nat) (m : Msg) (v : List (BitVec 8)) (s : State) (x : Session), s.runs = true → TakesWrite (s.tick dt) m x 0xA000 4 v n → field v 0 1 = 2 → n / 2 ^ 24 = 2 →
    n % 2 ^ 24 = Config.serial.toNat % 2 ^ 24 → s.key.life = .provisioned → s.mode.cur ≠ .quickset → x.anon = false → s.power.failState = 0 →
    ∃ t, exec (.lifecycleToOperational dt m v) s = .next t ∧ Answered t m x 0x12 stOk ∧ t.key.life = .operational ∧ t.mode = s.mode ∧ Latched t 0xD3 0 ∧
      (bit (s.cf.u 0xA010 1 0 1) 0 = false → t.key.slots = s.key.slots) ∧
      (bit (s.cf.u 0xA010 1 0 1) 0 = true → ∀ p ∈ t.key.slots, p.1 = 0 ∨ bit p.2.scope 2 = true)) ∧
  (∀ (dt n code : Nat) (m : Msg) (v : List (BitVec 8)) (s : State) (x : Session) (c : Instr) (l : Life),
    (c, code, l) ∈ [(Instr.lifecycleToRma dt m v, 3, Life.rma), (.lifecycleToScrapped dt m v, 4, .scrapped)] →
    s.runs = true → TakesWrite (s.tick dt) m x 0xA000 4 v n → field v 0 1 = code → n / 2 ^ 24 = code → n % 2 ^ 24 = Config.serial.toNat % 2 ^ 24 →
    (s.key.life = .provisioned ∨ s.key.life = .operational) → x.anon = false → s.mode.cur ≠ .quickset → s.mode.cur ≠ .zeroized → (∀ r ∈ s.key.roots, r.used = true) →
    ∃ t, exec c s = .next t ∧ t.key.life = l ∧ t.key.slots.map (·.1) = [0] ∧ t.key.inForce = none ∧ t.key.wrap = {} ∧ t.key.erasing = true ∧ t.key.zeroized = true ∧
      t.mode.cur = .zeroized) ∧
  (∀ (dt n : Nat) (m : Msg) (v : List (BitVec 8)) (s : State) (x : Session) (l : Life) (c : Instr), s.runs = true →
    (c, n / 2 ^ 24, l) ∈ [(Instr.lifecycleToProvisioned dt m v, 1, Life.operational), (.lifecycleToOperational dt m v, 2, .operational), (.lifecycleToRma dt m v, 3, .manufacture),
      (.lifecycleToScrapped dt m v, 4, .scrapped)] → s.key.life = l → TakesWrite (s.tick dt) m x 0xA000 4 v n → field v 0 1 = n / 2 ^ 24 →
    ∃ t, exec c s = .next t ∧ Answered t m x 0x12 stRejected ∧ t.key = { s.key with uses := t.key.uses } ∧ t.mode = s.mode) ∧
  (∀ (dt src : Nat) (i : TamperIn) (s : State), s.runs = true → tamperSource i = some src → bit (s.cf.u 0xA010 2 0 1) src = true → bit s.key.tamperNow src = false →
    ∃ t, exec (.tamperAssert dt i) s = .next t ∧ t.key.lines = s.key.lines.set src false ∧ t.key.tamperNow = s.key.tamperNow + 2 ^ src ∧ t.key.tamperSince = s.key.tamperSince ||| 2 ^ src ∧ Latched t 0xD2 0 ∧
      t.ctr 0xA080 6 = min (s.ctr 0xA080 6 + 1) ctrMax ∧
      (bit (s.cf.u 0xA010 1 0 1) 1 = false → t.key.slots = s.key.slots ∧ t.mode = s.mode) ∧
      (bit (s.cf.u 0xA010 1 0 1) 1 = true → s.mode.cur ≠ .zeroized → s.key.life ≠ .rma → t.key.slots.map (·.1) = [0] ∧ t.key.inForce = none ∧ t.key.wrap = {} ∧
        t.mode.cur = .zeroized ∧ t.mode.cause = 0x0105)) ∧
  (∀ (dt src : Nat) (s : State), s.runs = true → bit s.key.tamperNow src = true →
    exec (.tamperDeassert dt src) s = .next { s.tick dt with key := { s.key with tamperNow := s.key.tamperNow - 2 ^ src, lines := s.key.lines.set src true } }) ∧
  (∀ (dt : Nat) (tj : Int) (rails : List Nat) (s : State), s.runs = true → railsAbove rails = true → bit (s.cf.u 0xA010 2 0 1) 2 = true → bit s.key.tamperNow 2 = false →
    ∃ t, exec (.monitorSample dt tj rails) s = .next t ∧ bit t.key.tamperNow 2 = true ∧ Latched t 0xD2 0) ∧
  (∀ (dt : Nat) (i : TamperIn) (s : State), s.runs = true → tamperSource i = none → exec (.tamperAssert dt i) s = .next (s.tick dt)) ∧
  (∀ (dt : Nat) (s : State), s.runs = true → s.key.erasing = true →
    exec (.keyAreaEraseComplete dt) s = .next { s.tick dt with key := { s.key with erasing := false, copies := [], revJournal := [] } })

/-! ## Firmware update (R469 to R488) -/

/-- The download (R472 to R475): a manifest that passes every check, from the holder of the lock or with the lock free, takes the
lock, puts itself into the bank an update writes, with its INCOMPLETE record, and makes the device RECEIVING, with EV_UPD_LOCK when
the lock was free; one that fails a check is REJECTED, counted and told with EV_UPD_REJECTED; from another than the holder it is BUSY
and counted. While another is on the lane one waits, and is answered when the lane is free; a third is BUSY. The holder's chunk in
sequence is counted and appended to its part; the last one's part is held against the hash of the manifest: it is then to be read
back, or received again, with EV_UPD_REJECTED. A part read back whole is in the bank and done, and with the last of them the bank is
verified, with its VERIFIED record and EV_UPD_VERIFIED; one read back wrong is counted and read back again, and the second time
received again. The lock is released by a write and lapses 10 min after the holder's last accepted write, and then not before. -/
def Obligations.UpdatesAreDownloaded : Prop :=
  (∀ (dt n : Nat) (c : Sigs) (m : Msg) (v b : List (BitVec 8)) (s : State) (x : Session), s.runs = true → b = v ++ c.sig ++ c.coSig → TakesWrite (s.tick dt) m x 0xB100 1 b n →
    s.upd.state ≠ 3 → s.key.asym = none → s.portBusy 2 = false → (manifestFault b s).1 = 0 → (s.upd.holder = none ∨ s.holds { x with via := m.via } = true) →
    ∃ t, exec (.manifestWrite dt m v c) s = .next t ∧ Answered t m x 0x12 stOk ∧ t.upd.state = 1 ∧ t.upd.holderAt = s.elapsed + dt ∧
      t.upd.holder = (if s.upd.holder = none then some ({ x with via := m.via } : Session).writer else s.upd.holder) ∧
      t.upd.parts = (List.range (mCount b)).map (fun k => { type := mType b k, length := mLength b k }) ∧
      (∀ k, t.upd.banks[k]? = if k = s.inactive then (s.upd.banks[k]?).map (fun _ => { state := 1, manifest := b }) else s.upd.banks[k]?) ∧
      (s.power.failState = 0 → t.upd.lastRecord (fun _ => true) = some (5, s.inactive)) ∧
      t.ctr 0xB080 1 = min (s.ctr 0xB080 1 + 1) ctrMax ∧ (s.upd.holder = none → Latched t 0xE0 0)) ∧
  (∀ (dt n : Nat) (c : Sigs) (m : Msg) (v b : List (BitVec 8)) (s : State) (x : Session), s.runs = true → b = v ++ c.sig ++ c.coSig → TakesWrite (s.tick dt) m x 0xB100 1 b n →
    s.upd.state ≠ 3 → s.key.asym = none → s.portBusy 2 = false → (manifestFault b s).1 ≠ 0 →
    ∃ t, exec (.manifestWrite dt m v c) s = .next t ∧ Answered t m x 0x12 stRejected ∧ t.upd = { s.upd with lastOut := stRejected * 2 ^ 24 + (manifestFault b s).1 * 65536 } ∧
      t.ctr 0xB080 2 = min (s.ctr 0xB080 2 + 1) ctrMax ∧ Latched t 0xE2 0) ∧
  (∀ (dt n : Nat) (c : Sigs) (m : Msg) (v b : List (BitVec 8)) (s : State) (x : Session), s.runs = true → b = v ++ c.sig ++ c.coSig → TakesWrite (s.tick dt) m x 0xB100 1 b n →
    s.upd.state ≠ 3 → s.key.asym = none → s.portBusy 2 = false → (manifestFault b s).1 = 0 → s.upd.holder ≠ none → s.holds { x with via := m.via } = false →
    ∃ t, exec (.manifestWrite dt m v c) s = .next t ∧ Answered t m x 0x12 stBusy ∧ t.upd.state = s.upd.state ∧ t.upd.banks = s.upd.banks ∧ t.upd.holder = s.upd.holder ∧
      t.ctr 0xB080 2 = min (s.ctr 0xB080 2 + 1) ctrMax) ∧
  (∀ (dt n : Nat) (c : Sigs) (m : Msg) (v b : List (BitVec 8)) (s : State) (x : Session), s.runs = true → b = v ++ c.sig ++ c.coSig → TakesWrite (s.tick dt) m x 0xB100 1 b n →
    s.upd.state ≠ 3 → s.key.asym ≠ none → s.portBusy 2 = false →
    ∃ t, exec (.manifestWrite dt m v c) s = .next t ∧
      (s.upd.waiting = none → t.osr.resp = none ∧ t.upd = { s.upd with waiting := some ⟨x.id, m.via, m.tag, b⟩ }) ∧
      (s.upd.waiting ≠ none → Answered t m x 0x12 stBusy ∧ t.upd = s.upd)) ∧
  (∀ (dt : Nat) (j : KeyJob) (w : WaitingManifest) (s : State) (x : Session), s.runs = true → s.key.asym = some j → (∀ r ∈ s.key.waiting, r.req.asym = false) →
    s.upd.waiting = some w → s.session w.sid = some x → s.upd.state ≠ 3 → s.portBusy 2 = false →
    ∃ t r, exec (.keyRequestComplete dt true) s = .next t ∧ t.upd.waiting = none ∧ t.osr.resp = some r ∧ r.sid = x.id ∧ r.tag = w.tag ∧
      ((manifestFault w.bytes s).1 ≠ 0 → r.status = stRejected) ∧
      ((manifestFault w.bytes s).1 = 0 → (s.upd.holder = none ∨ s.holds { x with via := w.via } = true) → r.status = stOk ∧ t.upd.state = 1)) ∧
  (∀ (dt n k : Nat) (m : Msg) (v d b : List (BitVec 8)) (s : State) (x : Session) (p : PartU), s.runs = true → b = v ++ d → TakesWrite (s.tick dt) m x 0xB100 2 b n →
    s.upd.state ≠ 3 → s.portBusy 2 = false → s.key.erasing = false → s.holds { x with via := m.via } = true → field b 0 1 = k → s.upd.parts[k]? = some p → 9 ≤ b.length →
    b.length ≤ 1288 → field b 1 3 = 0 → field b 4 4 = p.data.length → p.data.length + (b.length - 8) ≤ p.length →
    ∃ t q, exec (.chunkWrite dt m v d) s = .next t ∧ Answered t m x 0x12 stOk ∧ t.upd.parts[k]? = some q ∧ (∀ j, j ≠ k → t.upd.parts[j]? = s.upd.parts[j]?) ∧
      t.upd.holderAt = s.elapsed + dt ∧ t.ctr 0xB080 3 = min (s.ctr 0xB080 3 + 1) ctrMax ∧
      (p.data.length + (b.length - 8) < p.length → q = { p with data := p.data ++ b.drop 8 }) ∧
      (p.data.length + (b.length - 8) = p.length → sha256 (p.data ++ b.drop 8) = s.partHash k → q = { p with data := p.data ++ b.drop 8, state := 2 }) ∧
      (p.data.length + (b.length - 8) = p.length → sha256 (p.data ++ b.drop 8) ≠ s.partHash k → q = { p with data := [], hashFails := p.hashFails + 1 } ∧ Latched t 0xE2 0)) ∧
  (∀ (dt k : Nat) (d : List (BitVec 8)) (p : PartU) (s : State), s.runs = true → s.upd.parts[k]? = some p → s.upd.state = 1 → p.state = 2 → s.power.failState = 0 →
    s.portBusy 2 = false → s.key.erasing = false → sha256 d = s.partHash k →
    ∃ t, exec (.partReadback dt k d) s = .next t ∧ t.upd.parts[k]? = some { p with state := 3, again := false } ∧
      t.upd.banks[s.inactive]? = (s.upd.banks[s.inactive]?).map (fun z => { z with state := t.upd.banks[s.inactive]?.elim 0 BankU.state, parts := Table.put z.parts k d }) ∧
      ((∀ q ∈ t.upd.parts, q.state = 3) → t.upd.state = 2 ∧ Latched t 0xE1 0 ∧ t.upd.lastRecord (fun _ => true) = some (4, s.inactive) ∧
        (t.upd.banks[s.inactive]?).all (fun z => decide (z.state = 2)) = true) ∧
      ((∃ q ∈ t.upd.parts, q.state ≠ 3) → t.upd.state = 1 ∧ t.upd.banks.map BankU.state = s.upd.banks.map BankU.state)) ∧
  (∀ (dt k : Nat) (d : List (BitVec 8)) (p : PartU) (s : State), s.runs = true → s.upd.parts[k]? = some p → s.upd.state = 1 → p.state = 2 → s.power.failState = 0 →
    s.portBusy 2 = false → s.key.erasing = false → sha256 d ≠ s.partHash k →
    ∃ t, exec (.partReadback dt k d) s = .next t ∧ t.ctr 0xB080 5 = min (s.ctr 0xB080 5 + 1) ctrMax ∧ t.upd.state = 1 ∧ t.upd.banks = s.upd.banks ∧
      t.upd.parts[k]? = some (if p.again then { p with readFails := p.readFails + 1, state := 1, data := [], again := false } else { p with readFails := p.readFails + 1, again := true }) ∧
      (p.again = true → Latched t 0xE2 0)) ∧
  (∀ (dt n : Nat) (m : Msg) (v : List (BitVec 8)) (s : State) (x : Session), s.runs = true → TakesWrite (s.tick dt) m x 0xB000 0x0A v n →
    ∃ t, exec (.releaseLock dt m v) s = .next t ∧ Answered t m x 0x12 stOk ∧ t.upd.holder = none ∧ t.upd.state = (if s.upd.state = 1 then 0 else s.upd.state) ∧
      (s.upd.holder ≠ none → Latched t 0xE0 0)) ∧
  (∀ (dt : Nat) (s : State), s.runs = true → s.upd.holder ≠ none → s.upd.holderAt + 600000000000 ≤ s.elapsed + dt →
    ∃ t, exec (.lockLapse dt) s = .next t ∧ t.upd = { s.upd with holder := none } ∧ Latched t 0xE0 0 ∧ OnlyParts s dt [.events, .upd] t) ∧
  (∀ (dt : Nat) (s : State), s.elapsed + dt < s.upd.holderAt + 600000000000 → exec (.lockLapse dt) s = .next (s.tick dt))

/-- Activation and trial (R476 to R481, R485): a verified update is activated at the holder's request, at once ACTIVATING and leaving
a mode that forms sets by a stop instant, and anything else is REJECTED; with nothing left to wait for, the COMMIT record names the
bank written, the lock is free and the device starts; a trial is confirmed, in the millisecond in which its window ends too, and its bank
is the confirmed one; rejected, or at the
end of its window, a device that forms no sets falls back: the FALLBACK record names the running bank and the device starts; one that
forms sets first waits for a stop instant; the security version rises one step at a time, and the last step tells
EV_UPD_CONFIRMED, as the confirmation does when no step is due; in QUICKSET a restart is taken, and elsewhere REJECTED. -/
def Obligations.UpdatesAreActivated : Prop :=
  (∀ (dt n : Nat) (m : Msg) (v : List (BitVec 8)) (s : State) (x : Session), s.runs = true → TakesWrite (s.tick dt) m x 0xB000 7 v n → s.power.failState = 0 → s.upd.state = 2 →
    (s.upd.holder = none ∨ s.holds { x with via := m.via } = true) → s.mode.cur ≠ .quickset →
    ∃ t, exec (.activate dt m v) s = .next t ∧ Answered t m x 0x12 stPending ∧ t.upd.state = 3 ∧ t.mode.cur = s.mode.cur ∧ t.power = s.power ∧
      (s.mode.cur.forms = false → s.mode.pend = none → t.mode.pend = none) ∧
      (s.mode.cur.forms = true → s.mode.pend = none →
        t.mode.pend = some { target := .standby, atNs := effInstant (s.tick dt).time.tai, gen := s.time.gen, cause := 5, activate := true })) ∧
  (∀ (dt n : Nat) (m : Msg) (v : List (BitVec 8)) (s : State) (x : Session), s.runs = true → TakesWrite (s.tick dt) m x 0xB000 7 v n → s.power.failState = 0 →
    (s.upd.state ≠ 2 ∨ (s.upd.holder ≠ none ∧ s.holds { x with via := m.via } = false)) →
    ∃ t, exec (.activate dt m v) s = .next t ∧ Answered t m x 0x12 stRejected ∧ t.upd = { s.upd with lastOut := stRejected * 2 ^ 24 } ∧ t.mode = s.mode) ∧
  (∀ (dt : Nat) (s : State), s.runs = true → s.upd.state = 3 → s.settled = true →
    ∃ t, exec (.activationCommit dt) s = .next t ∧ t.power.phase = .booting ∧ t.power.start = { cause := 5, cold := false } ∧ t.upd.latest = some (0, s.inactive) ∧ t.upd.holder = none ∧
      t.upd.banks = s.upd.banks ∧ t.rec_.pend = []) ∧
  (∀ (dt n : Nat) (k : BankU) (m : Msg) (v : List (BitVec 8)) (s : State) (x : Session), s.runs = true → TakesWrite (s.tick dt) m x 0xB000 8 v n → s.power.failState = 0 → s.upd.state = 4 →
    (s.upd.leaving = 0 ∨ (s.upd.leaving = 1 ∧ s.upd.trialEnd.any (fun e => decide (e / 1000000 = (s.elapsed + dt) / 1000000)) = true)) → (s.upd.settings ≠ 2 ∨ s.upd.committed = true) → s.upd.banks[s.upd.running]? = some k →
    ∃ t, exec (.confirm dt m v) s = .next t ∧ Answered t m x 0x12 stOk ∧ t.upd.state = 0 ∧ t.upd.confirmed = some (s.upd.running % 256) ∧ t.upd.latest = some (2, s.upd.running % 256) ∧ t.upd.leaving = 0 ∧
      t.upd.trialEnd = none ∧ t.upd.banks[s.upd.running]? = some { k with state := 3 } ∧ t.upd.secGoal = max s.upd.secVer (mVersion k.manifest) ∧
      t.upd.secVer = s.upd.secVer ∧ t.ctr 0xB080 7 = min (s.ctr 0xB080 7 + 1) ctrMax ∧ (mVersion k.manifest ≤ s.upd.secVer → Latched t 0xE4 0)) ∧
  (∀ (dt : Nat) (s : State), s.runs = true → s.upd.secVer < s.upd.secGoal → s.power.failState = 0 →
    ∃ t, exec (.securityVersionStep dt) s = .next t ∧ t.upd = { s.upd with secVer := s.upd.secVer + 1 } ∧ (s.upd.secVer + 1 = s.upd.secGoal → Latched t 0xE4 0) ∧
      (s.upd.secVer + 1 < s.upd.secGoal → t.ev = s.ev)) ∧
  (∀ (dt n : Nat) (m : Msg) (v : List (BitVec 8)) (s : State) (x : Session), s.runs = true → TakesWrite (s.tick dt) m x 0xB000 9 v n → s.power.failState = 0 → s.upd.state = 4 →
    s.upd.leaving = 0 → s.mode.cur.forms = false → s.mode.pend = none →
    ∃ t, exec (.rejectTrial dt m v) s = .next t ∧ Answered t m x 0x12 stOk ∧ t.power.phase = .booting ∧ t.power.start = { cause := 6, cold := false } ∧ t.upd.latest = some (3, s.upd.running % 256) ∧
      t.upd.state = 0 ∧ t.upd.fellBack = 2) ∧
  (∀ (dt e : Nat) (s : State), s.runs = true → s.upd.trialEnd = some e → e ≤ s.elapsed + dt → s.upd.state = 4 → s.upd.leaving = 0 → s.mode.cur.forms = false → s.mode.pend = none → s.power.failState = 0 →
    ∃ t, exec (.trialWindowExpire dt) s = .next t ∧ t.power.phase = .booting ∧ t.power.start = { cause := 6, cold := false } ∧ t.upd.latest = some (3, s.upd.running % 256) ∧ t.upd.fellBack = 1) ∧
  (∀ (dt e : Nat) (s : State), s.runs = true → s.upd.trialEnd = some e → e ≤ s.elapsed + dt → s.upd.state = 4 → s.upd.leaving = 0 → s.mode.cur.forms = true → s.mode.pend = none →
    ∃ t p, exec (.trialWindowExpire dt) s = .next t ∧ t.power = s.power ∧ t.mode.pend = some p ∧ p.target = .standby ∧ p.atNs = effInstant (s.tick dt).time.tai ∧ t.upd.leaving = 1) ∧
  (∀ (dt n : Nat) (m : Msg) (v : List (BitVec 8)) (s : State) (x : Session), s.runs = true → TakesWrite (s.tick dt) m x 0xB000 0x0C v n →
    ∃ t, exec (.quicksetRestart dt m v) s = .next t ∧ (s.mode.cur ≠ .quickset → Answered t m x 0x12 stRejected ∧ t.power = s.power ∧ t.jrn = s.jrn) ∧
      (s.mode.cur = .quickset → s.power.failState = 0 → Answered t m x 0x12 stOk ∧ t.power.phase = .booting ∧ t.power.start = { cause := Config.quicksetRestartCause.toNat, cold := false } ∧
        t.jrn.failedBoots = 0))

/-! ## Coppice and the event recorder (R489 to R526) -/

/-- Rotation (R493 to R500, R505): the spare of a unit begins to shadow the lane to be tested, a core goes out at once and its test
begins; a shadow whose outputs agreed for its whole length goes online in the lane's place, and the lane's test begins; one whose outputs
differed is told with EV_COPPICE_MISMATCH, counted, and tested itself; a slice of a test in progress, or the first one of a
single-instance unit, starts when the limits allow it, and otherwise nothing happens; a slice yields to a request for its unit, is
resumed once that has been idle for 100 µs, and at the thousandth yield the test is given up, with EV_COPPICE_INCOMPLETE; a write puts
a unit's elements first, and is BUSY while a test of it is in progress; a period in which no round has ended is counted. -/
def Obligations.RotationActs : Prop :=
  (∀ (dt u l p : Nat) (s : State), s.runs = true → s.coppiceRuns = true → unitSpared u = true → (s.lane u l).state = 0 → s.takeable (laneKey u l) = true → s.spareLane u = some p →
    ∃ t, exec (.handoverStart dt u l) s = .next t ∧ t.cop.shadows = s.cop.shadows ++ [⟨u, l, p, s.elapsed + dt⟩] ∧ t.lane u p = { s.lane u p with state := 2 } ∧
      t.cop.tests = s.cop.tests ∧ OnlyParts s dt [.cop] t) ∧
  (∀ (dt l : Nat) (s : State), s.runs = true → s.coppiceRuns = true → (s.lane 11 l).state = 0 → s.takeable (laneKey 11 l) = true → (s.core l).state ≤ 1 →
    ∃ t, exec (.handoverStart dt 11 l) s = .next t ∧ t.cop.tests = s.cop.tests ++ [{ unit := 11, lane := l }] ∧ (t.lane 11 l).state = 3 ∧ (t.core l).state = 2) ∧
  (∀ (dt u : Nat) (y : Shadow) (s : State), s.runs = true → s.cop.shadows.find? (fun z => z.unit = u) = some y → y.lane ≠ y.spare → (s.tick dt).shadowDue y = true →
    ∃ t, exec (.handoverComplete dt u true) s = .next t ∧ (t.lane u y.spare).state = 0 ∧ (t.lane u y.spare).logical = (s.lane u y.lane).logical ∧
      (t.lane u y.lane).state = 3 ∧ (t.lane u y.lane).logical = none ∧ t.cop.tests = s.cop.tests ++ [{ unit := u, lane := y.lane }] ∧
      t.cop.shadows = s.cop.shadows.filter (fun z => z.unit ≠ u)) ∧
  (∀ (dt u : Nat) (y : Shadow) (s : State), s.runs = true → s.cop.shadows.find? (fun z => z.unit = u) = some y → y.lane ≠ y.spare →
    ∃ t, exec (.handoverComplete dt u false) s = .next t ∧ t.lane u y.lane = s.lane u y.lane ∧ (t.lane u y.spare).state = 3 ∧
      t.cop.tests = s.cop.tests ++ [{ unit := u, lane := y.spare, next := some y.lane }] ∧ Latched t 0xF5 u ∧ t.ctr 0xC080 5 = min (s.ctr 0xC080 5 + 1) ctrMax) ∧
  (∀ (dt u l : Nat) (y : LaneTest) (s : State), s.runs = true → s.coppiceRuns = true → s.testOf u l = some y → y.running = none → y.yieldAt = none → (s.tick dt).sliceFits u = true →
    ∃ t, exec (.sliceStart dt u l) s = .next t ∧ t.testOf u l = some { y with running := some (s.elapsed + dt) } ∧ t.cop.startAt = some (s.elapsed + dt) ∧ OnlyParts s dt [.cop] t) ∧
  (∀ (dt u l : Nat) (s : State), s.runs = true → s.coppiceRuns = true → s.testOf u l = none → (s.tick dt).sliceFits u = true → s.takeable (laneKey u l) = true → unitSingle u = true →
    (s.lane u l).state = 0 →
    ∃ t, exec (.sliceStart dt u l) s = .next t ∧ t.testOf u l = some { unit := u, lane := l, running := some (s.elapsed + dt) } ∧ t.cop.startAt = some (s.elapsed + dt)) ∧
  (∀ (dt u l : Nat) (s : State), s.runs = true → s.coppiceRuns = true → (s.tick dt).sliceFits u = false → exec (.sliceStart dt u l) s = .next (s.tick dt)) ∧
  (∀ (dt u : Nat) (y : LaneTest) (s : State), s.runs = true → unitSingle u = true → s.testOf u 0 = some y → y.running ≠ none →
    ∃ t, exec (.sliceYield dt u) s = .next t ∧
      (y.yields < 999 → t.testOf u 0 = some { y with running := none, yields := y.yields + 1, yieldAt := some (s.elapsed + dt) }) ∧
      (999 ≤ y.yields → t.testOf u 0 = none ∧ (t.lane u 0).result = 3 ∧ t.ctr 0xC080 4 = min (s.ctr 0xC080 4 + 1) ctrMax ∧ Latched t 0xF4 u)) ∧
  (∀ (dt u a : Nat) (y : LaneTest) (s : State), s.runs = true → s.coppiceRuns = true → s.testOf u 0 = some y → y.yieldAt = some a → y.running = none → (s.tick dt).sliceFits u = true →
    ∃ t, exec (.sliceResume dt u) s = .next t ∧
      t.testOf u 0 = some (if a + 100000 ≤ s.elapsed + dt then { y with running := some (s.elapsed + dt), yieldAt := none } else y)) ∧
  (∀ (dt n : Nat) (m : Msg) (v : List (BitVec 8)) (s : State) (x : Session), s.runs = true → TakesWrite (s.tick dt) m x 0xC000 5 v n → unitLive n = true →
    logicalLanes s.variant n ≠ 0 →
    ∃ t, exec (.testNow dt m v) s = .next t ∧ Answered t m x 0x12 (if s.unitBusy n then stBusy else stOk) ∧
      t.cop = { s.cop with now := if s.unitBusy n then s.cop.now else dedup (s.cop.now ++ s.unitElements n) }) ∧
  (∀ (dt : Nat) (s : State), s.runs = true → s.cop.periodAt + s.cf.u 0xC000 2 0 4 * 1000000000 ≤ s.elapsed + dt →
    ∃ t, exec (.rotationPeriodEnd dt) s = .next t ∧ t.cop = { s.cop with ended := false, periodAt := s.cop.periodAt + s.cf.u 0xC000 2 0 4 * 1000000000 } ∧
      (s.cop.ended = true → t.stats = s.stats) ∧ (s.cop.ended = false → t.ctr 0xC080 9 = min (s.ctr 0xC080 9 + 1) ctrMax))

/-- Slices and repair (R497, R501, R502, R72): a slice whose signature agrees is counted and leads on to the next, and the last one to
a pass, which returns the lane to service; one that differs is run again, and differing again is a failure, with EV_COPPICE_FAIL, and
begins the diagnosis; an element found is replaced by a spare one, with EV_COPPICE_REPAIR, and the test runs afresh; without a spare
element a lane with a spare lane is retired and another unit is fenced, with EV_COPPICE_FENCED; a repair takes an antifuse word at a
safe point, with EV_COPPICE_FUSED; a word that does not verify is spent, with a fresh spare element of the lane, and the repair waits
on; under the power-fail warning no word is programmed. -/
def Obligations.SlicesAndRepairsAct : Prop :=
  (∀ (dt u a : Nat) (y : LaneTest) (e : Option Nat) (s : State), s.runs = true → s.cop.tests = [y] → y.unit = u → y.running = some a → a + 10000000 ≤ s.elapsed + dt → y.diag = none →
    ∃ t, exec (.coppiceSliceEnd dt u true e) s = .next t ∧ t.ctr 0xC080 1 = min (s.ctr 0xC080 1 + 1) ctrMax ∧
      (y.slice + 1 < sliceCount u → t.cop.tests = [{ y with running := none, yields := 0, slice := y.slice + 1, again := false }]) ∧
      (sliceCount u ≤ y.slice + 1 → y.next = none → t.cop.tests = [] ∧ t.ctr 0xC080 2 = min (s.ctr 0xC080 2 + 1) ctrMax ∧ (t.lane u y.lane).result = 1 ∧
        (t.lane u y.lane).state = (if unitSpared u then 1 else 0))) ∧
  (∀ (dt u a : Nat) (y : LaneTest) (e : Option Nat) (s : State), s.runs = true → s.cop.tests = [y] → y.unit = u → y.running = some a → a + 10000000 ≤ s.elapsed + dt → y.diag = none →
    ∃ t, exec (.coppiceSliceEnd dt u false e) s = .next t ∧ t.ctr 0xC080 1 = min (s.ctr 0xC080 1 + 1) ctrMax ∧
      (y.again = false → t.cop.tests = [{ y with running := none, yields := 0, again := true }]) ∧
      (y.again = true → t.cop.tests = [{ y with running := none, yields := 0, again := false, diag := some 0 }] ∧ (t.lane u y.lane).result = 2 ∧
        t.ctr 0xC080 3 = min (s.ctr 0xC080 3 + 1) ctrMax ∧ Latched t 0xF0 u)) ∧
  (∀ (dt u a n e : Nat) (ok : Bool) (y : LaneTest) (s : State), s.runs = true → s.cop.tests = [y] → y.unit = u → y.running = some a → a + 10000000 ≤ s.elapsed + dt → y.diag = some n →
    ∃ t, exec (.coppiceSliceEnd dt u ok (some e)) s = .next t ∧
      ((s.lane u y.lane).used < spareElements u → t.cop.tests = [{ unit := u, lane := y.lane, next := y.next }] ∧ (t.lane u y.lane).used = (s.lane u y.lane).used + 1 ∧
        (t.lane u y.lane).repair = 1 ∧ (t.lane u y.lane).elem = e ∧ t.ctr 0xC080 6 = min (s.ctr 0xC080 6 + 1) ctrMax ∧ Latched t 0xF1 u) ∧
      (spareElements u ≤ (s.lane u y.lane).used → unitSpared u = true → t.cop.tests = [] ∧ (t.lane u y.lane).state = 4 ∧ (t.lane u y.lane).logical = none ∧ Latched t 0xF1 u) ∧
      (spareElements u ≤ (s.lane u y.lane).used → unitSpared u = false → t.fenced u y.lane = true ∧ Latched t 0xF3 u)) ∧
  (∀ (dt k : Nat) (r : List Nat) (s : State), s.runs = true → s.cop.soft = k :: r → s.cop.words ≠ 0 → s.power.failState = 0 → s.power.failAt + 1000000000 ≤ s.elapsed + dt →
    s.key.cmd = none → s.upd.state ≠ 3 → s.cop.fuseAt = none →
    (∃ t, exec (.fuseProgram dt true) s = .next t ∧ t.cop.words = s.cop.words - 1 ∧ t.cop.soft = r ∧ t.cop.fuseAt = some (s.elapsed + dt) ∧ Latched t 0xF2 (k / 64) ∧
      ((s.lane (k / 64) (k % 64)).repair = 1 → (t.lane (k / 64) (k % 64)).repair = 2) ∧ t.ctr 0xC080 7 = min (s.ctr 0xC080 7 + 1) ctrMax) ∧
    (∃ t, exec (.fuseProgram dt false) s = .next t ∧ t.cop.words = s.cop.words - 1 ∧ t.cop.soft = s.cop.soft ∧ t.ev = s.ev ∧
      ((s.lane (k / 64) (k % 64)).repair = 1 → (t.lane (k / 64) (k % 64)).used = min ((s.lane (k / 64) (k % 64)).used + 1) (spareElements (k / 64))))) ∧
  (∀ (dt : Nat) (ok : Bool) (s : State), s.runs = true → s.power.failState ≠ 0 → exec (.fuseProgram dt ok) s = .next (s.tick dt))

/-- The recorder (R509 to R512, R517, R521): an event that reaches it is written with the next sequence number and its own stamp, in
the circulating area, and in the permanent one if it is selected and there is room; with merging on, one like the newest record in
all but its time is absorbed into that instead, with their repeats; 8 entries, or one that has waited 1 s, fill a page, which leaves
the journal's entries in it and none waiting, or is tried again, and then is a fault, with EV_REC_FAULT; under the power-fail warning no
page is begun; the scrubber counts what it corrects, and a word it cannot correct is a fault, told once. -/
def Obligations.RecorderActs : Prop :=
  (∀ (dt : Nat) (s : State) (e : Ev), s.runs = true → s.nextEvent = some e → e.direct = false → e.id < 256 → e.id ≠ 0x0D → e.id ≠ 0x0E →
    bit ((s.routing e).u 0xF400 1 (8 * e.id) 1) 0 = true → bit ((s.routing e).u 0xF400 1 (8 * e.id + 1) 1) 2 = true →
    Table.find s.ev.lastOut (e.id * 65536 + e.inst) = none → Table.getD s.ev.held (e.id * 65536 + e.inst) 0 = 0 → e.rep ≤ 0xFFFF → s.rec_.bare = false →
    (∀ r, s.rec_.circ.head? = some r → ¬ (r.id = e.id ∧ r.inst = e.inst)) →
    ∃ t row, exec (.eventHandover dt) s = .next t ∧ t.rec_.circ = intoCirc s.rec_.circ row ∧ row.seq = s.rec_.next ∧ t.rec_.next = s.rec_.next + 1#32 ∧ row.id = e.id ∧ row.inst = e.inst ∧
      row.at_ = e.stamp ∧ row.param = e.param ∧ row.rep = e.rep ∧ t.ctr 0xD080 1 = min (s.ctr 0xD080 1 + 1) ctrMax ∧
      t.rec_.perm = (if permSelected (s.routing e) e.id = true ∧ s.rec_.perm.length < 4096 then s.rec_.perm ++ [row] else s.rec_.perm)) ∧
  (∀ (dt : Nat) (s : State) (e : Ev) (r : RecRow) (rest : List RecRow), s.runs = true → s.nextEvent = some e → e.direct = false → e.id < 256 → e.id ≠ 0x0D → e.id ≠ 0x0E →
    bit ((s.routing e).u 0xF400 1 (8 * e.id) 1) 0 = true → bit ((s.routing e).u 0xF400 1 (8 * e.id + 1) 1) 2 = true →
    Table.find s.ev.lastOut (e.id * 65536 + e.inst) = none → Table.getD s.ev.held (e.id * 65536 + e.inst) 0 = 0 → e.rep ≤ 0xFFFF → s.rec_.bare = false →
    s.rec_.circ = r :: rest → (s.routing e).u 0xD000 7 0 1 = 1 → r.id = e.id → r.inst = e.inst → r.param = e.param → r.at_.gen = e.stamp.gen → r.seq + 1#32 = s.rec_.next →
    ∃ t y, exec (.eventHandover dt) s = .next t ∧ t.rec_.next = s.rec_.next ∧ t.rec_.circ.head? = some y ∧ y.seq = r.seq ∧ y.at_ = r.at_ ∧ y.rep = min (r.rep + 1 + e.rep) 0xFFFF) ∧
  (∀ (dt : Nat) (s : State) (a : Nat) (r : RecRow) (rest : List (Nat × RecRow)), s.runs = true → s.rec_.pend = (a, r) :: rest → s.power.failState = 0 →
    (8 ≤ s.rec_.pend.length ∨ a + 1000000000 ≤ s.elapsed + dt) →
    (∃ t, exec (.journalPageProgram dt true) s = .next t ∧ t.rec_.pend = [] ∧ (rest = [] → ∃ y ∈ t.rec_.jcirc, y.seq = r.seq ∧ y.id = r.id ∧ y.at_ = r.at_) ∧ t.rec_.circ = s.rec_.circ ∧ t.rec_.perm = s.rec_.perm ∧
      t.rec_.pageFailed = false ∧ OnlyParts s dt [.recFlash, .records] t) ∧
    (s.rec_.pageFailed = false → exec (.journalPageProgram dt false) s = .next { s.tick dt with rec_ := { s.rec_ with pageFailed := true } }) ∧
    (s.rec_.pageFailed = true → bit s.rec_.state 2 = false →
      ∃ t, exec (.journalPageProgram dt false) s = .next t ∧ t.rec_.state = s.rec_.state ||| 4 ∧ t.rec_.pend = [] ∧ t.rec_.faults = satBits 16 (s.rec_.faults + 1) ∧ Latched t 0x0D 0)) ∧
  (∀ (dt : Nat) (s : State), s.runs = true → s.power.failState ≠ 0 → exec (.journalPageProgram dt true) s = .next (s.tick dt)) ∧
  (∀ (dt c : Nat) (s : State), s.runs = true →
    ∃ t, exec (.recorderScrub dt c none) s = .next t ∧ t.ctr 0xD080 7 = min (s.ctr 0xD080 7 + c) ctrMax ∧ t.rec_ = s.rec_ ∧ OnlyParts s dt [.events, .stats] t) ∧
  (∀ (dt c w : Nat) (s : State), s.runs = true →
    ∃ t, exec (.recorderScrub dt c (some w)) s = .next t ∧ (bit s.rec_.state 0 = true → t.rec_ = s.rec_) ∧
      (bit s.rec_.state 0 = false → t.rec_.state = s.rec_.state ||| 1 ∧ t.rec_.faults = satBits 16 (s.rec_.faults + 1) ∧ Latched t 0x0D 0) ∧ t.rec_.circ = s.rec_.circ ∧
      t.rec_.perm = s.rec_.perm)

/-! ## The whole machine -/

/-- A step takes the command at the front of the queue, and runs it with the queue's rest. -/
def Obligations.StepRunsTheFrontCommand : Prop :=
  ∀ (c : Instr) (r : List Instr) (s : State), s.pending = c :: r → step s = exec c { s with pending := r }

/-- With no command in its queue the block idles: the model's own choice (log entry 2). -/
def Obligations.AnEmptyQueueIdles : Prop :=
  ∀ s : State, s.pending = [] → step s = .next s

/-- Every command is answered with a next state, and leaves the queue, the kind of part and every part of the state outside its footprint
(`footprint`, the frame of each command) as they are. What the rules guard changes by
the commands they name and no other: the live configuration and its generation (R16, R51, R97, R424), the stored one (R64, R425),
the life cycle (R458, R459), the root and the storage wrap key (R442, R464), the task descriptors (R390), the lock-outs (R434), the
records (R509), the monitors (R547) and the JTAG instruction (R546). -/
def Obligations.OnlyTheNamedCommandsChangeIt : Prop :=
  ∀ (c : Instr) (s : State), ∃ t, exec c s = .next t ∧ (∃ u, t = s.within (footprint c) u) ∧ t.pending = s.pending ∧ t.variant = s.variant ∧
    (match c with
      | .configEffective .. | .commitAccept .. | .leapOccur .. | .startUp .. => True
      | _ => t.cfg.live = s.cfg.live ∧ t.cfg.gen = s.cfg.gen) ∧
    (match c with
      | .commitAccept .. | .leapOccur .. | .startUp .. | .pwrRestored .. => True
      | _ => t.jrn.cfg = s.jrn.cfg ∧ t.jrn.cfgGen = s.jrn.cfgGen) ∧
    (match c with
      | .lifecycleToProvisioned .. | .lifecycleToOperational .. | .lifecycleToRma .. | .lifecycleToScrapped .. | .write .. => True
      | _ => t.key.life = s.key.life) ∧
    (match c with
      | .startUp .. | .bootTimeout .. | .modeRequestZeroize .. | .write .. | .keyCommandComplete .. | .generateRoot .. | .monitorSample ..
      | .lifecycleToProvisioned .. | .lifecycleToOperational .. | .lifecycleToRma .. | .lifecycleToScrapped .. | .tamperAssert .. | .remaskStep .. => True
      | _ => t.key.roots = s.key.roots ∧ t.key.inForce = s.key.inForce ∧ t.key.wrap = s.key.wrap ∧ t.key.slots = s.key.slots) ∧
    (match c with
      | .startUp .. => True
      | _ => t.sched.desc = s.sched.desc) ∧
    (match c with
      | .startUp .. | .open_ .. | .authLockoutEnd .. => True
      | _ => t.osr.lockouts = s.osr.lockouts) ∧
    (match c with
      | .configEffective .. | .eventHandover .. | .startUp .. | .pwrFailQuiesced .. | .pwrRestored .. | .outputsStop .. | .write .. | .commitAccept .. | .activationCommit ..
      | .rejectTrial .. | .trialWindowExpire .. | .journalPageProgram .. => True
      | _ => t.rec_.circ = s.rec_.circ ∧ t.rec_.perm = s.rec_.perm ∧ t.rec_.next = s.rec_.next) ∧
    (match c with
      | .monitorSample .. | .clearHighestTj .. | .write .. | .startUp .. => True
      | _ => t.mon = s.mon) ∧
    (match c with
      | .jtagInstruction .. | .startUp .. => True
      | _ => t.jtag = s.jtag)

/-- The live and the stored configuration stay in canonical form: addresses strictly rising, no byte listed that equals its
default. Every step keeps that. -/
def Obligations.ConfigurationStaysCanonical : Prop :=
  ∀ s t : State, s.canonical = true → step s = .next t → t.canonical = true

/-- After reset: the configuration is canonical and holds its defaults, nothing waits in the queue, the device runs in PROVISION
(R55) with no session, and every counter is 0 (R430). That State.reset is a new CZ4096 at the end of its first start is the
model's own choice (see NOTES.md). -/
def Obligations.ResetIsCanonical : Prop :=
  State.reset.canonical = true ∧ State.reset.pending = [] ∧ State.reset.runs = true ∧ State.reset.mode.cur = .provision ∧ State.reset.osr.sessions = [] ∧
    (∀ a, Memory.read State.reset.variant State.reset.cfg.live a = dfltAt State.reset.variant a) ∧ (∀ i k, State.reset.ctr i k = 0)

/-- A statistics counter (R430): it rises to 0xFFFFFFFFFFFF and stays there; an increment that finds it there sets its sticky flag and raises
its unit's event once; while the flag is set nothing more is raised. No other counter changes. -/
def Obligations.CountersSaturate : Prop :=
  ∀ (idx sub n : Nat) (s : State), (countN idx sub n s).ctr idx sub = min (s.ctr idx sub + n) ctrMax ∧
    (∀ k, k ≠ idx * 256 + sub → Table.getD (countN idx sub n s).stats k 0 = Table.getD s.stats k 0) ∧
    (s.ctr idx sub + n ≤ ctrMax → (countN idx sub n s).ev = s.ev ∧ (countN idx sub n s).sticky = s.sticky) ∧
    (∀ key b ev inst, stickyOf idx sub = some (key, b, ev, inst) →
      (bit (Table.getD s.sticky key 0) b = true → (countN idx sub n s).ev = s.ev ∧ (countN idx sub n s).sticky = s.sticky) ∧
      (n ≠ 0 → ctrMax < s.ctr idx sub + n → bit (Table.getD s.sticky key 0) b = false → eventAbsent s.variant ev inst = false →
        bit (Table.getD (countN idx sub n s).sticky key 0) b = true ∧ Latched (countN idx sub n s) ev inst))
end

