-- ==== Sys2Proof/Laws/Tables.lean ====
section
/-! SUPPORT. What a sparse table reads after a write, and that every operation on it keeps the canonical form; the same for
the bytes of a configuration. -/
namespace Sys2Proof
open Sys2Proof.Machine

/-! ## Read after write -/

variable {α : Type}

@[simp] theorem Table.find_put (t : Table α) (k j : Nat) (v : α) :
    Table.find (Table.put t k v) j = if j = k then some v else Table.find t j := by
  induction t with
  | nil => rfl
  | cons p r ih =>
    obtain ⟨k', v'⟩ := p
    by_cases hlt : k < k'
    · simp [Table.put, Table.find, hlt]
    · by_cases heq : k = k'
      · subst heq
        by_cases hj : j = k <;> simp [Table.put, Table.find, hj]
      · by_cases hj : j = k'
        · subst hj
          have hne : ¬ j = k := fun h => heq h.symm
          simp [Table.put, Table.find, hlt, heq, hne]
        · simp [Table.put, Table.find, hlt, heq, hj, ih]

@[simp] theorem Table.find_drop (t : Table α) (k j : Nat) :
    Table.find (Table.drop t k) j = if j = k then none else Table.find t j := by
  induction t with
  | nil => simp [Table.drop, Table.find]
  | cons p r ih =>
    obtain ⟨k', v'⟩ := p
    by_cases heq : k = k'
    · subst heq
      by_cases hj : j = k
      · subst hj; simp [Table.drop, ih]
      · simp [Table.drop, Table.find, hj, ih]
    · by_cases hj : j = k'
      · subst hj
        have hne : ¬ j = k := fun h => heq h.symm
        simp [Table.drop, Table.find, heq, hne]
      · simp [Table.drop, Table.find, heq, hj, ih]

/-- A key that was written reads as what was written; every other key reads as before. -/
@[simp] theorem Table.getD_set [DecidableEq α] (t : Table α) (k j : Nat) (v d : α) :
    Table.getD (Table.set t k v d) j d = if j = k then v else Table.getD t j d := by
  by_cases hv : v = d
  · by_cases hj : j = k <;> simp [Table.set, Table.getD, hv, hj]
  · by_cases hj : j = k <;> simp [Table.set, Table.getD, hv, hj]

@[simp] theorem Table.getD_put (t : Table α) (k j : Nat) (v d : α) :
    Table.getD (Table.put t k v) j d = if j = k then v else Table.getD t j d := by
  by_cases hj : j = k <;> simp [Table.getD, hj]

@[simp] theorem Table.getD_modify [DecidableEq α] (t : Table α) (k j : Nat) (d : α) (f : α → α) :
    Table.getD (Table.modify t k d f) j d = if j = k then f (Table.getD t k d) else Table.getD t j d := by
  simp [Table.modify]

/-! ## The canonical form of a configuration -/

/-- Every address of the list is above `a`. -/
def Memory.aboveAll (a : Nat) (m : List Host.Cell) : Bool := m.all (fun c => decide (a < c.1))

theorem Memory.wf_cons (v a : Nat) (b : BitVec 8) (m : List Host.Cell) :
    Memory.wf v ((a, b) :: m) = true ↔ b ≠ dfltAt v a ∧ Memory.aboveAll a m = true ∧ Memory.wf v m = true := by
  induction m generalizing a b with
  | nil => simp [Memory.wf, Memory.aboveAll]
  | cons p r ih =>
    obtain ⟨a', b'⟩ := p
    have h := ih a' b'
    constructor
    · intro hw
      have hw' : b ≠ dfltAt v a ∧ a < a' ∧ Memory.wf v ((a', b') :: r) = true := by
        rw [Memory.wf] at hw; simpa [and_assoc] using hw
      refine ⟨hw'.1, ?_, hw'.2.2⟩
      have hr := (h.mp hw'.2.2).2.1
      simp only [Memory.aboveAll, List.all_cons, List.all_eq_true, Bool.and_eq_true, decide_eq_true_eq] at hr ⊢
      exact ⟨hw'.2.1, fun c hc => Nat.lt_trans hw'.2.1 (hr c hc)⟩
    · rintro ⟨hb, ha, hr⟩
      have : a < a' := by
        simp only [Memory.aboveAll, List.all_cons, Bool.and_eq_true, decide_eq_true_eq] at ha; exact ha.1
      rw [Memory.wf]; simp [hb, this, hr]

theorem Memory.aboveAll_put (a k : Nat) (m : List Host.Cell) (b : BitVec 8) (hk : a < k) (h : Memory.aboveAll a m = true) :
    Memory.aboveAll a (Table.put m k b) = true := by
  induction m with
  | nil => simpa [Table.put, Memory.aboveAll] using hk
  | cons p r ih =>
    obtain ⟨k', b'⟩ := p
    simp only [Memory.aboveAll, List.all_cons, Bool.and_eq_true, decide_eq_true_eq] at h
    by_cases hlt : k < k'
    · simp only [Table.put, hlt, if_true, Memory.aboveAll, List.all_cons, Bool.and_eq_true, decide_eq_true_eq]
      exact ⟨hk, h.1, h.2⟩
    · by_cases heq : k = k'
      · simp only [Table.put, heq, if_true, if_false, lt_irrefl, Memory.aboveAll, List.all_cons, Bool.and_eq_true, decide_eq_true_eq]
        exact ⟨heq ▸ hk, h.2⟩
      · simp only [Table.put, hlt, heq, if_false, Memory.aboveAll, List.all_cons, Bool.and_eq_true, decide_eq_true_eq]
        exact ⟨h.1, ih h.2⟩

theorem Memory.aboveAll_drop (a k : Nat) (m : List Host.Cell) (h : Memory.aboveAll a m = true) :
    Memory.aboveAll a (Table.drop m k) = true := by
  induction m with
  | nil => rfl
  | cons p r ih =>
    obtain ⟨k', b'⟩ := p
    simp only [Memory.aboveAll, List.all_cons, Bool.and_eq_true, decide_eq_true_eq] at h
    by_cases heq : k = k'
    · simpa [Table.drop, heq] using heq ▸ ih h.2
    · simp only [Table.drop, heq, if_false, Memory.aboveAll, List.all_cons, Bool.and_eq_true, decide_eq_true_eq]
      exact ⟨h.1, ih h.2⟩

theorem Memory.wf_put (v k : Nat) (m : List Host.Cell) (b : BitVec 8) (hb : b ≠ dfltAt v k) (h : Memory.wf v m = true) :
    Memory.wf v (Table.put m k b) = true := by
  induction m with
  | nil => simp [Table.put, Memory.wf, hb]
  | cons p r ih =>
    obtain ⟨k', b'⟩ := p
    obtain ⟨hb', ha, hr⟩ := (Memory.wf_cons v k' b' r).mp h
    by_cases hlt : k < k'
    · simp only [Table.put, hlt, if_true]
      refine (Memory.wf_cons ..).mpr ⟨hb, ?_, h⟩
      simp only [Memory.aboveAll, List.all_cons, List.all_eq_true, Bool.and_eq_true, decide_eq_true_eq] at ha ⊢
      exact ⟨hlt, fun c hc => Nat.lt_trans hlt (ha c hc)⟩
    · by_cases heq : k = k'
      · subst heq
        simp only [Table.put, hlt, if_true, if_false]
        exact (Memory.wf_cons ..).mpr ⟨hb, ha, hr⟩
      · simp only [Table.put, hlt, heq, if_false]
        exact (Memory.wf_cons ..).mpr ⟨hb', Memory.aboveAll_put k' k r b (by omega) ha, ih hr⟩

theorem Memory.wf_drop (v k : Nat) (m : List Host.Cell) (h : Memory.wf v m = true) : Memory.wf v (Table.drop m k) = true := by
  induction m with
  | nil => rfl
  | cons p r ih =>
    obtain ⟨k', b'⟩ := p
    obtain ⟨hb', ha, hr⟩ := (Memory.wf_cons v k' b' r).mp h
    by_cases heq : k = k'
    · simpa [Table.drop, heq] using heq ▸ ih hr
    · simp only [Table.drop, heq, if_false]
      exact (Memory.wf_cons ..).mpr ⟨hb', Memory.aboveAll_drop k' k r ha, ih hr⟩

/-! Every operation on a configuration keeps its canonical form. -/

theorem Memory.wf_nil (v : Nat) : Memory.wf v [] = true := rfl

theorem Memory.wf_write (v : Nat) (m : List Host.Cell) (a : Nat) (b : BitVec 8) (h : Memory.wf v m = true) :
    Memory.wf v (Memory.write v m a b) = true := by
  unfold Memory.write Table.set
  split
  · exact Memory.wf_drop v a m h
  · exact Memory.wf_put v a m b (by assumption) h

theorem Memory.wf_writes (v : Nat) (bs : Bytes) (m : List Host.Cell) (a : Nat) (h : Memory.wf v m = true) :
    Memory.wf v (Memory.writes v m a bs) = true := by
  induction bs generalizing m a with
  | nil => exact h
  | cons b r ih => exact ih _ _ (Memory.wf_write v m a b h)

theorem Memory.wf_apply (v : Nat) (cells m : List Host.Cell) (h : Memory.wf v m = true) :
    Memory.wf v (Memory.apply v m cells) = true := by
  induction cells generalizing m with
  | nil => exact h
  | cons c r ih => exact ih _ (Memory.wf_write v m c.1 c.2 h)

theorem Memory.aboveAll_filter (a : Nat) (p : Host.Cell → Bool) (m : List Host.Cell) (h : Memory.aboveAll a m = true) :
    Memory.aboveAll a (m.filter p) = true := by
  simp only [Memory.aboveAll, List.all_eq_true] at h ⊢
  exact fun c hc => h c (List.mem_of_mem_filter hc)

theorem Memory.wf_filter (v : Nat) (p : Host.Cell → Bool) (m : List Host.Cell) (h : Memory.wf v m = true) :
    Memory.wf v (m.filter p) = true := by
  induction m with
  | nil => rfl
  | cons c r ih =>
    obtain ⟨a, b⟩ := c
    obtain ⟨hb, ha, hr⟩ := (Memory.wf_cons v a b r).mp h
    by_cases hp : p (a, b)
    · simp only [List.filter_cons, hp, if_true]
      exact (Memory.wf_cons ..).mpr ⟨hb, Memory.aboveAll_filter a p r ha, ih hr⟩
    · simpa [List.filter_cons, hp] using ih hr

/-- A byte written reads as written; every other byte reads as before. -/
@[simp] theorem Memory.read_write (v : Nat) (m : List Host.Cell) (a j : Nat) (b : BitVec 8) :
    Memory.read v (Memory.write v m a b) j = if j = a then b else Memory.read v m j := by
  by_cases h : j = a
  · subst h; simp [Memory.read, Memory.write]
  · by_cases hb : b = dfltAt v a
    · simp [Memory.read, Memory.write, Table.set, hb, Table.getD, h]
    · simp [Memory.read, Memory.write, Table.set, hb, Table.getD, h]

end Sys2Proof
end

