-- ==== Sys2Proof/Laws/State.lean ====
section
/-! SUPPORT. What each update of the state leaves as it was, one lemma per update, and what the updated entry reads as
afterwards. -/
namespace Sys2Proof.Machine
open Sys2Proof

/-! ## Time, free values, events, counters -/

@[simp] theorem State.tick_same (s : State) (dt : Nat) :
    (s.tick dt).pending = s.pending ∧ (s.tick dt).variant = s.variant ∧ (s.tick dt).freeCount = s.freeCount ∧ (s.tick dt).stats = s.stats ∧ (s.tick dt).sticky = s.sticky ∧ (s.tick dt).ev = s.ev ∧ (s.tick dt).pace = s.pace ∧ (s.tick dt).power = s.power ∧ (s.tick dt).mode = s.mode ∧ (s.tick dt).rst = s.rst ∧ (s.tick dt).jrn = s.jrn ∧ (s.tick dt).cfg = s.cfg ∧ (s.tick dt).osr = s.osr ∧ (s.tick dt).store = s.store ∧ (s.tick dt).sched = s.sched ∧ (s.tick dt).port = s.port ∧ (s.tick dt).acq = s.acq ∧ (s.tick dt).bus = s.bus ∧ (s.tick dt).ing = s.ing ∧ (s.tick dt).chain = s.chain ∧ (s.tick dt).align = s.align ∧ (s.tick dt).hr = s.hr ∧ (s.tick dt).alm = s.alm ∧ (s.tick dt).key = s.key ∧ (s.tick dt).osc = s.osc ∧ (s.tick dt).isl = s.isl ∧ (s.tick dt).cop = s.cop ∧ (s.tick dt).upd = s.upd ∧ (s.tick dt).rec_ = s.rec_ ∧ (s.tick dt).mon = s.mon ∧ (s.tick dt).jtag = s.jtag :=
  ⟨rfl, rfl, rfl, rfl, rfl, rfl, rfl, rfl, rfl, rfl, rfl, rfl, rfl, rfl, rfl, rfl, rfl, rfl, rfl, rfl, rfl, rfl, rfl, rfl, rfl, rfl, rfl, rfl, rfl, rfl, rfl⟩

/-- The clock runs; nothing else of the timebase changes with time alone. -/
theorem State.tick_time (s : State) (dt : Nat) :
    ∃ tai slew frac, (s.tick dt).time = { s.time with elapsed := s.time.elapsed + dt, tai := tai, slew := slew, frac := frac } := ⟨_, _, _, rfl⟩
@[simp] theorem State.tick_elapsed (s : State) (dt : Nat) : (s.tick dt).time.elapsed = s.time.elapsed + dt := rfl
@[simp] theorem State.tick_elapsed' (s : State) (dt : Nat) : (s.tick dt).elapsed = s.elapsed + dt := rfl
@[simp] theorem State.tick_runs (s : State) (dt : Nat) : (s.tick dt).runs = s.runs := rfl
@[simp] theorem State.tick_cf (s : State) (dt : Nat) : (s.tick dt).cf = s.cf := rfl

/-- With nothing left to slew internal time runs with the elapsed-time counter at the steered frequency (R79, R86). -/
theorem State.tick_tai (s : State) (dt : Nat) (h : s.time.slew = 0) :
    (s.tick dt).time.tai = ((s.time.tai + dt : Nat) + (s.time.frac + dt * s.time.freq) / 10 ^ 15 : Int).toNat := by
  simp only [State.tick, h, if_true, Int.sub_zero]

@[simp] theorem State.takeFree_same (s : State) :
    (s.takeFree).2.pending = s.pending ∧ (s.takeFree).2.variant = s.variant ∧ (s.takeFree).2.stats = s.stats ∧ (s.takeFree).2.sticky = s.sticky ∧ (s.takeFree).2.ev = s.ev ∧ (s.takeFree).2.pace = s.pace ∧ (s.takeFree).2.power = s.power ∧ (s.takeFree).2.mode = s.mode ∧ (s.takeFree).2.rst = s.rst ∧ (s.takeFree).2.jrn = s.jrn ∧ (s.takeFree).2.time = s.time ∧ (s.takeFree).2.cfg = s.cfg ∧ (s.takeFree).2.osr = s.osr ∧ (s.takeFree).2.store = s.store ∧ (s.takeFree).2.sched = s.sched ∧ (s.takeFree).2.port = s.port ∧ (s.takeFree).2.acq = s.acq ∧ (s.takeFree).2.bus = s.bus ∧ (s.takeFree).2.ing = s.ing ∧ (s.takeFree).2.chain = s.chain ∧ (s.takeFree).2.align = s.align ∧ (s.takeFree).2.hr = s.hr ∧ (s.takeFree).2.alm = s.alm ∧ (s.takeFree).2.key = s.key ∧ (s.takeFree).2.osc = s.osc ∧ (s.takeFree).2.isl = s.isl ∧ (s.takeFree).2.cop = s.cop ∧ (s.takeFree).2.upd = s.upd ∧ (s.takeFree).2.rec_ = s.rec_ ∧ (s.takeFree).2.mon = s.mon ∧ (s.takeFree).2.jtag = s.jtag :=
  ⟨rfl, rfl, rfl, rfl, rfl, rfl, rfl, rfl, rfl, rfl, rfl, rfl, rfl, rfl, rfl, rfl, rfl, rfl, rfl, rfl, rfl, rfl, rfl, rfl, rfl, rfl, rfl, rfl, rfl, rfl, rfl⟩

@[simp] theorem State.takeFree_fst (s : State) : s.takeFree.1 = s.freeCount := rfl

@[simp] theorem raise_same (id inst param : Nat) (s : State) :
    (raise id inst param s).pending = s.pending ∧ (raise id inst param s).variant = s.variant ∧ (raise id inst param s).freeCount = s.freeCount ∧ (raise id inst param s).stats = s.stats ∧ (raise id inst param s).sticky = s.sticky ∧ (raise id inst param s).pace = s.pace ∧ (raise id inst param s).power = s.power ∧ (raise id inst param s).mode = s.mode ∧ (raise id inst param s).rst = s.rst ∧ (raise id inst param s).jrn = s.jrn ∧ (raise id inst param s).time = s.time ∧ (raise id inst param s).cfg = s.cfg ∧ (raise id inst param s).osr = s.osr ∧ (raise id inst param s).store = s.store ∧ (raise id inst param s).sched = s.sched ∧ (raise id inst param s).port = s.port ∧ (raise id inst param s).acq = s.acq ∧ (raise id inst param s).bus = s.bus ∧ (raise id inst param s).ing = s.ing ∧ (raise id inst param s).chain = s.chain ∧ (raise id inst param s).align = s.align ∧ (raise id inst param s).hr = s.hr ∧ (raise id inst param s).alm = s.alm ∧ (raise id inst param s).key = s.key ∧ (raise id inst param s).osc = s.osc ∧ (raise id inst param s).isl = s.isl ∧ (raise id inst param s).cop = s.cop ∧ (raise id inst param s).upd = s.upd ∧ (raise id inst param s).rec_ = s.rec_ ∧ (raise id inst param s).mon = s.mon ∧ (raise id inst param s).jtag = s.jtag :=
  by
  unfold raise; split <;> simp

/-- Raising an event changes nothing but the latches. -/
@[simp] theorem raise_ev (id inst param : Nat) (s : State) :
    (raise id inst param s).ev.irq = s.ev.irq ∧ (raise id inst param s).ev.fenced = s.ev.fenced ∧
      (raise id inst param s).ev.lastOut = s.ev.lastOut ∧ (raise id inst param s).ev.held = s.ev.held := by
  unfold raise; split <;> simp

@[simp] theorem countN_same (idx sub n : Nat) (s : State) :
    (countN idx sub n s).pending = s.pending ∧ (countN idx sub n s).variant = s.variant ∧ (countN idx sub n s).freeCount = s.freeCount ∧ (countN idx sub n s).pace = s.pace ∧ (countN idx sub n s).power = s.power ∧ (countN idx sub n s).mode = s.mode ∧ (countN idx sub n s).rst = s.rst ∧ (countN idx sub n s).jrn = s.jrn ∧ (countN idx sub n s).time = s.time ∧ (countN idx sub n s).cfg = s.cfg ∧ (countN idx sub n s).osr = s.osr ∧ (countN idx sub n s).store = s.store ∧ (countN idx sub n s).sched = s.sched ∧ (countN idx sub n s).port = s.port ∧ (countN idx sub n s).acq = s.acq ∧ (countN idx sub n s).bus = s.bus ∧ (countN idx sub n s).ing = s.ing ∧ (countN idx sub n s).chain = s.chain ∧ (countN idx sub n s).align = s.align ∧ (countN idx sub n s).hr = s.hr ∧ (countN idx sub n s).alm = s.alm ∧ (countN idx sub n s).key = s.key ∧ (countN idx sub n s).osc = s.osc ∧ (countN idx sub n s).isl = s.isl ∧ (countN idx sub n s).cop = s.cop ∧ (countN idx sub n s).upd = s.upd ∧ (countN idx sub n s).rec_ = s.rec_ ∧ (countN idx sub n s).mon = s.mon ∧ (countN idx sub n s).jtag = s.jtag :=
  by
  unfold countN; simp only []; split
  · simp
  · split
    · simp
    · split <;> simp

@[simp] theorem count_same (idx sub : Nat) (s : State) :
    (count idx sub s).pending = s.pending ∧ (count idx sub s).variant = s.variant ∧ (count idx sub s).freeCount = s.freeCount ∧ (count idx sub s).pace = s.pace ∧ (count idx sub s).power = s.power ∧ (count idx sub s).mode = s.mode ∧ (count idx sub s).rst = s.rst ∧ (count idx sub s).jrn = s.jrn ∧ (count idx sub s).time = s.time ∧ (count idx sub s).cfg = s.cfg ∧ (count idx sub s).osr = s.osr ∧ (count idx sub s).store = s.store ∧ (count idx sub s).sched = s.sched ∧ (count idx sub s).port = s.port ∧ (count idx sub s).acq = s.acq ∧ (count idx sub s).bus = s.bus ∧ (count idx sub s).ing = s.ing ∧ (count idx sub s).chain = s.chain ∧ (count idx sub s).align = s.align ∧ (count idx sub s).hr = s.hr ∧ (count idx sub s).alm = s.alm ∧ (count idx sub s).key = s.key ∧ (count idx sub s).osc = s.osc ∧ (count idx sub s).isl = s.isl ∧ (count idx sub s).cop = s.cop ∧ (count idx sub s).upd = s.upd ∧ (count idx sub s).rec_ = s.rec_ ∧ (count idx sub s).mon = s.mon ∧ (count idx sub s).jtag = s.jtag :=
  by simp [count]

/-- A counter rises by what is counted and stops at 2^48 - 1; every other counter stays (R430). -/
@[simp] theorem countN_ctr (idx sub n : Nat) (s : State) (j k : Nat) :
    (countN idx sub n s).ctr j k = if j * 256 + k = idx * 256 + sub then min (s.ctr idx sub + n) ctrMax else s.ctr j k := by
  have h : (countN idx sub n s).stats = Table.set s.stats (idx * 256 + sub) (min (s.ctr idx sub + n) ctrMax) 0 := by
    unfold countN; simp only []; split
    · rfl
    · split
      · rfl
      · split <;> simp
  simp only [State.ctr, h, Table.getD_set]

@[simp] theorem when_true {σ : Type} (f : σ → σ) (s : σ) : when true f s = f s := rfl
@[simp] theorem when_false {σ : Type} (f : σ → σ) (s : σ) : when false f s = s := rfl

/-! ## Updates of one entry -/

@[simp] theorem State.setQueue_same (s : State) (q : Nat) (x : Queue) :
    (s.setQueue q x).pending = s.pending ∧ (s.setQueue q x).variant = s.variant ∧ (s.setQueue q x).freeCount = s.freeCount ∧ (s.setQueue q x).stats = s.stats ∧ (s.setQueue q x).sticky = s.sticky ∧ (s.setQueue q x).ev = s.ev ∧ (s.setQueue q x).pace = s.pace ∧ (s.setQueue q x).power = s.power ∧ (s.setQueue q x).mode = s.mode ∧ (s.setQueue q x).rst = s.rst ∧ (s.setQueue q x).jrn = s.jrn ∧ (s.setQueue q x).time = s.time ∧ (s.setQueue q x).cfg = s.cfg ∧ (s.setQueue q x).osr = s.osr ∧ (s.setQueue q x).sched = s.sched ∧ (s.setQueue q x).port = s.port ∧ (s.setQueue q x).acq = s.acq ∧ (s.setQueue q x).bus = s.bus ∧ (s.setQueue q x).ing = s.ing ∧ (s.setQueue q x).chain = s.chain ∧ (s.setQueue q x).align = s.align ∧ (s.setQueue q x).hr = s.hr ∧ (s.setQueue q x).alm = s.alm ∧ (s.setQueue q x).key = s.key ∧ (s.setQueue q x).osc = s.osc ∧ (s.setQueue q x).isl = s.isl ∧ (s.setQueue q x).cop = s.cop ∧ (s.setQueue q x).upd = s.upd ∧ (s.setQueue q x).rec_ = s.rec_ ∧ (s.setQueue q x).mon = s.mon ∧ (s.setQueue q x).jtag = s.jtag :=
  ⟨rfl, rfl, rfl, rfl, rfl, rfl, rfl, rfl, rfl, rfl, rfl, rfl, rfl, rfl, rfl, rfl, rfl, rfl, rfl, rfl, rfl, rfl, rfl, rfl, rfl, rfl, rfl, rfl, rfl, rfl, rfl⟩

@[simp] theorem State.setPort_same (s : State) (p : Nat) (x : Port) :
    (s.setPort p x).pending = s.pending ∧ (s.setPort p x).variant = s.variant ∧ (s.setPort p x).freeCount = s.freeCount ∧ (s.setPort p x).stats = s.stats ∧ (s.setPort p x).sticky = s.sticky ∧ (s.setPort p x).ev = s.ev ∧ (s.setPort p x).pace = s.pace ∧ (s.setPort p x).power = s.power ∧ (s.setPort p x).mode = s.mode ∧ (s.setPort p x).rst = s.rst ∧ (s.setPort p x).jrn = s.jrn ∧ (s.setPort p x).time = s.time ∧ (s.setPort p x).cfg = s.cfg ∧ (s.setPort p x).osr = s.osr ∧ (s.setPort p x).store = s.store ∧ (s.setPort p x).sched = s.sched ∧ (s.setPort p x).acq = s.acq ∧ (s.setPort p x).bus = s.bus ∧ (s.setPort p x).ing = s.ing ∧ (s.setPort p x).chain = s.chain ∧ (s.setPort p x).align = s.align ∧ (s.setPort p x).hr = s.hr ∧ (s.setPort p x).alm = s.alm ∧ (s.setPort p x).key = s.key ∧ (s.setPort p x).osc = s.osc ∧ (s.setPort p x).isl = s.isl ∧ (s.setPort p x).cop = s.cop ∧ (s.setPort p x).upd = s.upd ∧ (s.setPort p x).rec_ = s.rec_ ∧ (s.setPort p x).mon = s.mon ∧ (s.setPort p x).jtag = s.jtag :=
  ⟨rfl, rfl, rfl, rfl, rfl, rfl, rfl, rfl, rfl, rfl, rfl, rfl, rfl, rfl, rfl, rfl, rfl, rfl, rfl, rfl, rfl, rfl, rfl, rfl, rfl, rfl, rfl, rfl, rfl, rfl, rfl⟩

@[simp] theorem State.setSession_same (s : State) (x : Session) :
    (s.setSession x).pending = s.pending ∧ (s.setSession x).variant = s.variant ∧ (s.setSession x).freeCount = s.freeCount ∧ (s.setSession x).stats = s.stats ∧ (s.setSession x).sticky = s.sticky ∧ (s.setSession x).ev = s.ev ∧ (s.setSession x).pace = s.pace ∧ (s.setSession x).power = s.power ∧ (s.setSession x).mode = s.mode ∧ (s.setSession x).rst = s.rst ∧ (s.setSession x).jrn = s.jrn ∧ (s.setSession x).time = s.time ∧ (s.setSession x).cfg = s.cfg ∧ (s.setSession x).store = s.store ∧ (s.setSession x).sched = s.sched ∧ (s.setSession x).port = s.port ∧ (s.setSession x).acq = s.acq ∧ (s.setSession x).bus = s.bus ∧ (s.setSession x).ing = s.ing ∧ (s.setSession x).chain = s.chain ∧ (s.setSession x).align = s.align ∧ (s.setSession x).hr = s.hr ∧ (s.setSession x).alm = s.alm ∧ (s.setSession x).key = s.key ∧ (s.setSession x).osc = s.osc ∧ (s.setSession x).isl = s.isl ∧ (s.setSession x).cop = s.cop ∧ (s.setSession x).upd = s.upd ∧ (s.setSession x).rec_ = s.rec_ ∧ (s.setSession x).mon = s.mon ∧ (s.setSession x).jtag = s.jtag :=
  ⟨rfl, rfl, rfl, rfl, rfl, rfl, rfl, rfl, rfl, rfl, rfl, rfl, rfl, rfl, rfl, rfl, rfl, rfl, rfl, rfl, rfl, rfl, rfl, rfl, rfl, rfl, rfl, rfl, rfl, rfl, rfl⟩

@[simp] theorem State.setKslot_same (s : State) (n : Nat) (x : KeySlot) :
    (s.setKslot n x).pending = s.pending ∧ (s.setKslot n x).variant = s.variant ∧ (s.setKslot n x).freeCount = s.freeCount ∧ (s.setKslot n x).stats = s.stats ∧ (s.setKslot n x).sticky = s.sticky ∧ (s.setKslot n x).ev = s.ev ∧ (s.setKslot n x).pace = s.pace ∧ (s.setKslot n x).power = s.power ∧ (s.setKslot n x).mode = s.mode ∧ (s.setKslot n x).rst = s.rst ∧ (s.setKslot n x).jrn = s.jrn ∧ (s.setKslot n x).time = s.time ∧ (s.setKslot n x).cfg = s.cfg ∧ (s.setKslot n x).osr = s.osr ∧ (s.setKslot n x).store = s.store ∧ (s.setKslot n x).sched = s.sched ∧ (s.setKslot n x).port = s.port ∧ (s.setKslot n x).acq = s.acq ∧ (s.setKslot n x).bus = s.bus ∧ (s.setKslot n x).ing = s.ing ∧ (s.setKslot n x).chain = s.chain ∧ (s.setKslot n x).align = s.align ∧ (s.setKslot n x).hr = s.hr ∧ (s.setKslot n x).alm = s.alm ∧ (s.setKslot n x).osc = s.osc ∧ (s.setKslot n x).isl = s.isl ∧ (s.setKslot n x).cop = s.cop ∧ (s.setKslot n x).upd = s.upd ∧ (s.setKslot n x).rec_ = s.rec_ ∧ (s.setKslot n x).mon = s.mon ∧ (s.setKslot n x).jtag = s.jtag :=
  ⟨rfl, rfl, rfl, rfl, rfl, rfl, rfl, rfl, rfl, rfl, rfl, rfl, rfl, rfl, rfl, rfl, rfl, rfl, rfl, rfl, rfl, rfl, rfl, rfl, rfl, rfl, rfl, rfl, rfl, rfl, rfl⟩

@[simp] theorem State.setTask_same (s : State) (t : Nat) (x : Task) :
    (s.setTask t x).pending = s.pending ∧ (s.setTask t x).variant = s.variant ∧ (s.setTask t x).freeCount = s.freeCount ∧ (s.setTask t x).stats = s.stats ∧ (s.setTask t x).sticky = s.sticky ∧ (s.setTask t x).ev = s.ev ∧ (s.setTask t x).pace = s.pace ∧ (s.setTask t x).power = s.power ∧ (s.setTask t x).mode = s.mode ∧ (s.setTask t x).rst = s.rst ∧ (s.setTask t x).jrn = s.jrn ∧ (s.setTask t x).time = s.time ∧ (s.setTask t x).cfg = s.cfg ∧ (s.setTask t x).osr = s.osr ∧ (s.setTask t x).store = s.store ∧ (s.setTask t x).port = s.port ∧ (s.setTask t x).acq = s.acq ∧ (s.setTask t x).bus = s.bus ∧ (s.setTask t x).ing = s.ing ∧ (s.setTask t x).chain = s.chain ∧ (s.setTask t x).align = s.align ∧ (s.setTask t x).hr = s.hr ∧ (s.setTask t x).alm = s.alm ∧ (s.setTask t x).key = s.key ∧ (s.setTask t x).osc = s.osc ∧ (s.setTask t x).isl = s.isl ∧ (s.setTask t x).cop = s.cop ∧ (s.setTask t x).upd = s.upd ∧ (s.setTask t x).rec_ = s.rec_ ∧ (s.setTask t x).mon = s.mon ∧ (s.setTask t x).jtag = s.jtag :=
  ⟨rfl, rfl, rfl, rfl, rfl, rfl, rfl, rfl, rfl, rfl, rfl, rfl, rfl, rfl, rfl, rfl, rfl, rfl, rfl, rfl, rfl, rfl, rfl, rfl, rfl, rfl, rfl, rfl, rfl, rfl, rfl⟩

@[simp] theorem State.setCore_same (s : State) (k : Nat) (x : CoreU) :
    (s.setCore k x).pending = s.pending ∧ (s.setCore k x).variant = s.variant ∧ (s.setCore k x).freeCount = s.freeCount ∧ (s.setCore k x).stats = s.stats ∧ (s.setCore k x).sticky = s.sticky ∧ (s.setCore k x).ev = s.ev ∧ (s.setCore k x).pace = s.pace ∧ (s.setCore k x).power = s.power ∧ (s.setCore k x).mode = s.mode ∧ (s.setCore k x).rst = s.rst ∧ (s.setCore k x).jrn = s.jrn ∧ (s.setCore k x).time = s.time ∧ (s.setCore k x).cfg = s.cfg ∧ (s.setCore k x).osr = s.osr ∧ (s.setCore k x).store = s.store ∧ (s.setCore k x).port = s.port ∧ (s.setCore k x).acq = s.acq ∧ (s.setCore k x).bus = s.bus ∧ (s.setCore k x).ing = s.ing ∧ (s.setCore k x).chain = s.chain ∧ (s.setCore k x).align = s.align ∧ (s.setCore k x).hr = s.hr ∧ (s.setCore k x).alm = s.alm ∧ (s.setCore k x).key = s.key ∧ (s.setCore k x).osc = s.osc ∧ (s.setCore k x).isl = s.isl ∧ (s.setCore k x).cop = s.cop ∧ (s.setCore k x).upd = s.upd ∧ (s.setCore k x).rec_ = s.rec_ ∧ (s.setCore k x).mon = s.mon ∧ (s.setCore k x).jtag = s.jtag :=
  ⟨rfl, rfl, rfl, rfl, rfl, rfl, rfl, rfl, rfl, rfl, rfl, rfl, rfl, rfl, rfl, rfl, rfl, rfl, rfl, rfl, rfl, rfl, rfl, rfl, rfl, rfl, rfl, rfl, rfl, rfl, rfl⟩

@[simp] theorem State.setLevel_same (s : State) (l : Nat) (x : LevelU) :
    (s.setLevel l x).pending = s.pending ∧ (s.setLevel l x).variant = s.variant ∧ (s.setLevel l x).freeCount = s.freeCount ∧ (s.setLevel l x).stats = s.stats ∧ (s.setLevel l x).sticky = s.sticky ∧ (s.setLevel l x).ev = s.ev ∧ (s.setLevel l x).pace = s.pace ∧ (s.setLevel l x).power = s.power ∧ (s.setLevel l x).mode = s.mode ∧ (s.setLevel l x).rst = s.rst ∧ (s.setLevel l x).jrn = s.jrn ∧ (s.setLevel l x).time = s.time ∧ (s.setLevel l x).cfg = s.cfg ∧ (s.setLevel l x).osr = s.osr ∧ (s.setLevel l x).store = s.store ∧ (s.setLevel l x).port = s.port ∧ (s.setLevel l x).acq = s.acq ∧ (s.setLevel l x).bus = s.bus ∧ (s.setLevel l x).ing = s.ing ∧ (s.setLevel l x).chain = s.chain ∧ (s.setLevel l x).align = s.align ∧ (s.setLevel l x).hr = s.hr ∧ (s.setLevel l x).alm = s.alm ∧ (s.setLevel l x).key = s.key ∧ (s.setLevel l x).osc = s.osc ∧ (s.setLevel l x).isl = s.isl ∧ (s.setLevel l x).cop = s.cop ∧ (s.setLevel l x).upd = s.upd ∧ (s.setLevel l x).rec_ = s.rec_ ∧ (s.setLevel l x).mon = s.mon ∧ (s.setLevel l x).jtag = s.jtag :=
  ⟨rfl, rfl, rfl, rfl, rfl, rfl, rfl, rfl, rfl, rfl, rfl, rfl, rfl, rfl, rfl, rfl, rfl, rfl, rfl, rfl, rfl, rfl, rfl, rfl, rfl, rfl, rfl, rfl, rfl, rfl, rfl⟩

@[simp] theorem State.setLane_same (s : State) (u l : Nat) (x : Lane) :
    (s.setLane u l x).pending = s.pending ∧ (s.setLane u l x).variant = s.variant ∧ (s.setLane u l x).freeCount = s.freeCount ∧ (s.setLane u l x).stats = s.stats ∧ (s.setLane u l x).sticky = s.sticky ∧ (s.setLane u l x).ev = s.ev ∧ (s.setLane u l x).pace = s.pace ∧ (s.setLane u l x).power = s.power ∧ (s.setLane u l x).mode = s.mode ∧ (s.setLane u l x).rst = s.rst ∧ (s.setLane u l x).jrn = s.jrn ∧ (s.setLane u l x).time = s.time ∧ (s.setLane u l x).cfg = s.cfg ∧ (s.setLane u l x).osr = s.osr ∧ (s.setLane u l x).store = s.store ∧ (s.setLane u l x).sched = s.sched ∧ (s.setLane u l x).port = s.port ∧ (s.setLane u l x).acq = s.acq ∧ (s.setLane u l x).bus = s.bus ∧ (s.setLane u l x).ing = s.ing ∧ (s.setLane u l x).chain = s.chain ∧ (s.setLane u l x).align = s.align ∧ (s.setLane u l x).hr = s.hr ∧ (s.setLane u l x).alm = s.alm ∧ (s.setLane u l x).key = s.key ∧ (s.setLane u l x).osc = s.osc ∧ (s.setLane u l x).isl = s.isl ∧ (s.setLane u l x).upd = s.upd ∧ (s.setLane u l x).rec_ = s.rec_ ∧ (s.setLane u l x).mon = s.mon ∧ (s.setLane u l x).jtag = s.jtag :=
  ⟨rfl, rfl, rfl, rfl, rfl, rfl, rfl, rfl, rfl, rfl, rfl, rfl, rfl, rfl, rfl, rfl, rfl, rfl, rfl, rfl, rfl, rfl, rfl, rfl, rfl, rfl, rfl, rfl, rfl, rfl, rfl⟩

@[simp] theorem State.setDin_same (s : State) (d : Nat) (x : Din) :
    (s.setDin d x).pending = s.pending ∧ (s.setDin d x).variant = s.variant ∧ (s.setDin d x).freeCount = s.freeCount ∧ (s.setDin d x).stats = s.stats ∧ (s.setDin d x).sticky = s.sticky ∧ (s.setDin d x).ev = s.ev ∧ (s.setDin d x).pace = s.pace ∧ (s.setDin d x).power = s.power ∧ (s.setDin d x).mode = s.mode ∧ (s.setDin d x).rst = s.rst ∧ (s.setDin d x).jrn = s.jrn ∧ (s.setDin d x).time = s.time ∧ (s.setDin d x).cfg = s.cfg ∧ (s.setDin d x).osr = s.osr ∧ (s.setDin d x).store = s.store ∧ (s.setDin d x).sched = s.sched ∧ (s.setDin d x).port = s.port ∧ (s.setDin d x).bus = s.bus ∧ (s.setDin d x).ing = s.ing ∧ (s.setDin d x).chain = s.chain ∧ (s.setDin d x).align = s.align ∧ (s.setDin d x).hr = s.hr ∧ (s.setDin d x).alm = s.alm ∧ (s.setDin d x).key = s.key ∧ (s.setDin d x).osc = s.osc ∧ (s.setDin d x).isl = s.isl ∧ (s.setDin d x).cop = s.cop ∧ (s.setDin d x).upd = s.upd ∧ (s.setDin d x).rec_ = s.rec_ ∧ (s.setDin d x).mon = s.mon ∧ (s.setDin d x).jtag = s.jtag :=
  ⟨rfl, rfl, rfl, rfl, rfl, rfl, rfl, rfl, rfl, rfl, rfl, rfl, rfl, rfl, rfl, rfl, rfl, rfl, rfl, rfl, rfl, rfl, rfl, rfl, rfl, rfl, rfl, rfl, rfl, rfl, rfl⟩

@[simp] theorem State.setGrp_same (s : State) (g : Nat) (x : GroupA) :
    (s.setGrp g x).pending = s.pending ∧ (s.setGrp g x).variant = s.variant ∧ (s.setGrp g x).freeCount = s.freeCount ∧ (s.setGrp g x).stats = s.stats ∧ (s.setGrp g x).sticky = s.sticky ∧ (s.setGrp g x).ev = s.ev ∧ (s.setGrp g x).pace = s.pace ∧ (s.setGrp g x).power = s.power ∧ (s.setGrp g x).mode = s.mode ∧ (s.setGrp g x).rst = s.rst ∧ (s.setGrp g x).jrn = s.jrn ∧ (s.setGrp g x).time = s.time ∧ (s.setGrp g x).cfg = s.cfg ∧ (s.setGrp g x).osr = s.osr ∧ (s.setGrp g x).store = s.store ∧ (s.setGrp g x).sched = s.sched ∧ (s.setGrp g x).port = s.port ∧ (s.setGrp g x).bus = s.bus ∧ (s.setGrp g x).ing = s.ing ∧ (s.setGrp g x).chain = s.chain ∧ (s.setGrp g x).align = s.align ∧ (s.setGrp g x).hr = s.hr ∧ (s.setGrp g x).alm = s.alm ∧ (s.setGrp g x).key = s.key ∧ (s.setGrp g x).osc = s.osc ∧ (s.setGrp g x).isl = s.isl ∧ (s.setGrp g x).cop = s.cop ∧ (s.setGrp g x).upd = s.upd ∧ (s.setGrp g x).rec_ = s.rec_ ∧ (s.setGrp g x).mon = s.mon ∧ (s.setGrp g x).jtag = s.jtag :=
  ⟨rfl, rfl, rfl, rfl, rfl, rfl, rfl, rfl, rfl, rfl, rfl, rfl, rfl, rfl, rfl, rfl, rfl, rfl, rfl, rfl, rfl, rfl, rfl, rfl, rfl, rfl, rfl, rfl, rfl, rfl, rfl⟩

@[simp] theorem State.setUnit_same (s : State) (u : Nat) (x : UnitT) :
    (s.setUnit u x).pending = s.pending ∧ (s.setUnit u x).variant = s.variant ∧ (s.setUnit u x).freeCount = s.freeCount ∧ (s.setUnit u x).stats = s.stats ∧ (s.setUnit u x).sticky = s.sticky ∧ (s.setUnit u x).ev = s.ev ∧ (s.setUnit u x).pace = s.pace ∧ (s.setUnit u x).power = s.power ∧ (s.setUnit u x).mode = s.mode ∧ (s.setUnit u x).rst = s.rst ∧ (s.setUnit u x).jrn = s.jrn ∧ (s.setUnit u x).time = s.time ∧ (s.setUnit u x).cfg = s.cfg ∧ (s.setUnit u x).osr = s.osr ∧ (s.setUnit u x).store = s.store ∧ (s.setUnit u x).sched = s.sched ∧ (s.setUnit u x).port = s.port ∧ (s.setUnit u x).bus = s.bus ∧ (s.setUnit u x).ing = s.ing ∧ (s.setUnit u x).chain = s.chain ∧ (s.setUnit u x).align = s.align ∧ (s.setUnit u x).hr = s.hr ∧ (s.setUnit u x).alm = s.alm ∧ (s.setUnit u x).key = s.key ∧ (s.setUnit u x).osc = s.osc ∧ (s.setUnit u x).isl = s.isl ∧ (s.setUnit u x).cop = s.cop ∧ (s.setUnit u x).upd = s.upd ∧ (s.setUnit u x).rec_ = s.rec_ ∧ (s.setUnit u x).mon = s.mon ∧ (s.setUnit u x).jtag = s.jtag :=
  ⟨rfl, rfl, rfl, rfl, rfl, rfl, rfl, rfl, rfl, rfl, rfl, rfl, rfl, rfl, rfl, rfl, rfl, rfl, rfl, rfl, rfl, rfl, rfl, rfl, rfl, rfl, rfl, rfl, rfl, rfl, rfl⟩

@[simp] theorem State.setRdr_same (s : State) (r : Nat) (x : Reader) :
    (s.setRdr r x).pending = s.pending ∧ (s.setRdr r x).variant = s.variant ∧ (s.setRdr r x).freeCount = s.freeCount ∧ (s.setRdr r x).stats = s.stats ∧ (s.setRdr r x).sticky = s.sticky ∧ (s.setRdr r x).ev = s.ev ∧ (s.setRdr r x).pace = s.pace ∧ (s.setRdr r x).power = s.power ∧ (s.setRdr r x).mode = s.mode ∧ (s.setRdr r x).rst = s.rst ∧ (s.setRdr r x).jrn = s.jrn ∧ (s.setRdr r x).time = s.time ∧ (s.setRdr r x).cfg = s.cfg ∧ (s.setRdr r x).osr = s.osr ∧ (s.setRdr r x).store = s.store ∧ (s.setRdr r x).sched = s.sched ∧ (s.setRdr r x).port = s.port ∧ (s.setRdr r x).bus = s.bus ∧ (s.setRdr r x).ing = s.ing ∧ (s.setRdr r x).chain = s.chain ∧ (s.setRdr r x).align = s.align ∧ (s.setRdr r x).hr = s.hr ∧ (s.setRdr r x).alm = s.alm ∧ (s.setRdr r x).key = s.key ∧ (s.setRdr r x).osc = s.osc ∧ (s.setRdr r x).isl = s.isl ∧ (s.setRdr r x).cop = s.cop ∧ (s.setRdr r x).upd = s.upd ∧ (s.setRdr r x).rec_ = s.rec_ ∧ (s.setRdr r x).mon = s.mon ∧ (s.setRdr r x).jtag = s.jtag :=
  ⟨rfl, rfl, rfl, rfl, rfl, rfl, rfl, rfl, rfl, rfl, rfl, rfl, rfl, rfl, rfl, rfl, rfl, rfl, rfl, rfl, rfl, rfl, rfl, rfl, rfl, rfl, rfl, rfl, rfl, rfl, rfl⟩

@[simp] theorem State.setLine_same (s : State) (l : Nat) (x : Line) :
    (s.setLine l x).pending = s.pending ∧ (s.setLine l x).variant = s.variant ∧ (s.setLine l x).freeCount = s.freeCount ∧ (s.setLine l x).stats = s.stats ∧ (s.setLine l x).sticky = s.sticky ∧ (s.setLine l x).ev = s.ev ∧ (s.setLine l x).pace = s.pace ∧ (s.setLine l x).power = s.power ∧ (s.setLine l x).mode = s.mode ∧ (s.setLine l x).rst = s.rst ∧ (s.setLine l x).jrn = s.jrn ∧ (s.setLine l x).time = s.time ∧ (s.setLine l x).cfg = s.cfg ∧ (s.setLine l x).osr = s.osr ∧ (s.setLine l x).store = s.store ∧ (s.setLine l x).sched = s.sched ∧ (s.setLine l x).port = s.port ∧ (s.setLine l x).acq = s.acq ∧ (s.setLine l x).ing = s.ing ∧ (s.setLine l x).chain = s.chain ∧ (s.setLine l x).align = s.align ∧ (s.setLine l x).hr = s.hr ∧ (s.setLine l x).alm = s.alm ∧ (s.setLine l x).key = s.key ∧ (s.setLine l x).osc = s.osc ∧ (s.setLine l x).isl = s.isl ∧ (s.setLine l x).cop = s.cop ∧ (s.setLine l x).upd = s.upd ∧ (s.setLine l x).rec_ = s.rec_ ∧ (s.setLine l x).mon = s.mon ∧ (s.setLine l x).jtag = s.jtag :=
  ⟨rfl, rfl, rfl, rfl, rfl, rfl, rfl, rfl, rfl, rfl, rfl, rfl, rfl, rfl, rfl, rfl, rfl, rfl, rfl, rfl, rfl, rfl, rfl, rfl, rfl, rfl, rfl, rfl, rfl, rfl, rfl⟩

@[simp] theorem State.setCtx_same (s : State) (k : Nat) (x : Ctx) :
    (s.setCtx k x).pending = s.pending ∧ (s.setCtx k x).variant = s.variant ∧ (s.setCtx k x).freeCount = s.freeCount ∧ (s.setCtx k x).stats = s.stats ∧ (s.setCtx k x).sticky = s.sticky ∧ (s.setCtx k x).ev = s.ev ∧ (s.setCtx k x).pace = s.pace ∧ (s.setCtx k x).power = s.power ∧ (s.setCtx k x).mode = s.mode ∧ (s.setCtx k x).rst = s.rst ∧ (s.setCtx k x).jrn = s.jrn ∧ (s.setCtx k x).time = s.time ∧ (s.setCtx k x).cfg = s.cfg ∧ (s.setCtx k x).osr = s.osr ∧ (s.setCtx k x).store = s.store ∧ (s.setCtx k x).sched = s.sched ∧ (s.setCtx k x).port = s.port ∧ (s.setCtx k x).acq = s.acq ∧ (s.setCtx k x).bus = s.bus ∧ (s.setCtx k x).chain = s.chain ∧ (s.setCtx k x).align = s.align ∧ (s.setCtx k x).hr = s.hr ∧ (s.setCtx k x).alm = s.alm ∧ (s.setCtx k x).key = s.key ∧ (s.setCtx k x).osc = s.osc ∧ (s.setCtx k x).isl = s.isl ∧ (s.setCtx k x).cop = s.cop ∧ (s.setCtx k x).upd = s.upd ∧ (s.setCtx k x).rec_ = s.rec_ ∧ (s.setCtx k x).mon = s.mon ∧ (s.setCtx k x).jtag = s.jtag :=
  ⟨rfl, rfl, rfl, rfl, rfl, rfl, rfl, rfl, rfl, rfl, rfl, rfl, rfl, rfl, rfl, rfl, rfl, rfl, rfl, rfl, rfl, rfl, rfl, rfl, rfl, rfl, rfl, rfl, rfl, rfl, rfl⟩

@[simp] theorem State.setWkr_same (s : State) (w : Nat) (x : Worker) :
    (s.setWkr w x).pending = s.pending ∧ (s.setWkr w x).variant = s.variant ∧ (s.setWkr w x).freeCount = s.freeCount ∧ (s.setWkr w x).stats = s.stats ∧ (s.setWkr w x).sticky = s.sticky ∧ (s.setWkr w x).ev = s.ev ∧ (s.setWkr w x).pace = s.pace ∧ (s.setWkr w x).power = s.power ∧ (s.setWkr w x).mode = s.mode ∧ (s.setWkr w x).rst = s.rst ∧ (s.setWkr w x).jrn = s.jrn ∧ (s.setWkr w x).time = s.time ∧ (s.setWkr w x).cfg = s.cfg ∧ (s.setWkr w x).osr = s.osr ∧ (s.setWkr w x).store = s.store ∧ (s.setWkr w x).sched = s.sched ∧ (s.setWkr w x).port = s.port ∧ (s.setWkr w x).acq = s.acq ∧ (s.setWkr w x).bus = s.bus ∧ (s.setWkr w x).ing = s.ing ∧ (s.setWkr w x).chain = s.chain ∧ (s.setWkr w x).align = s.align ∧ (s.setWkr w x).alm = s.alm ∧ (s.setWkr w x).key = s.key ∧ (s.setWkr w x).osc = s.osc ∧ (s.setWkr w x).isl = s.isl ∧ (s.setWkr w x).cop = s.cop ∧ (s.setWkr w x).upd = s.upd ∧ (s.setWkr w x).rec_ = s.rec_ ∧ (s.setWkr w x).mon = s.mon ∧ (s.setWkr w x).jtag = s.jtag :=
  ⟨rfl, rfl, rfl, rfl, rfl, rfl, rfl, rfl, rfl, rfl, rfl, rfl, rfl, rfl, rfl, rfl, rfl, rfl, rfl, rfl, rfl, rfl, rfl, rfl, rfl, rfl, rfl, rfl, rfl, rfl, rfl⟩

@[simp] theorem State.setGrpG_same (s : State) (g : Nat) (x : GroupG) :
    (s.setGrpG g x).pending = s.pending ∧ (s.setGrpG g x).variant = s.variant ∧ (s.setGrpG g x).freeCount = s.freeCount ∧ (s.setGrpG g x).stats = s.stats ∧ (s.setGrpG g x).sticky = s.sticky ∧ (s.setGrpG g x).ev = s.ev ∧ (s.setGrpG g x).pace = s.pace ∧ (s.setGrpG g x).power = s.power ∧ (s.setGrpG g x).mode = s.mode ∧ (s.setGrpG g x).rst = s.rst ∧ (s.setGrpG g x).jrn = s.jrn ∧ (s.setGrpG g x).time = s.time ∧ (s.setGrpG g x).cfg = s.cfg ∧ (s.setGrpG g x).osr = s.osr ∧ (s.setGrpG g x).store = s.store ∧ (s.setGrpG g x).sched = s.sched ∧ (s.setGrpG g x).port = s.port ∧ (s.setGrpG g x).acq = s.acq ∧ (s.setGrpG g x).bus = s.bus ∧ (s.setGrpG g x).ing = s.ing ∧ (s.setGrpG g x).chain = s.chain ∧ (s.setGrpG g x).hr = s.hr ∧ (s.setGrpG g x).alm = s.alm ∧ (s.setGrpG g x).key = s.key ∧ (s.setGrpG g x).osc = s.osc ∧ (s.setGrpG g x).isl = s.isl ∧ (s.setGrpG g x).cop = s.cop ∧ (s.setGrpG g x).upd = s.upd ∧ (s.setGrpG g x).rec_ = s.rec_ ∧ (s.setGrpG g x).mon = s.mon ∧ (s.setGrpG g x).jtag = s.jtag :=
  ⟨rfl, rfl, rfl, rfl, rfl, rfl, rfl, rfl, rfl, rfl, rfl, rfl, rfl, rfl, rfl, rfl, rfl, rfl, rfl, rfl, rfl, rfl, rfl, rfl, rfl, rfl, rfl, rfl, rfl, rfl, rfl⟩

@[simp] theorem State.setChan_same (s : State) (c : Nat) (x : Chan) :
    (s.setChan c x).pending = s.pending ∧ (s.setChan c x).variant = s.variant ∧ (s.setChan c x).freeCount = s.freeCount ∧ (s.setChan c x).stats = s.stats ∧ (s.setChan c x).sticky = s.sticky ∧ (s.setChan c x).ev = s.ev ∧ (s.setChan c x).pace = s.pace ∧ (s.setChan c x).power = s.power ∧ (s.setChan c x).mode = s.mode ∧ (s.setChan c x).rst = s.rst ∧ (s.setChan c x).jrn = s.jrn ∧ (s.setChan c x).time = s.time ∧ (s.setChan c x).cfg = s.cfg ∧ (s.setChan c x).osr = s.osr ∧ (s.setChan c x).store = s.store ∧ (s.setChan c x).sched = s.sched ∧ (s.setChan c x).port = s.port ∧ (s.setChan c x).acq = s.acq ∧ (s.setChan c x).bus = s.bus ∧ (s.setChan c x).ing = s.ing ∧ (s.setChan c x).align = s.align ∧ (s.setChan c x).hr = s.hr ∧ (s.setChan c x).alm = s.alm ∧ (s.setChan c x).key = s.key ∧ (s.setChan c x).osc = s.osc ∧ (s.setChan c x).isl = s.isl ∧ (s.setChan c x).cop = s.cop ∧ (s.setChan c x).upd = s.upd ∧ (s.setChan c x).rec_ = s.rec_ ∧ (s.setChan c x).mon = s.mon ∧ (s.setChan c x).jtag = s.jtag :=
  ⟨rfl, rfl, rfl, rfl, rfl, rfl, rfl, rfl, rfl, rfl, rfl, rfl, rfl, rfl, rfl, rfl, rfl, rfl, rfl, rfl, rfl, rfl, rfl, rfl, rfl, rfl, rfl, rfl, rfl, rfl, rfl⟩

@[simp] theorem State.setComp_same (s : State) (k : Nat) (x : Comp) :
    (s.setComp k x).pending = s.pending ∧ (s.setComp k x).variant = s.variant ∧ (s.setComp k x).freeCount = s.freeCount ∧ (s.setComp k x).stats = s.stats ∧ (s.setComp k x).sticky = s.sticky ∧ (s.setComp k x).ev = s.ev ∧ (s.setComp k x).pace = s.pace ∧ (s.setComp k x).power = s.power ∧ (s.setComp k x).mode = s.mode ∧ (s.setComp k x).rst = s.rst ∧ (s.setComp k x).jrn = s.jrn ∧ (s.setComp k x).time = s.time ∧ (s.setComp k x).cfg = s.cfg ∧ (s.setComp k x).osr = s.osr ∧ (s.setComp k x).store = s.store ∧ (s.setComp k x).sched = s.sched ∧ (s.setComp k x).port = s.port ∧ (s.setComp k x).acq = s.acq ∧ (s.setComp k x).bus = s.bus ∧ (s.setComp k x).ing = s.ing ∧ (s.setComp k x).align = s.align ∧ (s.setComp k x).hr = s.hr ∧ (s.setComp k x).alm = s.alm ∧ (s.setComp k x).key = s.key ∧ (s.setComp k x).osc = s.osc ∧ (s.setComp k x).isl = s.isl ∧ (s.setComp k x).cop = s.cop ∧ (s.setComp k x).upd = s.upd ∧ (s.setComp k x).rec_ = s.rec_ ∧ (s.setComp k x).mon = s.mon ∧ (s.setComp k x).jtag = s.jtag :=
  ⟨rfl, rfl, rfl, rfl, rfl, rfl, rfl, rfl, rfl, rfl, rfl, rfl, rfl, rfl, rfl, rfl, rfl, rfl, rfl, rfl, rfl, rfl, rfl, rfl, rfl, rfl, rfl, rfl, rfl, rfl, rfl⟩

@[simp] theorem State.setEst_same (s : State) (e : Nat) (x : Est) :
    (s.setEst e x).pending = s.pending ∧ (s.setEst e x).variant = s.variant ∧ (s.setEst e x).freeCount = s.freeCount ∧ (s.setEst e x).stats = s.stats ∧ (s.setEst e x).sticky = s.sticky ∧ (s.setEst e x).ev = s.ev ∧ (s.setEst e x).pace = s.pace ∧ (s.setEst e x).power = s.power ∧ (s.setEst e x).mode = s.mode ∧ (s.setEst e x).rst = s.rst ∧ (s.setEst e x).jrn = s.jrn ∧ (s.setEst e x).time = s.time ∧ (s.setEst e x).cfg = s.cfg ∧ (s.setEst e x).osr = s.osr ∧ (s.setEst e x).store = s.store ∧ (s.setEst e x).sched = s.sched ∧ (s.setEst e x).port = s.port ∧ (s.setEst e x).acq = s.acq ∧ (s.setEst e x).bus = s.bus ∧ (s.setEst e x).ing = s.ing ∧ (s.setEst e x).align = s.align ∧ (s.setEst e x).hr = s.hr ∧ (s.setEst e x).alm = s.alm ∧ (s.setEst e x).key = s.key ∧ (s.setEst e x).osc = s.osc ∧ (s.setEst e x).isl = s.isl ∧ (s.setEst e x).cop = s.cop ∧ (s.setEst e x).upd = s.upd ∧ (s.setEst e x).rec_ = s.rec_ ∧ (s.setEst e x).mon = s.mon ∧ (s.setEst e x).jtag = s.jtag :=
  ⟨rfl, rfl, rfl, rfl, rfl, rfl, rfl, rfl, rfl, rfl, rfl, rfl, rfl, rfl, rfl, rfl, rfl, rfl, rfl, rfl, rfl, rfl, rfl, rfl, rfl, rfl, rfl, rfl, rfl, rfl, rfl⟩

@[simp] theorem State.setSv_same (s : State) (r : Nat) (x : Sv) :
    (s.setSv r x).pending = s.pending ∧ (s.setSv r x).variant = s.variant ∧ (s.setSv r x).freeCount = s.freeCount ∧ (s.setSv r x).stats = s.stats ∧ (s.setSv r x).sticky = s.sticky ∧ (s.setSv r x).ev = s.ev ∧ (s.setSv r x).pace = s.pace ∧ (s.setSv r x).power = s.power ∧ (s.setSv r x).mode = s.mode ∧ (s.setSv r x).rst = s.rst ∧ (s.setSv r x).jrn = s.jrn ∧ (s.setSv r x).time = s.time ∧ (s.setSv r x).cfg = s.cfg ∧ (s.setSv r x).osr = s.osr ∧ (s.setSv r x).store = s.store ∧ (s.setSv r x).sched = s.sched ∧ (s.setSv r x).port = s.port ∧ (s.setSv r x).acq = s.acq ∧ (s.setSv r x).bus = s.bus ∧ (s.setSv r x).chain = s.chain ∧ (s.setSv r x).align = s.align ∧ (s.setSv r x).hr = s.hr ∧ (s.setSv r x).alm = s.alm ∧ (s.setSv r x).key = s.key ∧ (s.setSv r x).osc = s.osc ∧ (s.setSv r x).isl = s.isl ∧ (s.setSv r x).cop = s.cop ∧ (s.setSv r x).upd = s.upd ∧ (s.setSv r x).rec_ = s.rec_ ∧ (s.setSv r x).mon = s.mon ∧ (s.setSv r x).jtag = s.jtag :=
  ⟨rfl, rfl, rfl, rfl, rfl, rfl, rfl, rfl, rfl, rfl, rfl, rfl, rfl, rfl, rfl, rfl, rfl, rfl, rfl, rfl, rfl, rfl, rfl, rfl, rfl, rfl, rfl, rfl, rfl, rfl, rfl⟩

@[simp] theorem State.setSrc_same (s : State) (k : Nat) (x : Source) :
    (s.setSrc k x).pending = s.pending ∧ (s.setSrc k x).variant = s.variant ∧ (s.setSrc k x).freeCount = s.freeCount ∧ (s.setSrc k x).stats = s.stats ∧ (s.setSrc k x).sticky = s.sticky ∧ (s.setSrc k x).ev = s.ev ∧ (s.setSrc k x).pace = s.pace ∧ (s.setSrc k x).power = s.power ∧ (s.setSrc k x).mode = s.mode ∧ (s.setSrc k x).rst = s.rst ∧ (s.setSrc k x).jrn = s.jrn ∧ (s.setSrc k x).cfg = s.cfg ∧ (s.setSrc k x).osr = s.osr ∧ (s.setSrc k x).store = s.store ∧ (s.setSrc k x).sched = s.sched ∧ (s.setSrc k x).port = s.port ∧ (s.setSrc k x).acq = s.acq ∧ (s.setSrc k x).bus = s.bus ∧ (s.setSrc k x).ing = s.ing ∧ (s.setSrc k x).chain = s.chain ∧ (s.setSrc k x).align = s.align ∧ (s.setSrc k x).hr = s.hr ∧ (s.setSrc k x).alm = s.alm ∧ (s.setSrc k x).key = s.key ∧ (s.setSrc k x).osc = s.osc ∧ (s.setSrc k x).isl = s.isl ∧ (s.setSrc k x).cop = s.cop ∧ (s.setSrc k x).upd = s.upd ∧ (s.setSrc k x).rec_ = s.rec_ ∧ (s.setSrc k x).mon = s.mon ∧ (s.setSrc k x).jtag = s.jtag :=
  ⟨rfl, rfl, rfl, rfl, rfl, rfl, rfl, rfl, rfl, rfl, rfl, rfl, rfl, rfl, rfl, rfl, rfl, rfl, rfl, rfl, rfl, rfl, rfl, rfl, rfl, rfl, rfl, rfl, rfl, rfl, rfl⟩

@[simp] theorem State.setPtp_same (s : State) (p : Nat) (x : PtpPort) :
    (s.setPtp p x).pending = s.pending ∧ (s.setPtp p x).variant = s.variant ∧ (s.setPtp p x).freeCount = s.freeCount ∧ (s.setPtp p x).stats = s.stats ∧ (s.setPtp p x).sticky = s.sticky ∧ (s.setPtp p x).ev = s.ev ∧ (s.setPtp p x).pace = s.pace ∧ (s.setPtp p x).power = s.power ∧ (s.setPtp p x).mode = s.mode ∧ (s.setPtp p x).rst = s.rst ∧ (s.setPtp p x).jrn = s.jrn ∧ (s.setPtp p x).cfg = s.cfg ∧ (s.setPtp p x).osr = s.osr ∧ (s.setPtp p x).store = s.store ∧ (s.setPtp p x).sched = s.sched ∧ (s.setPtp p x).port = s.port ∧ (s.setPtp p x).acq = s.acq ∧ (s.setPtp p x).bus = s.bus ∧ (s.setPtp p x).ing = s.ing ∧ (s.setPtp p x).chain = s.chain ∧ (s.setPtp p x).align = s.align ∧ (s.setPtp p x).hr = s.hr ∧ (s.setPtp p x).alm = s.alm ∧ (s.setPtp p x).key = s.key ∧ (s.setPtp p x).osc = s.osc ∧ (s.setPtp p x).isl = s.isl ∧ (s.setPtp p x).cop = s.cop ∧ (s.setPtp p x).upd = s.upd ∧ (s.setPtp p x).rec_ = s.rec_ ∧ (s.setPtp p x).mon = s.mon ∧ (s.setPtp p x).jtag = s.jtag :=
  ⟨rfl, rfl, rfl, rfl, rfl, rfl, rfl, rfl, rfl, rfl, rfl, rfl, rfl, rfl, rfl, rfl, rfl, rfl, rfl, rfl, rfl, rfl, rfl, rfl, rfl, rfl, rfl, rfl, rfl, rfl, rfl⟩

@[simp] theorem State.setHr_same (s : State) (h : HrU) :
    (s.setHr h).pending = s.pending ∧ (s.setHr h).variant = s.variant ∧ (s.setHr h).freeCount = s.freeCount ∧ (s.setHr h).stats = s.stats ∧ (s.setHr h).sticky = s.sticky ∧ (s.setHr h).ev = s.ev ∧ (s.setHr h).pace = s.pace ∧ (s.setHr h).power = s.power ∧ (s.setHr h).mode = s.mode ∧ (s.setHr h).rst = s.rst ∧ (s.setHr h).jrn = s.jrn ∧ (s.setHr h).time = s.time ∧ (s.setHr h).cfg = s.cfg ∧ (s.setHr h).osr = s.osr ∧ (s.setHr h).store = s.store ∧ (s.setHr h).sched = s.sched ∧ (s.setHr h).port = s.port ∧ (s.setHr h).acq = s.acq ∧ (s.setHr h).bus = s.bus ∧ (s.setHr h).ing = s.ing ∧ (s.setHr h).chain = s.chain ∧ (s.setHr h).align = s.align ∧ (s.setHr h).alm = s.alm ∧ (s.setHr h).key = s.key ∧ (s.setHr h).osc = s.osc ∧ (s.setHr h).isl = s.isl ∧ (s.setHr h).cop = s.cop ∧ (s.setHr h).upd = s.upd ∧ (s.setHr h).rec_ = s.rec_ ∧ (s.setHr h).mon = s.mon ∧ (s.setHr h).jtag = s.jtag :=
  ⟨rfl, rfl, rfl, rfl, rfl, rfl, rfl, rfl, rfl, rfl, rfl, rfl, rfl, rfl, rfl, rfl, rfl, rfl, rfl, rfl, rfl, rfl, rfl, rfl, rfl, rfl, rfl, rfl, rfl, rfl, rfl⟩

@[simp] theorem State.setAlarm_same (s : State) (a : Nat) (x : Alarm) :
    (s.setAlarm a x).pending = s.pending ∧ (s.setAlarm a x).variant = s.variant ∧ (s.setAlarm a x).freeCount = s.freeCount ∧ (s.setAlarm a x).stats = s.stats ∧ (s.setAlarm a x).sticky = s.sticky ∧ (s.setAlarm a x).ev = s.ev ∧ (s.setAlarm a x).pace = s.pace ∧ (s.setAlarm a x).power = s.power ∧ (s.setAlarm a x).mode = s.mode ∧ (s.setAlarm a x).rst = s.rst ∧ (s.setAlarm a x).jrn = s.jrn ∧ (s.setAlarm a x).time = s.time ∧ (s.setAlarm a x).cfg = s.cfg ∧ (s.setAlarm a x).osr = s.osr ∧ (s.setAlarm a x).store = s.store ∧ (s.setAlarm a x).sched = s.sched ∧ (s.setAlarm a x).port = s.port ∧ (s.setAlarm a x).acq = s.acq ∧ (s.setAlarm a x).bus = s.bus ∧ (s.setAlarm a x).ing = s.ing ∧ (s.setAlarm a x).chain = s.chain ∧ (s.setAlarm a x).align = s.align ∧ (s.setAlarm a x).hr = s.hr ∧ (s.setAlarm a x).key = s.key ∧ (s.setAlarm a x).osc = s.osc ∧ (s.setAlarm a x).isl = s.isl ∧ (s.setAlarm a x).cop = s.cop ∧ (s.setAlarm a x).upd = s.upd ∧ (s.setAlarm a x).rec_ = s.rec_ ∧ (s.setAlarm a x).mon = s.mon ∧ (s.setAlarm a x).jtag = s.jtag :=
  ⟨rfl, rfl, rfl, rfl, rfl, rfl, rfl, rfl, rfl, rfl, rfl, rfl, rfl, rfl, rfl, rfl, rfl, rfl, rfl, rfl, rfl, rfl, rfl, rfl, rfl, rfl, rfl, rfl, rfl, rfl, rfl⟩

@[simp] theorem State.setOsc_same (s : State) (g : Nat) (x : OscGroup) :
    (s.setOsc g x).pending = s.pending ∧ (s.setOsc g x).variant = s.variant ∧ (s.setOsc g x).freeCount = s.freeCount ∧ (s.setOsc g x).stats = s.stats ∧ (s.setOsc g x).sticky = s.sticky ∧ (s.setOsc g x).ev = s.ev ∧ (s.setOsc g x).pace = s.pace ∧ (s.setOsc g x).power = s.power ∧ (s.setOsc g x).mode = s.mode ∧ (s.setOsc g x).rst = s.rst ∧ (s.setOsc g x).jrn = s.jrn ∧ (s.setOsc g x).time = s.time ∧ (s.setOsc g x).cfg = s.cfg ∧ (s.setOsc g x).osr = s.osr ∧ (s.setOsc g x).store = s.store ∧ (s.setOsc g x).sched = s.sched ∧ (s.setOsc g x).port = s.port ∧ (s.setOsc g x).acq = s.acq ∧ (s.setOsc g x).bus = s.bus ∧ (s.setOsc g x).ing = s.ing ∧ (s.setOsc g x).chain = s.chain ∧ (s.setOsc g x).align = s.align ∧ (s.setOsc g x).hr = s.hr ∧ (s.setOsc g x).alm = s.alm ∧ (s.setOsc g x).key = s.key ∧ (s.setOsc g x).isl = s.isl ∧ (s.setOsc g x).cop = s.cop ∧ (s.setOsc g x).upd = s.upd ∧ (s.setOsc g x).rec_ = s.rec_ ∧ (s.setOsc g x).mon = s.mon ∧ (s.setOsc g x).jtag = s.jtag :=
  ⟨rfl, rfl, rfl, rfl, rfl, rfl, rfl, rfl, rfl, rfl, rfl, rfl, rfl, rfl, rfl, rfl, rfl, rfl, rfl, rfl, rfl, rfl, rfl, rfl, rfl, rfl, rfl, rfl, rfl, rfl, rfl⟩

@[simp] theorem State.setPub_same (s : State) (p : Nat) (x : Goose) :
    (s.setPub p x).pending = s.pending ∧ (s.setPub p x).variant = s.variant ∧ (s.setPub p x).freeCount = s.freeCount ∧ (s.setPub p x).stats = s.stats ∧ (s.setPub p x).sticky = s.sticky ∧ (s.setPub p x).ev = s.ev ∧ (s.setPub p x).pace = s.pace ∧ (s.setPub p x).power = s.power ∧ (s.setPub p x).mode = s.mode ∧ (s.setPub p x).rst = s.rst ∧ (s.setPub p x).jrn = s.jrn ∧ (s.setPub p x).time = s.time ∧ (s.setPub p x).cfg = s.cfg ∧ (s.setPub p x).osr = s.osr ∧ (s.setPub p x).store = s.store ∧ (s.setPub p x).sched = s.sched ∧ (s.setPub p x).port = s.port ∧ (s.setPub p x).acq = s.acq ∧ (s.setPub p x).bus = s.bus ∧ (s.setPub p x).ing = s.ing ∧ (s.setPub p x).chain = s.chain ∧ (s.setPub p x).align = s.align ∧ (s.setPub p x).hr = s.hr ∧ (s.setPub p x).key = s.key ∧ (s.setPub p x).osc = s.osc ∧ (s.setPub p x).isl = s.isl ∧ (s.setPub p x).cop = s.cop ∧ (s.setPub p x).upd = s.upd ∧ (s.setPub p x).rec_ = s.rec_ ∧ (s.setPub p x).mon = s.mon ∧ (s.setPub p x).jtag = s.jtag :=
  ⟨rfl, rfl, rfl, rfl, rfl, rfl, rfl, rfl, rfl, rfl, rfl, rfl, rfl, rfl, rfl, rfl, rfl, rfl, rfl, rfl, rfl, rfl, rfl, rfl, rfl, rfl, rfl, rfl, rfl, rfl, rfl⟩

@[simp] theorem State.setOut_same (s : State) (n : Nat) (x : Out) :
    (s.setOut n x).pending = s.pending ∧ (s.setOut n x).variant = s.variant ∧ (s.setOut n x).freeCount = s.freeCount ∧ (s.setOut n x).stats = s.stats ∧ (s.setOut n x).sticky = s.sticky ∧ (s.setOut n x).ev = s.ev ∧ (s.setOut n x).pace = s.pace ∧ (s.setOut n x).power = s.power ∧ (s.setOut n x).mode = s.mode ∧ (s.setOut n x).rst = s.rst ∧ (s.setOut n x).jrn = s.jrn ∧ (s.setOut n x).time = s.time ∧ (s.setOut n x).cfg = s.cfg ∧ (s.setOut n x).osr = s.osr ∧ (s.setOut n x).store = s.store ∧ (s.setOut n x).sched = s.sched ∧ (s.setOut n x).port = s.port ∧ (s.setOut n x).acq = s.acq ∧ (s.setOut n x).bus = s.bus ∧ (s.setOut n x).ing = s.ing ∧ (s.setOut n x).chain = s.chain ∧ (s.setOut n x).align = s.align ∧ (s.setOut n x).hr = s.hr ∧ (s.setOut n x).key = s.key ∧ (s.setOut n x).osc = s.osc ∧ (s.setOut n x).isl = s.isl ∧ (s.setOut n x).cop = s.cop ∧ (s.setOut n x).upd = s.upd ∧ (s.setOut n x).rec_ = s.rec_ ∧ (s.setOut n x).mon = s.mon ∧ (s.setOut n x).jtag = s.jtag :=
  ⟨rfl, rfl, rfl, rfl, rfl, rfl, rfl, rfl, rfl, rfl, rfl, rfl, rfl, rfl, rfl, rfl, rfl, rfl, rfl, rfl, rfl, rfl, rfl, rfl, rfl, rfl, rfl, rfl, rfl, rfl, rfl⟩

@[simp] theorem State.setKey_same (s : State) (k : KeyU) :
    (s.setKey k).pending = s.pending ∧ (s.setKey k).variant = s.variant ∧ (s.setKey k).freeCount = s.freeCount ∧ (s.setKey k).stats = s.stats ∧ (s.setKey k).sticky = s.sticky ∧ (s.setKey k).ev = s.ev ∧ (s.setKey k).pace = s.pace ∧ (s.setKey k).power = s.power ∧ (s.setKey k).mode = s.mode ∧ (s.setKey k).rst = s.rst ∧ (s.setKey k).jrn = s.jrn ∧ (s.setKey k).time = s.time ∧ (s.setKey k).cfg = s.cfg ∧ (s.setKey k).osr = s.osr ∧ (s.setKey k).store = s.store ∧ (s.setKey k).sched = s.sched ∧ (s.setKey k).port = s.port ∧ (s.setKey k).acq = s.acq ∧ (s.setKey k).bus = s.bus ∧ (s.setKey k).ing = s.ing ∧ (s.setKey k).chain = s.chain ∧ (s.setKey k).align = s.align ∧ (s.setKey k).hr = s.hr ∧ (s.setKey k).alm = s.alm ∧ (s.setKey k).osc = s.osc ∧ (s.setKey k).isl = s.isl ∧ (s.setKey k).cop = s.cop ∧ (s.setKey k).upd = s.upd ∧ (s.setKey k).rec_ = s.rec_ ∧ (s.setKey k).mon = s.mon ∧ (s.setKey k).jtag = s.jtag :=
  ⟨rfl, rfl, rfl, rfl, rfl, rfl, rfl, rfl, rfl, rfl, rfl, rfl, rfl, rfl, rfl, rfl, rfl, rfl, rfl, rfl, rfl, rfl, rfl, rfl, rfl, rfl, rfl, rfl, rfl, rfl, rfl⟩

@[simp] theorem State.setRec_same (s : State) (r : RecU) :
    (s.setRec_ r).pending = s.pending ∧ (s.setRec_ r).variant = s.variant ∧ (s.setRec_ r).freeCount = s.freeCount ∧ (s.setRec_ r).stats = s.stats ∧ (s.setRec_ r).sticky = s.sticky ∧ (s.setRec_ r).ev = s.ev ∧ (s.setRec_ r).pace = s.pace ∧ (s.setRec_ r).power = s.power ∧ (s.setRec_ r).mode = s.mode ∧ (s.setRec_ r).rst = s.rst ∧ (s.setRec_ r).jrn = s.jrn ∧ (s.setRec_ r).time = s.time ∧ (s.setRec_ r).cfg = s.cfg ∧ (s.setRec_ r).osr = s.osr ∧ (s.setRec_ r).store = s.store ∧ (s.setRec_ r).sched = s.sched ∧ (s.setRec_ r).port = s.port ∧ (s.setRec_ r).acq = s.acq ∧ (s.setRec_ r).bus = s.bus ∧ (s.setRec_ r).ing = s.ing ∧ (s.setRec_ r).chain = s.chain ∧ (s.setRec_ r).align = s.align ∧ (s.setRec_ r).hr = s.hr ∧ (s.setRec_ r).alm = s.alm ∧ (s.setRec_ r).key = s.key ∧ (s.setRec_ r).osc = s.osc ∧ (s.setRec_ r).isl = s.isl ∧ (s.setRec_ r).cop = s.cop ∧ (s.setRec_ r).upd = s.upd ∧ (s.setRec_ r).mon = s.mon ∧ (s.setRec_ r).jtag = s.jtag :=
  ⟨rfl, rfl, rfl, rfl, rfl, rfl, rfl, rfl, rfl, rfl, rfl, rfl, rfl, rfl, rfl, rfl, rfl, rfl, rfl, rfl, rfl, rfl, rfl, rfl, rfl, rfl, rfl, rfl, rfl, rfl, rfl⟩

@[simp] theorem State.setUpd_same (s : State) (u : UpdU) :
    (s.setUpd u).pending = s.pending ∧ (s.setUpd u).variant = s.variant ∧ (s.setUpd u).freeCount = s.freeCount ∧ (s.setUpd u).stats = s.stats ∧ (s.setUpd u).sticky = s.sticky ∧ (s.setUpd u).ev = s.ev ∧ (s.setUpd u).pace = s.pace ∧ (s.setUpd u).power = s.power ∧ (s.setUpd u).mode = s.mode ∧ (s.setUpd u).rst = s.rst ∧ (s.setUpd u).jrn = s.jrn ∧ (s.setUpd u).time = s.time ∧ (s.setUpd u).cfg = s.cfg ∧ (s.setUpd u).osr = s.osr ∧ (s.setUpd u).store = s.store ∧ (s.setUpd u).sched = s.sched ∧ (s.setUpd u).port = s.port ∧ (s.setUpd u).acq = s.acq ∧ (s.setUpd u).bus = s.bus ∧ (s.setUpd u).ing = s.ing ∧ (s.setUpd u).chain = s.chain ∧ (s.setUpd u).align = s.align ∧ (s.setUpd u).hr = s.hr ∧ (s.setUpd u).alm = s.alm ∧ (s.setUpd u).key = s.key ∧ (s.setUpd u).osc = s.osc ∧ (s.setUpd u).isl = s.isl ∧ (s.setUpd u).cop = s.cop ∧ (s.setUpd u).rec_ = s.rec_ ∧ (s.setUpd u).mon = s.mon ∧ (s.setUpd u).jtag = s.jtag :=
  ⟨rfl, rfl, rfl, rfl, rfl, rfl, rfl, rfl, rfl, rfl, rfl, rfl, rfl, rfl, rfl, rfl, rfl, rfl, rfl, rfl, rfl, rfl, rfl, rfl, rfl, rfl, rfl, rfl, rfl, rfl, rfl⟩

@[simp] theorem State.setPower_same (s : State) (p : PowerU) :
    (s.setPower p).pending = s.pending ∧ (s.setPower p).variant = s.variant ∧ (s.setPower p).freeCount = s.freeCount ∧ (s.setPower p).stats = s.stats ∧ (s.setPower p).sticky = s.sticky ∧ (s.setPower p).ev = s.ev ∧ (s.setPower p).pace = s.pace ∧ (s.setPower p).mode = s.mode ∧ (s.setPower p).rst = s.rst ∧ (s.setPower p).jrn = s.jrn ∧ (s.setPower p).time = s.time ∧ (s.setPower p).cfg = s.cfg ∧ (s.setPower p).osr = s.osr ∧ (s.setPower p).store = s.store ∧ (s.setPower p).sched = s.sched ∧ (s.setPower p).port = s.port ∧ (s.setPower p).acq = s.acq ∧ (s.setPower p).bus = s.bus ∧ (s.setPower p).ing = s.ing ∧ (s.setPower p).chain = s.chain ∧ (s.setPower p).align = s.align ∧ (s.setPower p).hr = s.hr ∧ (s.setPower p).alm = s.alm ∧ (s.setPower p).key = s.key ∧ (s.setPower p).osc = s.osc ∧ (s.setPower p).isl = s.isl ∧ (s.setPower p).cop = s.cop ∧ (s.setPower p).upd = s.upd ∧ (s.setPower p).rec_ = s.rec_ ∧ (s.setPower p).mon = s.mon ∧ (s.setPower p).jtag = s.jtag :=
  ⟨rfl, rfl, rfl, rfl, rfl, rfl, rfl, rfl, rfl, rfl, rfl, rfl, rfl, rfl, rfl, rfl, rfl, rfl, rfl, rfl, rfl, rfl, rfl, rfl, rfl, rfl, rfl, rfl, rfl, rfl, rfl⟩

@[simp] theorem State.setPosted_same (s : State) (p : Nat) (xs : List Posted) :
    (s.setPosted p xs).pending = s.pending ∧ (s.setPosted p xs).variant = s.variant ∧ (s.setPosted p xs).freeCount = s.freeCount ∧ (s.setPosted p xs).stats = s.stats ∧ (s.setPosted p xs).sticky = s.sticky ∧ (s.setPosted p xs).ev = s.ev ∧ (s.setPosted p xs).pace = s.pace ∧ (s.setPosted p xs).power = s.power ∧ (s.setPosted p xs).mode = s.mode ∧ (s.setPosted p xs).rst = s.rst ∧ (s.setPosted p xs).jrn = s.jrn ∧ (s.setPosted p xs).time = s.time ∧ (s.setPosted p xs).cfg = s.cfg ∧ (s.setPosted p xs).osr = s.osr ∧ (s.setPosted p xs).sched = s.sched ∧ (s.setPosted p xs).port = s.port ∧ (s.setPosted p xs).acq = s.acq ∧ (s.setPosted p xs).bus = s.bus ∧ (s.setPosted p xs).ing = s.ing ∧ (s.setPosted p xs).chain = s.chain ∧ (s.setPosted p xs).align = s.align ∧ (s.setPosted p xs).hr = s.hr ∧ (s.setPosted p xs).alm = s.alm ∧ (s.setPosted p xs).key = s.key ∧ (s.setPosted p xs).osc = s.osc ∧ (s.setPosted p xs).isl = s.isl ∧ (s.setPosted p xs).cop = s.cop ∧ (s.setPosted p xs).upd = s.upd ∧ (s.setPosted p xs).rec_ = s.rec_ ∧ (s.setPosted p xs).mon = s.mon ∧ (s.setPosted p xs).jtag = s.jtag :=
  ⟨rfl, rfl, rfl, rfl, rfl, rfl, rfl, rfl, rfl, rfl, rfl, rfl, rfl, rfl, rfl, rfl, rfl, rfl, rfl, rfl, rfl, rfl, rfl, rfl, rfl, rfl, rfl, rfl, rfl, rfl, rfl⟩

/-- What was written is read; the others are as before. -/
@[simp] theorem State.setDin_din (s : State) (n j : Nat) (x : Din) : (s.setDin n x).din j = if j = n then x else s.din j := by
  simp [State.setDin, State.din]

/-- What was written is read; the others are as before. -/
@[simp] theorem State.setGrp_grp (s : State) (n j : Nat) (x : GroupA) : (s.setGrp n x).grp j = if j = n then x else s.grp j := by
  simp [State.setGrp, State.grp]

/-- What was written is read; the others are as before. -/
@[simp] theorem State.setUnit_unit (s : State) (n j : Nat) (x : UnitT) : (s.setUnit n x).unit j = if j = n then x else s.unit j := by
  simp [State.setUnit, State.unit]

/-- What was written is read; the others are as before. -/
@[simp] theorem State.setRdr_rdr (s : State) (n j : Nat) (x : Reader) : (s.setRdr n x).rdr j = if j = n then x else s.rdr j := by
  simp [State.setRdr, State.rdr]

/-- What was written is read; the others are as before. -/
@[simp] theorem State.setLine_line (s : State) (n j : Nat) (x : Line) : (s.setLine n x).line j = if j = n then x else s.line j := by
  simp [State.setLine, State.line]

/-- What was written is read; the others are as before. -/
@[simp] theorem State.setAlarm_alarm (s : State) (n j : Nat) (x : Alarm) : (s.setAlarm n x).alarm j = if j = n then x else s.alarm j := by
  simp [State.setAlarm, State.alarm]

/-- What was written is read; the others are as before. -/
@[simp] theorem State.setCtx_ctx (s : State) (n j : Nat) (x : Ctx) : (s.setCtx n x).ctx j = if j = n then x else s.ctx j := by
  simp [State.setCtx, State.ctx]

/-- What was written is read; the others are as before. -/
@[simp] theorem State.setWkr_wkr (s : State) (n j : Nat) (x : Worker) : (s.setWkr n x).wkr j = if j = n then x else s.wkr j := by
  simp [State.setWkr, State.wkr]

/-- What was written is read; the others are as before. -/
@[simp] theorem State.setGrpG_grpG (s : State) (n j : Nat) (x : GroupG) : (s.setGrpG n x).grpG j = if j = n then x else s.grpG j := by
  simp [State.setGrpG, State.grpG]

/-- What was written is read; the others are as before. -/
@[simp] theorem State.setChan_chan (s : State) (n j : Nat) (x : Chan) : (s.setChan n x).chan j = if j = n then x else s.chan j := by
  simp [State.setChan, State.chan]

/-- What was written is read; the others are as before. -/
@[simp] theorem State.setComp_comp (s : State) (n j : Nat) (x : Comp) : (s.setComp n x).comp j = if j = n then x else s.comp j := by
  simp [State.setComp, State.comp]

/-- What was written is read; the others are as before. -/
@[simp] theorem State.setEst_est (s : State) (n j : Nat) (x : Est) : (s.setEst n x).est j = if j = n then x else s.est j := by
  simp [State.setEst, State.est]

/-- What was written is read; the others are as before. -/
@[simp] theorem State.setPub_pub (s : State) (n j : Nat) (x : Goose) : (s.setPub n x).pub j = if j = n then x else s.pub j := by
  simp [State.setPub, State.pub]

/-- What was written is read; the others are as before. -/
@[simp] theorem State.setSv_svs (s : State) (n j : Nat) (x : Sv) : (s.setSv n x).svs j = if j = n then x else s.svs j := by
  simp [State.setSv, State.svs]

/-- What was written is read; the others are as before. -/
@[simp] theorem State.setKslot_kslot (s : State) (n j : Nat) (x : KeySlot) : (s.setKslot n x).kslot j = if j = n then x else s.kslot j := by
  simp [State.setKslot, State.kslot]

/-- What was written is read; the others are as before. -/
@[simp] theorem State.setOsc_oscG (s : State) (n j : Nat) (x : OscGroup) : (s.setOsc n x).oscG j = if j = n then x else s.oscG j := by
  simp [State.setOsc, State.oscG]

/-- What was written is read; the others are as before. -/
@[simp] theorem State.setOut_out (s : State) (n j : Nat) (x : Out) : (s.setOut n x).out j = if j = n then x else s.out j := by
  simp [State.setOut, State.out]

/-- What was written is read; the others are as before. -/
@[simp] theorem State.setPort_prt (s : State) (n j : Nat) (x : Port) : (s.setPort n x).prt j = if j = n then x else s.prt j := by
  simp [State.setPort, State.prt]

/-- What was written is read; the others are as before. -/
@[simp] theorem State.setQueue_queue (s : State) (n j : Nat) (x : Queue) : (s.setQueue n x).queue j = if j = n then x else s.queue j := by
  simp [State.setQueue, State.queue]

/-- What was written is read; the others are as before. -/
@[simp] theorem State.setTask_task (s : State) (n j : Nat) (x : Task) : (s.setTask n x).task j = if j = n then x else s.task j := by
  simp [State.setTask, State.task]

/-- What was written is read; the others are as before. -/
@[simp] theorem State.setCore_core (s : State) (n j : Nat) (x : CoreU) : (s.setCore n x).core j = if j = n then x else s.core j := by
  simp [State.setCore, State.core]

/-- What was written is read; the others are as before. -/
@[simp] theorem State.setLevel_level (s : State) (n j : Nat) (x : LevelU) : (s.setLevel n x).level j = if j = n then x else s.level j := by
  simp [State.setLevel, State.level]

/-- What was written is read; the others are as before. -/
@[simp] theorem State.setSrc_src (s : State) (n j : Nat) (x : Source) : (s.setSrc n x).src j = if j = n then x else s.src j := by
  simp [State.setSrc, State.src]

/-- What was written is read; the others are as before. -/
@[simp] theorem State.setPtp_ptpP (s : State) (n j : Nat) (x : PtpPort) : (s.setPtp n x).ptpP j = if j = n then x else s.ptpP j := by
  simp [State.setPtp, State.ptpP]

end Sys2Proof.Machine
end

