-- ==== Sys2Proof/Laws/Frame.lean ====
section
/-! SUPPORT. The sealed parts of the state, field by field; that a running device acts after its clock has run; that every
command answers a next state, within its footprint. -/
namespace Sys2Proof.Machine
open Sys2Proof

variable (s t : State) (ps : List Part)

@[simp] theorem State.within_pending : (s.within ps t).pending =
    s.pending := rfl
@[simp] theorem State.within_variant : (s.within ps t).variant =
    s.variant := rfl
@[simp] theorem State.within_freeCount : (s.within ps t).freeCount =
    if .free ∈ ps then t.freeCount else s.freeCount := rfl
@[simp] theorem State.within_stats : (s.within ps t).stats =
    if .stats ∈ ps then t.stats else s.stats := rfl
@[simp] theorem State.within_sticky : (s.within ps t).sticky =
    if .stats ∈ ps then t.sticky else s.sticky := rfl
@[simp] theorem State.within_ev : (s.within ps t).ev =
    { latch := if .events ∈ ps then t.ev.latch else s.ev.latch, lastOut := if .events ∈ ps then t.ev.lastOut else s.ev.lastOut, held := if .events ∈ ps then t.ev.held else s.ev.held, fenced := if .fence ∈ ps then t.ev.fenced else s.ev.fenced, irq := if .irq ∈ ps then t.ev.irq else s.ev.irq } := rfl
@[simp] theorem State.within_pace : (s.within ps t).pace =
    if .pace ∈ ps then t.pace else s.pace := rfl
@[simp] theorem State.within_power : (s.within ps t).power =
    if .power ∈ ps then t.power else s.power := rfl
@[simp] theorem State.within_mode : (s.within ps t).mode =
    { (if .mode ∈ ps then t.mode else s.mode) with pend := if .request ∈ ps then t.mode.pend else s.mode.pend, reqStatus := if .request ∈ ps then t.mode.reqStatus else s.mode.reqStatus } := rfl
@[simp] theorem State.within_rst : (s.within ps t).rst =
    if .reset ∈ ps then t.rst else s.rst := rfl
@[simp] theorem State.within_jrn : (s.within ps t).jrn =
    { (if .journal ∈ ps then t.jrn else s.jrn) with cfgValid := if .stored ∈ ps then t.jrn.cfgValid else s.jrn.cfgValid, cfg := if .stored ∈ ps then t.jrn.cfg else s.jrn.cfg, cfgGen := if .stored ∈ ps then t.jrn.cfgGen else s.jrn.cfgGen } := rfl
@[simp] theorem State.within_time : (s.within ps t).time =
    { (if .time ∈ ps then t.time else s.time) with elapsed := t.time.elapsed, tai := t.time.tai, slew := t.time.slew, frac := t.time.frac } := rfl
@[simp] theorem State.within_cfg : (s.within ps t).cfg =
    { (if .config ∈ ps then t.cfg else s.cfg) with waiting := if .commits ∈ ps then t.cfg.waiting else s.cfg.waiting, lastGen := if .commits ∈ ps then t.cfg.lastGen else s.cfg.lastGen, lastAcc := if .commits ∈ ps then t.cfg.lastAcc else s.cfg.lastAcc, lastTc := if .commits ∈ ps then t.cfg.lastTc else s.cfg.lastTc, prev := if .previous ∈ ps then t.cfg.prev else s.cfg.prev, spent := if .previous ∈ ps then t.cfg.spent else s.cfg.spent } := rfl
@[simp] theorem State.within_osr : (s.within ps t).osr =
    { sessions := if .sessions ∈ ps then t.osr.sessions else s.osr.sessions, resp := if .sessions ∈ ps then t.osr.resp else s.osr.resp, notify := if .sessions ∈ ps then t.osr.notify else s.osr.notify, outbox := if .sessions ∈ ps then t.osr.outbox else s.osr.outbox, line := if .sessions ∈ ps then t.osr.line else s.osr.line, queue := if .commitQueue ∈ ps then t.osr.queue else s.osr.queue, checked := if .commitQueue ∈ ps then t.osr.checked else s.osr.checked, reports := if .commitQueue ∈ ps then t.osr.reports else s.osr.reports, failures := if .lockouts ∈ ps then t.osr.failures else s.osr.failures, lockouts := if .lockouts ∈ ps then t.osr.lockouts else s.osr.lockouts } := rfl
@[simp] theorem State.within_store : (s.within ps t).store =
    { (if .store ∈ ps then t.store else s.store) with queues := if .queues ∈ ps then t.store.queues else s.store.queues, poolUsed := if .queues ∈ ps then t.store.poolUsed else s.store.poolUsed, poolHigh := if .queues ∈ ps then t.store.poolHigh else s.store.poolHigh, poolLow := if .queues ∈ ps then t.store.poolLow else s.store.poolLow, popped := if .queues ∈ ps then t.store.popped else s.store.popped, moves := if .queues ∈ ps then t.store.moves else s.store.moves } := rfl
@[simp] theorem State.within_sched : (s.within ps t).sched =
    { (if .sched ∈ ps then t.sched else s.sched) with desc := if .tasks ∈ ps then t.sched.desc else s.sched.desc } := rfl
@[simp] theorem State.within_port : (s.within ps t).port =
    if .port ∈ ps then t.port else s.port := rfl
@[simp] theorem State.within_acq : (s.within ps t).acq =
    { (if .acq ∈ ps then t.acq else s.acq) with reader := if .reader ∈ ps then t.acq.reader else s.acq.reader } := rfl
@[simp] theorem State.within_bus : (s.within ps t).bus =
    if .bus ∈ ps then t.bus else s.bus := rfl
@[simp] theorem State.within_ing : (s.within ps t).ing =
    { (if .ingest ∈ ps then t.ing else s.ing) with slots := if .slots ∈ ps then t.ing.slots else s.ing.slots, unresolved := if .slots ∈ ps then t.ing.unresolved else s.ing.unresolved } := rfl
@[simp] theorem State.within_chain : (s.within ps t).chain =
    if .chain ∈ ps then t.chain else s.chain := rfl
@[simp] theorem State.within_align : (s.within ps t).align =
    if .align ∈ ps then t.align else s.align := rfl
@[simp] theorem State.within_hr : (s.within ps t).hr =
    if .hr ∈ ps then t.hr else s.hr := rfl
@[simp] theorem State.within_alm : (s.within ps t).alm =
    { alarm := if .alarm ∈ ps then t.alm.alarm else s.alm.alarm, old := if .alarm ∈ ps then t.alm.old else s.alm.old, inbox := if .alarm ∈ ps then t.alm.inbox else s.alm.inbox, goose := if .goose ∈ ps then t.alm.goose else s.alm.goose, out := if .out ∈ ps then t.alm.out else s.alm.out } := rfl
@[simp] theorem State.within_key : (s.within ps t).key =
    { (if .keys ∈ ps then t.key else s.key) with life := if .life ∈ ps then t.key.life else s.key.life, sym := if .keyPort ∈ ps then t.key.sym else s.key.sym, asym := if .keyPort ∈ ps then t.key.asym else s.key.asym, waiting := if .keyPort ∈ ps then t.key.waiting else s.key.waiting, lastReq := if .keyPort ∈ ps then t.key.lastReq else s.key.lastReq, answer := if .keyPort ∈ ps then t.key.answer else s.key.answer, uses := if .keyPort ∈ ps then t.key.uses else s.key.uses, block := if .keyCmd ∈ ps then t.key.block else s.key.block, result := if .keyCmd ∈ ps then t.key.result else s.key.result, cmd := if .keyCmd ∈ ps then t.key.cmd else s.key.cmd, erasing := if .keyCmd ∈ ps then t.key.erasing else s.key.erasing, remasked := if .keyCmd ∈ ps then t.key.remasked else s.key.remasked, maskedAt := if .keyCmd ∈ ps then t.key.maskedAt else s.key.maskedAt, lines := if .tamper ∈ ps then t.key.lines else s.key.lines, tamperNow := if .tamper ∈ ps then t.key.tamperNow else s.key.tamperNow, tamperSince := if .tamper ∈ ps then t.key.tamperSince else s.key.tamperSince, trngFail := if .tamper ∈ ps then t.key.trngFail else s.key.trngFail, trngBad := if .tamper ∈ ps then t.key.trngBad else s.key.trngBad, trngGood := if .tamper ∈ ps then t.key.trngGood else s.key.trngGood } := rfl
@[simp] theorem State.within_osc : (s.within ps t).osc =
    if .osc ∈ ps then t.osc else s.osc := rfl
@[simp] theorem State.within_isl : (s.within ps t).isl =
    if .isl ∈ ps then t.isl else s.isl := rfl
@[simp] theorem State.within_cop : (s.within ps t).cop =
    if .cop ∈ ps then t.cop else s.cop := rfl
@[simp] theorem State.within_upd : (s.within ps t).upd =
    if .upd ∈ ps then t.upd else s.upd := rfl
@[simp] theorem State.within_rec : (s.within ps t).rec_ =
    { (if .records ∈ ps then t.rec_ else s.rec_) with pend := if .recFlash ∈ ps then t.rec_.pend else s.rec_.pend, jcirc := if .recFlash ∈ ps then t.rec_.jcirc else s.rec_.jcirc, jperm := if .recFlash ∈ ps then t.rec_.jperm else s.rec_.jperm, pageFailed := if .recFlash ∈ ps then t.rec_.pageFailed else s.rec_.pageFailed, state := if .recFault ∈ ps then t.rec_.state else s.rec_.state, faults := if .recFault ∈ ps then t.rec_.faults else s.rec_.faults, gasp := if .recFault ∈ ps then t.rec_.gasp else s.rec_.gasp } := rfl
@[simp] theorem State.within_mon : (s.within ps t).mon =
    if .mon ∈ ps then t.mon else s.mon := rfl
@[simp] theorem State.within_jtag : (s.within ps t).jtag =
    if .jtag ∈ ps then t.jtag else s.jtag := rfl

@[simp] theorem State.within_cf : (s.within ps t).cf = ⟨s.variant, if .config ∈ ps then t.cfg.live else s.cfg.live⟩ := by
  simp only [State.cf, State.within_variant, State.within_cfg]; split <;> rfl

/-- A running device acts after its clock has run. -/
theorem State.act_runs (dt : Nat) (f : State → State) (h : s.runs = true) : s.act ps dt f = s.within ps (f (s.tick dt)) := by
  simp [State.act, State.live, h]

/-- While the device does not run only the clock does. -/
theorem State.act_not_runs (dt : Nat) (f : State → State) (h : s.runs = false) : s.act ps dt f = s.within ps (s.tick dt) := by
  simp [State.act, State.live, h]

end Sys2Proof.Machine
end

