-- ==== Sys2Proof/Laws/Osrider.lean ====
section
/-! SUPPORT. What a message that the device takes does, said once: the session it leaves, the count, the answer; for a WRITE,
the effect of its object between. -/
namespace Sys2Proof.Machine
open Sys2Proof

/-! ## Sessions -/

theorem State.session_id {s : State} {sid : Nat} {x : Session} (h : s.session sid = some x) : x.id = sid := by
  have := List.find?_some h; simpa using this

theorem State.session_setSession (s : State) (x : Session) (j : Nat) :
    (s.setSession x).session j = if j = x.id then (s.session j).map (fun _ => x) else s.session j := by
  unfold State.session State.setSession
  simp only
  induction s.osr.sessions with
  | nil => simp
  | cons y r ih =>
    simp only [List.map_cons, List.find?_cons]
    by_cases hy : y.id = x.id
    · by_cases hj : j = x.id
      · simp [hy, hj]
      · have : ¬ x.id = j := fun h => hj h.symm
        simp [hy, hj, this] at ih ⊢; exact ih
    · by_cases hj : y.id = j
      · have : ¬ j = x.id := fun h => hy (hj.trans h)
        simp [hj, this]
      · by_cases hx : j = x.id
        · simp [hy, hx] at ih ⊢; exact ih
        · simp [hy, hj, hx] at ih ⊢; exact ih

/-- A session written over itself is read; the others stay. -/
theorem State.session_set_self {s : State} {x y : Session} {sid : Nat} (h : s.session sid = some x) (hy : y.id = x.id) (j : Nat) :
    (s.setSession y).session j = if j = sid then some y else s.session j := by
  have hx := State.session_id h
  rw [State.session_setSession, hy, hx]
  by_cases hj : j = sid
  · subst hj; simp [h]
  · simp [hj]

@[simp] theorem State.session_osr_congr (s : State) (u : OsrU) (j : Nat) (h : u.sessions = s.osr.sessions) :
    ({ s with osr := u } : State).session j = s.session j := by simp [State.session, h]

/-- Reading a session looks at the sessions only. -/
theorem State.session_congr {s t : State} (h : t.osr.sessions = s.osr.sessions) (j : Nat) : t.session j = s.session j := by
  simp [State.session, h]

@[simp] theorem count_session (idx sub : Nat) (s : State) (j : Nat) : (count idx sub s).session j = s.session j :=
  State.session_congr (by simp) j
@[simp] theorem raise_session (id inst param : Nat) (s : State) (j : Nat) : (raise id inst param s).session j = s.session j :=
  State.session_congr (by simp) j
@[simp] theorem tick_session (s : State) (dt j : Nat) : (s.tick dt).session j = s.session j := State.session_congr (by simp) j
@[simp] theorem noResp_session (s : State) (j : Nat) : (noResp s).session j = s.session j := rfl

@[simp] theorem within_session (s t : State) (ps : List Part) (j : Nat) :
    (s.within ps t).session j = if .sessions ∈ ps then t.session j else s.session j := by
  simp only [State.session, State.within_osr]; split <;> rfl
@[simp] theorem within_ctr (s t : State) (ps : List Part) (j k : Nat) :
    (s.within ps t).ctr j k = if .stats ∈ ps then t.ctr j k else s.ctr j k := by
  simp only [State.ctr, State.within_stats]; split <;> rfl
theorem within_latched {s t : State} {ps : List Part} {id inst : Nat} (h : .events ∈ ps) (l : Latched t id inst) : Latched (s.within ps t) id inst := by
  simpa [Latched, h] using l

/-! ## Answers and ends -/

@[simp] theorem noResp_same (s : State) :
    (noResp s).pending = s.pending ∧ (noResp s).variant = s.variant ∧ (noResp s).freeCount = s.freeCount ∧ (noResp s).stats = s.stats ∧ (noResp s).sticky = s.sticky ∧ (noResp s).ev = s.ev ∧ (noResp s).pace = s.pace ∧ (noResp s).power = s.power ∧ (noResp s).mode = s.mode ∧ (noResp s).rst = s.rst ∧ (noResp s).jrn = s.jrn ∧ (noResp s).time = s.time ∧ (noResp s).cfg = s.cfg ∧ (noResp s).store = s.store ∧ (noResp s).sched = s.sched ∧ (noResp s).port = s.port ∧ (noResp s).acq = s.acq ∧ (noResp s).bus = s.bus ∧ (noResp s).ing = s.ing ∧ (noResp s).chain = s.chain ∧ (noResp s).align = s.align ∧ (noResp s).hr = s.hr ∧ (noResp s).alm = s.alm ∧ (noResp s).key = s.key ∧ (noResp s).osc = s.osc ∧ (noResp s).isl = s.isl ∧ (noResp s).cop = s.cop ∧ (noResp s).upd = s.upd ∧ (noResp s).rec_ = s.rec_ ∧ (noResp s).mon = s.mon ∧ (noResp s).jtag = s.jtag :=
  ⟨rfl, rfl, rfl, rfl, rfl, rfl, rfl, rfl, rfl, rfl, rfl, rfl, rfl, rfl, rfl, rfl, rfl, rfl, rfl, rfl, rfl, rfl, rfl, rfl, rfl, rfl, rfl, rfl, rfl, rfl, rfl⟩

/-- A message that leaves the server changes what waits to go out, for the ports or on the UART, or counts at its port. -/
@[simp] theorem mail_same (v : Via) (b : Bytes) (s : State) :
    (mail v b s).pending = s.pending ∧ (mail v b s).variant = s.variant ∧ (mail v b s).freeCount = s.freeCount ∧ (mail v b s).pace = s.pace ∧ (mail v b s).power = s.power ∧ (mail v b s).mode = s.mode ∧ (mail v b s).rst = s.rst ∧ (mail v b s).jrn = s.jrn ∧ (mail v b s).time = s.time ∧ (mail v b s).cfg = s.cfg ∧ (mail v b s).store = s.store ∧ (mail v b s).sched = s.sched ∧ (mail v b s).port = s.port ∧ (mail v b s).acq = s.acq ∧ (mail v b s).bus = s.bus ∧ (mail v b s).ing = s.ing ∧ (mail v b s).chain = s.chain ∧ (mail v b s).align = s.align ∧ (mail v b s).hr = s.hr ∧ (mail v b s).alm = s.alm ∧ (mail v b s).key = s.key ∧ (mail v b s).osc = s.osc ∧ (mail v b s).isl = s.isl ∧ (mail v b s).cop = s.cop ∧ (mail v b s).upd = s.upd ∧ (mail v b s).rec_ = s.rec_ ∧ (mail v b s).mon = s.mon ∧ (mail v b s).jtag = s.jtag := by
  unfold mail tally tallyN; cases v <;> simp only <;> (repeat' split) <;> simp
@[simp] theorem mail_osr (v : Via) (b : Bytes) (s : State) :
    (mail v b s).osr.sessions = s.osr.sessions ∧ (mail v b s).osr.resp = s.osr.resp ∧ (mail v b s).osr.notify = s.osr.notify ∧
      (mail v b s).osr.queue = s.osr.queue ∧ (mail v b s).osr.checked = s.osr.checked ∧ (mail v b s).osr.reports = s.osr.reports ∧
      (mail v b s).osr.failures = s.osr.failures ∧ (mail v b s).osr.lockouts = s.osr.lockouts := by
  unfold mail tally tallyN; cases v <;> simp only <;> (repeat' split) <;> simp
/-- Of the counts only that of frames discarded at a port whose link is down may move (R105). -/
theorem mail_ctr (v : Via) (b : Bytes) (s : State) (j k : Nat) (hk : j < 0x2080 ∨ 0x2086 ≤ j) (hk' : k < 256) : (mail v b s).ctr j k = s.ctr j k := by
  unfold mail
  cases v with
  | uart => rfl
  | port p i u =>
    simp only; split
    · rename_i h
      have hp : p < 6 := by
        have h1 : p < s.ports := by
          simp only [State.portActive, Bool.and_eq_true, decide_eq_true_eq] at h
          exact h.1.1
        exact Nat.lt_of_lt_of_le h1 (by unfold State.ports byPart; split <;> decide)
      unfold tally tallyN; split
      · rfl
      · rw [countN_ctr, if_neg (by omega)]
    · rfl
@[simp] theorem mail_session (v : Via) (b : Bytes) (s : State) (j : Nat) : (mail v b s).session j = s.session j :=
  State.session_congr (by simp) j

/-- An answer changes the sessions, the response and what waits to go out only. -/
@[simp] theorem respond_same (x : Session) (type tag status : Nat) (body : Bytes) (s : State) :
    (respond x type tag status body s).pending = s.pending ∧ (respond x type tag status body s).variant = s.variant ∧ (respond x type tag status body s).freeCount = s.freeCount ∧ (respond x type tag status body s).pace = s.pace ∧ (respond x type tag status body s).power = s.power ∧ (respond x type tag status body s).mode = s.mode ∧ (respond x type tag status body s).rst = s.rst ∧ (respond x type tag status body s).jrn = s.jrn ∧ (respond x type tag status body s).time = s.time ∧ (respond x type tag status body s).cfg = s.cfg ∧ (respond x type tag status body s).store = s.store ∧ (respond x type tag status body s).sched = s.sched ∧ (respond x type tag status body s).port = s.port ∧ (respond x type tag status body s).acq = s.acq ∧ (respond x type tag status body s).bus = s.bus ∧ (respond x type tag status body s).ing = s.ing ∧ (respond x type tag status body s).chain = s.chain ∧ (respond x type tag status body s).align = s.align ∧ (respond x type tag status body s).hr = s.hr ∧ (respond x type tag status body s).alm = s.alm ∧ (respond x type tag status body s).key = s.key ∧ (respond x type tag status body s).osc = s.osc ∧ (respond x type tag status body s).isl = s.isl ∧ (respond x type tag status body s).cop = s.cop ∧ (respond x type tag status body s).upd = s.upd ∧ (respond x type tag status body s).rec_ = s.rec_ ∧ (respond x type tag status body s).mon = s.mon ∧ (respond x type tag status body s).jtag = s.jtag := by
  simp [respond]

/-- The answer that goes out: to the session's ID, with its number as the state has it. -/
theorem respond_resp {x y : Session} {s : State} (h : s.session x.id = some y) (type tag status : Nat) (body : Bytes) :
    ∃ r, (respond x type tag status body s).osr.resp = some r ∧ r.sid = x.id ∧ r.type = type ∧ r.tag = tag ∧ r.seq = y.txSeq ∧ r.status = status ∧
      r.body = body := by
  simp [respond, h]

/-- The session after an answer: its numbers have moved, nothing else. -/
def Session.sent (y : Session) : Session := { y with txSeq := (y.txSeq + 1) % 2 ^ 32, tx := y.tx + 1 }
@[simp] theorem Session.sent_same (y : Session) :
    y.sent.id = y.id ∧ y.sent.role = y.role ∧ y.sent.slot = y.slot ∧ y.sent.anon = y.anon ∧ y.sent.via = y.via ∧ y.sent.key = y.key ∧
      y.sent.oldKey = y.oldKey ∧ y.sent.rx = y.rx ∧ y.sent.dueAt = y.dueAt ∧ y.sent.subscribed = y.subscribed ∧ y.sent.queue = y.queue ∧ y.sent.out = y.out ∧
      y.sent.snap = y.snap ∧ y.sent.stage = y.stage ∧ y.sent.keyAt = y.keyAt ∧ y.sent.lastAt = y.lastAt ∧ y.sent.oldUntil = y.oldUntil ∧
      y.sent.hi = y.hi ∧ y.sent.seen = y.seen ∧ y.sent.lost = y.lost := by simp [Session.sent]

theorem respond_session {x y : Session} {s : State} (h : s.session x.id = some y) (type tag status : Nat) (body : Bytes) (j : Nat) :
    (respond x type tag status body s).session j = if j = x.id then some y.sent else s.session j := by
  have e : (respond x type tag status body s).session j = (s.setSession y.sent).session j :=
    State.session_congr (by simp [respond, h, Session.sent]) j
  rw [e, State.session_set_self h (by rfl)]

/-- The end of a session changes the sessions, its latch and the count of discarded staging areas only. -/
@[simp] theorem dropStage_same (x : Session) (s : State) :
    (dropStage x s).pending = s.pending ∧ (dropStage x s).variant = s.variant ∧ (dropStage x s).freeCount = s.freeCount ∧ (dropStage x s).pace = s.pace ∧ (dropStage x s).power = s.power ∧ (dropStage x s).mode = s.mode ∧ (dropStage x s).rst = s.rst ∧ (dropStage x s).jrn = s.jrn ∧ (dropStage x s).time = s.time ∧ (dropStage x s).cfg = s.cfg ∧ (dropStage x s).store = s.store ∧ (dropStage x s).sched = s.sched ∧ (dropStage x s).port = s.port ∧ (dropStage x s).acq = s.acq ∧ (dropStage x s).bus = s.bus ∧ (dropStage x s).ing = s.ing ∧ (dropStage x s).chain = s.chain ∧ (dropStage x s).align = s.align ∧ (dropStage x s).hr = s.hr ∧ (dropStage x s).alm = s.alm ∧ (dropStage x s).key = s.key ∧ (dropStage x s).osc = s.osc ∧ (dropStage x s).isl = s.isl ∧ (dropStage x s).cop = s.cop ∧ (dropStage x s).upd = s.upd ∧ (dropStage x s).rec_ = s.rec_ ∧ (dropStage x s).mon = s.mon ∧ (dropStage x s).jtag = s.jtag := by
  unfold dropStage; split
  · split
    · simp
    · split <;> simp
  · simp

@[simp] theorem endSession_same (sid : Nat) (s : State) :
    (endSession sid s).pending = s.pending ∧ (endSession sid s).variant = s.variant ∧ (endSession sid s).freeCount = s.freeCount ∧ (endSession sid s).pace = s.pace ∧ (endSession sid s).power = s.power ∧ (endSession sid s).mode = s.mode ∧ (endSession sid s).rst = s.rst ∧ (endSession sid s).jrn = s.jrn ∧ (endSession sid s).time = s.time ∧ (endSession sid s).cfg = s.cfg ∧ (endSession sid s).store = s.store ∧ (endSession sid s).sched = s.sched ∧ (endSession sid s).port = s.port ∧ (endSession sid s).acq = s.acq ∧ (endSession sid s).bus = s.bus ∧ (endSession sid s).ing = s.ing ∧ (endSession sid s).chain = s.chain ∧ (endSession sid s).align = s.align ∧ (endSession sid s).hr = s.hr ∧ (endSession sid s).alm = s.alm ∧ (endSession sid s).key = s.key ∧ (endSession sid s).osc = s.osc ∧ (endSession sid s).isl = s.isl ∧ (endSession sid s).cop = s.cop ∧ (endSession sid s).upd = s.upd ∧ (endSession sid s).rec_ = s.rec_ ∧ (endSession sid s).mon = s.mon ∧ (endSession sid s).jtag = s.jtag := by
  unfold endSession; split <;> simp

theorem dropStage_ids (x : Session) (s : State) : (dropStage x s).osr.sessions.map (·.id) = s.osr.sessions.map (·.id) := by
  have hset : ∀ (u : State) (y : Session), (u.setSession y).osr.sessions.map (·.id) = u.osr.sessions.map (·.id) := by
    intro u y
    simp only [State.setSession, List.map_map]
    apply List.map_congr_left
    intro z _
    by_cases h : z.id = y.id <;> simp [h]
  unfold dropStage; split
  · split
    · rfl
    · split <;> simp [hset]
  · rfl

/-- Another session keeps what it has when one loses its staging area. -/
theorem dropStage_session (x : Session) (s : State) (j : Nat) (hj : j ≠ x.id) : (dropStage x s).session j = s.session j := by
  unfold dropStage; split
  · split
    · rfl
    · split
      · rename_i y hy
        have hid := State.session_id hy
        rw [raise_session, count_session, State.session_setSession, hid]; simp [hj]
      · simp
  · rfl

/-- The answer that has gone out stays. -/
@[simp] theorem dropStage_resp (x : Session) (s : State) : (dropStage x s).osr.resp = s.osr.resp := by
  unfold dropStage; split
  · split
    · rfl
    · split <;> simp [State.setSession]
  · rfl
@[simp] theorem endSession_resp (sid : Nat) (s : State) : (endSession sid s).osr.resp = s.osr.resp := by
  unfold endSession; split <;> simp

theorem endSession_session {s : State} {sid : Nat} {x : Session} (h : s.session sid = some x) (j : Nat) :
    (endSession sid s).session j = if j = sid then none else s.session j := by
  have hx := State.session_id h
  simp only [endSession, h, raise_session]
  by_cases hj : j = sid
  · subst hj
    simp [State.session]
  · rw [if_neg hj, ← dropStage_session x s j (by rw [hx]; exact hj)]
    simp only [State.session]
    generalize (dropStage x s).osr.sessions = l
    induction l with
    | nil => rfl
    | cons y r ih =>
      by_cases hy : y.id = sid
      · have : ¬ y.id = j := fun e => hj (e.symm.trans hy)
        simp [List.find?_cons, hy] at ih ⊢
        rw [ih]; have : ¬ sid = j := fun e => hj e.symm
        simp [this]
      · by_cases hyj : y.id = j
        · simp [hyj, hj]
        · simp [hy, hyj] at ih ⊢; exact ih

/-! ## Events -/

/-- A source of a unit that is there latches its occurrence (R7, R25, R549). -/
theorem raise_latched (id inst param : Nat) (s : State) (ha : eventAbsent s.variant id inst = false) (hr : eventReserved id = false) :
    Latched (raise id inst param s) id inst := by
  have key : ∀ (es : List Ev) (e : Ev), ∃ x ∈ latchEvent es e, x.id = e.id ∧ x.inst = e.inst := by
    intro es e
    induction es with
    | nil => exact ⟨e, by simp [latchEvent], rfl, rfl⟩
    | cons y r ih =>
      unfold latchEvent; split
      · rename_i hc
        simp at hc
        exact ⟨_, List.mem_cons_self, hc.1.1, hc.1.2⟩
      · obtain ⟨z, hz, h1⟩ := ih
        exact ⟨z, List.mem_cons_of_mem _ hz, h1⟩
  unfold raise Latched
  simp only [ha, hr, Bool.or_self, Bool.false_eq_true, if_false]
  split
  · exact ⟨_, List.mem_append_right _ (List.mem_singleton.mpr rfl), rfl, rfl⟩
  · exact key _ _

/-! ## A message that the device takes -/

/-- The session after it has taken a message: the numbers taken, the time, the count of messages and where the message came from; nothing
else. -/
def Session.after (x : Session) (m : Msg) (type : Nat) (payload : Bytes) (now : Nat) : Session :=
  if x.authOf m type payload = .previous then
    { x with oldHi := (seqTake x.oldHi x.oldSeen m.seq).1, oldSeen := (seqTake x.oldHi x.oldSeen m.seq).2, lastAt := now, rx := x.rx + 1, via := m.via }
  else { x with hi := (seqTake x.hi x.seen m.seq).1, seen := (seqTake x.hi x.seen m.seq).2, lastAt := now, rx := x.rx + 1, via := m.via }

@[simp] theorem Session.after_same (x : Session) (m : Msg) (type : Nat) (p : Bytes) (now : Nat) :
    (x.after m type p now).id = x.id ∧ (x.after m type p now).role = x.role ∧ (x.after m type p now).slot = x.slot ∧ (x.after m type p now).anon = x.anon ∧
      (x.after m type p now).via = m.via ∧ (x.after m type p now).key = x.key ∧ (x.after m type p now).oldKey = x.oldKey ∧ (x.after m type p now).tx = x.tx ∧
      (x.after m type p now).dueAt = x.dueAt ∧ (x.after m type p now).txSeq = x.txSeq ∧ (x.after m type p now).subscribed = x.subscribed ∧
      (x.after m type p now).queue = x.queue ∧ (x.after m type p now).out = x.out ∧ (x.after m type p now).snap = x.snap ∧ (x.after m type p now).stage = x.stage ∧
      (x.after m type p now).keyAt = x.keyAt ∧ (x.after m type p now).lastAt = now ∧ (x.after m type p now).oldUntil = x.oldUntil ∧
      (x.after m type p now).uart = viaUart m.via := by
  unfold Session.after Session.uart viaUart; split <;> simp

/-- Whether a key is fit looks at the key store only. -/
theorem State.credOk_congr {s t : State} {x y : Session} (h : t.key = s.key) (ha : x.anon = y.anon) (hs : x.slot = y.slot) (hr : x.role = y.role) :
    t.credOk x = s.credOk y := by
  unfold State.credOk State.keyFit State.kslot; rw [h, ha, hs, hr]

/-- What a request that is served changes: its class's count, and its slot's. -/
@[simp] theorem keyServed_same (c h u : Nat) (s : State) :
    (keyServed c h u s).pending = s.pending ∧ (keyServed c h u s).variant = s.variant ∧ (keyServed c h u s).freeCount = s.freeCount ∧ (keyServed c h u s).pace = s.pace ∧ (keyServed c h u s).power = s.power ∧ (keyServed c h u s).mode = s.mode ∧ (keyServed c h u s).rst = s.rst ∧ (keyServed c h u s).jrn = s.jrn ∧ (keyServed c h u s).time = s.time ∧ (keyServed c h u s).cfg = s.cfg ∧ (keyServed c h u s).store = s.store ∧ (keyServed c h u s).sched = s.sched ∧ (keyServed c h u s).port = s.port ∧ (keyServed c h u s).acq = s.acq ∧ (keyServed c h u s).bus = s.bus ∧ (keyServed c h u s).ing = s.ing ∧ (keyServed c h u s).chain = s.chain ∧ (keyServed c h u s).align = s.align ∧ (keyServed c h u s).hr = s.hr ∧ (keyServed c h u s).alm = s.alm ∧ (keyServed c h u s).osc = s.osc ∧ (keyServed c h u s).isl = s.isl ∧ (keyServed c h u s).cop = s.cop ∧ (keyServed c h u s).upd = s.upd ∧ (keyServed c h u s).rec_ = s.rec_ ∧ (keyServed c h u s).mon = s.mon ∧ (keyServed c h u s).jtag = s.jtag ∧ (keyServed c h u s).osr = s.osr := by
  unfold keyServed; simp only; split <;> simp
@[simp] theorem keyServed_session (c h u : Nat) (s : State) (j : Nat) : (keyServed c h u s).session j = s.session j :=
  State.session_congr (by simp) j

/-- A served request leaves of the key store all but the counts of requests served. -/
@[simp] theorem keyServed_key (c h u : Nat) (s : State) :
    (keyServed c h u s).key = { s.key with uses := if 16 ≤ u then s.key.uses else Table.modify s.key.uses h 0 (fun n => satCount n 1) } := by
  unfold keyServed; simp only; split <;> simp

/-- The request of a message, when the port takes it and the credential stands: served, or none in a session without a key. -/
def msgServed (x : Session) (s : State) : State := if x.anon then s else keyServed 1 x.slot (x.role - 1) s
theorem sessionUse_msgServed {s : State} {x : Session} (hp : x.anon = true ∨ s.portBusy 1 = false) (hc : s.credOk x = true) :
    sessionUse x s = (stOk, msgServed x s) := by
  unfold sessionUse msgServed keyUse
  cases ha : x.anon
  · have hb : s.portBusy 1 = false := by simpa [ha] using hp
    have hk : s.keyFit x.slot (x.role - 1) = true := by simpa [State.credOk, ha] using hc
    simp [hb, hk]
  · simp
@[simp] theorem msgServed_same (x : Session) (s : State) :
    (msgServed x s).pending = s.pending ∧ (msgServed x s).variant = s.variant ∧ (msgServed x s).freeCount = s.freeCount ∧ (msgServed x s).pace = s.pace ∧ (msgServed x s).power = s.power ∧ (msgServed x s).mode = s.mode ∧ (msgServed x s).rst = s.rst ∧ (msgServed x s).jrn = s.jrn ∧ (msgServed x s).time = s.time ∧ (msgServed x s).cfg = s.cfg ∧ (msgServed x s).store = s.store ∧ (msgServed x s).sched = s.sched ∧ (msgServed x s).port = s.port ∧ (msgServed x s).acq = s.acq ∧ (msgServed x s).bus = s.bus ∧ (msgServed x s).ing = s.ing ∧ (msgServed x s).chain = s.chain ∧ (msgServed x s).align = s.align ∧ (msgServed x s).hr = s.hr ∧ (msgServed x s).alm = s.alm ∧ (msgServed x s).osc = s.osc ∧ (msgServed x s).isl = s.isl ∧ (msgServed x s).cop = s.cop ∧ (msgServed x s).upd = s.upd ∧ (msgServed x s).rec_ = s.rec_ ∧ (msgServed x s).mon = s.mon ∧ (msgServed x s).jtag = s.jtag ∧ (msgServed x s).osr = s.osr := by
  unfold msgServed; split <;> simp
@[simp] theorem msgServed_session (x : Session) (s : State) (j : Nat) : (msgServed x s).session j = s.session j := State.session_congr (by simp) j
@[simp] theorem msgServed_key (x : Session) (s : State) :
    (msgServed x s).key = { s.key with uses := if x.anon = true ∨ 16 ≤ x.role - 1 then s.key.uses else Table.modify s.key.uses x.slot 0 (fun n => satCount n 1) } := by
  unfold msgServed; cases x.anon <;> simp

/-- The state in which the effect of a message that is taken begins. -/
def State.afterTake (s : State) (m : Msg) (type : Nat) (p : Bytes) (x : Session) : State :=
  msgServed x (count 0x1080 1 ((noResp s).setSession (x.after m type p s.elapsed)))

theorem acceptMsg_takes {s : State} {m : Msg} {x : Session} {type : Nat} {p : Bytes} (h : Takes s m x type p) :
    acceptMsg m type p s = (some (x.after m type p s.elapsed), s.afterTake m type p x) := by
  obtain ⟨hv, hs, hu, hb, hc, hq⟩ := h
  have hv' : (noResp s).viaOk m.via = true := hv
  have he : (noResp s).elapsed = s.elapsed := rfl
  have hb' : (!x.anon && (noResp s).portBusy 1) = false := by
    rcases hb with hb | hb
    · simp [hb]
    · have : (noResp s).portBusy 1 = false := hb
      simp [this]
  have hs' : sessionUse (x.after m type p s.elapsed) (count 0x1080 1 ((noResp s).setSession (x.after m type p s.elapsed))) =
      (stOk, s.afterTake m type p x) := by
    rw [sessionUse_msgServed]
    · simp [State.afterTake, msgServed]
    · simpa [State.portBusy, State.fenced] using hb
    · rw [State.credOk_congr (t := count 0x1080 1 _) (s := s) (x := x.after m type p s.elapsed) (y := x) (by simp) (by simp) (by simp) (by simp)]; exact hc
  rcases hq with ⟨ha, hn⟩ | ⟨ha, hold, hn⟩
  · have e : x.after m type p s.elapsed = { x with hi := (seqTake x.hi x.seen m.seq).1, seen := (seqTake x.hi x.seen m.seq).2, lastAt := s.elapsed, rx := x.rx + 1, via := m.via } := by
      simp [Session.after, ha]
    rw [e] at hs'
    unfold acceptMsg
    simp only [hv', hb', Bool.not_true, Bool.false_eq_true, if_false, noResp_session, hs, hu, bne_self_eq_false, ha, hn,
      Bool.or_false, reduceCtorEq, decide_false, Bool.false_and]
    rw [e]; simp only [he, hs', if_true]
  · obtain ⟨u, ho, hlt⟩ : ∃ u, x.oldUntil = some u ∧ s.elapsed < u := by
      cases hu' : x.oldUntil with
      | none => simp [hu'] at hold
      | some u => exact ⟨u, rfl, by simpa [hu'] using hold⟩
    have e : x.after m type p s.elapsed = { x with oldHi := (seqTake x.oldHi x.oldSeen m.seq).1, oldSeen := (seqTake x.oldHi x.oldSeen m.seq).2, lastAt := s.elapsed, rx := x.rx + 1, via := m.via } := by
      simp [Session.after, ha]
    rw [e] at hs'
    simp only [ho] at e hs'
    have hlt' : decide ((noResp s).elapsed < u) = true := decide_eq_true hlt
    unfold acceptMsg
    simp only [hv', hb', Bool.not_true, Bool.false_eq_true, if_false, noResp_session, hs, hu, bne_self_eq_false, ha, hn, ho, hlt',
      Bool.or_false, reduceCtorEq, decide_false, decide_true, Bool.and_false, if_true]
    rw [e]; simp only [he, hs', if_true]

/-- A taken message changes the session, the counts of messages and of requests served, and the response only. -/
@[simp] theorem State.afterTake_same (s : State) (m : Msg) (type : Nat) (p : Bytes) (x : Session) :
    (s.afterTake m type p x).pending = s.pending ∧ (s.afterTake m type p x).variant = s.variant ∧ (s.afterTake m type p x).freeCount = s.freeCount ∧ (s.afterTake m type p x).pace = s.pace ∧ (s.afterTake m type p x).power = s.power ∧ (s.afterTake m type p x).mode = s.mode ∧ (s.afterTake m type p x).rst = s.rst ∧ (s.afterTake m type p x).jrn = s.jrn ∧ (s.afterTake m type p x).time = s.time ∧ (s.afterTake m type p x).cfg = s.cfg ∧ (s.afterTake m type p x).store = s.store ∧ (s.afterTake m type p x).sched = s.sched ∧ (s.afterTake m type p x).port = s.port ∧ (s.afterTake m type p x).acq = s.acq ∧ (s.afterTake m type p x).bus = s.bus ∧ (s.afterTake m type p x).ing = s.ing ∧ (s.afterTake m type p x).chain = s.chain ∧ (s.afterTake m type p x).align = s.align ∧ (s.afterTake m type p x).hr = s.hr ∧ (s.afterTake m type p x).alm = s.alm ∧ (s.afterTake m type p x).osc = s.osc ∧ (s.afterTake m type p x).isl = s.isl ∧ (s.afterTake m type p x).cop = s.cop ∧ (s.afterTake m type p x).upd = s.upd ∧ (s.afterTake m type p x).rec_ = s.rec_ ∧ (s.afterTake m type p x).mon = s.mon ∧ (s.afterTake m type p x).jtag = s.jtag := by
  simp [State.afterTake]

@[simp] theorem State.afterTake_key (s : State) (m : Msg) (type : Nat) (p : Bytes) (x : Session) :
    (s.afterTake m type p x).key = { s.key with uses := (msgServed x s).key.uses } := by
  simp [State.afterTake]

@[simp] theorem State.afterTake_osr (s : State) (m : Msg) (type : Nat) (p : Bytes) (x : Session) :
    (s.afterTake m type p x).osr = { s.osr with resp := none, sessions := s.osr.sessions.map (fun y => if y.id = x.id then x.after m type p s.elapsed else y) } := by
  simp [State.afterTake, State.setSession, noResp]

theorem State.afterTake_session {s : State} {m : Msg} {type : Nat} {p : Bytes} {x : Session} {sid : Nat} (h : s.session sid = some x) (j : Nat) :
    (s.afterTake m type p x).session j = if j = sid then some (x.after m type p s.elapsed) else s.session j := by
  unfold State.afterTake
  rw [msgServed_session, count_session, State.session_set_self (x := x) (sid := sid) (by simpa using h) (by simp)]
  simp

/-- The counts: messages accepted, and of class B requests served; no other. -/
theorem State.afterTake_ctr (s : State) (m : Msg) (type : Nat) (p : Bytes) (x : Session) (j k : Nat) (hk : j * 256 + k ≠ 0xA080 * 256 + 2) :
    (s.afterTake m type p x).ctr j k = if j * 256 + k = 0x1080 * 256 + 1 then min (s.ctr 0x1080 1 + 1) ctrMax else s.ctr j k := by
  have hs : ∀ t : State, (msgServed x t).ctr j k = t.ctr j k := by
    intro t
    unfold msgServed keyServed
    split
    · rfl
    · simp only; split <;> (unfold count; simp only [State.ctr]; have := countN_ctr 0xA080 2 1 t j k; simp only [State.ctr, hk, if_false] at this; exact this)
  rw [State.afterTake, hs]
  unfold count
  rw [countN_ctr]
  simp [State.ctr]

/-- A message that is taken: its effect, then its answer. -/
theorem onMsg_takes {s : State} {m : Msg} {x : Session} {type : Nat} {p : Bytes} (h : Takes s m x type p) (f : Session → State → Nat × Bytes × State) :
    onMsg m type p f s = respond (x.after m type p s.elapsed) type m.tag (f (x.after m type p s.elapsed) (s.afterTake m type p x)).1
      (f (x.after m type p s.elapsed) (s.afterTake m type p x)).2.1 (f (x.after m type p s.elapsed) (s.afterTake m type p x)).2.2 := by
  unfold onMsg; rw [acceptMsg_takes h]

theorem State.checkWrite_after {s : State} {m : Msg} {x : Session} {type : Nat} {p : Bytes} {idx sub : Nat} {v : Bytes} (hu : x.uart = viaUart m.via) :
    (s.afterTake m type p x).checkWrite (x.after m type p s.elapsed) idx sub v = s.checkWrite x idx sub v := by
  have hr : ∀ u k i j, (s.afterTake m type p x).reaches u k i j = s.reaches u k i j := by
    intro u k i j; simp [State.reaches]
  unfold State.checkWrite anonMay
  simp [hr, hu]

/-- The same of a WRITE. -/
abbrev Session.afterWrite (x : Session) (m : Msg) (idx sub : Nat) (v : Bytes) (now : Nat) : Session := x.after m 0x12 (objPayload idx sub (zeros 1 ++ v)) now
abbrev State.afterWrite (s : State) (m : Msg) (idx sub : Nat) (v : Bytes) (x : Session) : State := s.afterTake m 0x12 (objPayload idx sub (zeros 1 ++ v)) x

/-- A WRITE whose value is taken: the effect of its object, then its answer. -/
theorem onWrite_takes {s : State} {m : Msg} {x : Session} {idx sub n : Nat} {v : Bytes} (h : TakesWrite s m x idx sub v n)
    (f : Session → Nat → State → Nat × State) :
    onWrite m idx sub v f s = respond (x.afterWrite m idx sub v s.elapsed) 0x12 m.tag (f (x.afterWrite m idx sub v s.elapsed) n (s.afterWrite m idx sub v x)).1
      (if (f (x.afterWrite m idx sub v s.elapsed) n (s.afterWrite m idx sub v x)).1 = stClamped then toBE v.length n else []) (f (x.afterWrite m idx sub v s.elapsed) n (s.afterWrite m idx sub v x)).2 := by
  unfold onWrite
  rw [onMsg_takes h.1]
  have hw : (s.afterWrite m idx sub v x).checkWrite (x.afterWrite m idx sub v s.elapsed) idx sub v = (stOk, n) := by rw [State.checkWrite_after h.1.2.2.1]; exact h.2
  have h1 : ∀ r : Nat, (if r = stOk then stOk else r) = r := by intro r; split <;> simp_all
  simp only [hw, if_true, decide_true, Bool.true_or, h1]

/-! ## A message's command, from beginning to end -/

theorem Answered.of_respond {s u : State} {m : Msg} {x z : Session} {ps : List Part} (type status : Nat) (p body : Bytes) (now : Nat)
    (hx : s.session m.sid = some x) (hu : u.session m.sid = some z) (hz : z.txSeq = x.txSeq) (hp : .sessions ∈ ps) (w : State) :
    Answered (w.within ps (respond (x.after m type p now) type m.tag status body u)) m x type status := by
  have hid := State.session_id hx
  obtain ⟨r, h1, h2, h3, h4, h5, h6, _⟩ := respond_resp (x := x.after m type p now) (by rw [Session.after_same .. |>.1, hid]; exact hu) type m.tag status body
  exact ⟨r, by simp only [State.within_osr, hp, if_true, h1], by simpa using h2, h3, h4, by rw [h5, hz], h6⟩

/-- A command that carries a message which the device takes: the answer, and the state it leaves. -/
theorem msg_acts {s : State} {dt : Nat} {m : Msg} {x : Session} {c : Instr} {ps : List Part} {type : Nat} {p : Bytes} {f : Session → State → Nat × Bytes × State}
    (hc : exec c s = .next (s.act ps dt (onMsg m type p f))) (hp : .sessions ∈ ps) (hr : s.runs = true) (h : Takes (s.tick dt) m x type p)
    {st : Nat} {body : Bytes} {u : State} {z : Session}
    (hf : f (x.after m type p (s.tick dt).elapsed) ((s.tick dt).afterTake m type p x) = (st, body, u)) (hu : u.session m.sid = some z) (hz : z.txSeq = x.txSeq) :
    ∃ t, exec c s = .next t ∧ Answered t m x type st ∧ t = s.within ps (respond (x.after m type p (s.tick dt).elapsed) type m.tag st body u) := by
  refine ⟨_, hc, ?_, ?_⟩ <;> rw [State.act_runs _ _ _ _ hr, onMsg_takes h, hf]
  exact Answered.of_respond type st p body _ h.2.1 hu hz hp s

/-- The same for a WRITE. -/
theorem write_acts {s : State} {dt : Nat} {m : Msg} {x : Session} {c : Instr} {ps : List Part} {idx sub n : Nat} {v : Bytes}
    {f : Session → Nat → State → Nat × State}
    (hc : exec c s = .next (s.act ps dt (onWrite m idx sub v f))) (hp : .sessions ∈ ps) (hr : s.runs = true) (h : TakesWrite (s.tick dt) m x idx sub v n)
    {st : Nat} {u : State} {z : Session}
    (hf : f (x.afterWrite m idx sub v (s.tick dt).elapsed) n ((s.tick dt).afterWrite m idx sub v x) = (st, u)) (hu : u.session m.sid = some z) (hz : z.txSeq = x.txSeq) :
    ∃ t, exec c s = .next t ∧ Answered t m x 0x12 st ∧
      ∃ body, t = s.within ps (respond (x.afterWrite m idx sub v (s.tick dt).elapsed) 0x12 m.tag st body u) := by
  refine ⟨_, hc, ?_, ?_⟩
  · rw [State.act_runs _ _ _ _ hr, onWrite_takes h, hf]
    exact Answered.of_respond _ st _ _ _ h.1.2.1 hu hz hp s
  · rw [State.act_runs _ _ _ _ hr, onWrite_takes h, hf]
    exact ⟨_, rfl⟩

/-- The session once its message has been answered. -/
theorem answered_session {s u : State} {m : Msg} {x z : Session} {ps : List Part} (type status : Nat) (p body : Bytes) (now : Nat)
    (hx : s.session m.sid = some x) (hu : u.session m.sid = some z) (hp : .sessions ∈ ps) (w : State) :
    (w.within ps (respond (x.after m type p now) type m.tag status body u)).session m.sid = some z.sent := by
  have hid := State.session_id hx
  rw [within_session, if_pos hp, respond_session (y := z) (by rw [Session.after_same .. |>.1, hid]; exact hu), Session.after_same .. |>.1, hid, if_pos rfl]

/-- The session as the effect of its message finds it. -/
theorem State.afterTake_self {s : State} {m : Msg} {x : Session} {type : Nat} {p : Bytes} (h : s.session m.sid = some x) :
    (s.afterTake m type p x).session m.sid = some (x.after m type p s.elapsed) := by simp [State.afterTake_session h]

end Sys2Proof.Machine
end

