-- ==== Sys2Proof/Tests/Slice0.lean ====
section
/-! SUPPORT. The model's own tests: ill-formed commands that `Instr.wf` refuses, one for each check; a few well-formed ones; and, for
every clause of the statements that has hypotheses, a state and operands that meet all of them (`witness_<statement>_<clause>`). -/
namespace Sys2Proof.Machine
open Sys2Proof
set_option Elab.async false
set_option linter.unusedVariables false

/-! ## Small states for the witnesses -/

def wVia : Via := .port 5 1 2
def wX : Session := { id := 5, role := 2, slot := 0, anon := true, via := wVia, lastAt := 0, keyAt := 0 }
def wMsg : Msg := ⟨5, 1, 9, 0, wVia⟩
/-- A device in a mode, with one session. -/
def wIn (m : Mode) (x : Session := wX) : State := { mode := { cur := m }, osr := { sessions := [x] } }
/-- A configuration with some bytes written: index, subindex, offset, bytes. -/
def wCfg (ws : List (Nat × Nat × Nat × Bytes)) : CfgU :=
  { live := ws.foldl (fun acc w => Memory.writes 0 acc (cfgAddr w.1 w.2.1 w.2.2.1) w.2.2.2) [], valid := true }
/-- A C37.118 frame: SYNC, size, ID, SOC, FRACSEC, body, CHK. -/
def wC37 (sync id soc frac : Nat) (body : Bytes) : Bytes :=
  let h := toBE 2 sync ++ toBE 2 (16 + body.length) ++ toBE 2 id ++ toBE 4 soc ++ toBE 4 frac ++ body
  h ++ toBE 2 (crc16 h)
/-- A CFG-2 frame of one PMU with no phasor, analog or digital value, at 50 instants a second. -/
def wCfg2 : Bytes :=
  wC37 0xAA31 7 100 0 (toBE 4 1000000 ++ toBE 2 1 ++ List.replicate 16 0x41#8 ++ toBE 2 7 ++ zeros 8 ++ toBE 2 1 ++ toBE 2 0 ++ toBE 2 50)
/-- A data frame of that configuration. -/
def wData : Bytes := wC37 0xAA01 7 100 0 (zeros 6)
def wRx (b : Bytes) : C37Rx := ⟨0, 0x0A000001, 5, 4713, b⟩
/-- Context 3: UDP, identifier 7, the source of `wRx`, port 5. -/
def wCtx (x : Ctx) (flags : Nat := 3) (tr : Nat := 0) : State :=
  { mode := { cur := .standby }, ing := { ctx := [(3, x)] },
    cfg := wCfg [(0x4100, 1, 96, toBE 1 flags ++ toBE 1 tr ++ toBE 2 7 ++ toBE 4 0x0A000001 ++ toBE 2 0 ++ toBE 2 4713 ++ toBE 1 32)] }
/-- A close of alignment group 2, at 50 a second, with one value. -/
def wClose (kind : Nat := 0x21) : Close :=
  ⟨3, kind, 0, 0, 5#32, ⟨0#16, 20000000⟩, 50, 0#16, 1000, 0#32, 1, 1, 0, 0, 0, [], [], [], [⟨4, 1, 0x3F800000#32, 0#16, 0#16, true⟩], 0⟩
/-- A device in OPERATE with alignment group 2 and its closes, and more of a configuration. -/
def wGrp (ws : List (Nat × Nat × Nat × Bytes)) (cs : List Close) : State :=
  { mode := { cur := .operate }, osr := { sessions := [wX] }, align := { group := [(2, { closes := cs, pubs := 3 })] },
    cfg := wCfg ((0x6100, 1, 64, toBE 1 1 ++ toBE 1 50 ++ toBE 2 100) :: ws) }
theorem wBE4 (n : Nat) (h : n < 4294967296) : ofBE (toBE 4 n) = n := by
  have h1 : ofBE (toBE 4 n) = (((0 * 256 + n / 256 / 256 / 256 % 256) * 256 + n / 256 / 256 % 256) * 256 + n / 256 % 256) * 256 + n % 256 := by
    simp only [ofBE, toBE, List.nil_append, List.cons_append, List.foldl_cons, List.foldl_nil, BitVec.toNat_ofNat, Nat.reducePow]
  rw [h1]
  omega
theorem wField (n : Nat) : field (toBE 4 n) 0 1 = 0 * 256 + n / 256 / 256 / 256 % 256 := by
  simp only [field, slice, ofBE, toBE, List.nil_append, List.cons_append, List.take_succ_cons, List.take_zero, List.drop_zero, List.foldl_cons, List.foldl_nil,
    BitVec.toNat_ofNat, Nat.reducePow]
theorem wNum (c k : Nat) (hc : c < 256) (hk : k < 16777216) :
    c * 16777216 + k < 4294967296 ∧ (c * 16777216 + k) / 256 / 256 / 256 % 256 = c ∧ (c * 16777216 + k) / 16777216 = c ∧ (c * 16777216 + k) % 16777216 = k := by
  omega
/-- The life-cycle request: the state asked for and the last bytes of the serial number. -/
def wLife (c : Nat) : Nat := c * 16777216 + Config.serial.toNat % 16777216
theorem wLife_spec (c : Nat) (hc : c < 256) :
    ofBE (toBE 4 (wLife c)) = wLife c ∧ field (toBE 4 (wLife c)) 0 1 = c ∧ wLife c / 16777216 = c ∧ wLife c % 16777216 = Config.serial.toNat % 16777216 := by
  have h := wNum c (Config.serial.toNat % 16777216) hc (Nat.mod_lt _ (by decide))
  have e : wLife c = c * 16777216 + Config.serial.toNat % 16777216 := rfl
  generalize wLife c = n at e ⊢
  rw [← e] at h
  refine ⟨wBE4 n h.1, ?_, h.2.2⟩
  rw [wField n, h.2.1, Nat.zero_mul, Nat.zero_add]
/-- A point on P-384 and what its key signs: bytes 0 to 1087 of the manifest. -/
def wPt : Bytes := [4#8] ++ toBE 48 0x8b2f46b6f1f8a122e665a8745244527912763b88a0b46aba3025c3a55a09754c30b62235a406c833348c1856b5aaf5ff ++ toBE 48 0x5af01b16aca9f2b761f45f7bcddbbe2ecf04b076b6aa5a242fc97b5c5ccb6b2b5a4058c28ddc765d688de57c71fd9946
def wSg : Sigs := ⟨toBE 48 0x001c9d3979d8469b68d1684228af1865fd1f9f3dc00344cb7284271739189ddbb7fc3999c6e90e48a32a381506c9b1fe ++ toBE 48 0xd8a9668b840a68ff7f4dc6697bf9404beb218ce15ad72cd936155cd691fef8b66525d435222e661ef6c8ffa214f0d112, zeros 96⟩
def wBody : Bytes :=
  toBE 4 0x435A4D46 ++ toBE 2 1 ++ toBE 1 2 ++ zeros 1 ++ toBE 2 5 ++ toBE 2 1 ++ toBE 4 9 ++ zeros 4 ++ toBE 1 7 ++ zeros 43 ++
    (toBE 1 1 ++ zeros 3 ++ toBE 4 100 ++ zeros 56) ++ (toBE 1 2 ++ zeros 3 ++ toBE 4 200 ++ zeros 56) ++ zeros 896
/-- A manifest of two parts, signed. -/
def wMan : Bytes := wBody ++ wSg.sig ++ wSg.coSig
theorem wMan_rom : mRom wMan = true := by
  have h : field wMan 16 4 = 0 := by decide +kernel
  simp [mRom, h]
theorem wMan_form : mForm wMan = true := by decide +kernel
theorem wMan_holds : ecdsaVerify wPt (wMan.take 1088) (slice wMan 1088 96) = true := by decide +kernel
/-- A device whose slot 0 holds the point, and which asks for no co-signature, finds no fault in the manifest. -/
theorem wMan_ok (s : State) (hk : s.keyFit 0 5 = true) (hb : s.portBusy 2 = false) (hp : (s.kslot 0).point = wPt) (hc : s.cf.u 0xB010 2 0 2 = 0xFFFF)
    (hl : (keyServed 2 0 5 s).laterFault wMan = 0) : (manifestFault wMan s).1 = 0 := by
  have hk' : s.keyFit 0 5 false = true := hk
  simp [manifestFault, sigCheck, keyUse, wMan_form, wMan_holds, hk', hb, hp, hc, hl]
/-- A record of the update journal, sequence 0. -/
def wRec (kind bank : Nat) : Bytes := let b := toBE 4 0 ++ toBE 1 kind ++ toBE 1 bank ++ zeros 54; b ++ toBE 4 (crc32 b)
theorem toBE_length (n v : Nat) : (toBE n v).length = n := by
  induction n generalizing v with
  | zero => rfl
  | succ k ih => simp [toBE, ih]
theorem ofBE_snoc (l : Bytes) (b : BitVec 8) : ofBE (l ++ [b]) = ofBE l * 256 + b.toNat := by simp [ofBE, List.foldl_append]
theorem toBE_mod (n v : Nat) : toBE n (v % 256 ^ n) = toBE n v := by
  induction n generalizing v with
  | zero => rfl
  | succ k ih =>
    simp only [toBE]
    have h1 : v % 256 ^ (k + 1) / 256 = v / 256 % 256 ^ k := by
      rw [pow_succ, mul_comm, Nat.mod_mul_right_div_self]
    have h2 : BitVec.ofNat 8 (v % 256 ^ (k + 1)) = BitVec.ofNat 8 v := by
      apply BitVec.eq_of_toNat_eq
      simp only [BitVec.toNat_ofNat]
      exact Nat.mod_mod_of_dvd v ⟨256 ^ k, by rw [pow_succ, mul_comm]⟩
    rw [h1, ih, h2]
theorem ofBE_toBE (n v : Nat) : ofBE (toBE n v) = v % 256 ^ n := by
  induction n generalizing v with
  | zero => simp [toBE, ofBE, Nat.mod_one]
  | succ k ih =>
    rw [toBE, ofBE_snoc, ih, pow_succ, mul_comm (256 ^ k) 256, Nat.mod_mul]
    simp only [BitVec.toNat_ofNat]; omega
theorem ctrStream_length (ks n c b) (h : b.length ≤ 16 * n) : (ctrStream ks n c b).length = b.length := by
  induction n generalizing c b with
  | zero => 
    have : b = [] := by cases b with | nil => rfl | cons a l => simp at h
    subst this; simp [ctrStream]
  | succ k ih =>
    simp only [ctrStream, List.length_append]
    rw [ih]
    · simp [toBE_length]; omega
    · simp; omega
theorem wSig (k : BitVec 256) (m : Msg) (type : Nat) (p : Bytes) :
    clientTag k m type p = toBE 16 (BitVec.ofNat 128 (ofBE (clientTag k m type p))).toNat := by
  have h : ∃ y, clientTag k m type p = toBE 16 y := by
    unfold clientTag gcmSeal
    have e : p.length = (gcmStream k (toBE 4 m.sid ++ toBE 4 0 ++ toBE 4 m.seq) p).length := by
      unfold gcmStream; rw [ctrStream_length]; omega
    simp only []
    rw [List.drop_append_of_le_length (by omega), List.drop_of_length_le (by omega), List.nil_append]
    exact ⟨_, rfl⟩
  obtain ⟨y, e⟩ := h
  rw [e, ofBE_toBE, BitVec.toNat_ofNat]
  rw [show (2:Nat)^128 = 256^16 by norm_num, Nat.mod_mod, toBE_mod]
/-- A message that verifies under a session's key. -/
def wSign (x : Session) (type : Nat) (p : Bytes) : Msg := { wMsg with mac := BitVec.ofNat 128 (ofBE (clientTag x.key.key wMsg type p)) }
theorem wSigned (x : Session) (type : Nat) (p : Bytes) : x.authOf (wSign x type p) type p = .current := by
  unfold Session.authOf
  have h : clientTag x.key.key (wSign x type p) type p = toBE 16 (wSign x type p).mac.toNat := wSig x.key.key wMsg type p
  rw [h]; simp

/-! ## Well-formedness -/

def wIll1 : List Instr :=
  [.eventRaise 0 256 0 0,
   .eventRaise 0 0 65536 0,
   .railGood 0 .vddCore 65536,
   .railFail 0 .vddCore 65536,
   .portReset 0 wMsg 6 [],
   .clusterReset 0 wMsg 4 [],
   .unitResetComplete 0 25,
   .sourceQualified 0 9 0,
   .sourceDisqualified 0 9,
   .ptpReceiptTimeout 0 6,
   .ptpTransmit 0 6 0 0 0,
   .ptpTransmit 0 0 16 0 0,
   .ptpTransmit 0 0 0 256 0,
   .ptpTransmit 0 0 0 0 65536,
   .frameReceive 0 6 ⟨[], true, 0, true⟩,
   .ipReassemblyTimeout 0 6 0 0,
   .ipReassemblyTimeout 0 0 (2 ^ 32) 0,
   .ipReassemblyTimeout 0 0 0 65536,
   .linkUp 0 6 0 true,
   .linkUp 0 0 5 true,
   .linkDown 0 6,
   .frameTransmit 0 6,
   .tcpSendOffload 0 6 ⟨[], [], 0⟩,
   .udpSendOffload 0 6 ⟨[], [], 0⟩,
   .pauseReceive 0 6 0 0 0]
theorem test_ill_formed_1 : wIll1.all (fun i => !i.wf) = true := by decide +kernel

def wIll2 : List Instr :=
  [.pauseReceive 0 0 (2 ^ 48) 0 0,
   .pauseReceive 0 0 0 65536 0,
   .pauseReceive 0 0 0 0 65536,
   .pauseExpire 0 6,
   .pauseWatchdogTrip 0 6,
   .pauseHoldoffEnd 0 6,
   .ingestTcpConnect 0 4096,
   .ingestTcpLost 0 4096,
   .ingestRetry 0 4096,
   .streamLost 0 true 4096,
   .estimatorReport 0 256,
   .setOpen 0 16,
   .setDeadline 0 16 0,
   .setProvisionalDeadline 0 16 0,
   .oscSetIntake 0 16,
   .oscUpdate 0 16,
   .foEvaluation 0 16,
   .alarmProvisionalDecision 0 512,
   .alarmFinalReport 0 512,
   .alarmPulseEnd 0 512,
   .gooseFrameBuild 0 64,
   .gooseRetransmit 0 64,
   .gooseValueEvaluate 0 64,
   .outCmdTurnOff 0 256 0,
   .outCmdTurnOff 0 0 (2 ^ 32)]
theorem test_ill_formed_2 : wIll2.all (fun i => !i.wf) = true := by decide +kernel

def wIll3 : List Instr :=
  [.outCmdTurnOn 0 256 0,
   .outCmdTurnOn 0 0 (2 ^ 32),
   .outCmdSendHeader 0 256 0,
   .outCmdSendHeader 0 0 (2 ^ 32),
   .outCmdSendCfg1 0 256 0,
   .outCmdSendCfg1 0 0 (2 ^ 32),
   .outCmdSendCfg2 0 256 0,
   .outCmdSendCfg2 0 0 (2 ^ 32),
   .outCmdSendCfg3 0 256 0,
   .outCmdSendCfg3 0 0 (2 ^ 32),
   .outCmdUnknown 0 256 0 0,
   .outCmdUnknown 0 0 (2 ^ 32) 0,
   .outCmdUnknown 0 0 0 65536,
   .outClientConnect 0 256 0 0,
   .outClientConnect 0 0 (2 ^ 32) 0,
   .outClientConnect 0 0 0 65536,
   .outClientDisconnect 0 256,
   .outDataFrame 0 256,
   .outFrameHandoff 0 256,
   .dinEdge 0 16 true 0,
   .dinEdge 0 0 true 8,
   .dinEdgeAccept 0 16,
   .triggerTimeout 0 64,
   .recordOpen 0 16,
   .recordClose 0 16]
theorem test_ill_formed_3 : wIll3.all (fun i => !i.wf) = true := by decide +kernel

def wIll4 : List Instr :=
  [.readerRead 0 wMsg 8 0 0 0,
   .readerRead 0 wMsg 0 256 0 0,
   .readerRead 0 wMsg 0 0 (2 ^ 32) 0,
   .readerRead 0 wMsg 0 0 0 65536,
   .readerAdvance 0 wMsg 8 [],
   .readerRewind 0 wMsg 8 [],
   .readerSetSequence 0 wMsg 8 [],
   .readerSetMark 0 wMsg 8 [],
   .readerFlagsRead 0 wMsg 8,
   .exportEnable 0 wMsg 8 [],
   .cycleHeaderReceive 0 2 ⟨0, 0, 0, 0, none, true, 0, 0, 0, 0, [], 0, true⟩,
   .workerBurst 0 2,
   .burstReceive 0 2 0 true,
   .burstReceive 0 0 16 true,
   .rangingResponse 0 16 0 0 none,
   .rangingResponse 0 0 (2 ^ 64) 0 none,
   .rangingResponse 0 0 0 2 none,
   .driveFrame 0 ⟨0, 0, 0, true⟩ 16 0 0,
   .laneLoss 0 2,
   .workerLost 0 16,
   .triggerLineFall 0 16,
   .offsetClear 0 16,
   .queuePop 0 512 none,
   .queueRefill 0 512 none,
   .rowRepair 0 4 0]
theorem test_ill_formed_4 : wIll4.all (fun i => !i.wf) = true := by decide +kernel

def wIll5 : List Instr :=
  [.rowRepair 0 0 (2 ^ 17),
   .taskPeriod 0 4096,
   .taskYield 0 32,
   .sliceExpire 0 32,
   .taskAgeRise 0 4096,
   .waitBoundExceeded 0 4096,
   .coreLoadUpdate 0 32,
   .read 0 wMsg 65536 0 0 0,
   .read 0 wMsg 0 256 0 0,
   .read 0 wMsg 0 0 (2 ^ 32) 0,
   .read 0 wMsg 0 0 0 65536,
   .describe 0 wMsg 65536 0,
   .describe 0 wMsg 0 256,
   .write 0 wMsg 65536 0 [],
   .write 0 wMsg 0 256 [],
   .stageWrite 0 wMsg 65536 0 0 [],
   .stageWrite 0 wMsg 0 256 0 [],
   .stageWrite 0 wMsg 0 0 (2 ^ 32) [],
   .reportRead 0 wMsg 0 (2 ^ 32) 0,
   .reportRead 0 wMsg 0 0 65536,
   .subscribe 0 wMsg 256,
   .notifyAck 0 wMsg (2 ^ 32),
   .notifySend 0 (2 ^ 32),
   .notifyRetransmit 0 (2 ^ 32),
   .sessionIdleTimeout 0 (2 ^ 32)]
theorem test_ill_formed_5 : wIll5.all (fun i => !i.wf) = true := by decide +kernel

def wIll6 : List Instr :=
  [.rekeyDue 0 (2 ^ 32),
   .rekeyDeadline 0 (2 ^ 32),
   .oldKeyExpire 0 (2 ^ 32),
   .authLockoutEnd 0 (2 ^ 32),
   .snapshotExpire 0 (2 ^ 32),
   .stagingTimeout 0 (2 ^ 32),
   .stickyFlagClear 0 wMsg 65536 0 [],
   .stickyFlagClear 0 wMsg 0 256 [],
   .remaskStep 0 612,
   .partReadback 0 16 [],
   .handoverStart 0 20 0,
   .handoverStart 0 0 64,
   .handoverComplete 0 20 true,
   .sliceStart 0 20 0,
   .sliceStart 0 0 64,
   .coppiceSliceEnd 0 20 true none,
   .sliceYield 0 20,
   .sliceResume 0 20,
   .recorderScrub 0 (2 ^ 48) none,
   .tamperDeassert 0 5,
   .modeRequestStandby 0 ⟨2 ^ 32, 1, 9, 0, wVia⟩,
   .modeRequestStandby 0 ⟨5, 2 ^ 32, 9, 0, wVia⟩,
   .modeRequestStandby 0 ⟨5, 1, 65536, 0, wVia⟩,
   .modeRequestStandby 0 ⟨5, 1, 9, 0, .port 6 1 2⟩,
   .modeRequestStandby 0 ⟨5, 1, 9, 0, .port 5 (2 ^ 32) 2⟩]
theorem test_ill_formed_6 : wIll6.all (fun i => !i.wf) = true := by decide +kernel

def wIll7 : List Instr :=
  [.modeRequestStandby 0 ⟨5, 1, 9, 0, .port 5 1 65536⟩,
   .setTime 0 wMsg (List.replicate 1421 0#8),
   .open_ 0 ⟨65536, 0, 0, (List.replicate 16 0#8), 0, wVia⟩,
   .open_ 0 ⟨0, 256, 0, (List.replicate 16 0#8), 0, wVia⟩,
   .open_ 0 ⟨0, 0, 65536, (List.replicate 16 0#8), 0, wVia⟩,
   .open_ 0 ⟨0, 0, 0, (List.replicate 15 0#8), 0, wVia⟩,
   .open_ 0 ⟨0, 0, 0, (List.replicate 16 0#8), 0, (.port 6 1 2)⟩,
   .keyRequest 0 ⟨.chunkHash, 0, 65536, [], [], none⟩,
   .keyRequest 0 ⟨.chunkHash, 0, 0, [0#8], [], none⟩,
   .keyRequest 0 ⟨.gooseGcm, 0, 0, [], [], none⟩,
   .keyRequest 0 ⟨.chunkHash, 0, 0, [], [], (some [])⟩,
   .keyRequest 0 ⟨.manifestVerify, 0, 0, [], [], none⟩,
   .malformedDatagram 0 ⟨(.port 6 1 2), []⟩,
   .malformedDatagram 0 ⟨wVia, (List.replicate 65508 0#8)⟩,
   .manifestWrite 0 wMsg [] ⟨[], (zeros 96)⟩,
   .manifestWrite 0 wMsg [] ⟨(zeros 96), []⟩,
   .tamperAssert 0 (.rail .vddCore 65536 0),
   .startUp 0 ⟨true, true, true, 0, true, true, true, true, true, true, true, 32, []⟩,
   .startUp 0 ⟨true, true, true, 0, true, true, true, true, true, true, true, 0, [(512, 0)]⟩,
   .startUp 0 ⟨true, true, true, 0, true, true, true, true, true, true, true, 0, [(0, 2)]⟩,
   .ptpFrameReceive 0 ⟨6, 0, 0, 0, 0, ⟨0, 0, 0, 0, 0, 0, 0⟩, none, 0, none, true, 0, 0⟩,
   .ptpFrameReceive 0 ⟨0, 16, 0, 0, 0, ⟨0, 0, 0, 0, 0, 0, 0⟩, none, 0, none, true, 0, 0⟩,
   .ptpFrameReceive 0 ⟨0, 0, 256, 0, 0, ⟨0, 0, 0, 0, 0, 0, 0⟩, none, 0, none, true, 0, 0⟩,
   .ptpFrameReceive 0 ⟨0, 0, 0, 65536, 0, ⟨0, 0, 0, 0, 0, 0, 0⟩, none, 0, none, true, 0, 0⟩,
   .ptpFrameReceive 0 ⟨0, 0, 0, 0, (2 ^ 80), ⟨0, 0, 0, 0, 0, 0, 0⟩, none, 0, none, true, 0, 0⟩]
theorem test_ill_formed_7 : wIll7.all (fun i => !i.wf) = true := by decide +kernel

def wIll8 : List Instr :=
  [.ptpFrameReceive 0 ⟨0, 0, 0, 0, 0, ⟨0, 0, 0, 0, 0, 0, 0⟩, none, 3, none, true, 0, 0⟩,
   .ptpFrameReceive 0 ⟨0, 0, 0, 0, 0, ⟨256, 0, 0, 0, 0, 0, 0⟩, none, 0, none, true, 0, 0⟩,
   .ptpFrameReceive 0 ⟨0, 0, 0, 0, 0, ⟨0, 256, 0, 0, 0, 0, 0⟩, none, 0, none, true, 0, 0⟩,
   .ptpFrameReceive 0 ⟨0, 0, 0, 0, 0, ⟨0, 0, 256, 0, 0, 0, 0⟩, none, 0, none, true, 0, 0⟩,
   .ptpFrameReceive 0 ⟨0, 0, 0, 0, 0, ⟨0, 0, 0, 65536, 0, 0, 0⟩, none, 0, none, true, 0, 0⟩,
   .ptpFrameReceive 0 ⟨0, 0, 0, 0, 0, ⟨0, 0, 0, 0, 256, 0, 0⟩, none, 0, none, true, 0, 0⟩,
   .ptpFrameReceive 0 ⟨0, 0, 0, 0, 0, ⟨0, 0, 0, 0, 0, (2 ^ 64), 0⟩, none, 0, none, true, 0, 0⟩,
   .ptpFrameReceive 0 ⟨0, 0, 0, 0, 0, ⟨0, 0, 0, 0, 0, 0, 65536⟩, none, 0, none, true, 0, 0⟩,
   .irigbFrame 0 ⟨true, 0, 0, 0, none⟩,
   .irigbFrame 0 ⟨true, 0, 367, 0, none⟩,
   .irigbFrame 0 ⟨true, 0, 1, 86401, none⟩,
   .irigbFrame 0 ⟨true, 0, 1, 0, (some ⟨100, 0, 0, 0⟩)⟩,
   .irigbFrame 0 ⟨true, 0, 1, 0, (some ⟨0, 0, 3, 0⟩)⟩,
   .irigbFrame 0 ⟨true, 0, 1, 0, (some ⟨0, 0, 0, 16⟩)⟩,
   .tcpSendOffload 0 0 ⟨(List.replicate 257 0#8), [], 0⟩,
   .tcpSendOffload 0 0 ⟨[], [], 65536⟩,
   .c37DataFrame 0 ⟨2, 0, 0, 0, []⟩,
   .c37DataFrame 0 ⟨0, (2 ^ 32), 0, 0, []⟩,
   .c37DataFrame 0 ⟨0, 0, 6, 0, []⟩,
   .c37DataFrame 0 ⟨0, 0, 0, 65536, []⟩,
   .c37DataFrame 0 ⟨1, 0, 0, 4096, []⟩,
   .svFrameReceive 0 ⟨true, 65536, 0, true, []⟩,
   .svFrameReceive 0 ⟨true, 0, (2 ^ 48), true, []⟩,
   .svFrameReceive 0 ⟨true, 0, 0, true, [⟨[], 65536, 0, 0, 0, []⟩]⟩,
   .svFrameReceive 0 ⟨true, 0, 0, true, [⟨[], 0, 2 ^ 32, 0, 0, []⟩]⟩]
theorem test_ill_formed_8 : wIll8.all (fun i => !i.wf) = true := by decide +kernel

def wIll9 : List Instr :=
  [.svFrameReceive 0 ⟨true, 0, 0, true, [⟨[], 0, 0, 256, 0, []⟩]⟩,
   .svFrameReceive 0 ⟨true, 0, 0, true, [⟨[], 0, 0, 0, 65536, []⟩]⟩,
   .cycleHeaderReceive 0 0 ⟨10000, 0, 0, 0, none, true, 0, 0, 0, 0, [], 0, true⟩,
   .cycleHeaderReceive 0 0 ⟨0, 0, 0, 0, (some 16), true, 0, 0, 0, 0, [], 0, true⟩,
   .cycleHeaderReceive 0 0 ⟨0, 0, 0, 0, none, true, (2 ^ 64), 0, 0, 0, [], 0, true⟩,
   .cycleHeaderReceive 0 0 ⟨0, 0, 0, 0, none, true, 0, 16, 0, 0, [], 0, true⟩,
   .cycleHeaderReceive 0 0 ⟨0, 0, 0, 0, none, true, 0, 0, (2 ^ 32), 0, [], 0, true⟩,
   .cycleHeaderReceive 0 0 ⟨0, 0, 0, 0, none, true, 0, 0, 0, (2 ^ 32), [], 0, true⟩,
   .cycleHeaderReceive 0 0 ⟨0, 0, 0, 0, none, true, 0, 0, 0, 0, (List.replicate 65 (0, true, 0)), 0, true⟩,
   .cycleHeaderReceive 0 0 ⟨0, 0, 0, 0, none, true, 0, 0, 0, 0, [(16, true, 0)], 0, true⟩,
   .rekey 0 ⟨wMsg, (List.replicate 15 0#8)⟩,
   .rekey 0 ⟨⟨2 ^ 32, 1, 9, 0, wVia⟩, (List.replicate 16 0#8)⟩,
   .driveFrame 0 ⟨16, 0, 0, true⟩ 0 0 0,
   .driveFrame 0 ⟨0, 2, 0, true⟩ 0 0 0,
   .driveFrame 0 ⟨0, 0, (2 ^ 32), true⟩ 0 0 0,
   .summaryFrame 0 ⟨0, 0, 0, true⟩ ⟨5, 0, []⟩,
   .summaryFrame 0 ⟨0, 0, 0, true⟩ ⟨0, 65536, []⟩,
   .summaryFrame 0 ⟨0, 0, 0, true⟩ ⟨0, 0, (List.replicate 6473 0#8)⟩,
   .setFragment 0 ⟨0, 0, 0, true⟩ ⟨3, 3, 0, []⟩,
   .setFragment 0 ⟨0, 0, 0, true⟩ ⟨0, 256, 0, []⟩,
   .setFragment 0 ⟨0, 0, 0, true⟩ ⟨0, 1, 256, []⟩,
   .setFragment 0 ⟨0, 0, 0, true⟩ ⟨0, 1, 0, (List.replicate 6473 0#8)⟩,
   .queuePop 0 0 (some ⟨13, 0, true⟩),
   .scrubPassEnd 0 ⟨0, [⟨⟨13, 0, true⟩, 0⟩], []⟩,
   .scrubPassEnd 0 ⟨0, [], [⟨⟨13, 0, true⟩, 0⟩]⟩]
theorem test_ill_formed_9 : wIll9.all (fun i => !i.wf) = true := by decide +kernel

def wIll10 : List Instr :=
  [.queuePop 0 0 (some ⟨0, 1472 * 2 ^ 20, true⟩),
   .scrubPassEnd 0 ⟨0, [⟨⟨0, 1472 * 2 ^ 20, true⟩, 0⟩], []⟩,
   .scrubPassEnd 0 ⟨0, [], [⟨⟨0, 1472 * 2 ^ 20, true⟩, 0⟩]⟩,
   .scrubPassEnd 0 ⟨0, [⟨⟨0, 0, true⟩, 2 ^ 17⟩], []⟩,
   .slotFrame 0 [⟨5, 0, none, 0⟩] ⟨[0, 0, 0, 0], [], []⟩,
   .slotFrame 0 [⟨2, 0, none, 0⟩] ⟨[0, 0, 0, 0], [], []⟩,
   .slotFrame 0 [⟨3, 2 ^ 28, none, 0⟩] ⟨[0, 0, 0, 0], [], []⟩,
   .slotFrame 0 [⟨3, 0, some [], 0⟩] ⟨[0, 0, 0, 0], [], []⟩,
   .slotFrame 0 [⟨3, 0, none, 3⟩] ⟨[0, 0, 0, 0], [], []⟩,
   .rangingResponse 0 0 0 0 (some (2 ^ 32)),
   .slotFrame 0 [] ⟨[0], [], []⟩,
   .slotFrame 0 [] ⟨[0, 0, 0, 0], [(24, 1)], []⟩,
   .slotFrame 0 [] ⟨[0, 0, 0, 0], [], [(6, 0)]⟩,
   .slotFrame 0 [] ⟨[0, 0, 0, 0], [], [(0, 4)]⟩,
   .paceWindow 0 [1, 2, 3],
   .paceWindow 0 (List.replicate 8 (2 ^ 32)),
   .monitorSample 0 0 [1],
   .monitorSample 0 0 (List.replicate 7 65536)]
theorem test_ill_formed_10 : wIll10.all (fun i => !i.wf) = true := by decide +kernel

theorem test_well_formed :
    [.open_ 0 ⟨0, 0, 0, (List.replicate 16 0#8), 0, wVia⟩,
      .keyRequest 0 ⟨.chunkHash, 0, 0, [], [], none⟩,
      .malformedDatagram 0 ⟨wVia, []⟩,
      .manifestWrite 0 wMsg [] ⟨(zeros 96), (zeros 96)⟩,
      .startUp 0 ⟨true, true, true, 0, true, true, true, true, true, true, true, 0, []⟩,
      .ptpFrameReceive 0 ⟨0, 0, 0, 0, 0, ⟨0, 0, 0, 0, 0, 0, 0⟩, none, 0, none, true, 0, 0⟩,
      .irigbFrame 0 ⟨true, 0, 1, 0, none⟩,
      .tcpSendOffload 0 0 ⟨[], [], 0⟩,
      .c37DataFrame 0 ⟨0, 0, 0, 0, []⟩,
      .svFrameReceive 0 ⟨true, 0, 0, true, []⟩,
      .cycleHeaderReceive 0 0 ⟨0, 0, 0, 0, none, true, 0, 0, 0, 0, [], 0, true⟩,
      .rekey 0 ⟨wMsg, (List.replicate 16 0#8)⟩,
      .driveFrame 0 ⟨0, 0, 0, true⟩ 0 0 0,
      .summaryFrame 0 ⟨0, 0, 0, true⟩ ⟨0, 0, []⟩,
      .setFragment 0 ⟨0, 0, 0, true⟩ ⟨0, 1, 0, []⟩,
      .scrubPassEnd 0 ⟨0, [], []⟩,
      .slotFrame 0 [] ⟨[0, 0, 0, 0], [], []⟩, .setTime 0 wMsg (zeros 10), .railGood 0 .vddCore 720, .queuePop 0 511 (some ⟨12, 0, false⟩), .monitorSample 0 45000 (List.replicate 7 1800)].all Instr.wf = true := by decide +kernel

/-! ## The front of the queue -/

theorem test_table_gives_no_word : decodeTableWord 16 0xFFFF = none ∧ State.reset.withFetchWord 16 0xFFFF = State.reset := by exact ⟨rfl, rfl⟩

theorem test_first_command_after_reset_acts :
    (match step { State.reset with pending := [.eventRaise 5 0x30 7 9#32] } with
      | .next t => decide (t.pending = []) && t.ev.latch.any (fun e => e.id = 0x30 && e.inst = 7 && e.param = 9#32)
      | _ => false) = true := by decide +kernel

/-! ## Values the manual writes out -/

/-- Chapter 4: 20 000 bytes at MSS 1460 leave as 14 segments, the last of 1020 bytes at offset 18 980. -/
theorem test_tcp_send_is_cut :
    let cut := tcpCut ⟨zeros 54, zeros 20000, 1460⟩ 1460 0 0 20001
    cut.map (·.payload) = List.replicate 13 1460 ++ [1020] ∧ (cut.map (·.offset)).getLast? = some 18980 := by decide +kernel

/-- Chapter 3: e(9 s) = 100 + 100 × 9 = 1000 ns reaches the limit and sets the unlocked bit; before it the quality word is 0x0042. -/
theorem test_holdover_reaches_its_limit :
    let s : State := { mode := { cur := .operate }, cfg := wCfg [(0x3040, 3, 0, toBE 4 100), (0x3040, 4, 0, toBE 4 0), (0x3040, 5, 0, toBE 4 1000)],
                       time := { state := .holdover, holdE0 := 100, err := 100, unlocked := false, unlockedAt := none } }
    (match exec (.holdoverUpdate 9000000000) s with
      | .next t => decide (t.time.err = 1000 ∧ t.time.unlocked = true)
      | _ => false) = true := by decide +kernel

/-- Chapter 4: at 1000 Mb/s a PAUSE of 0xFFFF holds the port for 33.55 ms (65 535 × 512 bit times). -/
theorem test_pause_time :
    (match exec (.pauseReceive 1 5 0x0180C2000001 1 0xFFFF) { mode := { cur := .standby }, port := [(5, { up := true, rate := 2 })], cfg := wCfg [(0x2015, 5, 0, [1#8])] } with
      | .next t => (t.prt 5).pauseEnd
      | _ => none) = some 33553921 := by decide +kernel

/-- Chapter 12: Tarnwick's round trips of 137 284 and 139 244 ns give 68 642 and 69 622 ns down, and EqD 112 716 and 110 756 ns; here the response on lane 1. -/
theorem test_ranging_at_tarnwick :
    (match exec (.rangingResponse 1 0 9 1 (some 1))
        { mode := { cur := .operate }, time := { tai := 145243 }, hr := { asked := some (0, 0), worker := [(0, { rts := [some 137284, none] })] },
          cfg := wCfg [(0xE000, 1, 0, [2#8]), (0xE100, 1, 0, toBE 1 1 ++ zeros 7 ++ toBE 8 9)] } with
      | .next t => ((t.wkr 0).down, (t.wkr 0).eqd)
      | _ => ([], [])) = ([68642, 69622], [112716, 110756]) := by decide +kernel

/-- Chapter 14: twelve other tasks on core 20, b = 2, c = 15, q = 10 ms, slices of 1 ms: W_t = 143 039 µs. -/
theorem test_wait_bound :
    let d : TaskDesc := ⟨true, 1, 2, false, false, true, none, 0, 2, 15, 16, 0, 0, 10000, 1000, []⟩
    let s : State := { sched := { desc := (List.range 13).map (fun k => (1536 + k, d)) } }
    s.bound 1536 = (143039, 12) := by decide +kernel

/-- Chapter 1: T_c is the first multiple of 100 ms at least 20 ms after acceptance (chapter 15: acceptance at .263 417 gives .300). -/
theorem test_effective_instant : effInstant 1767237000263417000 = 1767237000300000000 := by decide +kernel

/-- Chapter 7: with three of four members of weight 1 present, Hallowden missing, the provisional close has confidence 750, one
missing, cause 3, flags 0x01 and a decision time of 30 000 µs. -/
theorem test_provisional_close :
    let ms : List Member := [⟨0, true, true, true, true, 1, 31⟩, ⟨1, true, true, true, true, 1, 27⟩, ⟨2, true, true, true, false, 1, 39⟩, ⟨3, true, true, true, false, 1, 53⟩]
    let o : OpenSet := { at_ := ⟨3#16, 20000000⟩, base := 20000000, seq := 0x0007A121#32, step := false, rate := 50, members := ms, came := [(0, false), (1, false), (2, false)] }
    let v : Nat → Nat × List Contribution := fun k => (k, [⟨⟨3#16, 20000000⟩, [⟨k, k, 0#32, 0#16, 1#16, true⟩], 1#16⟩])
    let s : State := { mode := { cur := .operate }, time := { elapsed := 20000000 }, align := { group := [(0, { open_ := [o] })], hist := [v 0, v 1, v 2] },
                       cfg := wCfg [(0x6100, 1, 0, toBE 1 0x17 ++ toBE 1 50 ++ toBE 2 200 ++ toBE 2 30), (0x6100, 1, 12, toBE 2 500)] }
    (match exec (.setProvisionalDeadline 30000000 0 0x0007A121#32) s with
      | .next t => (t.grpG 0).closes.map (fun c => [c.kind, c.cause, c.flags, c.conf, c.present, c.missing, c.decUs])
      | _ => []) = [[0x20, 3, 1, 750, 3, 1, 30000]] := by decide +kernel

/-- Chapter 15: of four staged values one is clamped to 1000, one rejected, one accepted, and one clamped to the value just accepted. -/
theorem test_one_commit_three_outcomes :
    let st := fun idx sub v => (cfgAddr idx sub 0, toBE 2 v)
    let cells := ([st 0x2012 6 2000, (cfgAddr 0x7010 8 0, [3#8]), st 0x7010 9 150, st 0x7010 0x0A 100].map (fun p => ((List.range p.2.length).zip p.2).map (fun q => ((p.1 + q.1, q.2) : Host.Cell)))).flatten
    let s : State := { mode := { cur := .operate }, osr := { queue := [⟨0x113, 2, 9, cells, .uart⟩] } }
    (match exec (.topiaryCheck 1) s with
      | .next t => (t.osr.checked.map (fun c => c.entries.map (fun e => [e.idx, e.sub, e.outcome, e.reason, e.staged, e.live]))).getD []
      | _ => []) = [[0x2012, 6, 1, 3, 0x07D0, 0x03E8], [0x7010, 8, 2, 3, 3, 0], [0x7010, 9, 0, 0, 0x96, 0x96], [0x7010, 0x0A, 1, 3, 0x64, 0x96]] := by decide +kernel

/-- Chapter 16: a revocation of slot 32 takes its descendants 40 and 41 with it, and not slot 33. -/
theorem test_revocation_takes_descendants :
    let k : Nat → Nat → KeySlot := fun kind parent => { state := 1, kind := kind, parent := parent }
    let s : State := { mode := { cur := .operate }, key := { slots := [(32, k 3 0xFFFE), (33, k 2 0xFFFE), (40, k 2 32), (41, k 2 32)], cmd := some ⟨6, 32, none, 0, false⟩, result := { seq := 0x5B } } }
    (match exec (.keyCommandComplete 1 true) s with
      | .next t => (t.key.slots.map (fun p => (p.1, p.2.state, p.2.revSeq)), t.key.result.revoked, t.ev.latch.map (·.param))
      | _ => ([], 0, [])) = ([(32, 2, 0x5B), (33, 1, 0), (40, 2, 0x5B), (41, 2, 0x5B)], 3, [0x00020020#32]) := by decide +kernel

/-- Chapter 18: the second mismatch of slice 37 of lane 7 of unit 5 raises EV_COPPICE_FAIL with parameter 0x00250507. -/
theorem test_coppice_fail_parameter :
    let s : State := { mode := { cur := .operate }, cop := { tests := [{ unit := 5, lane := 7, slice := 36, running := some 0, again := true }] } }
    (match exec (.coppiceSliceEnd 10000000 5 false none) s with
      | .next t => (t.ev.latch.filter (fun e => e.id = 0xF0)).map (fun e => (e.inst, e.param))
      | _ => []) = [(5, 0x00250507#32)] := by decide +kernel

/-- Chapter 21: 20 ms after a hand-over an event is held back; 130 ms after, it passes with the two held ones in its repeat count. -/
theorem test_rate_limit_counts_what_it_holds :
    let c : CfgU := wCfg [(0xF400, 1, 8 * 0x40, toBE 1 1 ++ toBE 1 6 ++ toBE 2 100)]
    let e : Ev := ⟨0x40, 4, ⟨3#16, 130000000⟩, 0#32, 0, false, 130000000⟩
    let s : State := { cfg := c, time := { elapsed := 130000000 }, ev := { latch := [e], lastOut := [(0x40 * 65536 + 4, 0)], held := [(0x40 * 65536 + 4, 2)] } }
    (match exec (.eventHandover 0) s, exec (.eventHandover 0) { s with time := { s.time with elapsed := 20000000 } } with
      | .next t, .next u => (t.rec_.circ.map (·.rep), u.rec_.circ.length, Table.getD u.ev.held (0x40 * 65536 + 4) 0)
      | _, _ => ([], 0, 0)) = ([2], 0, 3) := by decide +kernel

/-- Chapter 19: the next miss is absorbed by the newest record while it is the newest. -/
theorem test_newest_record_absorbs :
    let r : RecRow := ⟨0x31A40#32, 0x50, 0, 0, ⟨3#16, 1000⟩, 0x00010003#32, 47, 940⟩
    let e : Ev := ⟨0x50, 0, ⟨3#16, 960001000⟩, 0x00010003#32, 0, false, 960001000⟩
    let s : State := { cfg := wCfg [(0xD000, 7, 0, [1#8]), (0xF400, 1, 8 * 0x50, toBE 1 1 ++ toBE 1 4 ++ toBE 2 0)], time := { elapsed := 960001000 },
                       ev := { latch := [e] }, rec_ := { circ := [r], next := 0x31A41#32 } }
    (match exec (.eventHandover 0) s with
      | .next t => t.rec_.circ.map (fun x => (x.seq, x.rep))
      | _ => []) = [(0x31A40#32, 48)] := by decide +kernel


/-- The conditions of both clauses of a counter that saturates are met: the flag clear, and the flag set. -/
theorem witness_CountersSaturate_1 : ∃ (idx sub n key b ev inst : Nat) (s : State), stickyOf idx sub = some (key, b, ev, inst) ∧ n ≠ 0 ∧ ctrMax < s.ctr idx sub + n ∧
    bit (Table.getD s.sticky key 0) b = false ∧ eventAbsent s.variant ev inst = false :=
  ⟨0x1080, 2, 1, 0x10800A, 1, 0x0C, 0, { stats := [(0x108002, ctrMax)] }, by decide +kernel⟩
theorem witness_CountersSaturate_1_set : ∃ (idx sub key b ev inst : Nat) (s : State), stickyOf idx sub = some (key, b, ev, inst) ∧ bit (Table.getD s.sticky key 0) b = true :=
  ⟨0x1080, 2, 0x10800A, 1, 0x0C, 0, { sticky := [(0x10800A, 2)] }, by decide +kernel⟩

/-- FIPS 180-4: the SHA-256 of "abc"; RFC 4231 case 1: HMAC under 20 bytes of 0x0B; FIPS 197 C.3: a block of AES-256 and its inverse. -/
theorem test_hash_and_cipher_answers :
    ofBE (sha256 (ascii "abc")) = 0xBA7816BF8F01CFEA414140DE5DAE2223B00361A396177A9CB410FF61F20015AD ∧
    ofBE (hmac (BitVec.ofNat 256 (0x0B0B0B0B0B0B0B0B0B0B0B0B0B0B0B0B0B0B0B0B * 2 ^ 96)) (ascii "Hi There")) = 0xB0344C61D8DB38535CA8AFCEAF0BF12B881DC200C9833DA726E9376C2E32CFF7 ∧
    (let ks := roundKeys (BitVec.ofNat 256 0x000102030405060708090A0B0C0D0E0F101112131415161718191A1B1C1D1E1F)
     aesBlock ks 0x00112233445566778899AABBCCDDEEFF = 0x8EA2B7CA516745BFEAFC49904B496089 ∧
       aesInverse ks 0x8EA2B7CA516745BFEAFC49904B496089 = 0x00112233445566778899AABBCCDDEEFF) := by decide +kernel

/-- Case 14 of the GCM specification: 16 zero bytes under a zero key, and what a wrong tag opens to. -/
theorem test_gcm_answers :
    ofBE (gcmSeal 0#256 (zeros 12) [] (zeros 16)) = 0xCEA7403D4D606B6E074EC5D3BAF39D18D0D1C8A799996BF0265B98B5D48AB919 ∧
    gcmOpen 0#256 (zeros 12) [] (toBE 32 0xCEA7403D4D606B6E074EC5D3BAF39D18D0D1C8A799996BF0265B98B5D48AB919) = some (zeros 16) ∧
    gcmOpen 0#256 (zeros 12) [] (toBE 32 0xCEA7403D4D606B6E074EC5D3BAF39D18D0D1C8A799996BF0265B98B5D48AB918) = none := by decide +kernel

/-! ## States that meet the hypotheses -/

theorem witness_SessionTimersAct_1 : ∃ (dt : Nat) (sid : Nat) (s : State) (x : Session), s.runs = true ∧ s.session sid = some x ∧ x.lastAt + s.cf.u 0x1050 3 0 2 * 1000000000 ≤ s.elapsed + dt :=
  ⟨60000000000, 5, wIn .standby, wX, by decide +kernel⟩

theorem witness_SessionTimersAct_2 : ∃ (dt : Nat) (sid : Nat) (s : State) (x : Session) (at_ : Nat), s.runs = true ∧ s.session sid = some x ∧ x.dueAt = some at_ ∧ at_ + 60000000000 ≤ s.elapsed + dt :=
  ⟨60000000000, 5, wIn .standby { wX with dueAt := some 0 }, { wX with dueAt := some 0 }, 0, by decide +kernel⟩

theorem witness_SessionTimersAct_3 : ∃ (dt : Nat) (sid : Nat) (s : State) (x : Session), s.runs = true ∧ s.session sid = some x ∧ x.anon = false ∧ x.dueAt = none ∧ x.keyAt + s.cf.u 0x1050 6 0 4 * 1000000000 ≤ s.elapsed + dt ∧ x.rx < 2 ^ 30 ∧ x.tx < 2 ^ 30 :=
  ⟨86400000000000, 5, wIn .standby { wX with anon := false }, { wX with anon := false }, by decide +kernel⟩

theorem witness_SessionTimersAct_4 : ∃ (dt : Nat) (sid : Nat) (s : State) (x : Session) (at_ : Nat), s.runs = true ∧ s.session sid = some x ∧ x.oldUntil = some at_ ∧ at_ ≤ s.elapsed + dt :=
  ⟨7, 5, wIn .standby { wX with oldUntil := some 7 }, { wX with oldUntil := some 7 }, 7, by decide +kernel⟩

theorem witness_SessionTimersAct_5 : ∃ (dt : Nat) (sid : Nat) (s : State) (x : Session) (p : Snapshot), s.runs = true ∧ s.session sid = some x ∧ x.snap = some p ∧ p.readAt + 10000000000 ≤ s.elapsed + dt :=
  ⟨10000000000, 5, wIn .standby { wX with snap := some ⟨1, 2, [], 0⟩ }, { wX with snap := some ⟨1, 2, [], 0⟩ }, ⟨1, 2, [], 0⟩, by decide +kernel⟩

theorem witness_SessionTimersAct_6 : ∃ (dt : Nat) (sid : Nat) (s : State) (x : Session) (a : Staging), s.runs = true ∧ s.session sid = some x ∧ x.stage = some a ∧ a.frozen = false ∧ a.lastAt + s.cf.u 0x1050 2 0 2 * 1000000000 ≤ s.elapsed + dt :=
  ⟨300000000000, 5, wIn .standby { wX with stage := some { } }, { wX with stage := some { } }, { }, by decide +kernel⟩

theorem witness_SessionTimersAct_7 : ∃ (dt : Nat) (ip : Nat) (at_ : Nat) (s : State), s.runs = true ∧ Table.find s.osr.lockouts ip = some at_ ∧ at_ ≤ s.elapsed + dt :=
  ⟨5, 3, 5, { osr := { lockouts := [(3, 5)] } }, by decide +kernel⟩

theorem witness_SessionTimersAct_8 : ∃ (dt : Nat) (sid : Nat) (s : State) (x : Session), s.runs = true ∧ s.session sid = some x ∧ x.anon = false ∧ x.dueAt = none ∧ (2 ^ 30 ≤ x.rx ∨ 2 ^ 30 ≤ x.tx) :=
  ⟨5, 5, wIn .standby { wX with anon := false, tx := 2 ^ 30 }, { wX with anon := false, tx := 2 ^ 30 }, by decide +kernel⟩

theorem witness_SessionMessagesAct_1 : ∃ (dt : Nat) (m : Msg) (s : State) (x : Session), s.runs = true ∧ Takes (s.tick dt) m x 3 [] :=
  ⟨0, wMsg, wIn .standby, wX, by decide +kernel⟩

theorem witness_SessionMessagesAct_2 : ∃ (dt : Nat) (m : Msg) (s : State) (x : Session), s.runs = true ∧ Takes (s.tick dt) m x 2 [] :=
  ⟨0, wMsg, wIn .standby, wX, by decide +kernel⟩

theorem witness_SessionMessagesAct_3 : ∃ (dt : Nat) (m : Msg) (nonce : List (BitVec 8)) (s : State) (x : Session), s.runs = true ∧ Takes (s.tick dt) m x 4 (fit 16 nonce) ∧ x.anon = false ∧ s.key.trngFail = false :=
  ⟨0, { wMsg with mac := 325127201298923616742133947689976151565 }, zeros 16, { wIn .standby { wX with anon := false, slot := 1 } with key := { slots := [(1, { state := 1, kind := 2, usage := 3 })] } }, { wX with anon := false, slot := 1 }, by decide +kernel⟩

theorem witness_SessionMessagesAct_4 : ∃ (dt : Nat) (m : Msg) (s : State) (x : Session) (idx : Nat) (sub : Nat) (n : Nat) (v : List (BitVec 8)), s.runs = true ∧ TakesWrite (s.tick dt) m x idx sub v n ∧ isSticky idx sub = true :=
  ⟨0, wMsg, wIn .standby, wX, 0x1080, 0x0A, 2, [0#8, 2#8], by decide +kernel⟩

theorem witness_SessionMessagesAct_5 : ∃ (dt : Nat) (n : Nat) (m : Msg) (v : List (BitVec 8)) (s : State) (x : Session), s.runs = true ∧ TakesWrite (s.tick dt) m x 0xF100 9 v n :=
  ⟨0, 1, wMsg, [1#8], { wIn .standby with store := { errs := [(0, {})] } }, wX, by decide +kernel⟩

theorem witness_StagingActs_1 : ∃ (dt : Nat) (m : Msg) (s : State) (x : Session), s.runs = true ∧ Takes (s.tick dt) m x 0x20 [] ∧ x.stage = none ∧ s.mode.cur ≠ .quickset ∧ s.mode.cur ≠ .zeroized :=
  ⟨0, wMsg, wIn .standby, wX, by decide +kernel⟩

theorem witness_StagingActs_2 : ∃ (dt : Nat) (m : Msg) (s : State) (x : Session) (a : Staging), s.runs = true ∧ Takes (s.tick dt) m x 0x20 [] ∧ x.stage = some a ∧ s.mode.cur ≠ .quickset ∧ s.mode.cur ≠ .zeroized :=
  ⟨0, wMsg, wIn .standby { wX with stage := some { } }, { wX with stage := some { } }, { }, by decide +kernel⟩

theorem witness_StagingActs_3 : ∃ (dt : Nat) (idx : Nat) (sub : Nat) (off : Nat) (m : Msg) (v : List (BitVec 8)) (s : State) (x : Session) (a : Staging) (o : Obj), s.runs = true ∧ Takes (s.tick dt) m x 0x21 (objPayload idx sub (zeros 1 ++ toBE 4 off ++ v)) ∧ x.stage = some a ∧ a.frozen = false ∧ 0 < v.length ∧ v.length ≤ 1280 ∧ s.reaches x.uart .stage idx sub = true ∧ objAt s.variant idx sub = some o ∧ objAbsent s.variant idx sub = false ∧ o.direct = false ∧ (o.acc = .rw ∨ (o.acc = .rws ∧ x.role = 2)) ∧ (o.ty = 11 → domainOk o (stagedOf a.cells idx sub).length off v.length = true) ∧ off + v.length ≤ 16777216 ∧ a.cells.length + v.length ≤ 16777216 :=
  ⟨0, 0x1050, 3, 0, wMsg, [0#8, 100#8], wIn .standby { wX with stage := some { } }, { wX with stage := some { } }, { }, (objAt 0 0x1050 3).getD { idx := 0, sub := 0, subHi := 0, ty := 0, acc := .rw }, by decide +kernel⟩

theorem witness_StagingActs_4 : ∃ (dt : Nat) (m : Msg) (s : State) (x : Session) (a : Staging), s.runs = true ∧ Takes (s.tick dt) m x 0x23 [] ∧ x.stage = some a ∧ a.frozen = false ∧ s.mode.cur ≠ .zeroized :=
  ⟨0, wMsg, wIn .standby { wX with stage := some { } }, { wX with stage := some { } }, { }, by decide +kernel⟩

theorem witness_StagingActs_5 : ∃ (dt : Nat) (m : Msg) (s : State) (x : Session) (a : Staging), s.runs = true ∧ Takes (s.tick dt) m x 0x22 [] ∧ x.stage = some a ∧ a.frozen = false ∧ s.mode.cur ≠ .zeroized ∧ s.osr.queue.length < 4 ∧ s.power.failState = 0 ∧ s.upd.state ≠ 3 :=
  ⟨0, wMsg, wIn .standby { wX with stage := some { } }, { wX with stage := some { } }, { }, by decide +kernel⟩

theorem witness_NotificationsAct_1 : ∃ (dt : Nat) (on : Nat) (m : Msg) (s : State) (x : Session), s.runs = true ∧ Takes (s.tick dt) m x 0x30 (toBE 1 on) ∧ on ≤ 1 ∧ s.mode.cur ≠ .zeroized :=
  ⟨0, 1, wMsg, wIn .standby, wX, by decide +kernel⟩

theorem witness_NotificationsAct_2 : ∃ (dt : Nat) (sid : Nat) (s : State) (x : Session), s.runs = true ∧ s.session sid = some x ∧ x.out = none ∧ x.queue ≠ [] ∧ (x.anon = true ∨ s.portBusy 1 = false) ∧ s.credOk x = true :=
  ⟨0, 5, wIn .standby { wX with queue := [⟨0, 0, ⟨0#16, 0⟩, 0#32, 0, false, 0⟩] }, { wX with queue := [⟨0, 0, ⟨0#16, 0⟩, 0#32, 0, false, 0⟩] }, by decide +kernel⟩

theorem witness_NotificationsAct_3 : ∃ (dt : Nat) (m : Msg) (s : State) (x : Session) (o : Outstanding), s.runs = true ∧ Takes (s.tick dt) m x 0x31 (toBE 4 o.seq) ∧ x.out = some o :=
  ⟨0, wMsg, wIn .standby { wX with out := some ⟨1, [⟨0, 0, ⟨0#16, 0⟩, 0#32, 0, false, 0⟩], 0, 0, true⟩ }, { wX with out := some ⟨1, [⟨0, 0, ⟨0#16, 0⟩, 0#32, 0, false, 0⟩], 0, 0, true⟩ }, ⟨1, [⟨0, 0, ⟨0#16, 0⟩, 0#32, 0, false, 0⟩], 0, 0, true⟩, by decide +kernel⟩

theorem witness_NotificationsAct_4 : ∃ (dt : Nat) (sid : Nat) (s : State) (x : Session) (o : Outstanding), s.runs = true ∧ s.session sid = some x ∧ x.out = some o ∧ o.sentAt + 200000000 ≤ s.elapsed + dt ∧ o.tries < s.cf.u 0x1050 7 0 1 ∧ (x.anon = true ∨ s.portBusy 1 = false) ∧ s.credOk x = true :=
  ⟨200000000, 5, wIn .standby { wX with out := some ⟨1, [⟨0, 0, ⟨0#16, 0⟩, 0#32, 0, false, 0⟩], 0, 0, true⟩ }, { wX with out := some ⟨1, [⟨0, 0, ⟨0#16, 0⟩, 0#32, 0, false, 0⟩], 0, 0, true⟩ }, ⟨1, [⟨0, 0, ⟨0#16, 0⟩, 0#32, 0, false, 0⟩], 0, 0, true⟩, by decide +kernel⟩

theorem witness_NotificationsAct_5 : ∃ (dt : Nat) (sid : Nat) (s : State) (x : Session) (o : Outstanding), s.runs = true ∧ s.session sid = some x ∧ x.out = some o ∧ o.sentAt + 200000000 ≤ s.elapsed + dt ∧ s.cf.u 0x1050 7 0 1 ≤ o.tries :=
  ⟨200000000, 5, wIn .standby { wX with out := some { (⟨1, [⟨0, 0, ⟨0#16, 0⟩, 0#32, 0, false, 0⟩], 0, 0, true⟩ : Outstanding) with tries := 3 } }, { wX with out := some { (⟨1, [⟨0, 0, ⟨0#16, 0⟩, 0#32, 0, false, 0⟩], 0, 0, true⟩ : Outstanding) with tries := 3 } }, { (⟨1, [⟨0, 0, ⟨0#16, 0⟩, 0#32, 0, false, 0⟩], 0, 0, true⟩ : Outstanding) with tries := 3 }, by decide +kernel⟩

theorem witness_SessionsOpen_1 : ∃ (dt : Nat) (o : OpenMsg) (s : State), s.runs = true ∧ (s.tick dt).viaOk o.via = true ∧ (o.role = 1 ∨ o.role = 2) ∧ (s.anonOk (viaUart o.via) = false ∨ s.mode.cur = .provision) ∧ (s.mode.cur = .quickset → o.role = 2) ∧ s.tagOk o = true ∧ openTagZero o = false ∧ s.portBusy 1 = false ∧ s.keyFit o.slot (o.role - 1) = true ∧ s.key.trngFail = false ∧ s.sessionsFull (viaUart o.via) false = false :=
  ⟨0, ⟨1, 2, 4, zeros 16, 524816272907324957505767415501618151, wVia⟩, { mode := { cur := .standby }, key := { slots := [(1, { state := 1, kind := 2, usage := 3 })] } }, by decide +kernel⟩

theorem witness_SessionsOpen_2 : ∃ (dt : Nat) (o : OpenMsg) (s : State), s.runs = true ∧ (s.tick dt).viaOk o.via = true ∧ (o.role = 1 ∨ o.role = 2) ∧ openTagZero o = true ∧ s.anonOk (viaUart o.via) = true ∧ s.key.trngFail = false ∧ s.sessionsFull (viaUart o.via) true = false :=
  ⟨0, ⟨0, 2, 4, zeros 16, 0, wVia⟩, { }, by decide +kernel⟩

theorem witness_SessionsOpen_3 : ∃ (dt : Nat) (o : OpenMsg) (s : State), s.runs = true ∧ (s.tick dt).viaOk o.via = true ∧ (o.role = 1 ∨ o.role = 2) ∧ openTagZero o = true ∧ s.anonOk (viaUart o.via) = true ∧ s.sessionsFull (viaUart o.via) true = true :=
  ⟨0, ⟨0, 2, 4, zeros 16, 0, .uart⟩, wIn .quickset { wX with anon := true, via := .uart }, by decide +kernel⟩

theorem witness_SessionsOpen_4 : ∃ (dt : Nat) (o : OpenMsg) (s : State), s.runs = true ∧ (s.tick dt).viaOk o.via = true ∧ (openTagZero o = false ∨ s.anonOk (viaUart o.via) = false ∨ (o.role ≠ 1 ∧ o.role ≠ 2)) ∧ s.portBusy 1 = false ∧ (s.tagOk o = false ∨ (s.anonOk (viaUart o.via) = true ∧ s.mode.cur ≠ .provision) ∨ s.keyFit o.slot (o.role - 1) = false ∨ (o.role ≠ 1 ∧ o.role ≠ 2) ∨ (s.mode.cur = .quickset ∧ o.role ≠ 2)) :=
  ⟨0, ⟨1, 2, 4, zeros 16, 7, wVia⟩, wIn .standby, by decide +kernel⟩

theorem witness_SessionsOpen_5 : ∃ (dt : Nat) (o : OpenMsg) (s : State), s.runs = true ∧ (s.tick dt).viaOk o.via = true ∧ (o.role = 1 ∨ o.role = 2) ∧ (s.anonOk (viaUart o.via) = false ∨ s.mode.cur = .provision) ∧ (s.mode.cur = .quickset → o.role = 2) ∧ s.tagOk o = true ∧ openTagZero o = false ∧ s.portBusy 1 = false ∧ s.keyFit o.slot (o.role - 1) = true ∧ s.sessionsFull (viaUart o.via) false = true :=
  ⟨0, ⟨1, 2, 4, zeros 16, 524816272907324957505767415501618151, wVia⟩, { mode := { cur := .standby }, osr := { sessions := (List.range 9).map (fun k => { wX with id := k }) }, key := { slots := [(1, { state := 1, kind := 2, usage := 3 })] } }, by decide +kernel⟩

theorem witness_SessionsOpen_6 : ∃ (dt : Nat) (p : Nat) (ip : Nat) (udp : Nat) (o : OpenMsg) (s : State), s.runs = true ∧ (s.tick dt).viaOk o.via = true ∧ o.via = .port p ip udp ∧ s.tagOk o = false ∧ openTagZero o = false ∧ s.portBusy 1 = false ∧ s.cf.u 0x1050 8 0 1 ≤ ((Table.getD s.osr.failures ip []).filter (fun a => decide (s.elapsed + dt < a + 60000000000))).length + 1 :=
  ⟨0, 5, 1, 2, ⟨1, 2, 4, zeros 16, 7, wVia⟩, { mode := { cur := .standby }, cfg := wCfg [(0x1050, 8, 0, [1#8])] }, by decide +kernel⟩

theorem witness_BadMessagesAreDropped_1 : ∃ (dt : Nat) (m : Msg) (s : State), s.runs = true ∧ (s.tick dt).viaOk m.via = true ∧ s.session m.sid = none :=
  ⟨0, { wMsg with sid := 6 }, wIn .standby, by decide +kernel⟩

theorem witness_BadMessagesAreDropped_2 : ∃ (dt : Nat) (m : Msg) (s : State) (x : Session), s.runs = true ∧ (s.tick dt).viaOk m.via = true ∧ s.session m.sid = some x ∧ x.uart = viaUart m.via ∧ (x.anon = true ∨ s.portBusy 1 = false) ∧ x.authOf m 3 [] = .current ∧ seqNew x.hi x.seen m.seq = false :=
  ⟨0, { wMsg with seq := 0 }, wIn .standby, wX, by decide +kernel⟩

theorem witness_BadMessagesAreDropped_3 : ∃ (dt : Nat) (d : Datagram) (s : State), s.runs = true ∧ (s.tick dt).viaOk d.via = true ∧ viaUart d.via = false ∧ badDatagram d.bytes = true :=
  ⟨0, ⟨wVia, zeros 31⟩, wIn .standby, by decide +kernel⟩

theorem witness_BadMessagesAreDropped_4 : ∃ (f : UartRx) (s : State), s.runs = true ∧ (s.tick f.dt).viaOk .uart = true ∧ badUartFrame f.bytes = true :=
  ⟨⟨0, zeros 40⟩, wIn .standby, by decide +kernel⟩

theorem witness_BadMessagesAreDropped_5 : ∃ (dt : Nat) (m : Msg) (s : State) (x : Session), s.runs = true ∧ (s.tick dt).viaOk m.via = true ∧ s.session m.sid = some x ∧ s.portBusy 1 = false ∧ x.authOf m 3 [] = .bad :=
  ⟨0, wMsg, wIn .standby { wX with anon := false }, { wX with anon := false }, by decide +kernel⟩

theorem witness_ReportsAreRead_1 : ∃ (dt : Nat) (off : Nat) (n : Nat) (gen : BitVec 32) (m : Msg) (s : State) (x : Session) (r : Report), s.runs = true ∧ Takes (s.tick dt) m x 0x24 (toBE 4 gen.toNat ++ toBE 4 off ++ toBE 2 n) ∧ 0 < n ∧ n ≤ 1280 ∧ s.mode.cur ≠ .zeroized ∧ s.osr.reports.find? (fun y => y.gen = gen) = some r :=
  ⟨0, 0, 1280, 7#32, wMsg, { mode := { cur := .standby }, osr := { sessions := [wX], reports := [⟨7#32, 5, ⟨0#16, 0⟩, ⟨0#16, 0⟩, [], 0⟩] } }, wX, ⟨7#32, 5, ⟨0#16, 0⟩, ⟨0#16, 0⟩, [], 0⟩, by decide +kernel⟩

theorem witness_ReportsAreRead_2 : ∃ (dt : Nat) (off : Nat) (n : Nat) (gen : BitVec 32) (m : Msg) (s : State) (x : Session), s.runs = true ∧ Takes (s.tick dt) m x 0x24 (toBE 4 gen.toNat ++ toBE 4 off ++ toBE 2 n) ∧ (n = 0 ∨ 1280 < n ∨ s.mode.cur = .zeroized ∨ ∀ r ∈ s.osr.reports, r.gen ≠ gen) :=
  ⟨0, 0, 1281, 7#32, wMsg, wIn .standby, wX, by decide +kernel⟩

theorem witness_EffectiveInstantOfACommit_1 : ∃ (dt : Nat) (s : State) (k : Checked), s.runs = true ∧ s.osr.checked = some k ∧ s.power.failState = 0 ∧ s.cfg.prev = none ∧ s.cfg.waiting = [] :=
  ⟨1, { mode := { cur := .operate }, time := { tai := 79999999 }, osr := { sessions := [wX], checked := some ⟨5, 9, [], [], 0, wVia⟩ } }, ⟨5, 9, [], [], 0, wVia⟩, by decide +kernel⟩

theorem witness_CommitsTakeEffect_1 : ∃ (dt : Nat) (s : State) (q : Queued) (r : List Queued), s.runs = true ∧ s.osr.queue = q :: r ∧ s.osr.checked = none ∧ (∀ p, s.mode.pend = some p → p.activate = true) :=
  ⟨1, { mode := { cur := .operate }, osr := { queue := [⟨5, 2, 9, [], wVia⟩] } }, ⟨5, 2, 9, [], wVia⟩, [], ⟨rfl, rfl, rfl, fun _ h => nomatch h⟩⟩

theorem witness_CommitsTakeEffect_2 : ∃ (dt : Nat) (s : State) (k : Checked), s.runs = true ∧ s.osr.checked = some k ∧ s.power.failState = 0 ∧ s.mode.cur.forms = true :=
  ⟨1, { mode := { cur := .operate }, osr := { sessions := [wX], checked := some ⟨5, 9, [], [], 0, wVia⟩ } }, ⟨5, 9, [], [], 0, wVia⟩, by decide +kernel⟩

theorem witness_CommitsTakeEffect_3 : ∃ (dt : Nat) (s : State) (c : Commit) (r : List Commit), s.runs = true ∧ s.cfg.waiting = c :: r ∧ c.tc.gen = s.time.gen ∧ c.tc.ns ≤ (s.tick dt).time.tai :=
  ⟨1, { mode := { cur := .operate }, cfg := { waiting := [⟨1#32, [(cfgAddr 0x1050 3 1, 70#8)], ⟨0#16, 1⟩, ⟨0#16, 0⟩⟩] } }, ⟨1#32, [(cfgAddr 0x1050 3 1, 70#8)], ⟨0#16, 1⟩, ⟨0#16, 0⟩⟩, [], by decide +kernel⟩

theorem witness_CommitsTakeEffect_4 : ∃ (dt : Nat) (s : State) (p : List Host.Cell × BitVec 32 × Stamp), s.runs = true ∧ s.cfg.prev = some p ∧ (s.forming = false ∨ (s.tick dt).closedBefore p.2.2 = true) :=
  ⟨1, { mode := { cur := .standby }, cfg := { prev := some ([], 0#32, ⟨0#16, 0⟩) } }, ([], 0#32, ⟨0#16, 0⟩), by decide +kernel⟩

theorem witness_ObjectsAnswer_1 : ∃ (dt : Nat) (idx : Nat) (sub : Nat) (off : Nat) (n : Nat) (m : Msg) (s : State) (x : Session) (o : Obj), s.runs = true ∧ Takes (s.tick dt) m x 0x10 (readPayload idx sub off n) ∧ 0 < n ∧ n ≤ 1280 ∧ (idx < 0x8410 ∨ 0x8508 ≤ idx) ∧ s.reaches x.uart .look idx sub = true ∧ objAt s.variant idx sub = some o ∧ objAbsent s.variant idx sub = false ∧ (o.acc = .rw ∨ o.acc = .rws) ∧ o.direct = false ∧ o.ty ≠ 11 :=
  ⟨1, 0x1050, 3, 0, 2, wMsg, wIn .standby, wX, (objAt 0 0x1050 3).getD { idx := 0, sub := 0, subHi := 0, ty := 0, acc := .rw }, by decide +kernel⟩

theorem witness_ObjectsAnswer_2 : ∃ (dt : Nat) (idx : Nat) (sub : Nat) (m : Msg) (s : State) (x : Session) (o : Obj), s.runs = true ∧ Takes (s.tick dt) m x 0x11 (objPayload idx sub []) ∧ s.reaches x.uart .look idx sub = true ∧ objAt s.variant idx sub = some o ∧ objAbsent s.variant idx sub = false ∧ dfltIsValue idx sub = false ∧ o.ty ≠ 10 :=
  ⟨1, 0x1050, 3, wMsg, wIn .standby, wX, (objAt 0 0x1050 3).getD { idx := 0, sub := 0, subHi := 0, ty := 0, acc := .rw }, by decide +kernel⟩

theorem witness_ObjectsAnswer_3 : ∃ (dt : Nat) (idx : Nat) (sub : Nat) (m : Msg) (s : State) (x : Session), s.runs = true ∧ Takes (s.tick dt) m x 0x11 (objPayload idx sub []) ∧ objAt s.variant idx sub = none :=
  ⟨1, 0x1050, 0xEE, wMsg, wIn .standby, wX, by decide +kernel⟩

theorem witness_ObjectsAnswer_4 : ∃ (dt : Nat) (idx : Nat) (sub : Nat) (m : Msg) (s : State) (x : Session) (o : Obj), s.runs = true ∧ Takes (s.tick dt) m x 0x11 (objPayload idx sub []) ∧ s.reaches x.uart .look idx sub = true ∧ objAt s.variant idx sub = some o ∧ objAbsent s.variant idx sub = true :=
  ⟨1, 0x8000, 1, { wMsg with via := .port 3 1 2 }, { wIn .standby { wX with via := .port 3 1 2 } with variant := 2 }, { wX with via := .port 3 1 2 }, (objAt 2 0x8000 1).getD { idx := 0, sub := 0, subHi := 0, ty := 0, acc := .rw }, by decide +kernel⟩

theorem witness_ObjectsAnswer_5 : ∃ (dt : Nat) (idx : Nat) (sub : Nat) (n : Nat) (m : Msg) (s : State) (x : Session) (o : Obj), s.runs = true ∧ Takes (s.tick dt) m x 0x10 (readPayload idx sub 0 n) ∧ 0 < n ∧ n ≤ 1280 ∧ (idx < 0x8410 ∨ 0x8508 ≤ idx) ∧ s.reaches x.uart .look idx sub = true ∧ objAt s.variant idx sub = some o ∧ objAbsent s.variant idx sub = false ∧ (o.acc = .rw ∨ o.acc = .rws) ∧ o.direct = false ∧ o.ty = 11 :=
  ⟨1, 0x4100, 1, 64, wMsg, { wIn .standby with cfg := wCfg [(0x4100, 1, 96, toBE 1 3)] }, wX, (objAt 0 0x4100 1).getD { idx := 0, sub := 0, subHi := 0, ty := 0, acc := .rw }, by decide +kernel⟩

theorem witness_WritesAct_1 : ∃ (dt : Nat) (idx : Nat) (sub : Nat) (n : Nat) (m : Msg) (v : List (BitVec 8)) (s : State) (x : Session), s.runs = true ∧ TakesWrite (s.tick dt) m x idx sub v n ∧ isSticky idx sub = true :=
  ⟨0, 0x4080, 0x16, 2, wMsg, [0#8, 0#8, 0#8, 2#8], wIn .standby, wX, by decide +kernel⟩

theorem witness_WritesAct_2 : ∃ (dt : Nat) (idx : Nat) (sub : Nat) (m : Msg) (v : List (BitVec 8)) (s : State) (x : Session) (o : Obj), s.runs = true ∧ Takes (s.tick dt) m x 0x12 (objPayload idx sub (zeros 1 ++ v)) ∧ objAt s.variant idx sub = some o ∧ o.direct = false ∧ objAbsent s.variant idx sub = false :=
  ⟨0, 0x1050, 3, wMsg, [0#8, 2#8], wIn .standby, wX, (objAt 0 0x1050 3).getD { idx := 0, sub := 0, subHi := 0, ty := 0, acc := .rw }, by decide +kernel⟩

theorem witness_ModeRequestsAct_1 : ∃ (dt : Nat) (m : Msg) (s : State) (x : Session), s.runs = true ∧ TakesWrite (s.tick dt) m x 0x1100 2 (toBE 1 0) 0 ∧ s.inTransition = false :=
  ⟨1, wMsg, wIn .standby, wX, by decide +kernel⟩

theorem witness_ModeRequestsAct_2 : ∃ (dt : Nat) (m : Msg) (s : State) (x : Session), s.runs = true ∧ TakesWrite (s.tick dt) m x 0x1100 2 (toBE 1 2) 2 ∧ s.inTransition = false ∧ s.mode.cur = .standby :=
  ⟨1, wMsg, wIn .standby, wX, by decide +kernel⟩

theorem witness_ModeRequestsAct_3 : ∃ (dt : Nat) (m : Msg) (s : State) (x : Session), s.runs = true ∧ TakesWrite (s.tick dt) m x 0x1100 2 (toBE 1 3) 3 ∧ s.inTransition = false ∧ s.mode.cur = .configure ∧ s.cfg.valid = true :=
  ⟨1, wMsg, { wIn .configure with cfg := { valid := true } }, wX, by decide +kernel⟩

theorem witness_ModeRequestsAct_4 : ∃ (dt : Nat) (m : Msg) (s : State) (x : Session), s.runs = true ∧ TakesWrite (s.tick dt) m x 0x1100 2 (toBE 1 3) 3 ∧ s.inTransition = false ∧ s.mode.cur.forms = true :=
  ⟨1, wMsg, wIn .operate, wX, by decide +kernel⟩

theorem witness_ModeRequestsAct_5 : ∃ (dt : Nat) (m : Msg) (s : State) (x : Session), s.runs = true ∧ TakesWrite (s.tick dt) m x 0x1100 2 (toBE 1 4) 4 ∧ s.inTransition = false ∧ s.mode.cur = .standby ∧ s.readable = true ∧ s.fenceLevel < 2 :=
  ⟨1, wMsg, { wIn .standby with cfg := { valid := true } }, wX, by decide +kernel⟩

theorem witness_ModeRequestsAct_6 : ∃ (dt : Nat) (m : Msg) (s : State) (x : Session), s.runs = true ∧ TakesWrite (s.tick dt) m x 0x1100 2 (toBE 1 6) 6 ∧ s.inTransition = false ∧ s.mode.cur.full = true :=
  ⟨1, wMsg, wIn .degraded, wX, by decide +kernel⟩

theorem witness_ModeRequestsAct_7 : ∃ (dt : Nat) (m : Msg) (s : State) (x : Session), s.runs = true ∧ TakesWrite (s.tick dt) m x 0x1100 2 (toBE 1 7) 7 ∧ s.underWay = false ∧ s.mode.cur ≠ .zeroized ∧ (s.key.life ≠ .rma ∨ s.key.areaFree = false) :=
  ⟨1, wMsg, wIn .operate, wX, by decide +kernel⟩

theorem witness_ModeRequestsAct_8 : ∃ (dt : Nat) (m : Msg) (s : State) (x : Session), s.runs = true ∧ TakesWrite (s.tick dt) m x 0x1100 2 (toBE 1 7) 7 ∧ s.underWay = false ∧ s.mode.cur ≠ .zeroized ∧ s.key.life = .rma ∧ s.key.inForce = none ∧ s.key.areaFree = true :=
  ⟨1, wMsg, { wIn .provision with key := { life := .rma } }, wX, by decide +kernel⟩

theorem witness_OtherModeRequestsAreRefused_1 : ∃ (dt : Nat) (m : Msg) (s : State) (x : Session), s.runs = true ∧ TakesWrite (s.tick dt) m x 0x1100 2 (toBE 1 4) 4 ∧ s.inTransition = false ∧ (s.mode.cur ≠ .standby ∨ s.readable = false ∨ 2 ≤ s.fenceLevel) :=
  ⟨1, wMsg, { wIn .standby with cfg := { valid := true }, cop := { lost := [(6, 0)] } }, wX, by decide +kernel⟩

theorem witness_OtherModeRequestsAreRefused_2 : ∃ (dt : Nat) (m : Msg) (s : State) (x : Session), s.runs = true ∧ TakesWrite (s.tick dt) m x 0x1100 2 (toBE 1 6) 6 ∧ s.inTransition = false ∧ s.mode.cur.full = false :=
  ⟨1, wMsg, wIn .standby, wX, by decide +kernel⟩

theorem witness_OtherModeRequestsAreRefused_3 : ∃ (dt : Nat) (m : Msg) (s : State) (x : Session), s.runs = true ∧ TakesWrite (s.tick dt) m x 0x1100 2 (toBE 1 2) 2 ∧ s.inTransition = false ∧ s.mode.cur ≠ .standby :=
  ⟨1, wMsg, wIn .operate, wX, by decide +kernel⟩

theorem witness_OtherModeRequestsAreRefused_4 : ∃ (dt : Nat) (m : Msg) (s : State) (x : Session), s.runs = true ∧ TakesWrite (s.tick dt) m x 0x1100 2 (toBE 1 3) 3 ∧ s.inTransition = false ∧ s.mode.cur.forms = false ∧ (s.mode.cur ≠ .configure ∨ s.cfg.valid = false) :=
  ⟨1, wMsg, wIn .standby, wX, by decide +kernel⟩

theorem witness_OtherModeRequestsAreRefused_5 : ∃ (dt : Nat) (n : Nat) (m : Msg) (c : Instr) (s : State) (x : Session), s.runs = true ∧ (n, c) ∈ [(0, .modeRequestQuickset dt m), (2, .modeRequestConfigure dt m), (3, .modeRequestStandby dt m), (4, .modeRequestOperate dt m), (6, .modeRequestSafe dt m), (7, .modeRequestZeroize dt m)] ∧ TakesWrite (s.tick dt) m x 0x1100 2 (toBE 1 n) n ∧ (s.underWay = true ∨ (n ≠ 7 ∧ s.inTransition = true)) :=
  ⟨1, 7, wMsg, .modeRequestZeroize 1 wMsg, { wIn .operate with mode := { cur := .operate, pend := some ⟨.standby, 1, 0#16, false, 0x0101, false⟩ } }, wX, by decide +kernel⟩

theorem witness_PendingTransitionsAct_1 : ∃ (dt : Nat) (s : State) (p : ModePending), s.runs = true ∧ s.mode.pend = some p ∧ p.target = .operate ∧ p.gen = s.time.gen ∧ p.atNs ≤ (s.tick dt).time.tai ∧ s.mode.cur = .standby ∧ s.fenceLevel < 2 :=
  ⟨1, { mode := { cur := .standby, pend := some ⟨.operate, 0, 0#16, false, 0x0101, false⟩ }, cfg := { valid := true } }, ⟨.operate, 0, 0#16, false, 0x0101, false⟩, by decide +kernel⟩

theorem witness_PendingTransitionsAct_2 : ∃ (dt : Nat) (s : State) (p : ModePending), s.runs = true ∧ s.mode.pend = some p ∧ p.target = .operate ∧ p.gen = s.time.gen ∧ p.atNs ≤ (s.tick dt).time.tai ∧ s.mode.cur = .standby ∧ s.fenceLevel = 2 :=
  ⟨1, { mode := { cur := .standby, pend := some ⟨.operate, 0, 0#16, false, 0x0101, false⟩ }, cop := { lost := [(6, 0)] } }, ⟨.operate, 0, 0#16, false, 0x0101, false⟩, by decide +kernel⟩

theorem witness_PendingTransitionsAct_3 : ∃ (dt : Nat) (s : State) (p : ModePending), s.runs = true ∧ s.mode.pend = some p ∧ p.target = .standby ∧ p.gen = s.time.gen ∧ p.atNs ≤ (s.tick dt).time.tai ∧ p.stopped = false :=
  ⟨1, { mode := { cur := .operate, pend := some ⟨.standby, 1, 0#16, false, 0x0101, false⟩ } }, ⟨.standby, 1, 0#16, false, 0x0101, false⟩, by decide +kernel⟩

theorem witness_PendingTransitionsAct_4 : ∃ (dt : Nat) (s : State) (p : ModePending), s.runs = true ∧ s.mode.pend = some p ∧ p.stopped = true ∧ s.closedBefore ⟨p.gen, p.atNs⟩ = true ∧ s.upd.resume = none ∧ s.upd.leaving = 0 :=
  ⟨1, { mode := { cur := .standby, pend := some ⟨.standby, 1, 0#16, true, 0x0101, false⟩ } }, ⟨.standby, 1, 0#16, true, 0x0101, false⟩, by decide +kernel⟩

theorem witness_PendingTransitionsAct_5 : ∃ (dt : Nat) (s : State) (c : Nat), s.runs = true ∧ s.mode.cur = .degraded ∧ s.mode.clearSince = some c ∧ c + s.cf.u 0x1100 0x0C 0 4 * 1000000 ≤ s.elapsed + dt :=
  ⟨10000000000, { mode := { cur := .degraded, clearSince := some 0 } }, 0, by decide +kernel⟩

theorem witness_PaceMonitorActs_1 : ∃ (dt : Nat) (k : Nat) (r : Nat) (rates : List Nat) (s : State), s.runs = true ∧ k < 8 ∧ s.fenced 19 k = false ∧ rates.getD k 0 = r ∧ (∀ j, j < 8 → rates.getD j 0 < 2 ^ 32) ∧ (∀ j, j < 8 → s.fenced 19 j = false → r ≤ rates.getD j 0 ∧ (j < k → r < rates.getD j 0)) ∧ s.cf.u 0x1030 4 0 2 ≤ min r 65535 :=
  ⟨1, 3, 1400, [1500, 1300, 1502, 1400, 1400, 1400, 1400, 70000], { cop := { lost := [(19, 1)] } }, by decide +kernel⟩

theorem witness_PaceMonitorActs_2 : ∃ (dt : Nat) (r : Nat) (s : State), s.runs = true ∧ s.cop.lost = [] ∧ r < s.cf.u 0x1030 4 0 2 ∧ r < 65536 ∧ s.pace.lowArmed = true :=
  ⟨1, 999, { }, by decide +kernel⟩

theorem witness_PaceMonitorActs_3 : ∃ (dt : Nat) (r : Nat) (s : State), s.runs = true ∧ s.cop.lost = [] ∧ r < s.cf.u 0x1030 4 0 2 + 50 ∧ r < 65536 ∧ s.pace.lowArmed = false :=
  ⟨1, 1049, { pace := { lowArmed := false } }, by decide +kernel⟩

theorem witness_PaceMonitorActs_4 : ∃ (dt : Nat) (r : Nat) (s : State), s.runs = true ∧ s.cop.lost = [] ∧ s.cf.u 0x1030 4 0 2 + 50 ≤ r ∧ r < 65536 :=
  ⟨1, 1650, { pace := { lowArmed := false } }, by decide +kernel⟩

theorem witness_PaceMonitorActs_5 : ∃ (dt : Nat) (since : Nat) (l : Nat) (s : State), s.runs = true ∧ s.pace.below = some (since, l) ∧ since + 100000000 ≤ s.elapsed + dt ∧ s.pace.deficitRaised = false :=
  ⟨100000000, 0, 900, { mode := { cur := .operate }, pace := { below := some (0, 900) } }, by decide +kernel⟩

theorem witness_PaceMonitorActs_6 : ∃ (dt : Nat) (n : Nat) (m : Msg) (v : List (BitVec 8)) (s : State) (x : Session), s.runs = true ∧ TakesWrite (s.tick dt) m x 0x1030 7 v n ∧ s.pace.windowDone = true :=
  ⟨1, 1, wMsg, [1#8], { wIn .standby with pace := { windowDone := true, margin := 1700, ring := 4, lowestMargin := 1200 } }, wX, by decide +kernel⟩

theorem witness_PowerFailWarning_1 : ∃ (dt : Nat) (low : Nat) (s : State), s.runs = true ∧ 20000 < low ∧ s.power.failState = 0 :=
  ⟨1, 20001, wIn .operate, by decide +kernel⟩

theorem witness_PowerFailWarning_2 : ∃ (dt : Nat) (low : Nat) (s : State), s.runs = true ∧ low ≤ 20000 :=
  ⟨1, 20000, wIn .operate, by decide +kernel⟩

theorem witness_PowerFailWarning_3 : ∃ (dt : Nat) (s : State), s.runs = true ∧ s.power.failState = 1 :=
  ⟨1, { wIn .standby with power := { failState := 1 } }, by decide +kernel⟩

theorem witness_PowerFailWarning_4 : ∃ (dt : Nat) (s : State), s.runs = true ∧ s.power.failState ≠ 0 ∧ s.upd.resume = none ∧ s.upd.leaving = 0 :=
  ⟨1, { wIn .standby with power := { failState := 2 } }, by decide +kernel⟩

theorem witness_PowerFailWarning_5 : ∃ (dt : Nat) (s : State), s.runs = true ∧ s.power.failState = 0 :=
  ⟨1, wIn .standby, by decide +kernel⟩

theorem witness_SuppliesAndResetAct_1 : ∃ (dt : Nat) (mV : Nat) (r : Rail) (s : State), s.power.good[railNo r]? = some false ∧ railGoodAt (railNo r) < mV :=
  ⟨1, 1031, .vddMem11, { power := { phase := .hold, good := [true, true, true, false, true, true, true] } }, by decide +kernel⟩

theorem witness_SuppliesAndResetAct_2 : ∃ (dt : Nat) (i : StartIn) (s : State), s.power.phase = .hold ∧ (s.power.good.all id = false ∨ s.elapsed + dt < s.power.since + 2000000) :=
  ⟨1, { recoveryLow := false, imageOkA := true, imageOkB := false, took := 5000000000, recordAreaOk := true, mirrorOk := true, convertOk := true, sramTestOk := true, mirrorTestOk := true, journalTestOk := true, tamper := 0, octal := true, keyDamage := [] }, { power := { phase := .hold, since := 5 } }, by decide +kernel⟩

theorem witness_SuppliesAndResetAct_3 : ∃ (dt : Nat) (s : State), s.power.phase = .hold ∧ s.power.good.all id = true ∧ s.power.since + 2000000 ≤ s.elapsed + dt :=
  ⟨2000000, { power := { phase := .hold } }, by decide +kernel⟩

theorem witness_SuppliesAndResetAct_4 : ∃ (dt : Nat) (mV : Nat) (r : Rail) (s : State), mV < railFailAt (railNo r) :=
  ⟨1, 639, .vddCore, { }, by decide +kernel⟩

theorem witness_SuppliesAndResetAct_5 : ∃ (dt : Nat) (width : Nat) (s : State), 1000 ≤ width ∧ s.power.phase = .running :=
  ⟨1, 1000, { }, by decide +kernel⟩

theorem witness_SuppliesAndResetAct_6 : ∃ (dt : Nat) (s : State), s.power.phase = .reset :=
  ⟨1, { power := { phase := .reset, resetLow := true } }, by decide +kernel⟩

theorem witness_SuppliesAndResetAct_7 : ∃ (dt : Nat) (tj : Int) (s : State), 130000 < tj ∧ s.power.phase ≠ .hold ∧ s.power.phase ≠ .thermal :=
  ⟨1, 130001, { }, by decide +kernel⟩

theorem witness_SuppliesAndResetAct_8 : ∃ (dt : Nat) (tj : Int) (s : State), tj < 115000 ∧ s.power.phase = .thermal ∧ s.power.resetLow = false :=
  ⟨1, 114999, { power := { phase := .thermal } }, by decide +kernel⟩

theorem witness_FailedStartsAreRetried_1 : ∃ (dt : Nat) (s : State), s.power.phase = .booting ∧ s.power.attemptAt + 5000000000 ≤ s.elapsed + dt :=
  ⟨5000000000, { power := { phase := .booting } }, by decide +kernel⟩

theorem witness_FailedStartsAreRetried_2 : ∃ (dt : Nat) (s : State), s.power.phase = .retry ∧ s.power.attemptAt + 100000000 ≤ s.elapsed + dt :=
  ⟨100000000, { power := { phase := .retry } }, by decide +kernel⟩

theorem witness_FailedStartsAreRetried_3 : ∃ (dt : Nat) (i : StartIn) (s : State), s.power.phase = .booting ∧ 5000000000 < i.took ∧ s.jrn.failedBoots < 3 :=
  ⟨1, { ({ recoveryLow := false, imageOkA := true, imageOkB := false, took := 5000000000, recordAreaOk := true, mirrorOk := true, convertOk := true, sramTestOk := true, mirrorTestOk := true, journalTestOk := true, tamper := 0, octal := true, keyDamage := [] } : StartIn) with took := 5000000001 }, { power := { phase := .booting } }, by decide +kernel⟩

theorem witness_StartsEnterTheBootMode_1 : ∃ (dt : Nat) (b : Nat) (i : StartIn) (s : State) (k : BankU), s.power.phase = .booting ∧ i.took ≤ 5000000000 ∧ i.recoveryLow = false ∧ s.jrn.failedBoots < 3 ∧ s.power.start.quick = false ∧ i.tamper = 0 ∧ s.upd.latest = some (2, b) ∧ s.upd.banks[b]? = some k ∧ (if b = 0 then i.imageOkA else i.imageOkB) = true ∧ (i.octal = true ∨ mImage k.manifest ≤ 14 * 2 ^ 20) ∧ max s.upd.secVer s.upd.secGoal ≤ mVersion k.manifest ∧ mFormat k.manifest = s.upd.format ∧ s.key.zeroized = false :=
  ⟨1, 0, { recoveryLow := false, imageOkA := true, imageOkB := false, took := 5000000000, recordAreaOk := true, mirrorOk := true, convertOk := true, sramTestOk := true, mirrorTestOk := true, journalTestOk := true, tamper := 0, octal := true, keyDamage := [] }, { power := { phase := .booting, start := { cause := 4 } }, jrn := { untold := 1, failedBoots := 1 }, upd := { journal := [wRec 2 0], banks := [{ state := 3, manifest := [] }, { }] } }, { state := 3, manifest := [] }, by decide +kernel⟩

theorem witness_StartsEnterTheBootMode_2 : ∃ (dt : Nat) (i : StartIn) (s : State), s.power.phase = .booting ∧ i.took ≤ 5000000000 ∧ (i.recoveryLow = true ∨ 3 ≤ s.jrn.failedBoots ∨ s.power.start.quick = true) ∧ s.key.life ≠ .scrapped ∧ i.tamper = 0 :=
  ⟨1, { ({ recoveryLow := false, imageOkA := true, imageOkB := false, took := 5000000000, recordAreaOk := true, mirrorOk := true, convertOk := true, sramTestOk := true, mirrorTestOk := true, journalTestOk := true, tamper := 0, octal := true, keyDamage := [] } : StartIn) with recoveryLow := true }, { power := { phase := .booting }, jrn := { untold := 3, failedBoots := 3 }, upd := { journal := [wRec 2 0], banks := [{ state := 3, manifest := [] }, { }] } }, by decide +kernel⟩

theorem witness_UnitResetsAct_1 : ∃ (dt : Nat) (p : Nat) (k : Nat) (sub : Nat) (m : Msg) (v : List (BitVec 8)) (s : State) (x : Session) (c : Instr), p < 6 ∧ k < 4 ∧ (c, sub) ∈ [(Instr.portReset dt m p v, p + 1), (.ingestReset dt m v, 0x07), (.chainReset dt m v, 0x08), (.alignmentReset dt m v, 0x09), (.oscEngineReset dt m v, 0x0A), (.islEngineReset dt m v, 0x0B), (.alarmUnitReset dt m v, 0x0C), (.acqReset dt m v, 0x0D), (.hedgerowReset dt m v, 0x0E), (.clusterReset dt m k v, k + 0x0F), (.timebaseServoReset dt m v, 0x13), (.recorderReadersReset dt m v, 0x14), (.keyPortReset dt m v, 0x15), (.updateEngineReset dt m v, 0x16), (.coppiceReset dt m v, 0x17)] ∧ s.runs = true ∧ TakesWrite (s.tick dt) m x 0x1121 sub v 1 ∧ s.resetStatus sub = stOk :=
  ⟨1, 5, 3, 0x12, wMsg, [1#8], wIn .standby, wX, .clusterReset 1 wMsg 3 [1#8], by decide +kernel⟩

theorem witness_UnitResetsAct_2 : ∃ (dt : Nat) (sub : Nat) (s : State), s.runs = true ∧ Table.getD s.rst.status sub 0 = 2 ∧ (sub = 0x0E → (s.tick dt).hrRestored = true) :=
  ⟨200000000, 14, { wIn .standby with rst := { status := [(14, 2)], wroteAt := [(14, 0)] } }, by decide +kernel⟩

theorem witness_UnitResetsAct_3 : ∃ (dt : Nat) (m : Msg) (v : List (BitVec 8)) (s : State) (x : Session), s.runs = true ∧ TakesWrite (s.tick dt) m x 0x1121 0x18 v 1 ∧ s.resetStatus 0x18 = stOk :=
  ⟨1, wMsg, [1#8], wIn .standby, wX, by decide +kernel⟩

theorem witness_UnitResetsAct_4 : ∃ (dt : Nat) (cause : Nat) (at_ : Nat) (s : State), s.runs = true ∧ s.rst.device = some (cause, at_) :=
  ⟨1, 3, 0, { wIn .standby with rst := { device := some (3, 0) } }, by decide +kernel⟩

theorem witness_OccurrencesAreLatched_1 : ∃ (dt : Nat) (id : Nat) (inst : Nat) (p : BitVec 32) (s : State), s.runs = true ∧ inst < 65536 ∧ eventAbsent s.variant id inst = false ∧ eventReserved id = false ∧ s.ev.fenced = false ∧ (∀ e ∈ s.ev.latch, ¬ (e.id = id ∧ e.inst = inst)) :=
  ⟨1, 0x11, 65535, 7#32, { mode := { cur := .standby }, variant := 0, ev := { latch := [⟨0x11, 3, ⟨0#16, 5⟩, 6#32, 2, false, 5⟩] } }, by decide +kernel⟩

theorem witness_OccurrencesAreLatched_2 : ∃ (dt : Nat) (id : Nat) (inst : Nat) (p : BitVec 32) (s : State) (l : List Ev) (r : List Ev) (e : Ev), s.runs = true ∧ inst < 65536 ∧ eventAbsent s.variant id inst = false ∧ eventReserved id = false ∧ s.ev.fenced = false ∧ s.ev.latch = l ++ e :: r ∧ e.id = id ∧ e.inst = inst ∧ e.direct = false ∧ (∀ y ∈ l, ¬ (y.id = id ∧ y.inst = inst)) :=
  ⟨1, 0x11, 3, 7#32, { ev := { latch := [⟨0x11, 3, ⟨0#16, 5⟩, 6#32, 2, false, 5⟩, ⟨1, 0, ⟨0#16, 5⟩, 6#32, 2, false, 5⟩] } }, [], [⟨1, 0, ⟨0#16, 5⟩, 6#32, 2, false, 5⟩], ⟨0x11, 3, ⟨0#16, 5⟩, 6#32, 2, false, 5⟩, by decide +kernel⟩

theorem witness_OccurrencesAreLatched_3 : ∃ (dt : Nat) (id : Nat) (inst : Nat) (p : BitVec 32) (s : State), s.runs = true ∧ inst < 65536 ∧ (eventAbsent s.variant id inst = true ∨ eventReserved id = true) :=
  ⟨1, 0x18, 65535, 7#32, { }, by decide +kernel⟩

theorem witness_EventsReachTheHost_1 : ∃ (s : State) (g : Gen), s.ev.latch ≠ [] ∧ s.ev.fenced = false ∧ (∀ x ∈ s.ev.latch, (x.stamp.gen - g).toNat ≤ 32767) :=
  ⟨{ ev := { latch := [⟨0x11, 3, ⟨0#16, 5⟩, 6#32, 2, false, 5⟩, ⟨1, 0, ⟨65535#16, 5⟩, 6#32, 2, false, 5⟩] } }, 65535#16, by decide +kernel⟩

theorem witness_EventsReachTheHost_2 : ∃ (dt : Nat) (s : State) (e : Ev), s.runs = true ∧ s.nextEvent = some e ∧ e.direct = false ∧ e.id < 256 ∧ bit ((s.routing e).u 0xF400 1 (8 * e.id) 1) 0 = true ∧ bit ((s.routing e).u 0xF400 1 (8 * e.id + 1) 1) 0 = true ∧ (∀ u, Table.find s.ev.lastOut (e.id * 65536 + e.inst) = some u → u + (s.routing e).u 0xF400 1 (8 * e.id + 2) 2 * 1000000 ≤ s.elapsed + dt) :=
  ⟨1, { cfg := wCfg [(0xF400, 1, 8 * 0x11, [1#8, 1#8])], ev := { latch := [⟨0x11, 3, ⟨0#16, 5⟩, 6#32, 2, false, 5⟩] } }, ⟨0x11, 3, ⟨0#16, 5⟩, 6#32, 2, false, 5⟩, by decide +kernel⟩

theorem witness_EventsReachTheHost_3 : ∃ (dt : Nat) (u : Nat) (s : State) (e : Ev), s.runs = true ∧ s.nextEvent = some e ∧ e.direct = false ∧ e.id ≠ 0x0D ∧ (bit ((s.routing e).u 0xF400 1 (8 * e.id) 1) 0 = true ∨ permSelected (s.routing e) e.id = true) ∧ Table.find s.ev.lastOut (e.id * 65536 + e.inst) = some u ∧ s.elapsed + dt < u + (s.routing e).u 0xF400 1 (8 * e.id + 2) 2 * 1000000 :=
  ⟨1, 0, { cfg := wCfg [(0xF400, 1, 8 * 0x11, [1#8, 1#8, 0#8, 2#8])], ev := { lastOut := [(0x11 * 65536 + 3, 0)], latch := [⟨0x11, 3, ⟨0#16, 5⟩, 6#32, 2, false, 5⟩] } }, ⟨0x11, 3, ⟨0#16, 5⟩, 6#32, 2, false, 5⟩, by decide +kernel⟩

theorem witness_EventsReachTheHost_4 : ∃ (dt : Nat) (n : Nat) (m : Msg) (v : List (BitVec 8)) (s : State) (x : Session), s.runs = true ∧ TakesWrite (s.tick dt) m x 0xF410 2 v n ∧ v.length = 32 :=
  ⟨1, 2 ^ 17, wMsg, toBE 32 (2 ^ 17), { wIn .standby with ev := { irq := 1#256 <<< 17 } }, wX, by decide +kernel⟩

theorem witness_KeyRequestsAreServed_1 : ∃ (dt : Nat) (r : KeyReq) (s : State), s.runs = true ∧ s.fenced 12 0 = false ∧ (r.cls = 0 ∨ Table.getD s.rst.status 0x15 0 = 0) ∧ s.keyFit r.handle r.usage (r.op = .gooseGcm) = true :=
  ⟨1, ⟨.chunkHash, 7, 5, [], zeros 3, none⟩, { }, by decide +kernel⟩

theorem witness_KeyRequestsAreServed_2 : ∃ (dt : Nat) (r : KeyReq) (s : State), s.runs = true ∧ s.fenced 12 0 = false ∧ (r.cls = 0 ∨ Table.getD s.rst.status 0x15 0 = 0) ∧ s.keyFit r.handle r.usage (r.op = .gooseGcm) = false :=
  ⟨1, ⟨.gooseHmac, 3, 5, [], zeros 3, none⟩, { }, by decide +kernel⟩

theorem witness_KeyRequestsAreServed_3 : ∃ (dt : Nat) (r : KeyReq) (s : State), s.runs = true ∧ s.fenced 12 0 = true :=
  ⟨1, ⟨.gooseHmac, 3, 5, [], zeros 3, none⟩, { cop := { lost := [(12, 0)] } }, by decide +kernel⟩

theorem witness_KeyRequestsAreServed_4 : ∃ (dt : Nat) (b : Bool) (r : KeyReq) (a : Shares) (q : List (BitVec 8)) (s : State), s.runs = true ∧ s.upd.waiting = none ∧ (if b then s.key.asym else s.key.sym) = some ⟨r, a, q⟩ :=
  ⟨1, false, ⟨.chunkHash, 7, 5, [], zeros 3, none⟩, { }, [], { key := { sym := some ⟨⟨.chunkHash, 7, 5, [], zeros 3, none⟩, { }, []⟩, waiting := [7, 2, 9].map (fun n => ⟨⟨.chunkHash, n, 5, [], zeros 3, none⟩, { }, []⟩) } }, by decide +kernel⟩

theorem witness_MonitorsAct_1 : ∃ (dt : Nat) (tj : Int) (h : Int) (rails : List Nat) (s : State), s.runs = true ∧ s.mon.high = some h ∧ max (-60000) (min 150000 tj) ≤ s.cf.u 0xF300 4 0 1 * 1000 ∧ bit s.key.tamperNow 2 = false ∧ bit s.key.tamperNow 3 = false ∧ (bit (s.cf.u 0xA010 2 0 1) 2 = false ∨ railsAbove rails = false) ∧ (bit (s.cf.u 0xA010 2 0 1) 3 = false ∨ tjOut tj = false) :=
  ⟨1, -50000, -60000, [700, 850], { mon := { high := some (-60000) } }, by decide +kernel⟩

theorem witness_MonitorsAct_2 : ∃ (dt : Nat) (tj : Int) (rails : List Nat) (s : State), s.runs = true ∧ s.cf.u 0xF300 4 0 1 * 1000 < max (-60000) (min 150000 tj) ∧ s.mon.armed = true :=
  ⟨1, 150000, [], { }, by decide +kernel⟩

theorem witness_MonitorsAct_3 : ∃ (dt : Nat) (tj : Int) (s : State), s.runs = true ∧ s.cf.u 0xF300 4 0 1 * 1000 < tj + 5000 ∧ tj ≤ 150000 ∧ s.mon.armed = false ∧ bit s.key.tamperNow 2 = false ∧ bit s.key.tamperNow 3 = false ∧ (bit (s.cf.u 0xA010 2 0 1) 3 = false ∨ tjOut tj = false) :=
  ⟨1, 104999, { mon := { armed := false, tj := 110000 } }, by decide +kernel⟩

theorem witness_MonitorsAct_4 : ∃ (dt : Nat) (k : Nat) (mv : Nat) (u : Nat) (tj : Int) (rails : List Nat) (s : State), s.runs = true ∧ k < 7 ∧ rails[k]? = some mv ∧ (s.rail k).armed = true ∧ (s.rail k).out = true ∧ (s.rail k).since = some u ∧ u + 1000000 ≤ s.elapsed + dt ∧ railFailAt k ≤ mv ∧ (mv < (railRange k).1 ∨ (railRange k).2 < mv) :=
  ⟨1000000, 0, 640, 0, 0, [640], { mon := { rails := [(0, { since := some 0, out := true })] } }, by decide +kernel⟩

theorem witness_MonitorsAct_5 : ∃ (dt : Nat) (n : Nat) (m : Msg) (v : List (BitVec 8)) (s : State) (x : Session), s.runs = true ∧ TakesWrite (s.tick dt) m x 0xF300 3 v n :=
  ⟨1, 1, wMsg, [1#8], { wIn .standby with mon := { tj := 20000, high := some 90000 } }, wX, by decide +kernel⟩

theorem witness_MonitorsAct_6 : ∃ (dt : Nat) (i : Jtag) (s : State), s.runs = true :=
  ⟨1, .extest, { }, by decide +kernel⟩

theorem witness_SourcesAndServoAct_1 : ∃ (dt : Nat) (k : Nat) (v : Nat) (off : Int) (s : State), s.runs = true ∧ s.cop.bypass.contains 14 = false ∧ (s.time.state = .freerun ∨ s.time.state = .holdover) ∧ k ∈ s.srcOrder ∧ (∀ j ∈ s.srcOrder, (s.src j).qualified = false) ∧ (s.src k).validSince = some v ∧ v + s.cf.u 0x3010 9 0 2 * 1000000000 ≤ s.elapsed + dt ∧ (s.offsetOf k off).natAbs ≤ s.cf.u 0x3040 1 0 4 * 1000 :=
  ⟨60000000000, 1, 0, 100, { mode := { cur := .standby }, cfg := wCfg [(0x3010, 1, 0, [1#8])], time := { sources := [(1, { validSince := some 0 })] } }, by decide +kernel⟩

theorem witness_SourcesAndServoAct_2 : ∃ (dt : Nat) (k : Nat) (v : Nat) (off : Int) (s : State), s.runs = true ∧ s.cop.bypass.contains 14 = false ∧ (s.time.state = .freerun ∨ s.time.state = .holdover) ∧ k ∈ s.srcOrder ∧ (∀ j ∈ s.srcOrder, (s.src j).qualified = false) ∧ (s.src k).validSince = some v ∧ v + s.cf.u 0x3010 9 0 2 * 1000000000 ≤ s.elapsed + dt ∧ s.cf.u 0x3040 1 0 4 * 1000 < (s.offsetOf k off).natAbs :=
  ⟨60000000000, 1, 0, -20000000000, { mode := { cur := .standby }, cfg := wCfg [(0x3010, 1, 0, [1#8])], time := { sources := [(1, { validSince := some 0 })] } }, by decide +kernel⟩

theorem witness_SourcesAndServoAct_3 : ∃ (dt : Nat) (k : Nat) (v : Nat) (off : Int) (s : State), s.runs = true ∧ (s.src k).validSince = some v ∧ s.elapsed + dt < v + s.cf.u 0x3010 9 0 2 * 1000000000 :=
  ⟨1, 1, 0, 100, { mode := { cur := .standby }, cfg := wCfg [(0x3010, 1, 0, [1#8])], time := { sources := [(1, { validSince := some 0 })] } }, by decide +kernel⟩

theorem witness_SourcesAndServoAct_4 : ∃ (dt : Nat) (k : Nat) (s : State), s.runs = true ∧ s.cop.bypass.contains 14 = false ∧ s.time.state = .locked ∧ s.time.source = k ∧ (s.src k).qualified = true ∧ (∀ j ∈ s.srcOrder, (s.src j).qualified = true → j = k) :=
  ⟨1, 1, { mode := { cur := .standby }, time := { state := .locked, source := 1, sources := [(1, { qualified := true })] }, cfg := wCfg [(0x3010, 1, 0, [1#8])] }, by decide +kernel⟩

theorem witness_SourcesAndServoAct_5 : ∃ (dt : Nat) (k : Nat) (s : State), s.runs = true ∧ (s.src k).qualified = false :=
  ⟨1, 1, { mode := { cur := .standby }, cfg := wCfg [(0x3010, 1, 0, [1#8])], time := { sources := [(1, { validSince := some 0 })] } }, by decide +kernel⟩

theorem witness_SourcesAndServoAct_6 : ∃ (dt : Nat) (since : Nat) (s : State), s.runs = true ∧ s.cop.bypass.contains 14 = false ∧ s.time.state = .acquiring ∧ s.time.settled = some since ∧ since + 16000000000 ≤ s.elapsed + dt :=
  ⟨16000000000, 0, { mode := { cur := .standby }, time := { state := .acquiring, settled := some 0 } }, by decide +kernel⟩

theorem witness_UnlockedTimeActs_1 : ∃ (dt : Nat) (s : State), s.runs = true ∧ s.time.inHoldover = true :=
  ⟨1000000000, { mode := { cur := .standby }, time := { state := .holdover, holdE0 := 40 } }, by decide +kernel⟩

theorem witness_UnlockedTimeActs_2 : ∃ (dt : Nat) (u : Nat) (s : State), s.runs = true ∧ s.time.state ≠ .locked ∧ s.time.unlockedAt = some u :=
  ⟨100000000000, 0, { mode := { cur := .standby }, time := { unlockedAt := some 0 } }, by decide +kernel⟩

theorem witness_UnlockedTimeActs_3 : ∃ (dt : Nat) (s : State), s.runs = true ∧ s.time.refPresent = true :=
  ⟨1, { }, by decide +kernel⟩

theorem witness_UnlockedTimeActs_4 : ∃ (dt : Nat) (off : Int) (s : State), s.runs = true ∧ s.time.refPresent = false ∧ (∀ j ∈ s.srcOrder, (s.src j).qualified = false) :=
  ⟨1, 3, { time := { state := .refFault, refPresent := false } }, by decide +kernel⟩

theorem witness_TimeIsSetByRequest_1 : ∃ (dt : Nat) (n : Nat) (m : Msg) (v : List (BitVec 8)) (s : State) (x : Session), s.runs = true ∧ TakesWrite (s.tick dt) m x 0x3000 8 v n ∧ field v 6 4 ≤ 999999999 ∧ (∀ k, 1 ≤ k → k ≤ 8 → (s.src k).qualified = false) :=
  ⟨1, ofBE (toBE 6 1700000000 ++ toBE 4 999999999), wMsg, toBE 6 1700000000 ++ toBE 4 999999999, wIn .standby, wX, by decide, by decide, by decide, fun _ _ _ => rfl⟩

theorem witness_TimeIsSetByRequest_2 : ∃ (dt : Nat) (n : Nat) (k : Nat) (m : Msg) (v : List (BitVec 8)) (s : State) (x : Session), s.runs = true ∧ TakesWrite (s.tick dt) m x 0x3000 8 v n ∧ 1 ≤ k ∧ k ≤ 8 ∧ (s.src k).qualified = true :=
  ⟨1, ofBE (toBE 6 1700000000 ++ toBE 4 0), 8, wMsg, toBE 6 1700000000 ++ toBE 4 0, { wIn .standby with time := { sources := [(8, { qualified := true })] } }, wX, by decide +kernel⟩

theorem witness_TimeSourcesAreRead_1 : ∃ (dt : Nat) (f : PtpMsg) (s : State), s.runs = true ∧ f.port < s.ports ∧ s.cf.u (0x3020 + f.port) 1 0 1 ≠ 0 ∧ f.domain = s.cf.u (0x3020 + f.port) 3 0 1 ∧ f.msgType = 0x0B ∧ (∀ d who, (s.ptpP f.port).best = some (d, who) → who = f.sender ∨ PtpDs.better f.ds d = true) :=
  ⟨1, { port := 5, msgType := 0x0B, domain := 0, seqId := 4, sender := 9, ds := { priority1 := 128, clockClass := 6, accuracy := 0x21, variance := 5, priority2 := 128, gmId := 77, steps := 1 }, utcOffset := some 37, leap := 0, tlvNs := none, twoStep := false, origin := 300, turnaround := 20 }, { mode := { cur := .standby }, cfg := (wCfg [(0x3025, 1, 0, [1#8])]) }, rfl, by decide +kernel, by decide +kernel, by decide +kernel, rfl, fun _ _ h => nomatch h⟩

theorem witness_TimeSourcesAreRead_2 : ∃ (dt : Nat) (f : PtpMsg) (s : State) (d : PtpDs), s.runs = true ∧ f.port < s.ports ∧ s.cf.u (0x3020 + f.port) 1 0 1 ≠ 0 ∧ f.domain = s.cf.u (0x3020 + f.port) 3 0 1 ∧ f.msgType = 0 ∧ (s.ptpP f.port).best = some (d, f.sender) :=
  ⟨1, { ({ port := 5, msgType := 0x0B, domain := 0, seqId := 4, sender := 9, ds := { priority1 := 128, clockClass := 6, accuracy := 0x21, variance := 5, priority2 := 128, gmId := 77, steps := 1 }, utcOffset := some 37, leap := 0, tlvNs := none, twoStep := false, origin := 300, turnaround := 20 } : PtpMsg) with msgType := 0 }, { mode := { cur := .standby }, time := { ptp := [(5, { announceAt := some 0, state := 9, peerDelay := 40, best := some ({ priority1 := 128, clockClass := 6, accuracy := 0x21, variance := 5, priority2 := 128, gmId := 77, steps := 1 }, 9) })] }, cfg := (wCfg [(0x3025, 1, 0, [1#8])]) }, { priority1 := 128, clockClass := 6, accuracy := 0x21, variance := 5, priority2 := 128, gmId := 77, steps := 1 }, by decide +kernel⟩

theorem witness_TimeSourcesAreRead_3 : ∃ (dt : Nat) (f : PtpMsg) (s : State) (d : PtpDs) (e : TsEntry) (r : List TsEntry), s.runs = true ∧ f.port < s.ports ∧ s.cf.u (0x3020 + f.port) 1 0 1 ≠ 0 ∧ f.domain = s.cf.u (0x3020 + f.port) 3 0 1 ∧ f.msgType = 0 ∧ f.twoStep = false ∧ (s.ptpP f.port).best = some (d, f.sender) ∧ d.clockClass < 248 ∧ (s.ptpP f.port).state = 9 ∧ (s.ptpP f.port).announceAt.isSome = true ∧ (s.prt f.port).tsq = e :: r ∧ e.tx = false ∧ e.kind = 0 ∧ e.domain = f.domain ∧ e.seqId = f.seqId ∧ e.stamp.gen = s.time.gen :=
  ⟨1, { ({ port := 5, msgType := 0x0B, domain := 0, seqId := 4, sender := 9, ds := { priority1 := 128, clockClass := 6, accuracy := 0x21, variance := 5, priority2 := 128, gmId := 77, steps := 1 }, utcOffset := some 37, leap := 0, tlvNs := none, twoStep := false, origin := 300, turnaround := 20 } : PtpMsg) with msgType := 0 }, { mode := { cur := .standby }, port := [(5, { tsq := [{ tx := false, kind := 0, domain := 0, seqId := 4, stamp := ⟨0#16, 1000⟩ }] })], time := { ptp := [(5, { announceAt := some 0, state := 9, peerDelay := 40, best := some ({ priority1 := 128, clockClass := 6, accuracy := 0x21, variance := 5, priority2 := 128, gmId := 77, steps := 1 }, 9) })] }, cfg := (wCfg [(0x3025, 1, 0, [1#8])]) }, { priority1 := 128, clockClass := 6, accuracy := 0x21, variance := 5, priority2 := 128, gmId := 77, steps := 1 }, { tx := false, kind := 0, domain := 0, seqId := 4, stamp := ⟨0#16, 1000⟩ }, [], by decide +kernel⟩

theorem witness_TimeSourcesAreRead_4 : ∃ (dt : Nat) (f : PtpMsg) (s : State) (d : PtpDs) (rx : Stamp), s.runs = true ∧ f.port < s.ports ∧ s.cf.u (0x3020 + f.port) 1 0 1 ≠ 0 ∧ f.domain = s.cf.u (0x3020 + f.port) 3 0 1 ∧ f.msgType = 8 ∧ (s.ptpP f.port).best = some (d, f.sender) ∧ (s.ptpP f.port).synced = some (f.seqId, rx) ∧ rx.gen = s.time.gen :=
  ⟨1, { ({ port := 5, msgType := 0x0B, domain := 0, seqId := 4, sender := 9, ds := { priority1 := 128, clockClass := 6, accuracy := 0x21, variance := 5, priority2 := 128, gmId := 77, steps := 1 }, utcOffset := some 37, leap := 0, tlvNs := none, twoStep := false, origin := 300, turnaround := 20 } : PtpMsg) with msgType := 8 }, { mode := { cur := .standby }, time := { ptp := [(5, { announceAt := some 0, state := 9, peerDelay := 40, best := some ({ priority1 := 128, clockClass := 6, accuracy := 0x21, variance := 5, priority2 := 128, gmId := 77, steps := 1 }, 9), synced := some (4, ⟨0#16, 900⟩) })] }, cfg := (wCfg [(0x3025, 1, 0, [1#8])]) }, { priority1 := 128, clockClass := 6, accuracy := 0x21, variance := 5, priority2 := 128, gmId := 77, steps := 1 }, ⟨0#16, 900⟩, by decide +kernel⟩

theorem witness_TimeSourcesAreRead_5 : ∃ (dt : Nat) (f : PtpMsg) (s : State) (a : Stamp) (b : Stamp), s.runs = true ∧ f.port < s.ports ∧ s.cf.u (0x3020 + f.port) 1 0 1 ≠ 0 ∧ f.domain = s.cf.u (0x3020 + f.port) 3 0 1 ∧ f.msgType = 0x0A ∧ (s.ptpP f.port).answered = some (f.seqId, a, b) ∧ a.gen = b.gen :=
  ⟨1, { ({ port := 5, msgType := 0x0B, domain := 0, seqId := 4, sender := 9, ds := { priority1 := 128, clockClass := 6, accuracy := 0x21, variance := 5, priority2 := 128, gmId := 77, steps := 1 }, utcOffset := some 37, leap := 0, tlvNs := none, twoStep := false, origin := 300, turnaround := 20 } : PtpMsg) with msgType := 0x0A }, { mode := { cur := .standby }, time := { ptp := [(5, { announceAt := some 0, state := 9, peerDelay := 40, best := some ({ priority1 := 128, clockClass := 6, accuracy := 0x21, variance := 5, priority2 := 128, gmId := 77, steps := 1 }, 9), answered := some (4, ⟨0#16, 900⟩, ⟨0#16, 1021⟩) })] }, cfg := (wCfg [(0x3025, 1, 0, [1#8])]) }, ⟨0#16, 900⟩, ⟨0#16, 1021⟩, by decide +kernel⟩

theorem witness_TimeSourcesAreRead_6 : ∃ (dt : Nat) (p : Nat) (s : State), s.runs = true ∧ p < s.ports ∧ s.cf.u (0x3020 + p) 1 0 1 ≠ 0 :=
  ⟨3000000000, 5, { mode := { cur := .standby }, time := { ptp := [(5, { announceAt := some 0, state := 9, peerDelay := 40, best := some ({ priority1 := 128, clockClass := 6, accuracy := 0x21, variance := 5, priority2 := 128, gmId := 77, steps := 1 }, 9), syncAt := some 0 })] }, cfg := (wCfg [(0x3025, 1, 0, [1#8])]) }, by decide +kernel⟩

theorem witness_TimeSourcesAreRead_7 : ∃ (dt : Nat) (p : Nat) (dom : Nat) (seq : Nat) (s : State), s.runs = true ∧ s.portRuns p = true ∧ (s.prt p).up = true ∧ s.cf.u (0x3020 + p) 1 0 1 ≠ 0 ∧ s.queueFull (97 + 4 * p) = false ∧ 72 ≤ s.maxFrame p 0 :=
  ⟨1, 5, 0, 7, { mode := { cur := .standby }, port := [(5, { up := true })], cfg := (wCfg [(0x3025, 1, 0, [1#8])]) }, by decide +kernel⟩

theorem witness_TimeSourcesAreRead_8 : ∃ (dt : Nat) (p : Nat) (dom : Nat) (seq : Nat) (k : Nat) (s : State), s.runs = true ∧ s.portRuns p = true ∧ (s.prt p).up = true ∧ s.cf.u (0x3020 + p) 1 0 1 ≠ 0 ∧ s.queueFull (97 + 4 * p) = false ∧ 82 ≤ s.maxFrame p 0 ∧ (k = 0 ∨ k = 0x0B) :=
  ⟨1, 5, 0, 7, 11, { mode := { cur := .standby }, time := { ptp := [(5, { state := 6 })] }, port := [(5, { up := true })], cfg := (wCfg [(0x3025, 1, 0, [1#8])]) }, by decide +kernel⟩

theorem witness_TimeSourcesAreRead_9 : ∃ (dt : Nat) (v : Nat) (width : Nat) (s : State), s.runs = true ∧ 1000 ≤ width ∧ width ≤ 500000000 ∧ s.time.ppsLast = some v ∧ v + 999990000 ≤ s.elapsed + dt ∧ s.elapsed + dt ≤ v + 1000010000 :=
  ⟨1000010000, 0, 1000, { time := { ppsLast := some 0, sources := [(8, { utc := some 37, qualified := true, validSince := some 0 })] } }, by decide +kernel⟩

theorem witness_TimeSourcesAreRead_10 : ∃ (dt : Nat) (v : Nat) (width : Nat) (s : State), s.runs = true ∧ 1000 ≤ width ∧ width ≤ 500000000 ∧ s.time.ppsLast = some v ∧ (s.elapsed + dt < v + 999990000 ∨ v + 1000010000 < s.elapsed + dt) :=
  ⟨1000010001, 0, 500000000, { time := { ppsLast := some 0 } }, by decide +kernel⟩

theorem witness_TimeSourcesAreRead_11 : ∃ (dt : Nat) (width : Nat) (s : State), s.runs = true ∧ (width < 1000 ∨ 500000000 < width) :=
  ⟨1000010001, 500000001, { time := { ppsLast := some 0 } }, by decide +kernel⟩

theorem witness_TimeSourcesAreRead_12 : ∃ (dt : Nat) (v : Nat) (x : IrigExt) (f : IrigFrame) (s : State), s.runs = true ∧ s.cf.u 0x3030 2 0 1 ≠ 0 ∧ f.decodes = true ∧ f.ext = some x ∧ s.time.irigLast = some v ∧ f.ago ≤ s.elapsed + dt ∧ v + 999990000 ≤ s.elapsed + dt - f.ago ∧ s.elapsed + dt - f.ago ≤ v + 1000010000 :=
  ⟨1000010100, 0, { year := 26, utcOffset := 37, leap := 0, quality := 4 }, { decodes := true, ago := 100, day := 3, second := 7, ext := some { year := 26, utcOffset := 37, leap := 0, quality := 4 } }, { time := { irigLast := some 0 }, cfg := wCfg [(0x3030, 2, 0, [1#8])] }, by decide +kernel⟩

theorem witness_TimeSourcesAreRead_13 : ∃ (dt : Nat) (f : IrigFrame) (s : State), s.runs = true ∧ s.cf.u 0x3030 2 0 1 ≠ 0 ∧ f.decodes = false :=
  ⟨1, { ({ decodes := true, ago := 100, day := 3, second := 7, ext := some { year := 26, utcOffset := 37, leap := 0, quality := 4 } } : IrigFrame) with decodes := false }, { cfg := wCfg [(0x3030, 2, 0, [1#8])] }, by decide +kernel⟩

theorem witness_LeapSecondsAct_1 : ∃ (dt : Nat) (s : State), s.runs = true ∧ s.time.leap ≠ 0 ∧ s.time.leapAt ≤ (s.tick dt).time.tai + 60000000000 :=
  ⟨1, { time := { leap := 1, leapAt := 60000000001 } }, by decide +kernel⟩

theorem witness_LeapSecondsAct_2 : ∃ (dt : Nat) (s : State), s.runs = true ∧ (s.time.leap = 1 ∨ s.time.leap = 2) ∧ s.time.leapAt ≤ (s.tick dt).time.tai :=
  ⟨1, { time := { leap := 2, leapAt := 1 } }, by decide +kernel⟩

theorem witness_LeapSecondsAct_3 : ∃ (dt : Nat) (s : State), s.runs = true ∧ s.time.leapDone = true ∧ s.time.leapDoneAt + 86400000000000 ≤ s.elapsed + dt :=
  ⟨86400000000000, { time := { leapDone := true } }, by decide +kernel⟩

theorem witness_LeapSecondsAct_4 : ∃ (dt : Nat) (s : State), s.runs = true ∧ s.cf.u 0x3040 6 0 1 = 1 ∧ (s.tick dt).time.tai % 1000000000 = 0 :=
  ⟨1000000000, { mode := { cur := .standby }, cfg := wCfg [(0x3040, 6, 0, [1#8])] }, by decide +kernel⟩

theorem witness_ReceivedFramesAreSteered_1 : ∃ (dt : Nat) (p : Nat) (f : Frame) (c : Cf) (s : State), s.runs = true ∧ s.portRuns p = true ∧ (s.prt p).up = true ∧ s.mode.cur ≠ .quickset ∧ f.pcsErrors = 0 ∧ ((s.tick dt).cfFor (s.tick dt).now).1 = c ∧ (frameLen f.bytes ≤ 63 ∨ longest c p (tagCount f.bytes) < frameLen f.bytes ∨ f.fcsOk = false) :=
  ⟨1, 5, { bytes := zeros 6 ++ zeros 6 ++ toBE 2 0x0800 ++ zeros 45, fcsOk := true, pcsErrors := 0, pcsInside := false }, ⟨0, []⟩, { mode := { cur := .standby }, port := [(5, { up := true })] }, by decide +kernel⟩

theorem witness_ReceivedFramesAreSteered_2 : ∃ (dt : Nat) (p : Nat) (q : Nat) (f : Frame) (c : Cf) (s : State), s.runs = true ∧ s.portRuns p = true ∧ (s.prt p).up = true ∧ s.mode.cur.ingests = true ∧ f.pcsErrors = 0 ∧ f.fcsOk = true ∧ ((s.tick dt).cfFor (s.tick dt).now).1 = c ∧ 64 ≤ frameLen f.bytes ∧ frameLen f.bytes ≤ longest c p (tagCount f.bytes) ∧ frameType f.bytes ≠ 0x8808 ∧ (destClass p (field f.bytes 0 6) = 3 → portF c p 4 1 = 1) ∧ filterFor c p f.bytes = none ∧ portF c p 8 1 = q ∧ q < 16 ∧ (consumerOf c p q = 1 ∨ consumerOf c p q = 2) ∧ consumerTakes (consumerOf c p q) f.bytes = true ∧ s.queueFull (16 * p + q) = false ∧ s.portBuffer p + frameLen f.bytes ≤ 268435456 :=
  ⟨1, 5, 2, { bytes := toBE 6 0xFFFFFFFFFFFF ++ zeros 6 ++ toBE 2 0x1234 ++ zeros 1500, fcsOk := true, pcsErrors := 0, pcsInside := false }, ⟨0, (wCfg [(0x2015, 8, 0, [2#8])]).live⟩, { mode := { cur := .standby }, port := [(5, { up := true })], cfg := wCfg [(0x2015, 8, 0, [2#8])] }, rfl, by decide +kernel, by decide +kernel, rfl, rfl, rfl, rfl, by decide +kernel, by decide +kernel, by decide +kernel, by intro h; exfalso; revert h; unfold destClass; split <;> decide +kernel, by decide +kernel, by decide +kernel, by decide, by decide +kernel, by decide +kernel, by decide +kernel, by decide +kernel⟩

theorem witness_ReceivedFramesAreSteered_3 : ∃ (dt : Nat) (p : Nat) (k : Nat) (e : Nat) (f : Frame) (c : Cf) (s : State), s.runs = true ∧ s.portRuns p = true ∧ (s.prt p).up = true ∧ s.mode.cur ≠ .quickset ∧ f.pcsErrors = 0 ∧ f.fcsOk = true ∧ ((s.tick dt).cfFor (s.tick dt).now).1 = c ∧ 64 ≤ frameLen f.bytes ∧ frameLen f.bytes ≤ longest c p (tagCount f.bytes) ∧ frameType f.bytes ≠ 0x8808 ∧ (destClass p (field f.bytes 0 6) = 3 → portF c p 4 1 = 1) ∧ filterFor c p f.bytes = some (k, e) ∧ bit e 21 = true :=
  ⟨1, 5, 1, 0x8000000000200000, { bytes := toBE 6 0xFFFFFFFFFFFF ++ zeros 6 ++ toBE 2 0x88BA ++ zeros 1500, fcsOk := true, pcsErrors := 0, pcsInside := false }, ⟨0, (wCfg [(0x2045, 1, 0, toBE 8 0x8000000000200000)]).live⟩, { mode := { cur := .standby }, port := [(5, { up := true })], cfg := wCfg [(0x2045, 1, 0, toBE 8 0x8000000000200000)] }, rfl, by decide +kernel, by decide +kernel, by decide, rfl, rfl, rfl, by decide +kernel, by decide +kernel, by decide +kernel, by intro h; exfalso; revert h; unfold destClass; split <;> decide +kernel, by decide +kernel, by decide +kernel⟩

theorem witness_ReceivedFramesAreSteered_4 : ∃ (dt : Nat) (p : Nat) (src : Nat) (ident : Nat) (r : Reasm) (s : State), s.runs = true ∧ s.mode.cur ≠ .quickset ∧ r ∈ (s.prt p).reasm ∧ r.src = src ∧ r.ident = ident ∧ r.start + 2000000000 ≤ s.elapsed + dt ∧ (∀ x ∈ (s.prt p).reasm, x.src = src → x.ident = ident → x = r) ∧ (s.prt p).reasm.Nodup :=
  ⟨2000000000, 5, 9, 7, { src := 9, dst := 1, proto := 17, ident := 7, start := 0 }, { mode := { cur := .standby }, port := [(5, { up := true, reasm := [{ src := 9, dst := 1, proto := 17, ident := 7, start := 0 }, { ({ src := 9, dst := 1, proto := 17, ident := 7, start := 0 } : Reasm) with src := 8 }] })] }, by decide +kernel⟩

theorem witness_FramesAreSent_1 : ∃ (dt : Nat) (p : Nat) (e : Nat) (b : Bytes) (s : State), s.runs = true ∧ s.portRuns p = true ∧ (s.prt p).up = true ∧ s.mode.cur ≠ .quickset ∧ s.osr.outbox = [] ∧ (s.prt p).sending = some b ∧ (s.prt p).pauseEnd = some e :=
  ⟨1, 5, 500, zeros 60, { mode := { cur := .standby }, port := [(5, { up := true, sending := some (zeros 60), pauseEnd := some 500 })] }, by decide +kernel⟩

theorem witness_FramesAreSent_2 : ∃ (dt : Nat) (p : Nat) (c : Nat) (it : Bytes) (b : Bytes) (r : List Bytes) (d : List Bytes) (s : State), s.runs = true ∧ s.portRuns p = true ∧ (s.prt p).up = true ∧ s.osr.outbox = [] ∧ (s.prt p).sending = none ∧ (s.prt p).pauseEnd = none ∧ c < 4 ∧ (∀ k, k < c → s.qlen (96 + 4 * p + k) = 0) ∧ (s.queue (96 + 4 * p + c)).items = it :: r ∧ (s.queue (96 + 4 * p + c)).data = b :: d ∧ s.fenced 9 ((96 + 4 * p + c) / 16) = false ∧ field it 3 1 = 0 :=
  ⟨1, 5, 3, ([0#8, 0#8, 1#8, 0#8] ++ zeros 60), zeros 61, [], [], { mode := { cur := .standby }, port := [(5, { up := true })], store := { queues := [(119, { items := [([0#8, 0#8, 1#8, 0#8] ++ zeros 60)], data := [zeros 61], head := 1 })] } }, by decide +kernel⟩

theorem witness_FramesAreSent_3 : ∃ (dt : Nat) (p : Nat) (ip : Nat) (udp : Nat) (e : Nat) (msg : Bytes) (s : State), s.runs = true ∧ s.portRuns p = true ∧ (s.prt p).up = true ∧ s.osr.outbox = [(.port p ip udp, msg)] ∧ (s.prt p).pauseEnd = some e ∧ s.queueFull (99 + 4 * p) = false ∧ msg.length + 46 ≤ s.maxFrame p 0 :=
  ⟨1, 5, 1, 2, 500, zeros 30, { mode := { cur := .standby }, port := [(5, { up := true, pauseEnd := some 500 })], osr := { outbox := [(wVia, zeros 30)] } }, by decide +kernel⟩

theorem witness_FramesAreSent_4 : ∃ (dt : Nat) (p : Nat) (x : OffloadSend) (s : State), s.runs = true ∧ s.portRuns p = true ∧ s.mode.cur ≠ .quickset ∧ x.payload.length ≤ 65536 ∧ x.template.length ≤ 128 ∧ 0 < x.mss ∧ x.template.length + 4 < s.maxFrame p (tagCount x.template) :=
  ⟨1, 5, { template := (zeros 12 ++ toBE 2 0x0800) ++ (toBE 1 0x45 ++ zeros 5 ++ toBE 2 0x4000 ++ zeros 12) ++ zeros 12 ++ toBE 2 0x5018 ++ zeros 6, payload := zeros 3000, mss := 1460 }, { mode := { cur := .standby }, port := [(5, { up := true })] }, by decide +kernel⟩

theorem witness_FramesAreSent_5 : ∃ (dt : Nat) (p : Nat) (x : OffloadSend) (s : State), s.runs = true ∧ s.portRuns p = true ∧ (s.prt p).up = true ∧ s.queueFull (99 + 4 * p) = false ∧ x.payload.length ≤ s.room p x.template ∧ x.payload.length ≤ 65507 ∧ s.maxFrame p (tagCount (padFrame (udpFrame x))) ≥ frameLen (padFrame (udpFrame x)) :=
  ⟨1, 5, { template := (zeros 12 ++ toBE 2 0x0800) ++ (toBE 1 0x45 ++ zeros 5 ++ toBE 2 0 ++ zeros 12) ++ zeros 8, payload := zeros 1000, mss := 0 }, { mode := { cur := .standby }, port := [(5, { up := true })] }, by decide +kernel⟩

theorem witness_FramesAreSent_6 : ∃ (dt : Nat) (p : Nat) (x : OffloadSend) (s : State), s.runs = true ∧ s.portRuns p = true ∧ s.mode.cur ≠ .quickset ∧ s.room p x.template < x.payload.length ∧ bit (field (offHead x.template).2.1 6 2) 14 = true :=
  ⟨1, 5, { template := (zeros 12 ++ toBE 2 0x0800) ++ (toBE 1 0x45 ++ zeros 5 ++ toBE 2 0x4000 ++ zeros 12) ++ zeros 8, payload := zeros 3000, mss := 0 }, { mode := { cur := .standby }, port := [(5, { up := true })] }, by decide +kernel⟩

theorem witness_FramesAreSent_7 : ∃ (dt : Nat) (p : Nat) (x : OffloadSend) (s : State), s.runs = true ∧ s.portRuns p = true ∧ s.mode.cur ≠ .quickset ∧ s.room p x.template < x.payload.length ∧ x.payload.length ≤ 65507 ∧ bit (field (offHead x.template).2.1 6 2) 14 = false ∧ (offHead x.template).2.2.length = 8 ∧ (offHead x.template).1.length + 72 ≤ s.maxFrame p (tagCount x.template) :=
  ⟨1, 5, { template := (zeros 12 ++ toBE 2 0x0800) ++ (toBE 1 0x45 ++ zeros 5 ++ toBE 2 0 ++ zeros 12) ++ zeros 8, payload := zeros 3000, mss := 0 }, { mode := { cur := .standby }, port := [(5, { up := true })] }, by decide +kernel⟩

theorem witness_LinksAndPauseAct_1 : ∃ (dt : Nat) (p : Nat) (rate : Nat) (s : State), s.runs = true ∧ s.portRuns p = true ∧ (s.prt p).up = false ∧ s.fenced 17 p = false :=
  ⟨1, 5, 3, { mode := { cur := .standby } }, by decide +kernel⟩

theorem witness_LinksAndPauseAct_2 : ∃ (dt : Nat) (p : Nat) (rate : Nat) (s : State), s.runs = true ∧ s.portRuns p = true ∧ (s.prt p).up = false ∧ s.fenced 17 p = false ∧ s.negotiates p = true :=
  ⟨1, 5, 3, { mode := { cur := .standby }, cfg := wCfg [(0x2015, 1, 0, [2#8]), (0x2015, 2, 0, [1#8])] }, by decide +kernel⟩

theorem witness_LinksAndPauseAct_3 : ∃ (dt : Nat) (p : Nat) (m : Nat) (s : State), s.runs = true ∧ s.portRuns p = true ∧ (s.prt p).up = true ∧ s.mode.cur ≠ .quickset ∧ (s.osr.outbox.filter (fun x => match x.1 with | .port q _ _ => decide (q = p) | .uart => false)).length = m :=
  ⟨1, 5, 1, { mode := { cur := .standby }, port := [(5, { up := true })], osr := { outbox := [(wVia, zeros 30)] } }, by decide +kernel⟩

theorem witness_LinksAndPauseAct_4 : ∃ (dt : Nat) (p : Nat) (dst : Nat) (quanta : Nat) (s : State), s.runs = true ∧ s.portRuns p = true ∧ (s.prt p).up = true ∧ s.mode.cur ≠ .quickset ∧ s.pcfg p 5 1 = 1 ∧ (s.prt p).holdoff = none ∧ 0 < quanta ∧ (dst = 0x0180C2000001 ∨ dst = portMac p) :=
  ⟨1, 5, 0x0180C2000001, 65535, { mode := { cur := .standby }, port := [(5, { up := true })], cfg := wCfg [(0x2015, 5, 0, [1#8])] }, by decide +kernel⟩

theorem witness_LinksAndPauseAct_5 : ∃ (dt : Nat) (p : Nat) (dst : Nat) (op : Nat) (quanta : Nat) (s : State), s.runs = true ∧ s.portRuns p = true ∧ (s.prt p).up = true ∧ s.mode.cur ≠ .quickset ∧ op ≠ 1 :=
  ⟨1, 5, 0x0180C2000001, 2, 65535, { mode := { cur := .standby }, port := [(5, { up := true })] }, by decide +kernel⟩

theorem witness_LinksAndPauseAct_6 : ∃ (dt : Nat) (p : Nat) (f : Frame) (s : State), s.runs = true ∧ s.portRuns p = true ∧ (s.prt p).up = true ∧ s.mode.cur ≠ .quickset ∧ s.pcfg p 5 1 = 1 ∧ (s.prt p).holdoff = none ∧ f.pcsErrors = 0 ∧ f.fcsOk = true ∧ 64 ≤ frameLen f.bytes ∧ frameLen f.bytes ≤ longest ((s.tick dt).cfFor (s.tick dt).now).1 p 0 ∧ tagCount f.bytes = 0 ∧ frameType f.bytes = 0x8808 ∧ field f.bytes 0 6 = 0x0180C2000001 ∧ field f.bytes 14 2 = 1 ∧ 0 < field f.bytes 16 2 :=
  ⟨1, 5, { bytes := toBE 6 0x0180C2000001 ++ zeros 6 ++ toBE 2 0x8808 ++ toBE 2 1 ++ toBE 2 9 ++ zeros 60, fcsOk := true, pcsErrors := 0, pcsInside := false }, { mode := { cur := .standby }, port := [(5, { up := true })], cfg := wCfg [(0x2015, 5, 0, [1#8])] }, by decide +kernel⟩

theorem witness_LinksAndPauseAct_7 : ∃ (dt : Nat) (p : Nat) (e : Nat) (s : State), s.runs = true ∧ s.mode.cur ≠ .quickset ∧ (s.prt p).pauseEnd = some e ∧ e ≤ s.elapsed + dt :=
  ⟨1, 5, 1, { mode := { cur := .standby }, port := [(5, { up := true, pauseEnd := some 1 })] }, by decide +kernel⟩

theorem witness_LinksAndPauseAct_8 : ∃ (dt : Nat) (p : Nat) (e : Nat) (s : State), s.runs = true ∧ p < s.ports ∧ s.mode.cur ≠ .quickset ∧ (s.prt p).pauseEnd = some e ∧ (s.prt p).episode + s.pcfg p 6 2 * 1000000 ≤ s.elapsed + dt ∧ (s.prt p).episode + s.pcfg p 6 2 * 1000000 ≤ e :=
  ⟨60000000000, 5, 60000000001, { mode := { cur := .standby }, port := [(5, { up := true, pauseEnd := some 60000000001, episode := 0 })] }, by decide +kernel⟩

theorem witness_LinksAndPauseAct_9 : ∃ (dt : Nat) (p : Nat) (e : Nat) (s : State), s.runs = true ∧ (s.prt p).holdoff = some e ∧ e ≤ s.elapsed + dt :=
  ⟨1, 5, 1, { mode := { cur := .standby }, port := [(5, { up := true, holdoff := some 1 })] }, by decide +kernel⟩

theorem witness_SourceFramesAreTaken_1 : ∃ (dt : Nat) (k : Nat) (tr : Nat) (x : C37Rx) (a : Bytes) (p : CfgP) (s : State), s.runs = true ∧ s.ingestRuns = true ∧ SoundC37 x 0 ∧ (s.matchCtx x = some k) ∧ s.fenced 1 (k / 512) = false ∧ (s.ctx k).accepted = some a ∧ (s.ctx k).pending = none ∧ (s.ctx k).since = none ∧ parseCfg (ctxThree s.cf k) a = some p ∧ (s.tick dt).dataChecks (s.ctx k) p x.bytes ((s.tick dt).rxNs x) = (0, tr) :=
  ⟨1, 3, 137000000000, wRx wData, wCfg2, (parseCfg false wCfg2).getD ⟨0, [], 0, []⟩, wCtx { accepted := some wCfg2 }, by decide +kernel⟩

theorem witness_SourceFramesAreTaken_2 : ∃ (dt : Nat) (k : Nat) (x : C37Rx) (b : Bytes) (s : State), s.runs = true ∧ s.ingestRuns = true ∧ SoundC37 x 0 ∧ (s.matchCtx x = some k) ∧ s.fenced 1 (k / 512) = false ∧ (s.ctx k).pending = some b :=
  ⟨1, 3, wRx wData, wCfg2, wCtx { pending := some wCfg2 }, by decide +kernel⟩

theorem witness_SourceFramesAreTaken_3 : ∃ (dt : Nat) (x : C37Rx) (s : State), s.runs = true ∧ s.ingestRuns = true ∧ 16 ≤ x.bytes.length ∧ field x.bytes 0 1 = 0xAA ∧ field x.bytes 1 1 = 0x01 ∧ field x.bytes 2 2 = x.bytes.length ∧ crc16 x.bytes.dropLast.dropLast ≠ field x.bytes (x.bytes.length - 2) 2 :=
  ⟨1, wRx (wData.dropLast ++ [0#8]), wCtx { accepted := some wCfg2 }, by decide +kernel⟩

theorem witness_SourceFramesAreTaken_4 : ∃ (dt : Nat) (x : C37Rx) (s : State), s.runs = true ∧ s.ingestRuns = true ∧ x.transport = 1 ∧ field x.bytes 0 1 ≠ 0xAA ∧ (s.ctx x.via).tcp = true :=
  ⟨1, ⟨1, 0x0A000001, 5, 3, zeros 20⟩, wCtx { tcp := true } 3 1, by decide +kernel⟩

theorem witness_SourceFramesAreTaken_5 : ∃ (dt : Nat) (k : Nat) (x : C37Rx) (s : State), s.runs = true ∧ s.ingestRuns = true ∧ (SoundC37 x (if ctxThree s.cf k then 5 else 3)) ∧ (s.matchCtx x = some k) ∧ s.fenced 1 (k / 512) = false ∧ (s.ctx k).accepted = none ∧ (s.ctx k).pending = none ∧ bit (ctxF s.cf k 0 1) 2 = false :=
  ⟨1, 3, wRx wCfg2, wCtx {}, by decide +kernel⟩

theorem witness_SourceFramesAreTaken_6 : ∃ (dt : Nat) (k : Nat) (x : C37Rx) (s : State), s.runs = true ∧ s.ingestRuns = true ∧ SoundC37 x 1 ∧ (s.matchCtx x = some k) ∧ s.fenced 1 (k / 512) = false :=
  ⟨1, 3, wRx (wC37 0xAA11 7 100 0 (zeros 4)), wCtx { accepted := some wCfg2 }, by decide +kernel⟩

theorem witness_StreamsAreFollowed_1 : ∃ (dt : Nat) (k : Nat) (s : State), s.runs = true ∧ s.ingestRuns = true ∧ ctxValid s.cf k = true ∧ ctxF s.cf k 1 1 = 1 ∧ (s.ctx k).trying = true :=
  ⟨1, 3, wCtx { trying := true } 3 1, by decide +kernel⟩

theorem witness_StreamsAreFollowed_2 : ∃ (dt : Nat) (k : Nat) (s : State), s.runs = true ∧ s.mode.cur.ingests = true ∧ (s.ctx k).tcp = true :=
  ⟨1, 3, wCtx { tcp := true } 3 1, by decide +kernel⟩

theorem witness_StreamsAreFollowed_3 : ∃ (dt : Nat) (k : Nat) (s : State), s.runs = true ∧ s.ingestRuns = true ∧ ctxValid s.cf k = true ∧ ctxF s.cf k 1 1 = 0 ∧ ctxF s.cf k 4 4 ≠ 0 ∧ bit (ctxF s.cf k 0 1) 1 = true ∧ (∀ u, (s.ctx k).lastReq = some u → u + s.cf.u 0x4000 0x14 0 2 * 1000000000 ≤ s.elapsed + dt) ∧ (s.ctx k).accepted = none :=
  ⟨10000000000, 3, wCtx {}, by decide +kernel⟩

theorem witness_StreamsAreFollowed_4 : ∃ (dt : Nat) (k : Nat) (s : State), s.runs = true ∧ s.ingestRuns = true ∧ ctxValid s.cf k = true ∧ ctxF s.cf k 1 1 = 1 ∧ (s.ctx k).tcp = false ∧ (∀ u, (s.ctx k).lastReq = some u → u + s.cf.u 0x4000 0x14 0 2 * 1000000000 ≤ s.elapsed + dt) :=
  ⟨10000000000, 3, wCtx {} 3 1, by decide +kernel⟩

theorem witness_StreamsAreFollowed_5 : ∃ (dt : Nat) (r : Nat) (f : SvFrame) (a : Asdu) (s : State), s.runs = true ∧ s.mode.cur.ingests = true ∧ Table.getD s.rst.status 8 0 = 0 ∧ f.decodes = true ∧ f.simulate = false ∧ f.asdus = [a] ∧ (matchSv s.cf f a = some r) ∧ a.confRev = svF s.cf r 12 4 ∧ a.dataLen = 8 * svF s.cf r 18 1 ∧ a.samples.length = svF s.cf r 18 1 ∧ a.smpCnt < svRate (svF s.cf r 1 1) ∧ (s.svs r).next = some a.smpCnt :=
  ⟨1, 2, ⟨true, 0x4001, 0, false, [⟨[0x41#8], 79, 9, 2, 8, [(5, 0)]⟩]⟩, ⟨[0x41#8], 79, 9, 2, 8, [(5, 0)]⟩, { mode := { cur := .standby }, cfg := wCfg [(0x4200, 1, 128, toBE 1 1 ++ toBE 1 0 ++ toBE 2 0x4001), (0x4200, 1, 128 + 12, toBE 4 9 ++ toBE 2 0 ++ toBE 1 1), (0x4200, 1, 128 + 24, [0x41#8])], ing := { sv := [(2, { next := some 79 })] } }, by decide +kernel⟩

theorem witness_StreamsAreFollowed_6 : ∃ (dt : Nat) (k : Nat) (s : State), s.runs = true ∧ s.ingestRuns = true ∧ k < s.contexts ∧ ctxValid s.cf k = true ∧ (s.ctx k).lost = false ∧ (s.ctx k).lastAt + s.cf.u 0x4000 0x11 0 2 * 1000000 ≤ s.elapsed + dt :=
  ⟨60000000000, 3, wCtx {}, by decide +kernel⟩

theorem witness_StreamsAreFollowed_7 : ∃ (dt : Nat) (e : Nat) (tr : Stamp) (c : Cf) (s : State), s.runs = true ∧ s.chainRuns = true ∧ e < s.estimators ∧ s.fenced 3 (e / 16) = false ∧ (s.tick dt).earliest ((s.tick dt).estNext e) = some (tr, c) ∧ (estChans c e).all (s.windowDone c (estWindow c e) tr) = true :=
  ⟨1, 2, ⟨0#16, 20000000⟩, ⟨0, (wCfg [(0x5300, 1, 64, toBE 1 1 ++ toBE 1 50 ++ toBE 1 1 ++ zeros 5 ++ toBE 2 5)]).live⟩, { mode := { cur := .operate }, cfg := wCfg [(0x5300, 1, 64, toBE 1 1 ++ toBE 1 50 ++ toBE 1 1 ++ zeros 5 ++ toBE 2 5)], chain := { chan := [(5, { ys := [⟨⟨0#16, 0⟩, 0#32, 0#16, 0#16, 0⟩] })] } }, by decide +kernel⟩

theorem witness_SetsOpenAndClose_1 : ∃ (dt : Nat) (g : Nat) (tr : Nat) (s : State), s.runs = true ∧ s.aligns = true ∧ g < 16 ∧ s.fenced 4 (g / 4) = false ∧ s.groupNext g = some tr ∧ tr ≤ (s.tick dt).time.tai ∧ s.stopNs = none ∧ (∀ o ∈ (s.grpG g).open_, o.at_.ns ≠ tr) ∧ (∀ c ∈ (s.grpG g).closes, c.kind ≠ 0x20 → c.at_.ns ≠ tr) :=
  ⟨20000000, 2, 20000000, { mode := { cur := .operate }, cfg := wCfg [(0x6100, 1, 64, toBE 1 1 ++ toBE 1 50 ++ toBE 2 100 ++ toBE 2 0)] }, by decide +kernel⟩

theorem witness_SetsOpenAndClose_2 : ∃ (dt : Nat) (g : Nat) (cause : Nat) (seq : Seq) (tc : Int) (o : OpenSet) (s : State), s.runs = true ∧ g < 16 ∧ (s.grpG g).open_.find? (fun o => o.seq = seq) = some o ∧ agFlag (s.cfFor o.at_).1 g 2 = false ∧ o.closeAt (agF (s.cfFor o.at_).1 g 2 2) = (tc, cause) ∧ tc ≤ ((s.elapsed + dt : Nat) : Int) ∧ o.prov = none :=
  ⟨1000, 2, 0, 5#32, 1000, ⟨⟨0#16, 20000000⟩, 1000, 5#32, false, 50, [], [], none, false⟩, { mode := { cur := .operate }, cfg := wCfg [(0x6100, 1, 64, toBE 1 1 ++ toBE 1 50 ++ toBE 2 100 ++ toBE 2 0)], align := { group := [(2, { open_ := [⟨⟨0#16, 20000000⟩, 1000, 5#32, false, 50, [], [], none, false⟩], pubs := 4 })] } }, by decide +kernel⟩

theorem witness_SetsOpenAndClose_3 : ∃ (dt : Nat) (g : Nat) (cause : Nat) (seq : Seq) (tc : Int) (o : OpenSet) (s : State), s.runs = true ∧ g < 16 ∧ (s.grpG g).open_.find? (fun o => o.seq = seq) = some o ∧ agFlag (s.cfFor o.at_).1 g 2 = true ∧ o.prov = none ∧ o.lostRaised = false ∧ o.closeAt (agF (s.cfFor o.at_).1 g 2 2) = (tc, cause) ∧ o.base + msNs (agF (s.cfFor o.at_).1 g 4 2) ≤ ((s.elapsed + dt : Nat) : Int) ∧ ((s.elapsed + dt : Nat) : Int) < tc ∧ (s.tick dt).provisionalOk g (s.cfFor o.at_).1 o (o.base + msNs (agF (s.cfFor o.at_).1 g 4 2)) = true :=
  ⟨50001000, 2, 1, 5#32, 90001000, ⟨⟨0#16, 20000000⟩, 1000, 5#32, false, 50, [⟨3, true, true, true, true, 1, 90⟩, ⟨4, true, true, true, false, 1, 90⟩], [(3, false)], none, false⟩, { mode := { cur := .operate }, cfg := wCfg [(0x6100, 1, 64, toBE 1 5 ++ toBE 1 50 ++ toBE 2 100 ++ toBE 2 50)], align := { group := [(2, { open_ := [⟨⟨0#16, 20000000⟩, 1000, 5#32, false, 50, [⟨3, true, true, true, true, 1, 90⟩, ⟨4, true, true, true, false, 1, 90⟩], [(3, false)], none, false⟩] })] } }, by decide +kernel⟩

theorem witness_SetsOpenAndClose_4 : ∃ (dt : Nat) (n : Nat) (m : Msg) (v : List (BitVec 8)) (s : State) (x : Session), s.runs = true ∧ TakesWrite (s.tick dt) m x 0x6000 3 v n ∧ n < s.contexts :=
  ⟨1, 3, wMsg, toBE 2 3, { wIn .standby with align := { lat := [(3, { last := 5 }), (4, { last := 6 })] } }, wX, by decide +kernel⟩

theorem witness_OscillationEngineActs_1 : ∃ (dt : Nat) (g : Nat) (cl : Close) (s : State), s.runs = true ∧ s.oscRuns g = true ∧ (s.oscG g).due = none ∧ (s.oscG g).foDue = none ∧ (s.oscG g).seen = none ∧ (s.oscG g).redo = none ∧ (s.oscG g).from_ = none ∧ (s.nextFinal (fun c => if mgFlag c g 0 then some (mgGroup c g) else none) none (fun _ _ => true) = some cl) ∧ mgFlag (s.cfFor cl.at_).1 g 0 = true :=
  ⟨1, 1, wClose, { wGrp [(0x6810, 1, 64, toBE 1 5 ++ toBE 1 2 ++ toBE 1 10 ++ zeros 1 ++ toBE 2 30)] [wClose] with osc := [(1, {})] }, by decide +kernel⟩

theorem witness_OscillationEngineActs_2 : ∃ (dt : Nat) (g : Nat) (at_ : Stamp) (gen : BitVec 32) (s : State), s.runs = true ∧ s.oscRuns g = true ∧ (s.oscG g).due = some (at_, gen) :=
  ⟨1, 1, ⟨0#16, 20000000⟩, 4#32, { wGrp [(0x6810, 1, 64, toBE 1 5 ++ toBE 1 2 ++ toBE 1 10 ++ zeros 1 ++ toBE 2 30)] [wClose] with osc := [(1, { due := some (⟨0#16, 20000000⟩, 4#32) })] }, by decide +kernel⟩

theorem witness_OscillationEngineActs_3 : ∃ (dt : Nat) (g : Nat) (at_ : Stamp) (gen : BitVec 32) (s : State), s.runs = true ∧ s.oscRuns g = true ∧ (s.oscG g).foDue = some (at_, gen) :=
  ⟨1, 1, ⟨0#16, 20000000⟩, 4#32, { wGrp [(0x6810, 1, 64, toBE 1 5 ++ toBE 1 2 ++ toBE 1 10 ++ zeros 1 ++ toBE 2 30)] [wClose] with osc := [(1, { foDue := some (⟨0#16, 20000000⟩, 4#32) })] }, by decide +kernel⟩

theorem witness_OscillationEngineActs_4 : ∃ (dt : Nat) (g : Nat) (m : Msg) (v : List (BitVec 8)) (s : State) (x : Session), s.runs = true ∧ TakesWrite (s.tick dt) m x 0x6800 2 v g ∧ s.oscRuns g = true ∧ mgFlag s.cf g 0 = true :=
  ⟨1, 1, wMsg, [1#8], { wGrp [(0x6810, 1, 64, toBE 1 5 ++ toBE 1 2 ++ toBE 1 10 ++ zeros 1 ++ toBE 2 30)] [wClose] with osc := [(1, { state := 2, head := { seq := 7 } })] }, wX, by decide +kernel⟩

theorem witness_IslandingEngineActs_1 : ∃ (dt : Nat) (cl : Close) (s : State), s.runs = true ∧ s.islRuns = true ∧ s.isl.chain.last = none ∧ s.isl.redo = none ∧ s.isl.from_ = none ∧ s.islNext = some cl :=
  ⟨1, wClose, wGrp [(0x7010, 1, 0, [2#8]), (0x7010, 2, 0, [5#8])] [wClose], by decide +kernel⟩

theorem witness_IslandingEngineActs_2 : ∃ (dt : Nat) (g : Nat) (cl : Close) (s : State), s.runs = true ∧ s.islRuns = true ∧ s.islNext = none ∧ (s.nextPub (fun c => if islProv c then islTakes c else none) s.isl.provSeen (fun c => c.kind = 0x20) = some (g, cl)) ∧ s.isl.chain.last = none ∧ s.isl.from_ = none ∧ s.isl.redo = none :=
  ⟨1, 2, wClose 0x20, wGrp [(0x7010, 1, 0, [2#8]), (0x7010, 2, 0, [5#8])] [wClose 0x20], by decide +kernel⟩

theorem witness_IslandingEngineActs_3 : ∃ (dt : Nat) (n : Nat) (m : Msg) (v : List (BitVec 8)) (s : State) (x : Session), s.runs = true ∧ TakesWrite (s.tick dt) m x 0x7000 5 v n ∧ s.islAble = true ∧ s.islIn s.cf = true :=
  ⟨1, 1, wMsg, [1#8], { wGrp [(0x7010, 1, 0, [2#8]), (0x7010, 2, 0, [5#8])] [wClose] with isl := { chain := { reports := 4 } } }, wX, by decide +kernel⟩

theorem witness_AlarmsAct_1 : ∃ (dt : Nat) (a : Nat) (w : Waiting) (s : State), s.runs = true ∧ s.alarmRuns = true ∧ s.alm.inbox.find? (fun w => w.alarm = a) = some w ∧ w.final = false ∧ s.tooEarly w = false ∧ alFlag (s.cfFor w.d.at_).1 a 2 = true ∧ alF (s.cfFor w.d.at_).1 a 6 2 ≤ w.d.conf ∧ (s.alarmFor a w.d.at_).v < w.d.value :=
  ⟨1, 5, ⟨5, false, { value := 2, at_ := ⟨0#16, 20000000⟩, conf := 700 }⟩, { wGrp [(0x7810, 1, 80, toBE 1 5 ++ zeros 5 ++ toBE 2 500)] [] with alm := { inbox := [⟨5, false, { value := 2, at_ := ⟨0#16, 20000000⟩, conf := 700 }⟩], alarm := [(5, { v := 1 })] } }, by decide +kernel⟩

theorem witness_AlarmsAct_2 : ∃ (dt : Nat) (a : Nat) (w : Waiting) (s : State), s.runs = true ∧ s.alarmRuns = true ∧ s.alm.inbox.find? (fun w => w.alarm = a) = some w ∧ w.final = false ∧ s.tooEarly w = false ∧ alFlag (s.cfFor w.d.at_).1 a 2 = true ∧ w.d.conf < alF (s.cfFor w.d.at_).1 a 6 2 :=
  ⟨1, 5, ⟨5, false, { value := 2, at_ := ⟨0#16, 20000000⟩, conf := 400 }⟩, { wGrp [(0x7810, 1, 80, toBE 1 5 ++ zeros 5 ++ toBE 2 500)] [] with alm := { inbox := [⟨5, false, { value := 2, at_ := ⟨0#16, 20000000⟩, conf := 400 }⟩], alarm := [(5, { v := 1 })] } }, by decide +kernel⟩

theorem witness_AlarmsAct_3 : ∃ (dt : Nat) (a : Nat) (w : Waiting) (s : State), s.runs = true ∧ s.alarmRuns = true ∧ s.alm.inbox.find? (fun w => w.alarm = a) = some w ∧ w.final = true ∧ s.tooEarly w = false ∧ alFlag (s.cfFor w.d.at_).1 a 1 = false ∧ (s.alarmFor a w.d.at_).prov = false ∧ (s.alarmFor a w.d.at_).frozen = false :=
  ⟨1, 5, ⟨5, true, { value := 2, at_ := ⟨0#16, 20000000⟩, conf := 700 }⟩, { wGrp [(0x7810, 1, 80, toBE 1 5 ++ zeros 5 ++ toBE 2 500)] [] with alm := { inbox := [⟨5, true, { value := 2, at_ := ⟨0#16, 20000000⟩, conf := 700 }⟩], alarm := [(5, { v := 1 })] } }, by decide +kernel⟩

theorem witness_AlarmsAct_4 : ∃ (dt : Nat) (a : Nat) (w : Waiting) (c : Instr) (s : State), c ∈ [Instr.alarmProvisionalDecision dt a, .alarmFinalReport dt a] ∧ s.runs = true ∧ s.alm.inbox.find? (fun w => w.alarm = a) = some w ∧ s.tooEarly w = true :=
  ⟨1, 5, ⟨5, true, { value := 2, at_ := ⟨0#16, 20000000⟩, conf := 700 }⟩, .alarmFinalReport 1 5, let s := { wGrp [(0x7810, 1, 80, toBE 1 5 ++ zeros 5 ++ toBE 2 500)] [] with alm := { inbox := [⟨5, true, { value := 2, at_ := ⟨0#16, 20000000⟩, conf := 700 }⟩], alarm := [(5, { v := 1 })] } }; { s with cfg := { s.cfg with waiting := [⟨7#32, [⟨cfgAddr 0x7810 1 81, 2#8⟩], ⟨0#16, 10000000⟩, ⟨0#16, 0⟩⟩] } }, by decide +kernel⟩

theorem witness_AlarmsAct_5 : ∃ (dt : Nat) (a : Nat) (e : Nat) (at_ : Stamp) (s : State), s.runs = true ∧ s.alarmRuns = true ∧ (s.alarm a).pulse = some (e, at_) ∧ e ≤ s.elapsed + dt ∧ (s.beforeChange at_ = false ∨ Table.find s.alm.old a = none) ∧ alFlag (s.cfFor { at_ with ns := at_.ns + alF (s.cfFor at_).1 a 12 2 * 1000000 }).1 a 1 = false ∧ (s.alarm a).prov = false :=
  ⟨1, 5, 1, ⟨0#16, 0⟩, { wGrp [(0x7810, 1, 80, toBE 1 5 ++ zeros 5 ++ toBE 2 500)] [] with alm := { inbox := [], alarm := [(5, { v := 1, vf := 1, pulse := some (1, ⟨0#16, 0⟩) })] } }, by decide +kernel⟩

theorem witness_AlarmsAct_6 : ∃ (dt : Nat) (a : Nat) (m : Msg) (v : List (BitVec 8)) (s : State) (x : Session), s.runs = true ∧ TakesWrite (s.tick dt) m x 0x7820 1 v a ∧ a < 512 ∧ a ∈ validAlarms s.cf ∧ s.beforeChange (s.tick dt).now = false :=
  ⟨1, 5, wMsg, toBE 2 5, { wGrp [(0x7810, 1, 80, toBE 1 5 ++ zeros 5 ++ toBE 2 500)] [] with alm := { inbox := [], alarm := [(5, { v := 2, vf := 1, peak := 3 })] } }, wX, by decide +kernel⟩

theorem witness_AlarmsAct_7 : ∃ (dt : Nat) (n : Nat) (m : Msg) (v : List (BitVec 8)) (s : State) (x : Session), s.runs = true ∧ TakesWrite (s.tick dt) m x 0x7800 5 v n ∧ s.beforeChange (s.tick dt).now = false :=
  ⟨1, 1, wMsg, [1#8], { wGrp [(0x7810, 1, 80, toBE 1 5 ++ zeros 5 ++ toBE 2 500)] [] with alm := { inbox := [], alarm := [(5, { v := 2, vf := 1, peak := 3, frozen := true })] } }, wX, by decide +kernel⟩

theorem witness_PublicationsAct_1 : ∃ (dt : Nat) (p : Nat) (s : State), s.runs = true ∧ s.pubSends p = true ∧ (s.pub p).due = none ∧ bit (gpF (s.pubCf p) p 0 1) 2 = false :=
  ⟨1, 2, { wGrp [(0x7900, 1, 64, toBE 1 1 ++ zeros 11 ++ toBE 2 3 ++ toBE 1 1 ++ toBE 1 2 ++ toBE 2 1000 ++ toBE 2 10), (0x7910, 1, 24, toBE 2 0x8004)] [wClose] with alm := { goose := [(2, { dirty := [3] })] } }, by decide +kernel⟩

theorem witness_PublicationsAct_2 : ∃ (dt : Nat) (p : Nat) (e : Nat) (s : State), s.runs = true ∧ s.pubSends p = true ∧ (s.pub p).due = some e ∧ e ≤ s.elapsed + dt ∧ bit (gpF (s.pubCf p) p 0 1) 2 = false ∧ (s.tick dt).pubContent p = (s.pub p).built :=
  ⟨1, 2, 1, { wGrp [(0x7900, 1, 64, toBE 1 1 ++ zeros 11 ++ toBE 2 3 ++ toBE 1 1 ++ toBE 1 2 ++ toBE 2 1000 ++ toBE 2 10), (0x7910, 1, 24, toBE 2 0x8004)] [wClose] with alm := { goose := [(2, { stNum := 3, sqNum := 2, interval := 20, due := some 1, built := ({ wGrp [(0x7900, 1, 64, toBE 1 1 ++ zeros 11 ++ toBE 2 3 ++ toBE 1 1 ++ toBE 1 2 ++ toBE 2 1000 ++ toBE 2 10), (0x7910, 1, 24, toBE 2 0x8004)] [wClose] with alm := { goose := [(2, {})] } }).pubContent 2 })] } }, by decide +kernel⟩

theorem witness_PublicationsAct_3 : ∃ (dt : Nat) (p : Nat) (e : Nat) (s : State), s.runs = true ∧ s.pubSends p = true ∧ (s.pub p).due = some e ∧ e ≤ s.elapsed + dt ∧ bit (gpF (s.pubCf p) p 0 1) 2 = false ∧ (s.tick dt).pubContent p ≠ (s.pub p).built :=
  ⟨1, 2, 1, { wGrp [(0x7900, 1, 64, toBE 1 1 ++ zeros 11 ++ toBE 2 3 ++ toBE 1 1 ++ toBE 1 2 ++ toBE 2 1000 ++ toBE 2 10), (0x7910, 1, 24, toBE 2 0x8004)] [wClose] with alm := { goose := [(2, { stNum := 3, sqNum := 2, interval := 20, due := some 1, built := [[1#8]] })] } }, by decide +kernel⟩

theorem witness_PublicationsAct_4 : ∃ (dt : Nat) (p : Nat) (g : Nat) (cl : Close) (s : State), s.runs = true ∧ s.pubSends p = true ∧ pubValue s.cf p = true ∧ s.nextPub (pubGroup p) (s.pub p).cursor (fun c => c.kind != 0x20) = some (g, cl) :=
  ⟨1, 2, 2, wClose, { wGrp [(0x7900, 1, 64, toBE 1 3 ++ zeros 11 ++ toBE 2 3 ++ toBE 1 1 ++ toBE 1 2 ++ toBE 2 1000 ++ toBE 2 10), (0x7910, 1, 24, toBE 2 0x8004)] [wClose] with alm := { goose := [(2, { cursor := [(2, 2)] })] } }, by decide +kernel⟩

theorem witness_OutputSessionsAct_1 : ∃ (dt : Nat) (n : Nat) (src : Nat) (s : State), s.runs = true ∧ s.outHears n src = true :=
  ⟨1, 3, 9, { wGrp [(0x7A00, 1, 96, toBE 1 1 ++ toBE 1 0 ++ toBE 2 7 ++ toBE 1 2)] [wClose] with alm := { out := [(3, { client := some (9, 4), on := true })] } }, by decide +kernel⟩

theorem witness_OutputSessionsAct_2 : ∃ (dt : Nat) (n : Nat) (src : Nat) (s : State), s.runs = true ∧ s.outHears n src = true :=
  ⟨1, 3, 9, { wGrp [(0x7A00, 1, 96, toBE 1 1 ++ toBE 1 1 ++ toBE 2 7 ++ toBE 1 2 ++ zeros 3 ++ toBE 4 9)] [wClose] with alm := { out := [(3, {})] } }, by decide +kernel⟩

theorem witness_OutputSessionsAct_3 : ∃ (dt : Nat) (n : Nat) (src : Nat) (k : Nat) (b : BitVec 8) (c : Instr) (s : State), (c, k, b) ∈ [(Instr.outCmdSendHeader dt n src, 3, 0x12#8), (.outCmdSendCfg1 dt n src, 4, 0x22#8), (.outCmdSendCfg2 dt n src, 5, 0x32#8), (.outCmdSendCfg3 dt n src, 6, 0x52#8)] ∧ s.runs = true ∧ s.outHears n src = true :=
  ⟨1, 3, 9, 6, 0x52#8, .outCmdSendCfg3 1 3 9, { wGrp [(0x7A00, 1, 96, toBE 1 1 ++ toBE 1 1 ++ toBE 2 7 ++ toBE 1 2 ++ zeros 3 ++ toBE 4 9)] [wClose] with alm := { out := [(3, {})] } }, by decide +kernel⟩

theorem witness_OutputSessionsAct_4 : ∃ (dt : Nat) (n : Nat) (src : Nat) (cmd : Nat) (s : State), s.runs = true ∧ s.outHears n src = true ∧ (cmd = 0 ∨ 6 < cmd) :=
  ⟨1, 3, 9, 7, { wGrp [(0x7A00, 1, 96, toBE 1 1 ++ toBE 1 1 ++ toBE 2 7 ++ toBE 1 2 ++ zeros 3 ++ toBE 4 9)] [wClose] with alm := { out := [(3, {})] } }, by decide +kernel⟩

theorem witness_OutputSessionsAct_5 : ∃ (dt : Nat) (n : Nat) (ip : Nat) (port : Nat) (s : State), s.runs = true ∧ s.outServes n = true ∧ outTcp s.cf n = true ∧ (s.out n).client = none ∧ (ouF s.cf n 8 4 = 0 ∨ ouF s.cf n 8 4 = ip) :=
  ⟨1, 3, 9, 4, { wGrp [(0x7A00, 1, 96, toBE 1 1 ++ toBE 1 0 ++ toBE 2 7 ++ toBE 1 2)] [wClose] with alm := { out := [(3, {})] } }, by decide +kernel⟩

theorem witness_OutputSessionsAct_6 : ∃ (dt : Nat) (n : Nat) (ip : Nat) (port : Nat) (s : State), s.runs = true ∧ s.outServes n = true ∧ outTcp s.cf n = true ∧ ((s.out n).client.isSome = true ∨ (ouF s.cf n 8 4 ≠ 0 ∧ ouF s.cf n 8 4 ≠ ip)) :=
  ⟨1, 3, 9, 4, { wGrp [(0x7A00, 1, 96, toBE 1 1 ++ toBE 1 0 ++ toBE 2 7 ++ toBE 1 2)] [wClose] with alm := { out := [(3, { client := some (8, 4) })] } }, by decide +kernel⟩

theorem witness_OutputSessionsAct_7 : ∃ (dt : Nat) (n : Nat) (s : State), s.runs = true ∧ (s.out n).client.isSome = true :=
  ⟨1, 3, { wGrp [(0x7A00, 1, 96, toBE 1 1 ++ toBE 1 0 ++ toBE 2 7 ++ toBE 1 2)] [wClose] with alm := { out := [(3, { client := some (8, 4), on := true, buf := [{ seq := 1#32, bytes := [] }] })] } }, by decide +kernel⟩

theorem witness_OutputSessionsAct_8 : ∃ (dt : Nat) (n : Nat) (g : Nat) (cl : Close) (s : State), s.runs = true ∧ s.forming = true ∧ s.outServes n = true ∧ s.outActive (s.cfFor cl.at_).1 n = true ∧ s.outFirst n cl.at_ = false ∧ (s.nextPub (fun c => if outValid c n then some (outGroup c n) else none) (s.out n).cursor (fun c => s.outFirst n c.at_ || c.kind != 0x20) = some (g, cl)) :=
  ⟨1, 3, 2, wClose, { wGrp [(0x7A00, 1, 96, toBE 1 1 ++ toBE 1 0 ++ toBE 2 7 ++ toBE 1 2)] [wClose] with alm := { out := [(3, { client := some (8, 4), on := true, buf := List.replicate 100 { seq := 1#32, bytes := [] } })] } }, by decide +kernel⟩

theorem witness_OutputSessionsAct_9 : ∃ (dt : Nat) (n : Nat) (f : OutFrame) (r : List OutFrame) (s : State), s.runs = true ∧ s.forming = true ∧ s.outServes n = true ∧ s.outActive s.cf n = true ∧ (s.out n).buf = f :: r :=
  ⟨1, 3, { seq := 5#32, bytes := [1#8] }, [{ seq := 6#32, bytes := [] }], { wGrp [(0x7A00, 1, 96, toBE 1 1 ++ toBE 1 0 ++ toBE 2 7 ++ toBE 1 2)] [wClose] with alm := { out := [(3, { client := some (8, 4), on := true, buf := [{ seq := 5#32, bytes := [1#8] }, { seq := 6#32, bytes := [] }] })] } }, by decide +kernel⟩

theorem witness_AcquisitionActs_1 : ∃ (dt : Nat) (d : Nat) (frac : Nat) (level : Bool) (s : State), s.runs = true ∧ s.acqRuns = true ∧ dinEnabled s.cf d = true ∧ (s.din d).pend = [] :=
  ⟨1, 2, 3, true, { wIn .operate with cfg := wCfg [(0x8300, 1, 16, [1#8])], acq := {} }, by decide +kernel⟩

theorem witness_AcquisitionActs_2 : ∃ (dt : Nat) (d : Nat) (frac : Nat) (e8 : Nat) (l : Bool) (level : Bool) (p : Tick) (s : State), s.runs = true ∧ s.acqRuns = true ∧ dinEnabled s.cf d = true ∧ (s.din d).pend = [(l, p, e8)] ∧ 8 * (s.elapsed + dt) + frac % 8 < e8 + 40 :=
  ⟨1, 2, 3, 2, true, false, ⟨0#16, 2⟩, { wIn .operate with cfg := wCfg [(0x8300, 1, 16, [1#8])], acq := { din := [(2, { pend := [(true, ⟨0#16, 2⟩, 2)] })] } }, by decide +kernel⟩

theorem witness_AcquisitionActs_3 : ∃ (dt : Nat) (d : Nat) (e8 : Nat) (lv : Bool) (at_ : Tick) (rest : List (Bool × Tick × Nat)) (s : State), s.runs = true ∧ s.acqRuns = true ∧ (s.din d).pend = (lv, at_, e8) :: rest ∧ e8 + dinFilter8 s.cf d ≤ 8 * (s.elapsed + dt) :=
  ⟨1000, 2, 0, true, ⟨0#16, 0⟩, [], { wIn .operate with cfg := wCfg [(0x8300, 1, 16, [1#8])], acq := { din := [(2, { pend := [(true, ⟨0#16, 0⟩, 0)] })] } }, by decide +kernel⟩

theorem witness_AcquisitionActs_4 : ∃ (dt : Nat) (n : Nat) (at_ : Tick) (s : State), s.runs = true ∧ s.acqRuns = true ∧ n < 64 ∧ bit (unitCf s.cf n).flags 0 = true ∧ bit (unitCf s.cf n).flags 2 = false ∧ (unitCf s.cf n).kind = 3 ∧ (unitCf s.cf n).src = 3 ∧ (unitCf s.cf n).group < 256 ∧ (s.unit n).pos = [at_] ∧ (s.unit n).posDue ≤ s.elapsed + dt ∧ (s.unit n).neg = [] ∧ (s.unit n).fired = none :=
  ⟨1, 5, ⟨0#16, 0⟩, { wIn .operate with cfg := wCfg [(0x8200, 1, 240, toBE 1 1 ++ toBE 1 0 ++ toBE 1 3 ++ toBE 1 3)], acq := { unit := [(5, { pos := [⟨0#16, 0⟩], posDue := 1 })] } }, by decide +kernel⟩

theorem witness_AcquisitionActs_5 : ∃ (dt : Nat) (g : Nat) (w : Trig) (ws : List Trig) (q : Seq) (row : Row) (s : State), s.runs = true ∧ s.acqRuns = true ∧ (s.grp g).state = 1 ∧ (s.grp g).pend = w :: ws ∧ (s.grp g).seq = some q ∧ (s.grp g).rowFor w.at_ = some row ∧ s.capture g = none :=
  ⟨1, 2, ⟨5, 3, 3, false, ⟨0#16, 800⟩, 0, 0#32⟩, [], 9#32, ⟨1, ⟨0#16, 100⟩, 0, []⟩, { wIn .operate with cfg := wCfg [(0x8100, 1, 160, toBE 1 1 ++ zeros 7 ++ toBE 4 100)], acq := { group := [(2, { state := 1, pend := [⟨5, 3, 3, false, ⟨0#16, 800⟩, 0, 0#32⟩], seq := some 9#32, ring := [⟨1, ⟨0#16, 100⟩, 0, []⟩, ⟨0, ⟨0#16, 0⟩, 0, []⟩] })] } }, by decide +kernel⟩

theorem witness_AcquisitionActs_6 : ∃ (dt : Nat) (g : Nat) (r : Rec) (s : State), s.runs = true ∧ s.hasAcq = true ∧ s.acq.recs.find? (fun r => r.group = g && r.captured && !r.closed) = some r ∧ (∀ x ∈ s.acq.recs, x.closed = true → seqLater x.seq r.seq = false) :=
  ⟨1, 2, { seq := 9#32, group := 2, flags := 0, cause := 1, trow := ⟨1, ⟨0#16, 100⟩, 0, []⟩, rate := 1000, npost := 1, chans := [], mask := 0, trigs := [], rows := [⟨1, ⟨0#16, 100⟩, 0, []⟩], edges := [], cfgGen := 0#32, size := 64, off := 0, captured := true, closed := false }, { wIn .operate with cfg := wCfg [(0x8100, 1, 160, [1#8])], acq := { recs := [{ seq := 9#32, group := 2, flags := 0, cause := 1, trow := ⟨1, ⟨0#16, 100⟩, 0, []⟩, rate := 1000, npost := 1, chans := [], mask := 0, trigs := [], rows := [⟨1, ⟨0#16, 100⟩, 0, []⟩], edges := [], cfgGen := 0#32, size := 64, off := 0, captured := true, closed := false }], group := [(2, { state := 2 })] } }, by decide +kernel⟩

theorem witness_ReadersAct_1 : ∃ (dt : Nat) (r : Nat) (sub : Nat) (n : Nat) (m : Msg) (s : State) (x : Session), s.runs = true ∧ Takes (s.tick dt) m x 0x10 (readPayload (0x8500 + r) sub 0 n) ∧ r < 8 ∧ 1 ≤ sub ∧ sub ≤ 3 ∧ 0 < n ∧ n ≤ 1280 ∧ objAbsent s.variant (0x8500 + r) sub = false ∧ s.reaches x.uart .look (0x8500 + r) sub = true :=
  ⟨1, 3, 1, 64, wMsg, { wIn .operate with acq := { recs := [{ seq := 4#32, group := 2, flags := 0, cause := 1, trow := ⟨1, ⟨0#16, 100⟩, 0, []⟩, rate := 1000, npost := 1, chans := [], mask := 0, trigs := [], rows := [], edges := [], cfgGen := 0#32, size := 64, off := 0, captured := true, closed := true }, { seq := 6#32, group := 2, flags := 0, cause := 1, trow := ⟨1, ⟨0#16, 100⟩, 0, []⟩, rate := 1000, npost := 1, chans := [], mask := 0, trigs := [], rows := [], edges := [], cfgGen := 0#32, size := 64, off := 0, captured := true, closed := true }], reader := [(3, { cur := 4#32 })] } }, wX, by decide +kernel⟩

theorem witness_ReadersAct_2 : ∃ (dt : Nat) (r : Nat) (n : Nat) (q : Seq) (m : Msg) (v : List (BitVec 8)) (s : State) (x : Session), s.runs = true ∧ TakesWrite (s.tick dt) m x (0x8410 + r) 3 v n ∧ r < 8 ∧ s.nextStored (s.rdr r).cur = some q :=
  ⟨1, 3, 1, 6#32, wMsg, [1#8], { wIn .operate with acq := { recs := [{ seq := 4#32, group := 2, flags := 0, cause := 1, trow := ⟨1, ⟨0#16, 100⟩, 0, []⟩, rate := 1000, npost := 1, chans := [], mask := 0, trigs := [], rows := [], edges := [], cfgGen := 0#32, size := 64, off := 0, captured := true, closed := true }, { seq := 6#32, group := 2, flags := 0, cause := 1, trow := ⟨1, ⟨0#16, 100⟩, 0, []⟩, rate := 1000, npost := 1, chans := [], mask := 0, trigs := [], rows := [], edges := [], cfgGen := 0#32, size := 64, off := 0, captured := true, closed := true }], reader := [(3, { cur := 4#32 })] } }, wX, by decide +kernel⟩

theorem witness_ReadersAct_3 : ∃ (dt : Nat) (r : Nat) (n : Nat) (m : Msg) (v : List (BitVec 8)) (s : State) (x : Session), s.runs = true ∧ TakesWrite (s.tick dt) m x (0x8410 + r) 4 v n ∧ r < 8 :=
  ⟨1, 3, 1, wMsg, [1#8], { wIn .operate with acq := { recs := [{ seq := 4#32, group := 2, flags := 0, cause := 1, trow := ⟨1, ⟨0#16, 100⟩, 0, []⟩, rate := 1000, npost := 1, chans := [], mask := 0, trigs := [], rows := [], edges := [], cfgGen := 0#32, size := 64, off := 0, captured := true, closed := true }, { seq := 6#32, group := 2, flags := 0, cause := 1, trow := ⟨1, ⟨0#16, 100⟩, 0, []⟩, rate := 1000, npost := 1, chans := [], mask := 0, trigs := [], rows := [], edges := [], cfgGen := 0#32, size := 64, off := 0, captured := true, closed := true }], reader := [(3, { cur := 6#32, mark := 4#32 })] } }, wX, by decide +kernel⟩

theorem witness_ReadersAct_4 : ∃ (dt : Nat) (r : Nat) (n : Nat) (m : Msg) (v : List (BitVec 8)) (s : State) (x : Session), s.runs = true ∧ TakesWrite (s.tick dt) m x (0x8410 + r) 1 v n ∧ r < 8 ∧ s.acq.recs.any (fun z => z.seq = BitVec.ofNat 32 n) = true :=
  ⟨1, 3, 6, wMsg, toBE 4 6, { wIn .operate with acq := { recs := [{ seq := 4#32, group := 2, flags := 0, cause := 1, trow := ⟨1, ⟨0#16, 100⟩, 0, []⟩, rate := 1000, npost := 1, chans := [], mask := 0, trigs := [], rows := [], edges := [], cfgGen := 0#32, size := 64, off := 0, captured := true, closed := true }, { seq := 6#32, group := 2, flags := 0, cause := 1, trow := ⟨1, ⟨0#16, 100⟩, 0, []⟩, rate := 1000, npost := 1, chans := [], mask := 0, trigs := [], rows := [], edges := [], cfgGen := 0#32, size := 64, off := 0, captured := true, closed := true }], reader := [(3, { cur := 4#32 })] } }, wX, by decide +kernel⟩

theorem witness_ReadersAct_5 : ∃ (dt : Nat) (r : Nat) (n : Nat) (m : Msg) (v : List (BitVec 8)) (s : State) (x : Session), s.runs = true ∧ TakesWrite (s.tick dt) m x (0x8410 + r) 2 v n ∧ r < 8 ∧ s.acq.recs.any (fun z => z.seq = BitVec.ofNat 32 n) = true :=
  ⟨1, 3, 6, wMsg, toBE 4 6, { wIn .operate with acq := { recs := [{ seq := 4#32, group := 2, flags := 0, cause := 1, trow := ⟨1, ⟨0#16, 100⟩, 0, []⟩, rate := 1000, npost := 1, chans := [], mask := 0, trigs := [], rows := [], edges := [], cfgGen := 0#32, size := 64, off := 0, captured := true, closed := true }, { seq := 6#32, group := 2, flags := 0, cause := 1, trow := ⟨1, ⟨0#16, 100⟩, 0, []⟩, rate := 1000, npost := 1, chans := [], mask := 0, trigs := [], rows := [], edges := [], cfgGen := 0#32, size := 64, off := 0, captured := true, closed := true }], reader := [(3, { cur := 4#32, flags := 3 })] } }, wX, by decide +kernel⟩

theorem witness_ReadersAct_6 : ∃ (dt : Nat) (r : Nat) (m : Msg) (s : State) (x : Session), s.runs = true ∧ Takes (s.tick dt) m x 0x10 (readPayload (0x8410 + r) 8 0 1) ∧ r < 8 ∧ objAbsent s.variant (0x8410 + r) 8 = false ∧ s.reaches x.uart .look (0x8410 + r) 8 = true :=
  ⟨1, 3, wMsg, { wIn .operate with acq := { recs := [{ seq := 4#32, group := 2, flags := 0, cause := 1, trow := ⟨1, ⟨0#16, 100⟩, 0, []⟩, rate := 1000, npost := 1, chans := [], mask := 0, trigs := [], rows := [], edges := [], cfgGen := 0#32, size := 64, off := 0, captured := true, closed := true }, { seq := 6#32, group := 2, flags := 0, cause := 1, trow := ⟨1, ⟨0#16, 100⟩, 0, []⟩, rate := 1000, npost := 1, chans := [], mask := 0, trigs := [], rows := [], edges := [], cfgGen := 0#32, size := 64, off := 0, captured := true, closed := true }], reader := [(3, { cur := 4#32, flags := 3 })] } }, wX, by decide +kernel⟩

theorem witness_ReadersAct_7 : ∃ (dt : Nat) (r : Nat) (n : Nat) (m : Msg) (v : List (BitVec 8)) (s : State) (x : Session), s.runs = true ∧ TakesWrite (s.tick dt) m x (0x8410 + r) 9 v n ∧ r < 8 :=
  ⟨1, 3, 1, wMsg, [1#8], { wIn .operate with acq := { recs := [{ seq := 4#32, group := 2, flags := 0, cause := 1, trow := ⟨1, ⟨0#16, 100⟩, 0, []⟩, rate := 1000, npost := 1, chans := [], mask := 0, trigs := [], rows := [], edges := [], cfgGen := 0#32, size := 64, off := 0, captured := true, closed := true }, { seq := 6#32, group := 2, flags := 0, cause := 1, trow := ⟨1, ⟨0#16, 100⟩, 0, []⟩, rate := 1000, npost := 1, chans := [], mask := 0, trigs := [], rows := [], edges := [], cfgGen := 0#32, size := 64, off := 0, captured := true, closed := true }], reader := [(3, { cur := 4#32 })] } }, wX, by decide +kernel⟩

theorem witness_ReadersAct_8 : ∃ (dt : Nat) (n : Nat) (g : Nat) (m : Msg) (v : List (BitVec 8)) (s : State) (x : Session), s.runs = true ∧ TakesWrite (s.tick dt) m x 0x8000 3 v n ∧ n.land s.validGroups = n ∧ g < 16 ∧ bit n g = true ∧ s.acqRuns = true ∧ (s.grp g).state = 3 :=
  ⟨1, 4, 2, wMsg, toBE 2 4, { wIn .operate with cfg := wCfg [(0x8100, 1, 160, [1#8])], acq := { group := [(2, { state := 3, off := true })] } }, wX, by decide +kernel⟩

theorem witness_ReadersAct_9 : ∃ (dt : Nat) (n : Nat) (g : Nat) (m : Msg) (v : List (BitVec 8)) (s : State) (x : Session), s.runs = true ∧ TakesWrite (s.tick dt) m x 0x8000 4 v n ∧ n.land s.validGroups = n ∧ g < 16 ∧ bit n g = true :=
  ⟨1, 4, 2, wMsg, toBE 2 4, { wIn .operate with cfg := wCfg [(0x8100, 1, 160, [1#8])], acq := { group := [(2, { state := 1 })] } }, wX, by decide +kernel⟩

theorem witness_ManagerFollowsItsWorkers_1 : ∃ (dt : Nat) (s : State), s.runs = true ∧ s.hrRuns 2 = true ∧ (s.tick dt).time.tai / 100000 * 100000 ≠ s.hr.m :=
  ⟨250000, { wIn .operate with cfg := wCfg [(0xE000, 1, 0, [2#8]), (0xE100, 1, 64, toBE 1 3 ++ zeros 7 ++ toBE 8 0x1234 ++ toBE 4 10 ++ toBE 4 20)], hr := { worker := [(2, { state := 1, ranged := true, rts := [some 1000, none], told := [true, false] })] } }, by decide +kernel⟩

theorem witness_ManagerFollowsItsWorkers_2 : ∃ (dt : Nat) (w : Nat) (m : Nat) (lane : Nat) (q : Nat) (r : Int) (s : State), s.runs = true ∧ s.hrRuns 2 = true ∧ wkValid s.cf w = true ∧ (s.wkr w).state ≠ 2 ∧ s.hr.asked = some (w, m) ∧ lane < 2 ∧ s.fenced 18 lane = false ∧ (s.wkr w).rts = [none, none] ∧ r = (((s.tick dt).time.tai - m - 6000 : Nat) : Int) ∧ r + wkAsym s.cf w lane ≤ 200000 ∧ r - wkAsym s.cf w lane ≤ 200000 :=
  ⟨8000, 2, 0, 1, 7, 2000, { wIn .operate with cfg := wCfg [(0xE000, 1, 0, [2#8]), (0xE100, 1, 64, toBE 1 3 ++ zeros 7 ++ toBE 8 0x1234 ++ toBE 4 10 ++ toBE 4 20)], hr := { asked := some (2, 0), worker := [(2, { state := 1 })] } }, by decide +kernel⟩

theorem witness_ManagerFollowsItsWorkers_3 : ∃ (dt : Nat) (w : Nat) (m : Nat) (lane : Nat) (q : Nat) (r : Int) (s : State), s.runs = true ∧ s.hrRuns 2 = true ∧ wkValid s.cf w = true ∧ (s.wkr w).state ≠ 2 ∧ s.hr.asked = some (w, m) ∧ lane < 2 ∧ s.fenced 18 lane = false ∧ (s.wkr w).rts = [none, none] ∧ r = (((s.tick dt).time.tai - m - 6000 : Nat) : Int) ∧ (200000 < r + wkAsym s.cf w lane ∨ 200000 < r - wkAsym s.cf w lane) :=
  ⟨306000, 2, 0, 1, 7, 300000, { wIn .operate with cfg := wCfg [(0xE000, 1, 0, [2#8]), (0xE100, 1, 64, toBE 1 3 ++ zeros 7 ++ toBE 8 0x1234 ++ toBE 4 10 ++ toBE 4 20)], hr := { asked := some (2, 0), worker := [(2, { state := 1 })] } }, by decide +kernel⟩

theorem witness_ManagerFollowsItsWorkers_4 : ∃ (dt : Nat) (lane : Nat) (w : Nat) (m : Nat) (b : List Int) (v : Bool) (s : State), s.runs = true ∧ s.hrRuns 2 = true ∧ lane < 2 ∧ w < 16 ∧ (s.wkr w).state = 2 ∧ s.fenced 18 lane = false ∧ m = burstCycle (s.tick dt).time.tai w ∧ b = ((((s.tick dt).time.tai : Int) - m - (s.wkr w).eqdAt lane m) :: (s.wkr w).bursts.getD lane []).take 16 :=
  ⟨262005, 1, 2, 0, [262005], true, { wIn .operate with cfg := wCfg [(0xE000, 1, 0, [2#8]), (0xE100, 1, 64, toBE 1 3 ++ zeros 7 ++ toBE 8 0x1234 ++ toBE 4 10 ++ toBE 4 20)], hr := { worker := [(2, { state := 2 })] } }, by decide +kernel⟩

theorem witness_ManagerFollowsItsWorkers_5 : ∃ (dt : Nat) (l : Nat) (rise : Nat) (len : Nat) (x : HrRx) (s : State), s.runs = true ∧ s.takesFrom x.worker = true ∧ x.lane < 2 ∧ s.fenced 18 x.lane = false ∧ (takeCopy x.worker 0x10 x.lane x.seq x.crcOk false (s.tick dt)).1 = true ∧ l < 16 ∧ (s.line l).level = true :=
  ⟨1, 3, 800, 100, ⟨2, 1, 7, true⟩, { wIn .operate with cfg := wCfg [(0xE000, 1, 0, [2#8]), (0xE100, 1, 64, toBE 1 3 ++ zeros 7 ++ toBE 8 0x1234 ++ toBE 4 10 ++ toBE 4 20)], hr := { worker := [(2, { state := 2 })] }, bus := { line := [(3, { level := true, fall := 900 })] } }, by decide +kernel⟩

theorem witness_ManagerFollowsItsWorkers_6 : ∃ (dt : Nat) (l : Nat) (rise : Nat) (len : Nat) (x : HrRx) (s : State), s.runs = true ∧ s.takesFrom x.worker = true ∧ x.lane < 2 ∧ s.fenced 18 x.lane = false ∧ (takeCopy x.worker 0x10 x.lane x.seq x.crcOk false (s.tick dt)).1 = true ∧ l < 16 ∧ (s.line l).level = false :=
  ⟨1, 3, 800, 100, ⟨2, 1, 7, true⟩, { wIn .operate with cfg := wCfg [(0xE000, 1, 0, [2#8]), (0xE100, 1, 64, toBE 1 3 ++ zeros 7 ++ toBE 8 0x1234 ++ toBE 4 10 ++ toBE 4 20)], hr := { worker := [(2, { state := 2 })] } }, by decide +kernel⟩

theorem witness_ManagerFollowsItsWorkers_7 : ∃ (dt : Nat) (o : Int) (q : BitVec 16) (g : BitVec 16) (x : HrRx) (s : State), s.runs = true ∧ s.takesFrom x.worker = true ∧ x.lane < 2 ∧ s.fenced 18 x.lane = false ∧ (takeCopy x.worker 0x11 x.lane x.seq x.crcOk false (s.tick dt)).1 = true ∧ bit (wkF s.cf x.worker 0 1) 1 = true ∧ s.cf.u 0xE000 6 0 4 < o.natAbs ∧ (s.wkr x.worker).above = false :=
  ⟨1, 2000000, 0#16, 0#16, ⟨2, 1, 7, true⟩, { wIn .operate with cfg := wCfg [(0xE000, 1, 0, [2#8]), (0xE100, 1, 64, toBE 1 3 ++ zeros 7 ++ toBE 8 0x1234 ++ toBE 4 10 ++ toBE 4 20)], hr := { worker := [(2, { state := 2 })] } }, by decide +kernel⟩

theorem witness_ManagerFollowsItsWorkers_8 : ∃ (dt : Nat) (w : Nat) (since : Nat) (s : State), s.runs = true ∧ s.hasHr = true ∧ (s.wkr w).above = true ∧ (s.wkr w).clearSince = some since ∧ since + 1000000000 ≤ s.elapsed + dt :=
  ⟨1000000000, 2, 0, { wIn .operate with cfg := wCfg [(0xE000, 1, 0, [2#8]), (0xE100, 1, 64, toBE 1 3 ++ zeros 7 ++ toBE 8 0x1234 ++ toBE 4 10 ++ toBE 4 20)], hr := { worker := [(2, { state := 2, above := true, clearSince := some 0 })] } }, by decide +kernel⟩

theorem witness_ManagerFollowsItsWorkers_9 : ∃ (dt : Nat) (f : Fragment) (x : HrRx) (s : State), s.runs = true ∧ s.takesFrom x.worker = true ∧ x.lane < 2 ∧ s.fenced 18 x.lane = false ∧ (takeCopy x.worker 0x12 x.lane x.seq x.crcOk false (s.tick dt)).1 = true ∧ f.index < f.count ∧ 1 < f.count ∧ (s.wkr x.worker).frags = none :=
  ⟨1, ⟨0, 3, 50, [1#8]⟩, ⟨2, 1, 7, true⟩, { wIn .operate with cfg := wCfg [(0xE000, 1, 0, [2#8]), (0xE100, 1, 64, toBE 1 3 ++ zeros 7 ++ toBE 8 0x1234 ++ toBE 4 10 ++ toBE 4 20)], hr := { worker := [(2, { state := 2 })] } }, by decide +kernel⟩

theorem witness_ManagerFollowsItsWorkers_10 : ∃ (dt : Nat) (tr : Nat) (f : Fragment) (x : HrRx) (s : State), s.runs = true ∧ s.takesFrom x.worker = true ∧ x.lane < 2 ∧ s.fenced 18 x.lane = false ∧ (takeCopy x.worker 0x12 x.lane x.seq x.crcOk false (s.tick dt)).1 = true ∧ f.index = 0 ∧ f.count = 1 ∧ s.forming = true ∧ tr = field f.chunk 10 6 * 1000000000 + field f.chunk 16 4 :=
  ⟨1, 20000000, ⟨0, 1, 50, zeros 16 ++ toBE 4 20000000 ++ zeros 44 ++ toBE 4 0x3F800000 ++ zeros 4 ++ toBE 2 4 ++ toBE 2 1⟩, ⟨2, 1, 7, true⟩, { wIn .operate with cfg := wCfg [(0xE000, 1, 0, [2#8]), (0xE100, 1, 64, toBE 1 3 ++ zeros 7 ++ toBE 8 0x1234 ++ toBE 4 10 ++ toBE 4 20), (0xE200, 1, 0, toBE 2 0x8002 ++ toBE 2 4 ++ toBE 2 9 ++ zeros 2)], hr := { worker := [(2, { state := 2 })] } }, by decide +kernel⟩

theorem witness_ManagerFollowsItsWorkers_11 : ∃ (dt : Nat) (y : Summary) (x : HrRx) (s : State), s.runs = true ∧ s.takesFrom x.worker = true ∧ x.lane < 2 ∧ s.fenced 18 x.lane = false ∧ (takeCopy x.worker 0x13 x.lane x.seq x.crcOk false (s.tick dt)).1 = true ∧ 1 ≤ y.kind ∧ y.kind ≤ 4 :=
  ⟨1, ⟨2, 5, [1#8]⟩, ⟨2, 1, 7, true⟩, { wIn .operate with cfg := wCfg [(0xE000, 1, 0, [2#8]), (0xE100, 1, 64, toBE 1 3 ++ zeros 7 ++ toBE 8 0x1234 ++ toBE 4 10 ++ toBE 4 20)], hr := { worker := [(2, { state := 2 })] } }, by decide +kernel⟩

theorem witness_ManagerFollowsItsWorkers_12 : ∃ (dt : Nat) (l : Nat) (rise : Nat) (len : Nat) (o : Int) (u : Bool) (q : BitVec 16) (g : BitVec 16) (f : Fragment) (y : Summary) (x : HrRx) (c : Instr) (s : State), c ∈ [Instr.driveFrame dt x l rise len, .offsetReport dt x o u q g, .setFragment dt x f, .summaryFrame dt x y] ∧ s.runs = true ∧ s.hrRuns 2 = true ∧ x.worker < 16 ∧ x.lane < 2 ∧ s.fenced 18 x.lane = false ∧ x.crcOk = false :=
  ⟨1, 3, 800, 100, 0, true, 0#16, 0#16, ⟨0, 3, 50, []⟩, ⟨2, 5, [1#8]⟩, ⟨2, 1, 7, false⟩, .driveFrame 1 ⟨2, 1, 7, false⟩ 3 800 100, { wIn .operate with cfg := wCfg [(0xE000, 1, 0, [2#8]), (0xE100, 1, 64, toBE 1 3 ++ zeros 7 ++ toBE 8 0x1234 ++ toBE 4 10 ++ toBE 4 20)], hr := { worker := [(2, { state := 2 })] } }, by decide +kernel⟩

theorem witness_ManagerFollowsItsWorkers_13 : ∃ (dt : Nat) (l : Nat) (rise : Nat) (len : Nat) (o : Int) (u : Bool) (q : BitVec 16) (g : BitVec 16) (f : Fragment) (y : Summary) (x : HrRx) (c : Instr) (s : State), c ∈ [Instr.driveFrame dt x l rise len, .offsetReport dt x o u q g, .setFragment dt x f, .summaryFrame dt x y] ∧ s.runs = true ∧ s.hrRuns 2 = true ∧ x.worker < 16 ∧ (s.wkr x.worker).state ≠ 2 ∧ x.lane < 2 ∧ s.fenced 18 x.lane = false ∧ x.crcOk = true :=
  ⟨1, 3, 800, 100, 0, true, 0#16, 0#16, ⟨0, 3, 50, []⟩, ⟨2, 5, [1#8]⟩, ⟨2, 1, 7, true⟩, .summaryFrame 1 ⟨2, 1, 7, true⟩ ⟨2, 5, [1#8]⟩, { wIn .operate with cfg := wCfg [(0xE000, 1, 0, [2#8]), (0xE100, 1, 64, toBE 1 3 ++ zeros 7 ++ toBE 8 0x1234 ++ toBE 4 10 ++ toBE 4 20)], hr := { worker := [(2, { state := 1 })] } }, by decide +kernel⟩

theorem witness_ManagerFollowsItsWorkers_14 : ∃ (dt : Nat) (w : Nat) (s : State), s.runs = true ∧ s.takesFrom w = true ∧ (∀ b ∈ (s.wkr w).burstAt, ∀ at_, b = some at_ → at_ + s.lossNs ≤ s.elapsed + dt) :=
  ⟨100000000, 2, { wIn .operate with cfg := wCfg [(0xE000, 1, 0, [2#8]), (0xE100, 1, 64, toBE 1 3 ++ zeros 7 ++ toBE 8 0x1234 ++ toBE 4 10 ++ toBE 4 20)], hr := { worker := [(2, { state := 2, burstAt := [some 0, none] })] } }, by decide +kernel⟩

theorem witness_WorkerFollowsItsManager_1 : ∃ (dt : Nat) (lane : Nat) (h : CycleHeader) (s : State), s.runs = true ∧ s.hrRuns 1 = true ∧ lane < 2 ∧ s.fenced 18 lane = false ∧ h.crcOk = true ∧ s.hr.state = 1 ∧ h.invited ≠ some s.myNumber :=
  ⟨1, 1, ⟨5, 0#16, 0, 0#16, none, false, 0, 0, 0, 0, [], 7, true⟩, { wIn .operate with cfg := wCfg [(0xE000, 1, 0, [1#8]), (0xE000, 2, 0, [2#8]), (0xE000, 8, 0, [10#8])], hr := { state := 1 } }, by decide +kernel⟩

theorem witness_WorkerFollowsItsManager_2 : ∃ (dt : Nat) (lane : Nat) (h : CycleHeader) (s : State), s.runs = true ∧ s.hrRuns 1 = true ∧ lane < 2 ∧ s.fenced 18 lane = false ∧ h.crcOk = false :=
  ⟨1, 1, { (⟨5, 0#16, 0, 0#16, none, false, 0, 0, 0, 0, [], 7, true⟩ : CycleHeader) with crcOk := false }, { wIn .operate with cfg := wCfg [(0xE000, 1, 0, [1#8]), (0xE000, 2, 0, [2#8]), (0xE000, 8, 0, [10#8])], hr := { state := 1 } }, by decide +kernel⟩

theorem witness_WorkerFollowsItsManager_3 : ∃ (dt : Nat) (lane : Nat) (d : BurstDue) (s : State), s.runs = true ∧ s.hrRuns 1 = true ∧ lane < 2 ∧ s.fenced 18 lane = false ∧ s.hr.state = 3 ∧ s.hr.dues.find? (fun d => d.lane = lane) = some d ∧ d.at_ ≤ s.elapsed + dt :=
  ⟨1, 1, ⟨1, 7, 1, 32⟩, { wIn .operate with cfg := wCfg [(0xE000, 1, 0, [1#8]), (0xE000, 2, 0, [2#8]), (0xE000, 8, 0, [10#8])], hr := { state := 3, dues := [⟨0, 7, 1, 32⟩, ⟨1, 7, 1, 32⟩] } }, by decide +kernel⟩

theorem witness_WorkerFollowsItsManager_4 : ∃ (dt : Nat) (lane : Nat) (at_ : Nat) (s : State), s.runs = true ∧ (s.hrRuns 1 = true ∨ s.hrRuns 2 = true) ∧ s.hr.laneUp.getD lane false = true ∧ s.hr.laneAt.getD lane none = some at_ ∧ at_ + s.lossNs ≤ s.elapsed + dt :=
  ⟨1000000, 1, 0, { wIn .operate with cfg := wCfg [(0xE000, 1, 0, [1#8]), (0xE000, 2, 0, [2#8]), (0xE000, 8, 0, [10#8])], hr := { state := 3, laneUp := [true, true], laneAt := [none, some 0] } }, by decide +kernel⟩

theorem witness_WorkerFollowsItsManager_5 : ∃ (dt : Nat) (s : State), s.runs = true ∧ s.hrRuns 1 = true ∧ s.hr.state = 3 ∧ s.hr.laneUp = [false, false] :=
  ⟨1, { wIn .operate with cfg := wCfg [(0xE000, 1, 0, [1#8]), (0xE000, 2, 0, [2#8]), (0xE000, 8, 0, [10#8])], hr := { state := 3, up := [⟨1, 50, [], 0⟩] } }, by decide +kernel⟩

theorem witness_WorkerFollowsItsManager_6 : ∃ (dt : Nat) (l : Nat) (s : State), s.runs = true ∧ (s.line l).level = true ∧ (s.line l).fall ≤ 8 * (s.tick dt).time.tai ∧ s.bus.remote = false ∧ s.acqRuns = false :=
  ⟨1, 3, { wIn .standby with bus := { line := [(3, { level := true, fall := 8 })] } }, by decide +kernel⟩

theorem witness_WorkerFollowsItsManager_7 : ∃ (dt : Nat) (l : Nat) (s : State), s.runs = true ∧ (s.line l).level = true ∧ (s.line l).fall ≤ 8 * (s.tick dt).time.tai ∧ s.bus.remote = false ∧ s.hrRole = 2 :=
  ⟨1, 3, { wIn .operate with cfg := wCfg [(0xE000, 1, 0, [2#8]), (0xE100, 1, 64, toBE 1 3 ++ zeros 7 ++ toBE 8 0x1234 ++ toBE 4 10 ++ toBE 4 20)], hr := { worker := [(2, { state := 2 })] }, bus := { line := [(3, { level := true, fall := 8 })] } }, by decide +kernel⟩

theorem witness_WorkerFollowsItsManager_8 : ∃ (lane : Nat) (s : State), s.hasHr = true ∧ s.fenced 18 lane = false ∧ s.hrRuns 2 = true ∧ s.runs = true :=
  ⟨1, { wIn .operate with cfg := wCfg [(0xE000, 1, 0, [2#8]), (0xE100, 1, 64, toBE 1 3 ++ zeros 7 ++ toBE 8 0x1234 ++ toBE 4 10 ++ toBE 4 20)], hr := { worker := [(2, { state := 2 })] } }, by decide +kernel⟩

theorem witness_WorkerFollowsItsManager_9 : ∃ (lane : Nat) (s : State), s.runs = false :=
  ⟨1, { (wIn .operate) with power := { (wIn .operate).power with phase := .hold } }, by decide +kernel⟩

theorem witness_StoreActs_1 : ∃ (dt : Nat) (p : Nat) (g : Nat) (e : Nat) (d : Bytes) (f : SlotLoad) (s : State), s.runs = true ∧ p < 5 ∧ (s.posted p).length < postingRoom p ∧ (∀ q, q < 5 → q ≠ p → ∀ w ∈ s.posted q, w.granule ≠ g) :=
  ⟨1, 2, 8, 2, [7#8], (⟨[3, 500, 0, 0], [(0, 2), (5, 300), (9, 40)], []⟩ : SlotLoad), { mode := { cur := .operate }, store := { posted := [(2, [⟨8, [1#8]⟩, ⟨9, [2#8]⟩])] } }, by decide +kernel⟩

theorem witness_StoreActs_2 : ∃ (dt : Nat) (p : Nat) (g : Nat) (c : Nat) (f : SlotLoad) (s : State), s.runs = true ∧ regionOf (g / 16384) = 3 ∧ s.waits g = false ∧ c = storeChannel g :=
  ⟨1, 2, 16384 * (regionBase 3), (storeChannel (16384 * (regionBase 3))), (⟨[3, 500, 0, 0], [(0, 2), (5, 300), (9, 40)], []⟩ : SlotLoad), { mode := { cur := .operate } }, rfl, by decide +kernel, rfl, rfl⟩

theorem witness_StoreActs_3 : ∃ (dt : Nat) (p : Nat) (xs : List StoreAccess) (f : SlotLoad) (s : State) (u : State), s.runs = true ∧ p < 5 ∧ f.faults = [] ∧ (∀ a ∈ xs, a.err ≤ 1) ∧ u = each xs storeAccess (s.tick dt) :=
  ⟨1, 2, [⟨2, 8, some [7#8], 0⟩, ⟨2, 8, none, 1⟩], (⟨[3, 500, 0, 0], [(0, 2), (5, 300), (9, 40)], []⟩ : SlotLoad), { mode := { cur := .operate }, store := { posted := [(2, [⟨8, [1#8]⟩, ⟨9, [2#8]⟩])] } }, (each ([⟨2, 8, some [7#8], 0⟩, ⟨2, 8, none, 1⟩] : List StoreAccess) storeAccess (({ mode := { cur := .operate }, store := { posted := [(2, [⟨8, [1#8]⟩, ⟨9, [2#8]⟩])] } } : State).tick 1)), rfl, by decide, rfl, by decide, rfl⟩

theorem witness_StoreActs_4 : ∃ (dt : Nat) (c : Nat) (room : Nat) (xs : List StoreAccess) (f : SlotLoad) (s : State) (u : State), s.runs = true ∧ c < 4 ∧ f.faults = [] ∧ (∀ a ∈ xs, a.err ≤ 1) ∧ u = each xs storeAccess (s.tick dt) ∧ room = pathSlots 5 / 4 + ((List.range 5).map (fun p => pathSlots p / 4 - u.claimed xs p c)).sum :=
  ⟨1, 1, 336, ([] : List StoreAccess), (⟨[3, 500, 0, 0], [(0, 2), (5, 300), (9, 40)], []⟩ : SlotLoad), { mode := { cur := .operate } }, (({ mode := { cur := .operate } } : State).tick 1), rfl, by decide, rfl, by decide, rfl, by decide +kernel⟩

theorem witness_StoreActs_5 : ∃ (dt : Nat) (p : Nat) (c : Nat) (f : SlotLoad) (s : State), s.runs = true ∧ p < 5 ∧ c < 4 ∧ f.faults = [(p, c)] ∧ (s.posted p).any (fun w => storeChannel w.granule = c) = true ∧ s.fenced 16 c = false ∧ (s.lane 16 c).state ≠ 5 :=
  ⟨1, 2, (storeChannel 8), (⟨[3, 500, 0, 0], [(0, 2), (5, 300), (9, 40)], [(2, (storeChannel 8))]⟩ : SlotLoad), { mode := { cur := .operate }, store := { posted := [(2, [⟨8, [1#8]⟩, ⟨9, [2#8]⟩])] } }, rfl, by decide, (Config.channelOrder _).isLt, rfl, by simp [State.posted, Table.getD, Table.find], by simp [State.fenced], by (show (madeLane 0 16 (storeChannel 8)).state ≠ 5; unfold madeLane; split <;> simp)⟩

theorem witness_StoreActs_6 : ∃ (dt : Nat) (q : Nat) (it : Bytes) (r : List Bytes) (s : State), s.runs = true ∧ q < 512 ∧ s.fenced 9 (q / 16) = false ∧ (s.queue q).items = it :: r ∧ it ≠ damagedMark ∧ (95 < q ∨ consumerOf (s.cfFor (stampAt it 8)).1 (q / 16) (q % 16) ≠ 2) :=
  ⟨1, 100, ([0#8, 0#8, 0#8, 1#8] ++ zeros 60), [], { mode := { cur := .operate }, store := { queues := [(100, { items := [([0#8, 0#8, 0#8, 1#8] ++ zeros 60)], head := 1 })] } }, by decide +kernel⟩

theorem witness_StoreActs_7 : ∃ (dt : Nat) (q : Nat) (it : Bytes) (r : List Bytes) (s : State), s.runs = true ∧ q ≤ 95 ∧ s.fenced 9 (q / 16) = false ∧ (s.queue q).items = it :: r ∧ it.take 1 = [0x10#8] ∧ consumerOf (s.cfFor (stampAt it 8)).1 (q / 16) (q % 16) = 2 ∧ s.queueFull 136 = false :=
  ⟨1, 0, ([0x10#8] ++ zeros 63), [], { ({ mode := { cur := .operate }, store := { queues := [(0, { items := [[0x10#8] ++ zeros 63], head := 1 })] } } : State) with cfg := wCfg [(0x2010, 9, 0, toBE 8 2)] }, by decide +kernel⟩

theorem witness_StoreActs_8 : ∃ (dt : Nat) (q : Nat) (s : State), s.runs = true ∧ q < 512 ∧ (s.queue q).items = [] :=
  ⟨1, 100, { mode := { cur := .operate }, store := { queues := [(100, { last := 5, fresh := false })] } }, by decide +kernel⟩

theorem witness_StoreActs_9 : ∃ (dt : Nat) (q : Nat) (o : Nat) (it : Bytes) (r : List Bytes) (s : State), s.runs = true ∧ q < 512 ∧ s.fenced 9 (q / 16) = false ∧ (s.queue q).items = it :: r :=
  ⟨1, 100, 640, ([0#8, 0#8, 0#8, 1#8] ++ zeros 60), [], { mode := { cur := .operate }, store := { queues := [(100, { items := [([0#8, 0#8, 0#8, 1#8] ++ zeros 60)], head := 1, last := 5 })] } }, by decide +kernel⟩

theorem witness_StoreActs_10 : ∃ (dt : Nat) (q : Nat) (o : Nat) (c : Nat) (it : Bytes) (r : List Bytes) (s : State), s.runs = true ∧ 95 < q ∧ q < 512 ∧ (s.queue q).items = it :: r ∧ it ≠ damagedMark ∧ c = storeChannel (o / 64) :=
  ⟨1, 100, 640, (storeChannel 10), ([0#8, 0#8, 0#8, 1#8] ++ zeros 60), [], { mode := { cur := .operate }, store := { queues := [(100, { items := [([0#8, 0#8, 0#8, 1#8] ++ zeros 60)], head := 1, last := 5 })] } }, rfl, by decide, by decide, rfl, by decide, rfl⟩

theorem witness_StoreActs_11 : ∃ (dt : Nat) (q : Nat) (s : State), s.runs = true ∧ q < 512 ∧ (s.queue q).middle ≠ 0 ∧ (s.queue q).head < 16 ∧ s.fenced 9 (q / 16) = false :=
  ⟨1, 100, { mode := { cur := .operate }, store := { queues := [(100, { items := List.replicate 20 ([0#8, 0#8, 0#8, 1#8] ++ zeros 60), head := 4, middle := 16 })] } }, by decide +kernel⟩

theorem witness_StoreActs_12 : ∃ (dt : Nat) (ms : Nat) (w : ScrubWord) (s : State), s.runs = true :=
  ⟨1, 70000, ⟨⟨3, 128, true⟩, 7⟩, { mode := { cur := .operate } }, by decide +kernel⟩

theorem witness_StoreActs_13 : ∃ (dt : Nat) (ms : Nat) (row : Nat) (o : Nat) (c : Nat) (s : State), s.runs = true ∧ c = storeChannel (o / 64) :=
  ⟨1, 5, 7, 640, storeChannel 10, { mode := { cur := .operate } }, rfl, rfl⟩

theorem witness_StoreActs_14 : ∃ (dt : Nat) (c : Nat) (row : Nat) (s : State), s.runs = true ∧ s.store.rowsDue.contains (c, row) = true ∧ Table.getD s.cop.rowsUsed c 0 < 256 :=
  ⟨1, 2, 7, { mode := { cur := .operate }, store := { queues := [(100, {})], rowsDue := [(2, 7)] } }, by decide +kernel⟩

theorem witness_StoreActs_15 : ∃ (dt : Nat) (c : Nat) (row : Nat) (s : State), s.runs = true ∧ s.store.rowsDue.contains (c, row) = true ∧ 256 ≤ Table.getD s.cop.rowsUsed c 0 ∧ (s.lane 10 c).state ≠ 5 :=
  ⟨1, 2, 7, { mode := { cur := .operate }, store := { rowsDue := [(2, 7)] }, cop := { rowsUsed := [(2, 256)] } }, by decide +kernel⟩

theorem witness_StoreActs_16 : ∃ (dt : Nat) (n : Nat) (m : Msg) (v : List (BitVec 8)) (s : State) (x : Session), s.runs = true ∧ TakesWrite (s.tick dt) m x 0xF100 8 v n ∧ n ≤ 511 :=
  ⟨1, 100, wMsg, toBE 2 100, { wIn .operate with store := { queues := [(100, { high := 7 })] } }, wX, by decide +kernel⟩

theorem witness_StoreActs_17 : ∃ (dt : Nat) (n : Nat) (m : Msg) (v : List (BitVec 8)) (s : State) (x : Session), s.runs = true ∧ TakesWrite (s.tick dt) m x 0x6000 3 v n :=
  ⟨1, 0xFFFF, wMsg, toBE 2 0xFFFF, { wIn .operate with align := { lat := [(4, { last := 5 })] } }, wX, by decide +kernel⟩

theorem witness_SchedulerActs_1 : ∃ (dt : Nat) (n : Nat) (d : TaskDesc) (s : State), s.runs = true ∧ Table.find s.sched.desc n = some d ∧ d.byPeriod = true ∧ (s.task n).state = 0 ∧ (s.task n).activeAt + d.period * 1000 ≤ s.elapsed + dt :=
  ⟨1000000, 7, ⟨true, 0, 0, false, true, false, none, 0, 4, 15, 0xFF, 0, 1000, 100, 200, []⟩, { mode := { cur := .operate }, sched := { desc := [(7, ⟨true, 0, 0, false, true, false, none, 0, 4, 15, 0xFF, 0, 1000, 100, 200, []⟩)], tasks := [(7, {})] } }, by decide +kernel⟩

theorem witness_SchedulerActs_2 : ∃ (dt : Nat) (n : Nat) (d : TaskDesc) (s : State), s.runs = true ∧ Table.find s.sched.desc n = some d ∧ d.byPeriod = true ∧ ((s.task n).state = 1 ∨ (s.task n).state = 2) ∧ (s.task n).activeAt + d.period * 1000 ≤ s.elapsed + dt :=
  ⟨1000000, 7, ⟨true, 0, 0, false, true, false, none, 0, 4, 15, 0xFF, 0, 1000, 100, 200, []⟩, { mode := { cur := .operate }, sched := { desc := [(7, ⟨true, 0, 0, false, true, false, none, 0, 4, 15, 0xFF, 0, 1000, 100, 200, []⟩)], tasks := [(7, { state := 1 })] } }, by decide +kernel⟩

theorem witness_SchedulerActs_3 : ∃ (dt : Nat) (k : Nat) (n : Nat) (d : TaskDesc) (s : State), s.runs = true ∧ (s.core k).state = 1 ∧ (s.core k).task = n ∧ Table.find s.sched.desc n = some d ∧ d.wq = none ∧ (∀ p ∈ s.sched.tasks, p.1 = n → p.2.state ≠ 1) :=
  ⟨1, 3, 7, ⟨true, 0, 0, false, false, false, none, 0, 4, 15, 0xFF, 0, 1000, 100, 200, []⟩, { mode := { cur := .operate }, sched := { desc := [(7, ⟨true, 0, 0, false, false, false, none, 0, 4, 15, 0xFF, 0, 1000, 100, 200, []⟩)], tasks := [(7, { state := 2, core := 3 })], cores := [(3, { state := 1, task := 7 })] } }, by decide +kernel⟩

theorem witness_SchedulerActs_4 : ∃ (dt : Nat) (k : Nat) (n : Nat) (w : Nat) (d : TaskDesc) (s : State), s.runs = true ∧ (s.core k).state = 1 ∧ (s.core k).task = n ∧ Table.find s.sched.desc n = some d ∧ d.wq = some w ∧ d.byQueue = true ∧ s.qlen (249 + w) ≠ 0 :=
  ⟨1, 3, 7, 5, ⟨true, 0, 0, true, false, false, some 5, 0, 4, 15, 0xFF, 0, 1000, 100, 200, []⟩, { ({ mode := { cur := .operate }, sched := { desc := [(7, ⟨true, 0, 0, true, false, false, some 5, 0, 4, 15, 0xFF, 0, 1000, 100, 200, []⟩)], tasks := [(7, { state := 2, core := 3 })], cores := [(3, { state := 1, task := 7 })] } } : State) with store := { queues := [(254, { items := [([0#8, 0#8, 0#8, 1#8] ++ zeros 60)], head := 1 })] } }, by decide +kernel⟩

theorem witness_SchedulerActs_5 : ∃ (dt : Nat) (k : Nat) (n : Nat) (d : TaskDesc) (s : State), s.runs = true ∧ (s.core k).state = 1 ∧ (s.core k).task = n ∧ Table.find s.sched.desc n = some d :=
  ⟨200000, 3, 7, ⟨true, 0, 0, false, false, false, none, 0, 4, 15, 0xFF, 0, 1000, 100, 200, []⟩, { mode := { cur := .operate }, sched := { desc := [(7, ⟨true, 0, 0, false, false, false, none, 0, 4, 15, 0xFF, 0, 1000, 100, 200, []⟩)], tasks := [(7, { state := 2, core := 3 })], cores := [(3, { state := 1, task := 7 })] } }, by decide +kernel⟩

theorem witness_SchedulerActs_6 : ∃ (dt : Nat) (n : Nat) (d : TaskDesc) (s : State), s.runs = true ∧ Table.find s.sched.desc n = some d ∧ (s.task n).state = 1 ∧ (s.task n).level < (tuningOf s.cf n d).ceil ∧ (s.task n).levelAt + (tuningOf s.cf n d).quantum * 1000 ≤ s.elapsed + dt :=
  ⟨100000, 7, ⟨true, 0, 0, false, false, false, none, 0, 4, 15, 0xFF, 0, 1000, 100, 200, []⟩, { mode := { cur := .operate }, sched := { desc := [(7, ⟨true, 0, 0, false, false, false, none, 0, 4, 15, 0xFF, 0, 1000, 100, 200, []⟩)], tasks := [(7, { state := 1, level := 14 })] } }, by decide +kernel⟩

theorem witness_SchedulerActs_7 : ∃ (dt : Nat) (n : Nat) (d : TaskDesc) (s : State), s.runs = true ∧ Table.find s.sched.desc n = some d ∧ (s.task n).state = 1 ∧ (tuningOf s.cf n d).ceil = 15 ∧ (s.bound n).1 < (s.elapsed + dt - (s.task n).readyAt) / 1000 ∧ (s.lane 13 0).state ≠ 5 :=
  ⟨2000000, 7, ⟨true, 0, 0, false, false, false, none, 0, 4, 15, 0xFF, 0, 1000, 100, 200, []⟩, { mode := { cur := .operate }, sched := { desc := [(7, ⟨true, 0, 0, false, false, false, none, 0, 4, 15, 0xFF, 0, 1000, 100, 200, []⟩)], tasks := [(7, { state := 1, level := 15 })] } }, by decide +kernel⟩

theorem witness_SchedulerActs_8 : ∃ (dt : Nat) (k : Nat) (b : Nat) (s : State), s.runs = true ∧ k < 32 ∧ (s.core k).markAt + 1000000000 ≤ s.elapsed + dt ∧ (b = (s.core k).busy + (if (s.core k).state = 1 then s.elapsed + dt - (s.core k).startAt else 0) - (s.core k).markBusy) :=
  ⟨1000000000, 3, 1000000000, { mode := { cur := .operate }, sched := { cores := [(3, { state := 1, task := 7 })] } }, by decide +kernel⟩

theorem witness_SchedulerActs_9 : ∃ (dt : Nat) (n : Nat) (m : Msg) (v : List (BitVec 8)) (s : State) (x : Session), s.runs = true ∧ TakesWrite (s.tick dt) m x 0x9000 3 v n :=
  ⟨1, 1, wMsg, [1#8], { wIn .operate with sched := { tasks := [(7, { longest := 5 })] } }, wX, by decide +kernel⟩

theorem witness_KeyCommandsAct_1 : ∃ (dt : Nat) (n : Nat) (code : Nat) (m : Msg) (v : List (BitVec 8)) (d : List (BitVec 8)) (b : List (BitVec 8)) (s : State) (x : Session) (c : Instr), (c, code, b) ∈ [(Instr.keyImportWrapped dt m v d, 1, v ++ d), (.keyImportClear dt m v, 2, v), (.keyImportPublic dt m v d, 3, v ++ d), (.keyDerive dt m v, 4, v), (.keyUpdate dt m v d, 5, v ++ d), (.keyRevoke dt m v, 6, v), (.keyDestroy dt m v, 7, v)] ∧ s.runs = true ∧ TakesWrite (s.tick dt) m x 0xA200 1 b n ∧ field b 0 1 = code ∧ b ≠ [] ∧ (x.anon = false ∨ (s.mode.cur = .provision ∧ code = 2)) ∧ s.key.cmd = none ∧ s.power.failState = 0 ∧ s.key.stateCode = 1 ∧ s.key.erasing = false ∧ s.upd.state ≠ 3 :=
  ⟨1, ofBE (toBE 1 6 ++ zeros 1 ++ toBE 2 9 ++ toBE 2 0 ++ toBE 1 0 ++ toBE 1 0 ++ toBE 2 0 ++ zeros 2 ++ toBE 4 1 ++ zeros 16 ++ zeros 0), 6, wSign { wX with anon := false, slot := 9 } 0x12 (objPayload 0xA200 1 (zeros 1 ++ (toBE 1 6 ++ zeros 1 ++ toBE 2 9 ++ toBE 2 0 ++ toBE 1 0 ++ toBE 1 0 ++ toBE 2 0 ++ zeros 2 ++ toBE 4 1 ++ zeros 16 ++ zeros 0))), (toBE 1 6 ++ zeros 1 ++ toBE 2 9 ++ toBE 2 0 ++ toBE 1 0 ++ toBE 1 0 ++ toBE 2 0 ++ zeros 2 ++ toBE 4 1 ++ zeros 16 ++ zeros 0), [], (toBE 1 6 ++ zeros 1 ++ toBE 2 9 ++ toBE 2 0 ++ toBE 1 0 ++ toBE 1 0 ++ toBE 2 0 ++ zeros 2 ++ toBE 4 1 ++ zeros 16 ++ zeros 0), { wIn .standby { wX with anon := false, slot := 9 } with key := { roots := [{ used := true, complete := true }, {}], inForce := some 0, slots := [(0, { state := 1, kind := 4, usage := 32, scope := 31, origin := 5 }), (9, { state := 1, kind := 2, usage := 2, scope := 31 }), (10, { state := 1, kind := 3, scope := 31, parent := 9 })] } }, { wX with anon := false, slot := 9 }, .keyRevoke 1 (wSign { wX with anon := false, slot := 9 } 0x12 (objPayload 0xA200 1 (zeros 1 ++ (toBE 1 6 ++ zeros 1 ++ toBE 2 9 ++ toBE 2 0 ++ toBE 1 0 ++ toBE 1 0 ++ toBE 2 0 ++ zeros 2 ++ toBE 4 1 ++ zeros 16 ++ zeros 0)))) (toBE 1 6 ++ zeros 1 ++ toBE 2 9 ++ toBE 2 0 ++ toBE 1 0 ++ toBE 1 0 ++ toBE 2 0 ++ zeros 2 ++ toBE 4 1 ++ zeros 16 ++ zeros 0), by decide +kernel⟩

theorem witness_KeyCommandsAct_2 : ∃ (dt : Nat) (k : KeyCmd) (z : KeySlot) (s : State), s.runs = true ∧ s.power.failState ≠ 2 ∧ s.key.cmd = some k ∧ k.next = some z :=
  ⟨1, ⟨7, 9, some {}, 0, false⟩, {}, { wIn .standby  with key := { roots := [{ used := true, complete := true }, {}], inForce := some 0, slots := [(0, { state := 1, kind := 4, usage := 32, scope := 31, origin := 5 }), (9, { state := 1, kind := 2, usage := 2, scope := 31 }), (10, { state := 1, kind := 3, scope := 31, parent := 9 })], cmd := some ⟨7, 9, some {}, 0, false⟩ } }, by decide +kernel⟩

theorem witness_KeyCommandsAct_3 : ∃ (dt : Nat) (k : KeyCmd) (s : State), s.runs = true ∧ s.power.failState ≠ 2 ∧ s.key.cmd = some k ∧ k.next = none :=
  ⟨1, ⟨6, 9, none, 0, false⟩, { wIn .standby  with key := { roots := [{ used := true, complete := true }, {}], inForce := some 0, slots := [(0, { state := 1, kind := 4, usage := 32, scope := 31, origin := 5 }), (9, { state := 1, kind := 2, usage := 2, scope := 31 }), (10, { state := 1, kind := 3, scope := 31, parent := 9 })], cmd := some ⟨6, 9, none, 0, false⟩ } }, by decide +kernel⟩

theorem witness_KeyCommandsAct_4 : ∃ (dt : Nat) (k : KeyCmd) (s : State), s.runs = true ∧ s.power.failState = 0 ∧ s.key.cmd = some k ∧ k.retried = false :=
  ⟨1, ⟨7, 9, some {}, 0, false⟩, { wIn .standby  with key := { roots := [{ used := true, complete := true }, {}], inForce := some 0, slots := [(0, { state := 1, kind := 4, usage := 32, scope := 31, origin := 5 }), (9, { state := 1, kind := 2, usage := 2, scope := 31 }), (10, { state := 1, kind := 3, scope := 31, parent := 9 })], cmd := some ⟨7, 9, some {}, 0, false⟩ } }, by decide +kernel⟩

theorem witness_KeyCommandsAct_5 : ∃ (dt : Nat) (k : KeyCmd) (s : State), s.runs = true ∧ s.key.cmd = some k ∧ (k.retried = true ∨ s.power.failState ≠ 0) :=
  ⟨1, ⟨7, 9, some {}, 0, false⟩, { ({ wIn .standby  with key := { roots := [{ used := true, complete := true }, {}], inForce := some 0, slots := [(0, { state := 1, kind := 4, usage := 32, scope := 31, origin := 5 }), (9, { state := 1, kind := 2, usage := 2, scope := 31 }), (10, { state := 1, kind := 3, scope := 31, parent := 9 })], cmd := some ⟨7, 9, some {}, 0, false⟩ } } : State) with power := { failState := 1 } }, by decide +kernel⟩

theorem witness_RootMasksAndTrngAct_1 : ∃ (dt : Nat) (n : Nat) (ok : Bool) (m : Msg) (v : List (BitVec 8)) (bad : List TrngTest) (more : List TrngTest) (s : State) (x : Session), s.runs = true ∧ TakesWrite (s.tick dt) m x 0xA000 5 v n ∧ s.mode.cur = .provision ∧ s.key.inForce = none ∧ s.key.areaFree = true ∧ s.key.trngFail = false ∧ s.power.failState = 0 ∧ (∀ d ∈ bad, (d.rep && d.prop) = false) ∧ s.key.trngBad + bad.length < 3 :=
  ⟨1, 1, true, wMsg, [1#8], [⟨false, true⟩], [], wIn .provision, wX, by decide +kernel⟩

theorem witness_RootMasksAndTrngAct_2 : ∃ (dt : Nat) (n : Nat) (ok : Bool) (m : Msg) (v : List (BitVec 8)) (draws : List TrngTest) (s : State) (x : Session), s.runs = true ∧ TakesWrite (s.tick dt) m x 0xA000 5 v n ∧ (s.mode.cur ≠ .provision ∨ s.key.inForce ≠ none ∨ s.key.areaFree = false ∨ s.key.trngFail = true) :=
  ⟨1, 1, true, wMsg, [1#8], [⟨true, true⟩], wIn .standby, wX, by decide +kernel⟩

theorem witness_RootMasksAndTrngAct_3 : ∃ (dt : Nat) (n : Nat) (ok : Bool) (m : Msg) (v : List (BitVec 8)) (draws : List TrngTest) (s : State) (x : Session), s.runs = true ∧ TakesWrite (s.tick dt) m x 0xA000 5 v n ∧ s.mode.cur = .provision ∧ s.key.inForce = none ∧ s.key.areaFree = true ∧ s.key.trngFail = false ∧ s.power.failState ≠ 0 :=
  ⟨1, 1, true, wMsg, [1#8], [⟨true, true⟩], { wIn .provision with power := { failState := 1 } }, wX, by decide +kernel⟩

theorem witness_RootMasksAndTrngAct_4 : ∃ (dt : Nat) (n : Nat) (ok : Bool) (m : Msg) (v : List (BitVec 8)) (bad : List TrngTest) (s : State) (x : Session), s.runs = true ∧ TakesWrite (s.tick dt) m x 0xA000 5 v n ∧ s.mode.cur = .provision ∧ s.key.inForce = none ∧ s.key.areaFree = true ∧ s.key.trngFail = false ∧ s.power.failState = 0 ∧ (∀ d ∈ bad, (d.rep && d.prop) = false) ∧ s.key.trngBad < 3 :=
  ⟨1, 1, true, wMsg, [1#8], [⟨true, false⟩, ⟨false, true⟩, ⟨false, false⟩], wIn .provision, wX, by decide +kernel⟩

theorem witness_RootMasksAndTrngAct_5 : ∃ (dt : Nat) (n : Nat) (s : State), s.runs = true ∧ s.key.trngFail = false ∧ n < 512 ∧ n ∈ s.heldKeys :=
  ⟨1, 9, { wIn .standby  with key := { roots := [{ used := true, complete := true }, {}], inForce := some 0, slots := [(0, { state := 1, kind := 4, usage := 32, scope := 31, origin := 5 }), (9, { state := 1, kind := 2, usage := 2, scope := 31 }), (10, { state := 1, kind := 3, scope := 31, parent := 9 })] } }, by decide +kernel⟩

theorem witness_RootMasksAndTrngAct_6 : ∃ (dt : Nat) (a : Bool) (b : Bool) (s : State), s.runs = true ∧ (a && b) = false ∧ s.key.trngFail = false ∧ s.key.trngBad = 2 :=
  ⟨1, true, false, { key := { trngBad := 2 } }, by decide +kernel⟩

theorem witness_RootMasksAndTrngAct_7 : ∃ (dt : Nat) (s : State), s.runs = true ∧ s.key.trngFail = true :=
  ⟨1, { key := { trngFail := true, trngGood := 15 } }, by decide +kernel⟩

theorem witness_LifeCycleAndTamperAct_1 : ∃ (dt : Nat) (n : Nat) (m : Msg) (v : List (BitVec 8)) (s : State) (x : Session), s.runs = true ∧ TakesWrite (s.tick dt) m x 0xA000 4 v n ∧ field v 0 1 = 1 ∧ n / 2 ^ 24 = 1 ∧ n % 2 ^ 24 = Config.serial.toNat % 2 ^ 24 ∧ (s.key.life = .manufacture ∨ s.key.life = .rma) ∧ s.mode.cur = .provision ∧ x.anon = true ∧ s.key.inForce.isSome = true ∧ s.key.slots.any (fun p => p.2.state = 1 && bit p.2.usage 1) = true ∧ s.power.failState = 0 :=
  ⟨1, wLife 1, wMsg, (toBE 4 (wLife 1)), { wIn .provision { wX with anon := true } with key := { life := .manufacture, roots := [{ used := true, complete := true }, { used := true }], inForce := some 0, slots := [(0, { state := 1, kind := 4, usage := 32, scope := 31, origin := 5 }), (9, { state := 1, kind := 2, usage := 2, scope := 31 })] } }, { wX with anon := true }, by decide +kernel, ⟨by decide +kernel, Eq.trans (b := (stOk, ofBE (toBE 4 (wLife 1)))) rfl (by rw [(wLife_spec 1 (by decide)).1])⟩, (wLife_spec 1 (by decide)).2.1, (wLife_spec 1 (by decide)).2.2.1, (wLife_spec 1 (by decide)).2.2.2, by decide +kernel, by decide +kernel, by decide +kernel, by decide +kernel, by decide +kernel, by decide +kernel⟩

theorem witness_LifeCycleAndTamperAct_2 : ∃ (dt : Nat) (n : Nat) (m : Msg) (v : List (BitVec 8)) (s : State) (x : Session), s.runs = true ∧ TakesWrite (s.tick dt) m x 0xA000 4 v n ∧ field v 0 1 = 2 ∧ n / 2 ^ 24 = 2 ∧ n % 2 ^ 24 = Config.serial.toNat % 2 ^ 24 ∧ s.key.life = .provisioned ∧ s.mode.cur ≠ .quickset ∧ x.anon = false ∧ s.power.failState = 0 :=
  ⟨1, wLife 2, (wSign { wX with anon := false, slot := 9 } 0x12 (objPayload 0xA000 4 (zeros 1 ++ (toBE 4 (wLife 2))))), (toBE 4 (wLife 2)), { wIn .standby { wX with anon := false, slot := 9 } with key := { life := .provisioned, roots := [{ used := true, complete := true }, { used := true }], inForce := some 0, slots := [(0, { state := 1, kind := 4, usage := 32, scope := 31, origin := 5 }), (9, { state := 1, kind := 2, usage := 2, scope := 31 })] } }, { wX with anon := false, slot := 9 }, by decide +kernel, ⟨⟨rfl, rfl, rfl, by decide +kernel, by decide +kernel, Or.inl ⟨wSigned _ _ _, by decide +kernel⟩⟩, Eq.trans (b := (stOk, ofBE (toBE 4 (wLife 2)))) rfl (by rw [(wLife_spec 2 (by decide)).1])⟩, (wLife_spec 2 (by decide)).2.1, (wLife_spec 2 (by decide)).2.2.1, (wLife_spec 2 (by decide)).2.2.2, by decide +kernel, by decide +kernel, by decide +kernel, by decide +kernel⟩

theorem witness_LifeCycleAndTamperAct_3 : ∃ (dt : Nat) (n : Nat) (code : Nat) (m : Msg) (v : List (BitVec 8)) (s : State) (x : Session) (c : Instr) (l : Life), (c, code, l) ∈ [(Instr.lifecycleToRma dt m v, 3, Life.rma), (.lifecycleToScrapped dt m v, 4, .scrapped)] ∧ s.runs = true ∧ TakesWrite (s.tick dt) m x 0xA000 4 v n ∧ field v 0 1 = code ∧ n / 2 ^ 24 = code ∧ n % 2 ^ 24 = Config.serial.toNat % 2 ^ 24 ∧ (s.key.life = .provisioned ∨ s.key.life = .operational) ∧ x.anon = false ∧ s.mode.cur ≠ .quickset ∧ s.mode.cur ≠ .zeroized ∧ (∀ r ∈ s.key.roots, r.used = true) :=
  ⟨1, wLife 4, 4, (wSign { wX with anon := false, slot := 9 } 0x12 (objPayload 0xA000 4 (zeros 1 ++ (toBE 4 (wLife 4))))), (toBE 4 (wLife 4)), { wIn .standby { wX with anon := false, slot := 9 } with key := { life := .operational, roots := [{ used := true, complete := true }, { used := true }], inForce := some 0, slots := [(0, { state := 1, kind := 4, usage := 32, scope := 31, origin := 5 }), (9, { state := 1, kind := 2, usage := 2, scope := 31 })] } }, { wX with anon := false, slot := 9 }, .lifecycleToScrapped 1 (wSign { wX with anon := false, slot := 9 } 0x12 (objPayload 0xA000 4 (zeros 1 ++ (toBE 4 (wLife 4))))) (toBE 4 (wLife 4)), .scrapped, (by simp), by decide +kernel, ⟨⟨rfl, rfl, rfl, by decide +kernel, by decide +kernel, Or.inl ⟨wSigned _ _ _, by decide +kernel⟩⟩, Eq.trans (b := (stOk, ofBE (toBE 4 (wLife 4)))) rfl (by rw [(wLife_spec 4 (by decide)).1])⟩, (wLife_spec 4 (by decide)).2.1, (wLife_spec 4 (by decide)).2.2.1, (wLife_spec 4 (by decide)).2.2.2, by decide +kernel, by decide +kernel, by decide +kernel, by decide +kernel, by decide +kernel⟩

theorem witness_LifeCycleAndTamperAct_4 : ∃ (dt : Nat) (n : Nat) (m : Msg) (v : List (BitVec 8)) (s : State) (x : Session) (l : Life) (c : Instr), s.runs = true ∧ (c, n / 2 ^ 24, l) ∈ [(Instr.lifecycleToProvisioned dt m v, 1, Life.operational), (.lifecycleToOperational dt m v, 2, .operational), (.lifecycleToRma dt m v, 3, .manufacture), (.lifecycleToScrapped dt m v, 4, .scrapped)] ∧ s.key.life = l ∧ TakesWrite (s.tick dt) m x 0xA000 4 v n ∧ field v 0 1 = n / 2 ^ 24 :=
  ⟨1, 2 * 2 ^ 24 + 7, wMsg, toBE 4 (2 * 2 ^ 24 + 7), { wIn .standby wX with key := { life := .operational, roots := [{ used := true, complete := true }, { used := true }], inForce := some 0, slots := [(0, { state := 1, kind := 4, usage := 32, scope := 31, origin := 5 }), (9, { state := 1, kind := 2, usage := 2, scope := 31 })] } }, wX, .operational, .lifecycleToOperational 1 wMsg (toBE 4 (2 * 2 ^ 24 + 7)), by decide +kernel⟩

theorem witness_LifeCycleAndTamperAct_5 : ∃ (dt : Nat) (src : Nat) (i : TamperIn) (s : State), s.runs = true ∧ tamperSource i = some src ∧ bit (s.cf.u 0xA010 2 0 1) src = true ∧ bit s.key.tamperNow src = false :=
  ⟨1, 3, .junction 126000 1000000, { wIn .standby with key := { roots := [{ used := true, complete := true }, {}], inForce := some 0, slots := [(0, { state := 1, kind := 4, usage := 32, scope := 31, origin := 5 }), (9, { state := 1, kind := 2 })] }, cfg := wCfg [(0xA010, 2, 0, [31#8]), (0xA010, 1, 0, [2#8])] }, by decide +kernel⟩

theorem witness_LifeCycleAndTamperAct_6 : ∃ (dt : Nat) (src : Nat) (s : State), s.runs = true ∧ bit s.key.tamperNow src = true :=
  ⟨1, 3, { key := { tamperNow := 9 } }, by decide +kernel⟩

theorem witness_LifeCycleAndTamperAct_7 : ∃ (dt : Nat) (tj : Int) (rails : List Nat) (s : State), s.runs = true ∧ railsAbove rails = true ∧ bit (s.cf.u 0xA010 2 0 1) 2 = true ∧ bit s.key.tamperNow 2 = false :=
  ⟨1, 0, [1001, 0, 0, 0, 0, 0, 0], { wIn .standby with cfg := wCfg [(0xA010, 2, 0, [31#8])] }, by decide +kernel⟩

theorem witness_LifeCycleAndTamperAct_8 : ∃ (dt : Nat) (i : TamperIn) (s : State), s.runs = true ∧ tamperSource i = none :=
  ⟨1, .line true 9999, { }, by decide +kernel⟩

theorem witness_LifeCycleAndTamperAct_9 : ∃ (dt : Nat) (s : State), s.runs = true ∧ s.key.erasing = true :=
  ⟨1, { key := { erasing := true } }, by decide +kernel⟩

theorem witness_UpdatesAreDownloaded_1 : ∃ (dt : Nat) (n : Nat) (c : Sigs) (m : Msg) (v : List (BitVec 8)) (b : List (BitVec 8)) (s : State) (x : Session), s.runs = true ∧ b = v ++ c.sig ++ c.coSig ∧ TakesWrite (s.tick dt) m x 0xB100 1 b n ∧ s.upd.state ≠ 3 ∧ s.key.asym = none ∧ s.portBusy 2 = false ∧ (manifestFault b s).1 = 0 ∧ (s.upd.holder = none ∨ s.holds { x with via := m.via } = true) :=
  ⟨1, ofBE wMan, wSg, wMsg, wBody, wMan, { wIn .standby with upd := { banks := [{ state := 3 }, { state := 2, manifest := wMan }] }, key := { slots := [(0, { state := 1, kind := 4, usage := 32, scope := 31, point := wPt })] } }, wX, by decide +kernel, rfl, by decide +kernel, by decide +kernel, by decide +kernel, by decide +kernel, wMan_ok _ rfl rfl (by decide +kernel) (by decide +kernel) (by simp only [State.laterFault, wMan_rom]; decide +kernel), by decide +kernel⟩

theorem witness_UpdatesAreDownloaded_2 : ∃ (dt : Nat) (n : Nat) (c : Sigs) (m : Msg) (v : List (BitVec 8)) (b : List (BitVec 8)) (s : State) (x : Session), s.runs = true ∧ b = v ++ c.sig ++ c.coSig ∧ TakesWrite (s.tick dt) m x 0xB100 1 b n ∧ s.upd.state ≠ 3 ∧ s.key.asym = none ∧ s.portBusy 2 = false ∧ (manifestFault b s).1 ≠ 0 :=
  ⟨1, ofBE (wBody ++ zeros 192), ⟨zeros 96, zeros 96⟩, wMsg, wBody, (wBody ++ zeros 192), { wIn .standby with upd := { banks := [{ state := 3 }, { state := 2, manifest := wMan }] }, key := { slots := [(0, { state := 1, kind := 4, usage := 32, scope := 31, point := wPt })] } }, wX, by decide +kernel, by decide +kernel, by decide +kernel, by decide +kernel, by decide +kernel, by decide +kernel, by decide +kernel⟩

theorem witness_UpdatesAreDownloaded_3 : ∃ (dt : Nat) (n : Nat) (c : Sigs) (m : Msg) (v : List (BitVec 8)) (b : List (BitVec 8)) (s : State) (x : Session), s.runs = true ∧ b = v ++ c.sig ++ c.coSig ∧ TakesWrite (s.tick dt) m x 0xB100 1 b n ∧ s.upd.state ≠ 3 ∧ s.key.asym = none ∧ s.portBusy 2 = false ∧ (manifestFault b s).1 = 0 ∧ s.upd.holder ≠ none ∧ s.holds { x with via := m.via } = false :=
  ⟨1, ofBE wMan, wSg, wMsg, wBody, wMan, { wIn .standby with upd := { holder := some (3, 7, 7), banks := [{ state := 3 }, { state := 2, manifest := wMan }] }, key := { slots := [(0, { state := 1, kind := 4, usage := 32, scope := 31, point := wPt })] } }, wX, by decide +kernel, rfl, by decide +kernel, by decide +kernel, by decide +kernel, by decide +kernel, wMan_ok _ rfl rfl (by decide +kernel) (by decide +kernel) (by simp only [State.laterFault, wMan_rom]; decide +kernel), by decide +kernel, by decide +kernel⟩

theorem witness_UpdatesAreDownloaded_4 : ∃ (dt : Nat) (n : Nat) (c : Sigs) (m : Msg) (v : List (BitVec 8)) (b : List (BitVec 8)) (s : State) (x : Session), s.runs = true ∧ b = v ++ c.sig ++ c.coSig ∧ TakesWrite (s.tick dt) m x 0xB100 1 b n ∧ s.upd.state ≠ 3 ∧ s.key.asym ≠ none ∧ s.portBusy 2 = false :=
  ⟨1, ofBE (wBody ++ zeros 192), ⟨zeros 96, zeros 96⟩, wMsg, wBody, (wBody ++ zeros 192), { wIn .standby with upd := { banks := [{ state := 3 }, { state := 2, manifest := wMan }] }, key := { slots := [(0, { state := 1, kind := 4, usage := 32, scope := 31, point := wPt })], asym := some { req := { op := .manifestVerify, requester := 1, handle := 0, iv := [], data := [], mac := some [] }, mat := {}, point := [] } } }, wX, by decide +kernel⟩

theorem witness_UpdatesAreDownloaded_5 : ∃ (dt : Nat) (j : KeyJob) (w : WaitingManifest) (s : State) (x : Session), s.runs = true ∧ s.key.asym = some j ∧ (∀ r ∈ s.key.waiting, r.req.asym = false) ∧ s.upd.waiting = some w ∧ s.session w.sid = some x ∧ s.upd.state ≠ 3 ∧ s.portBusy 2 = false :=
  ⟨1, { req := { op := .manifestVerify, requester := 1, handle := 0, iv := [], data := [], mac := some [] }, mat := {}, point := [] }, ⟨5, wVia, 9, [1#8]⟩, { wIn .standby with upd := { waiting := some ⟨5, wVia, 9, [1#8]⟩, banks := [{ state := 3 }, { state := 2, manifest := wMan }] }, key := { slots := [(0, { state := 1, kind := 4, usage := 32, scope := 31, point := wPt })], asym := some { req := { op := .manifestVerify, requester := 1, handle := 0, iv := [], data := [], mac := some [] }, mat := {}, point := [] } } }, wX, by decide +kernel⟩

theorem witness_UpdatesAreDownloaded_6 : ∃ (dt : Nat) (n : Nat) (k : Nat) (m : Msg) (v : List (BitVec 8)) (d : List (BitVec 8)) (b : List (BitVec 8)) (s : State) (x : Session) (p : PartU), s.runs = true ∧ b = v ++ d ∧ TakesWrite (s.tick dt) m x 0xB100 2 b n ∧ s.upd.state ≠ 3 ∧ s.portBusy 2 = false ∧ s.key.erasing = false ∧ s.holds { x with via := m.via } = true ∧ field b 0 1 = k ∧ s.upd.parts[k]? = some p ∧ 9 ≤ b.length ∧ b.length ≤ 1288 ∧ field b 1 3 = 0 ∧ field b 4 4 = p.data.length ∧ p.data.length + (b.length - 8) ≤ p.length :=
  ⟨1, ofBE (toBE 1 0 ++ zeros 3 ++ toBE 4 4 ++ zeros 8), 0, wMsg, (toBE 1 0 ++ zeros 3 ++ toBE 4 4), (zeros 8), (toBE 1 0 ++ zeros 3 ++ toBE 4 4 ++ zeros 8), { wIn .standby with upd := { holder := some (5, 0, 1), state := 1, parts := [{ type := 1, data := zeros 4, length := 12 }], banks := [{ state := 3 }, { state := 2, manifest := wMan }] } }, wX, { type := 1, data := zeros 4, length := 12 }, by decide +kernel⟩

theorem witness_UpdatesAreDownloaded_7 : ∃ (dt : Nat) (k : Nat) (d : List (BitVec 8)) (p : PartU) (s : State), s.runs = true ∧ s.upd.parts[k]? = some p ∧ s.upd.state = 1 ∧ p.state = 2 ∧ s.power.failState = 0 ∧ s.portBusy 2 = false ∧ s.key.erasing = false ∧ sha256 d = s.partHash k :=
  ⟨1, 0, (zeros 12), { type := 1, state := 2, data := zeros 12, length := 12 }, { wIn .standby with upd := { state := 1, parts := [{ type := 1, state := 2, data := zeros 12, length := 12 }], banks := [{ state := 3 }, { state := 1, manifest := zeros 72 ++ sha256 (zeros 12) }] } }, by decide +kernel⟩

theorem witness_UpdatesAreDownloaded_8 : ∃ (dt : Nat) (k : Nat) (d : List (BitVec 8)) (p : PartU) (s : State), s.runs = true ∧ s.upd.parts[k]? = some p ∧ s.upd.state = 1 ∧ p.state = 2 ∧ s.power.failState = 0 ∧ s.portBusy 2 = false ∧ s.key.erasing = false ∧ sha256 d ≠ s.partHash k :=
  ⟨1, 0, (zeros 12), { type := 1, state := 2, data := zeros 12, length := 12 }, { wIn .standby with upd := { state := 1, parts := [{ type := 1, state := 2, data := zeros 12, length := 12 }], banks := [{ state := 3 }, { state := 2, manifest := wMan }] } }, by decide +kernel⟩

theorem witness_UpdatesAreDownloaded_9 : ∃ (dt : Nat) (n : Nat) (m : Msg) (v : List (BitVec 8)) (s : State) (x : Session), s.runs = true ∧ TakesWrite (s.tick dt) m x 0xB000 0x0A v n :=
  ⟨1, 1, wMsg, [1#8], { wIn .standby with upd := { holder := some (5, 0, 1), state := 1, banks := [{ state := 3 }, { state := 2, manifest := wMan }] } }, wX, by decide +kernel⟩

theorem witness_UpdatesAreDownloaded_10 : ∃ (dt : Nat) (s : State), s.runs = true ∧ s.upd.holder ≠ none ∧ s.upd.holderAt + 600000000000 ≤ s.elapsed + dt :=
  ⟨600000000000, { wIn .standby with upd := { holder := some (5, 0, 1), banks := [{ state := 3 }, { state := 2, manifest := wMan }] } }, by decide +kernel⟩

theorem witness_UpdatesAreDownloaded_11 : ∃ (dt : Nat) (s : State), s.elapsed + dt < s.upd.holderAt + 600000000000 :=
  ⟨599999999999, { wIn .standby with upd := { holder := some (5, 0, 1), banks := [{ state := 3 }, { state := 2, manifest := wMan }] } }, by decide +kernel⟩

theorem witness_UpdatesAreActivated_1 : ∃ (dt : Nat) (n : Nat) (m : Msg) (v : List (BitVec 8)) (s : State) (x : Session), s.runs = true ∧ TakesWrite (s.tick dt) m x 0xB000 7 v n ∧ s.power.failState = 0 ∧ s.upd.state = 2 ∧ (s.upd.holder = none ∨ s.holds { x with via := m.via } = true) ∧ s.mode.cur ≠ .quickset :=
  ⟨1, 1, wMsg, [1#8], { wIn .operate with upd := { state := 2, banks := [{ state := 3 }, { state := 2, manifest := wMan }] } }, wX, by decide +kernel⟩

theorem witness_UpdatesAreActivated_2 : ∃ (dt : Nat) (n : Nat) (m : Msg) (v : List (BitVec 8)) (s : State) (x : Session), s.runs = true ∧ TakesWrite (s.tick dt) m x 0xB000 7 v n ∧ s.power.failState = 0 ∧ (s.upd.state ≠ 2 ∨ (s.upd.holder ≠ none ∧ s.holds { x with via := m.via } = false)) :=
  ⟨1, 1, wMsg, [1#8], { wIn .operate with upd := { state := 1, banks := [{ state := 3 }, { state := 2, manifest := wMan }] } }, wX, by decide +kernel⟩

theorem witness_UpdatesAreActivated_3 : ∃ (dt : Nat) (s : State), s.runs = true ∧ s.upd.state = 3 ∧ s.settled = true :=
  ⟨1, { wIn .standby with upd := { state := 3, banks := [{ state := 3 }, { state := 2, manifest := wMan }] } }, by decide +kernel⟩

theorem witness_UpdatesAreActivated_4 : ∃ (dt : Nat) (n : Nat) (k : BankU) (m : Msg) (v : List (BitVec 8)) (s : State) (x : Session), s.runs = true ∧ TakesWrite (s.tick dt) m x 0xB000 8 v n ∧ s.power.failState = 0 ∧ s.upd.state = 4 ∧ (s.upd.leaving = 0 ∨ (s.upd.leaving = 1 ∧ s.upd.trialEnd.any (fun e => decide (e / 1000000 = (s.elapsed + dt) / 1000000)) = true)) ∧ (s.upd.settings ≠ 2 ∨ s.upd.committed = true) ∧ s.upd.banks[s.upd.running]? = some k :=
  ⟨1, 1, { state := 4, manifest := wMan }, wMsg, [1#8], { wIn .standby with upd := { state := 4, running := 1, banks := [{ state := 3 }, { state := 4, manifest := wMan }] } }, wX, by decide +kernel⟩

theorem witness_UpdatesAreActivated_5 : ∃ (dt : Nat) (s : State), s.runs = true ∧ s.upd.secVer < s.upd.secGoal ∧ s.power.failState = 0 :=
  ⟨1, { wIn .standby with upd := { secGoal := 2, secVer := 1, banks := [{ state := 3 }, { state := 2, manifest := wMan }] } }, by decide +kernel⟩

theorem witness_UpdatesAreActivated_6 : ∃ (dt : Nat) (n : Nat) (m : Msg) (v : List (BitVec 8)) (s : State) (x : Session), s.runs = true ∧ TakesWrite (s.tick dt) m x 0xB000 9 v n ∧ s.power.failState = 0 ∧ s.upd.state = 4 ∧ s.upd.leaving = 0 ∧ s.mode.cur.forms = false ∧ s.mode.pend = none :=
  ⟨1, 1, wMsg, [1#8], { wIn .standby with upd := { state := 4, running := 1, banks := [{ state := 3 }, { state := 2, manifest := wMan }] } }, wX, by decide +kernel⟩

theorem witness_UpdatesAreActivated_7 : ∃ (dt : Nat) (e : Nat) (s : State), s.runs = true ∧ s.upd.trialEnd = some e ∧ e ≤ s.elapsed + dt ∧ s.upd.state = 4 ∧ s.upd.leaving = 0 ∧ s.mode.cur.forms = false ∧ s.mode.pend = none ∧ s.power.failState = 0 :=
  ⟨1, 1, { wIn .standby with upd := { state := 4, running := 1, trialEnd := some 1, banks := [{ state := 3 }, { state := 2, manifest := wMan }] } }, by decide +kernel⟩

theorem witness_UpdatesAreActivated_8 : ∃ (dt : Nat) (e : Nat) (s : State), s.runs = true ∧ s.upd.trialEnd = some e ∧ e ≤ s.elapsed + dt ∧ s.upd.state = 4 ∧ s.upd.leaving = 0 ∧ s.mode.cur.forms = true ∧ s.mode.pend = none :=
  ⟨1, 1, { wIn .operate with upd := { state := 4, running := 1, trialEnd := some 1, banks := [{ state := 3 }, { state := 2, manifest := wMan }] } }, by decide +kernel⟩

theorem witness_UpdatesAreActivated_9 : ∃ (dt : Nat) (n : Nat) (m : Msg) (v : List (BitVec 8)) (s : State) (x : Session), s.runs = true ∧ TakesWrite (s.tick dt) m x 0xB000 0x0C v n :=
  ⟨1, 1, wMsg, [1#8], { wIn .quickset { wX with via := .port 5 1 2 } with upd := { banks := [{ state := 3 }, { state := 2, manifest := wMan }] } }, wX, by decide +kernel⟩

theorem witness_RotationActs_1 : ∃ (dt : Nat) (u : Nat) (l : Nat) (p : Nat) (s : State), s.runs = true ∧ s.coppiceRuns = true ∧ unitSpared u = true ∧ (s.lane u l).state = 0 ∧ s.takeable (laneKey u l) = true ∧ s.spareLane u = some p :=
  ⟨1, 1, 0, 8, { wIn .standby with cop := { now := [64] }, cfg := wCfg [(0xC000, 1, 0, [1#8])] }, by decide +kernel⟩

theorem witness_RotationActs_2 : ∃ (dt : Nat) (l : Nat) (s : State), s.runs = true ∧ s.coppiceRuns = true ∧ (s.lane 11 l).state = 0 ∧ s.takeable (laneKey 11 l) = true ∧ (s.core l).state ≤ 1 :=
  ⟨1, 5, { wIn .standby with cop := { now := [709] }, cfg := wCfg [(0xC000, 1, 0, [1#8])] }, by decide +kernel⟩

theorem witness_RotationActs_3 : ∃ (dt : Nat) (u : Nat) (y : Shadow) (s : State), s.runs = true ∧ s.cop.shadows.find? (fun z => z.unit = u) = some y ∧ y.lane ≠ y.spare ∧ (s.tick dt).shadowDue y = true :=
  ⟨100000000, 1, ⟨1, 0, 8, 0⟩, { wIn .standby with cop := { shadows := [⟨1, 0, 8, 0⟩] }, cfg := wCfg [(0xC000, 1, 0, [1#8])] }, by decide +kernel⟩

theorem witness_RotationActs_4 : ∃ (dt : Nat) (u : Nat) (y : Shadow) (s : State), s.runs = true ∧ s.cop.shadows.find? (fun z => z.unit = u) = some y ∧ y.lane ≠ y.spare :=
  ⟨1, 1, ⟨1, 0, 8, 0⟩, { wIn .standby with cop := { shadows := [⟨1, 0, 8, 0⟩] }, cfg := wCfg [(0xC000, 1, 0, [1#8])] }, by decide +kernel⟩

theorem witness_RotationActs_5 : ∃ (dt : Nat) (u : Nat) (l : Nat) (y : LaneTest) (s : State), s.runs = true ∧ s.coppiceRuns = true ∧ s.testOf u l = some y ∧ y.running = none ∧ y.yieldAt = none ∧ (s.tick dt).sliceFits u = true :=
  ⟨1, 13, 0, { unit := 13, lane := 0 }, { wIn .standby with cop := { tests := [{ unit := 13, lane := 0 }] }, cfg := wCfg [(0xC000, 1, 0, [1#8])] }, by decide +kernel⟩

theorem witness_RotationActs_6 : ∃ (dt : Nat) (u : Nat) (l : Nat) (s : State), s.runs = true ∧ s.coppiceRuns = true ∧ s.testOf u l = none ∧ (s.tick dt).sliceFits u = true ∧ s.takeable (laneKey u l) = true ∧ unitSingle u = true ∧ (s.lane u l).state = 0 :=
  ⟨1, 13, 0, { wIn .standby with cop := { now := [832] }, cfg := wCfg [(0xC000, 1, 0, [1#8])] }, by decide +kernel⟩

theorem witness_RotationActs_7 : ∃ (dt : Nat) (u : Nat) (l : Nat) (s : State), s.runs = true ∧ s.coppiceRuns = true ∧ (s.tick dt).sliceFits u = false :=
  ⟨1, 13, 0, { wIn .standby with cop := { startAt := some 0 }, cfg := wCfg [(0xC000, 1, 0, [1#8])] }, by decide +kernel⟩

theorem witness_RotationActs_8 : ∃ (dt : Nat) (u : Nat) (y : LaneTest) (s : State), s.runs = true ∧ unitSingle u = true ∧ s.testOf u 0 = some y ∧ y.running ≠ none :=
  ⟨1, 13, { unit := 13, lane := 0, running := some 0, yields := 999 }, { wIn .standby with cop := { tests := [{ unit := 13, lane := 0, running := some 0, yields := 999 }] }, cfg := wCfg [(0xC000, 1, 0, [1#8])] }, by decide +kernel⟩

theorem witness_RotationActs_9 : ∃ (dt : Nat) (u : Nat) (a : Nat) (y : LaneTest) (s : State), s.runs = true ∧ s.coppiceRuns = true ∧ s.testOf u 0 = some y ∧ y.yieldAt = some a ∧ y.running = none ∧ (s.tick dt).sliceFits u = true :=
  ⟨100000, 13, 0, { unit := 13, lane := 0, yieldAt := some 0 }, { wIn .standby with cop := { tests := [{ unit := 13, lane := 0, yieldAt := some 0 }] }, cfg := wCfg [(0xC000, 1, 0, [1#8])] }, by decide +kernel⟩

theorem witness_RotationActs_10 : ∃ (dt : Nat) (n : Nat) (m : Msg) (v : List (BitVec 8)) (s : State) (x : Session), s.runs = true ∧ TakesWrite (s.tick dt) m x 0xC000 5 v n ∧ unitLive n = true ∧ logicalLanes s.variant n ≠ 0 :=
  ⟨1, 13, wMsg, [13#8], { wIn .standby with cop := {  }, cfg := wCfg [(0xC000, 1, 0, [1#8])] }, wX, by decide +kernel⟩

theorem witness_RotationActs_11 : ∃ (dt : Nat) (s : State), s.runs = true ∧ s.cop.periodAt + s.cf.u 0xC000 2 0 4 * 1000000000 ≤ s.elapsed + dt :=
  ⟨100000000000000, { wIn .standby with cop := { ended := false }, cfg := wCfg [(0xC000, 1, 0, [1#8])] }, by decide +kernel⟩

theorem witness_SlicesAndRepairsAct_1 : ∃ (dt : Nat) (u : Nat) (a : Nat) (y : LaneTest) (e : Option Nat) (s : State), s.runs = true ∧ s.cop.tests = [y] ∧ y.unit = u ∧ y.running = some a ∧ a + 10000000 ≤ s.elapsed + dt ∧ y.diag = none :=
  ⟨10000000, 13, 0, { unit := 13, lane := 0, running := some 0, slice := 29 }, none, { wIn .standby with cop := { tests := [{ unit := 13, lane := 0, running := some 0, slice := 29 }] }, cfg := wCfg [(0xC000, 1, 0, [1#8])] }, by decide +kernel⟩

theorem witness_SlicesAndRepairsAct_2 : ∃ (dt : Nat) (u : Nat) (a : Nat) (y : LaneTest) (e : Option Nat) (s : State), s.runs = true ∧ s.cop.tests = [y] ∧ y.unit = u ∧ y.running = some a ∧ a + 10000000 ≤ s.elapsed + dt ∧ y.diag = none :=
  ⟨10000000, 13, 0, { unit := 13, lane := 0, running := some 0, again := true }, none, { wIn .standby with cop := { tests := [{ unit := 13, lane := 0, running := some 0, again := true }] }, cfg := wCfg [(0xC000, 1, 0, [1#8])] }, by decide +kernel⟩

theorem witness_SlicesAndRepairsAct_3 : ∃ (dt : Nat) (u : Nat) (a : Nat) (n : Nat) (e : Nat) (ok : Bool) (y : LaneTest) (s : State), s.runs = true ∧ s.cop.tests = [y] ∧ y.unit = u ∧ y.running = some a ∧ a + 10000000 ≤ s.elapsed + dt ∧ y.diag = some n :=
  ⟨10000000, 13, 0, 2, 77, false, { unit := 13, lane := 0, running := some 0, diag := some 2 }, { wIn .standby with cop := { tests := [{ unit := 13, lane := 0, running := some 0, diag := some 2 }] }, cfg := wCfg [(0xC000, 1, 0, [1#8])] }, by decide +kernel⟩

theorem witness_SlicesAndRepairsAct_4 : ∃ (dt : Nat) (k : Nat) (r : List Nat) (s : State), s.runs = true ∧ s.cop.soft = k :: r ∧ s.cop.words ≠ 0 ∧ s.power.failState = 0 ∧ s.power.failAt + 1000000000 ≤ s.elapsed + dt ∧ s.key.cmd = none ∧ s.upd.state ≠ 3 ∧ s.cop.fuseAt = none :=
  ⟨1000000000, 832, [], { wIn .standby with cop := { soft := [832], lanes := [(832, { logical := some 0, repair := 1, used := 1 })] }, cfg := wCfg [(0xC000, 1, 0, [1#8])] }, by decide +kernel⟩

theorem witness_SlicesAndRepairsAct_5 : ∃ (dt : Nat) (ok : Bool) (s : State), s.runs = true ∧ s.power.failState ≠ 0 :=
  ⟨1, true, { wIn .standby with cop := {  }, cfg := wCfg [(0xC000, 1, 0, [1#8])], power := { failState := 1 } }, by decide +kernel⟩

theorem witness_RecorderActs_1 : ∃ (dt : Nat) (s : State) (e : Ev), s.runs = true ∧ s.nextEvent = some e ∧ e.direct = false ∧ e.id < 256 ∧ e.id ≠ 0x0D ∧ e.id ≠ 0x0E ∧ bit ((s.routing e).u 0xF400 1 (8 * e.id) 1) 0 = true ∧ bit ((s.routing e).u 0xF400 1 (8 * e.id + 1) 1) 2 = true ∧ Table.find s.ev.lastOut (e.id * 65536 + e.inst) = none ∧ Table.getD s.ev.held (e.id * 65536 + e.inst) 0 = 0 ∧ e.rep ≤ 0xFFFF ∧ s.rec_.bare = false ∧ (∀ r, s.rec_.circ.head? = some r → ¬ (r.id = e.id ∧ r.inst = e.inst)) :=
  ⟨1, { ev := { latch := [⟨0x30, 3, ⟨0#16, 5⟩, 7#32, 0, false, 0⟩] } }, ⟨0x30, 3, ⟨0#16, 5⟩, 7#32, 0, false, 0⟩, by decide +kernel⟩

theorem witness_RecorderActs_2 : ∃ (dt : Nat) (s : State) (e : Ev) (r : RecRow) (rest : List RecRow), s.runs = true ∧ s.nextEvent = some e ∧ e.direct = false ∧ e.id < 256 ∧ e.id ≠ 0x0D ∧ e.id ≠ 0x0E ∧ bit ((s.routing e).u 0xF400 1 (8 * e.id) 1) 0 = true ∧ bit ((s.routing e).u 0xF400 1 (8 * e.id + 1) 1) 2 = true ∧ Table.find s.ev.lastOut (e.id * 65536 + e.inst) = none ∧ Table.getD s.ev.held (e.id * 65536 + e.inst) 0 = 0 ∧ e.rep ≤ 0xFFFF ∧ s.rec_.bare = false ∧ s.rec_.circ = r :: rest ∧ (s.routing e).u 0xD000 7 0 1 = 1 ∧ r.id = e.id ∧ r.inst = e.inst ∧ r.param = e.param ∧ r.at_.gen = e.stamp.gen ∧ r.seq + 1#32 = s.rec_.next :=
  ⟨1, { ev := { latch := [⟨0x30, 3, ⟨0#16, 5⟩, 7#32, 0, false, 0⟩] }, rec_ := { circ := [⟨4#32, 0x30, 0, 3, ⟨0#16, 1⟩, 7#32, 0, 0⟩], next := 5#32 }, cfg := wCfg [(0xD000, 7, 0, [1#8])] }, ⟨0x30, 3, ⟨0#16, 5⟩, 7#32, 0, false, 0⟩, ⟨4#32, 0x30, 0, 3, ⟨0#16, 1⟩, 7#32, 0, 0⟩, [], by decide +kernel⟩

theorem witness_RecorderActs_3 : ∃ (dt : Nat) (s : State) (a : Nat) (r : RecRow) (rest : List (Nat × RecRow)), s.runs = true ∧ s.rec_.pend = (a, r) :: rest ∧ s.power.failState = 0 ∧ (8 ≤ s.rec_.pend.length ∨ a + 1000000000 ≤ s.elapsed + dt) :=
  ⟨1000000000, { rec_ := { pend := [(0, ⟨4#32, 0x30, 0, 3, ⟨0#16, 1⟩, 7#32, 0, 0⟩)], circ := [⟨4#32, 0x30, 0, 3, ⟨0#16, 1⟩, 7#32, 0, 0⟩], next := 5#32 } }, 0, ⟨4#32, 0x30, 0, 3, ⟨0#16, 1⟩, 7#32, 0, 0⟩, [], by decide +kernel⟩

theorem witness_RecorderActs_4 : ∃ (dt : Nat) (s : State), s.runs = true ∧ s.power.failState ≠ 0 :=
  ⟨1, { power := { failState := 1 } }, by decide +kernel⟩

theorem witness_RecorderActs_5 : ∃ (dt : Nat) (c : Nat) (s : State), s.runs = true :=
  ⟨1, 3, { }, by decide +kernel⟩

theorem witness_RecorderActs_6 : ∃ (dt : Nat) (c : Nat) (w : Nat) (s : State), s.runs = true :=
  ⟨1, 3, 77, { }, by decide +kernel⟩

theorem witness_StepRunsTheFrontCommand_1 : ∃ (c : Instr) (r : List Instr) (s : State), s.pending = c :: r :=
  ⟨.eventHandover 1, [], { pending := [.eventHandover 1] }, by decide +kernel⟩

theorem witness_AnEmptyQueueIdles_1 : ∃ (s : State), s.pending = [] :=
  ⟨{ }, by decide +kernel⟩

theorem witness_ConfigurationStaysCanonical_1 : ∃ (s : State) (t : State), s.canonical = true ∧ step s = .next t :=
  ⟨{ cfg := wCfg [(0xD000, 7, 0, [0#8])] }, { cfg := wCfg [(0xD000, 7, 0, [0#8])] }, by decide +kernel, rfl⟩


end Sys2Proof.Machine
end

section
namespace Sys2Proof.Machine
open Sys2Proof

/-! ## The frame of every command -/

/-- Each command answers what its own rules give, within its footprint. -/
theorem exec_within (c : Instr) (s : State) : ∃ u, exec c s = .next (s.within (footprint c) u) := by
  cases c <;> exact ⟨_, rfl⟩

/-- The live configuration changes at a T_c, at a leap and at a start only (R17, R51, R97). -/
theorem footprint_config {c : Instr} (h : .config ∈ footprint c) :
    (∃ dt, c = .configEffective dt) ∨
    (∃ dt, c = .commitAccept dt) ∨
    (∃ dt, c = .leapOccur dt) ∨
    (∃ dt inp, c = .startUp dt inp) := by
  have h := decide_eq_true h
  cases c with
  | configEffective dt => exact .inl ⟨dt, rfl⟩
  | commitAccept dt => exact .inr (.inl ⟨dt, rfl⟩)
  | leapOccur dt => exact .inr (.inr (.inl ⟨dt, rfl⟩))
  | startUp dt inp => exact .inr (.inr (.inr ⟨dt, inp, rfl⟩))
  | _ => exact Bool.noConfusion h

/-- The stored configuration is written by an acceptance, a leap, a start, and once power is back (R64, R425). -/
theorem footprint_stored {c : Instr} (h : .stored ∈ footprint c) :
    (∃ dt, c = .commitAccept dt) ∨
    (∃ dt, c = .leapOccur dt) ∨
    (∃ dt inp, c = .startUp dt inp) ∨
    (∃ dt, c = .pwrRestored dt) := by
  have h := decide_eq_true h
  cases c with
  | commitAccept dt => exact .inl ⟨dt, rfl⟩
  | leapOccur dt => exact .inr (.inl ⟨dt, rfl⟩)
  | startUp dt inp => exact .inr (.inr (.inl ⟨dt, inp, rfl⟩))
  | pwrRestored dt => exact .inr (.inr (.inr ⟨dt, rfl⟩))
  | _ => exact Bool.noConfusion h

/-- The life cycle goes on by the requests of R459 only, one of which may come as a WRITE. -/
theorem footprint_life {c : Instr} (h : .life ∈ footprint c) :
    (∃ dt m v, c = .lifecycleToProvisioned dt m v) ∨
    (∃ dt m v, c = .lifecycleToOperational dt m v) ∨
    (∃ dt m v, c = .lifecycleToRma dt m v) ∨
    (∃ dt m v, c = .lifecycleToScrapped dt m v) ∨
    (∃ dt m idx sub v, c = .write dt m idx sub v) := by
  have h := decide_eq_true h
  cases c with
  | lifecycleToProvisioned dt m v => exact .inl ⟨dt, m, v, rfl⟩
  | lifecycleToOperational dt m v => exact .inr (.inl ⟨dt, m, v, rfl⟩)
  | lifecycleToRma dt m v => exact .inr (.inr (.inl ⟨dt, m, v, rfl⟩))
  | lifecycleToScrapped dt m v => exact .inr (.inr (.inr (.inl ⟨dt, m, v, rfl⟩)))
  | write dt m idx sub v => exact .inr (.inr (.inr (.inr ⟨dt, m, idx, sub, v, rfl⟩)))
  | _ => exact Bool.noConfusion h

/-- What reaches the key store: starts, key commands, zeroization and the steps that follow it (R442, R464). -/
theorem footprint_keys {c : Instr} (h : .keys ∈ footprint c) :
    (∃ dt, c = .keyAreaEraseComplete dt) ∨
    (∃ dt inp, c = .startUp dt inp) ∨
    (∃ dt, c = .bootTimeout dt) ∨
    (∃ dt m, c = .modeRequestZeroize dt m) ∨
    (∃ dt m idx sub v, c = .write dt m idx sub v) ∨
    (∃ dt verifyOk, c = .keyCommandComplete dt verifyOk) ∨
    (∃ dt m v trngPasses programmed, c = .generateRoot dt m v trngPasses programmed) ∨
    (∃ dt tj railsMv, c = .monitorSample dt tj railsMv) ∨
    (∃ dt m v, c = .lifecycleToProvisioned dt m v) ∨
    (∃ dt m v, c = .lifecycleToOperational dt m v) ∨
    (∃ dt m v, c = .lifecycleToRma dt m v) ∨
    (∃ dt m v, c = .lifecycleToScrapped dt m v) ∨
    (∃ dt src, c = .tamperAssert dt src) ∨
    (∃ dt slot, c = .remaskStep dt slot) := by
  have h := decide_eq_true h
  cases c with
  | keyAreaEraseComplete dt => exact .inl ⟨dt, rfl⟩
  | startUp dt inp => exact .inr (.inl ⟨dt, inp, rfl⟩)
  | bootTimeout dt => exact .inr (.inr (.inl ⟨dt, rfl⟩))
  | modeRequestZeroize dt m => exact .inr (.inr (.inr (.inl ⟨dt, m, rfl⟩)))
  | write dt m idx sub v => exact .inr (.inr (.inr (.inr (.inl ⟨dt, m, idx, sub, v, rfl⟩))))
  | keyCommandComplete dt verifyOk => exact .inr (.inr (.inr (.inr (.inr (.inl ⟨dt, verifyOk, rfl⟩)))))
  | generateRoot dt m v trngPasses programmed => exact .inr (.inr (.inr (.inr (.inr (.inr (.inl ⟨dt, m, v, trngPasses, programmed, rfl⟩))))))
  | monitorSample dt tj railsMv => exact .inr (.inr (.inr (.inr (.inr (.inr (.inr (.inl ⟨dt, tj, railsMv, rfl⟩)))))))
  | lifecycleToProvisioned dt m v => exact .inr (.inr (.inr (.inr (.inr (.inr (.inr (.inr (.inl ⟨dt, m, v, rfl⟩))))))))
  | lifecycleToOperational dt m v => exact .inr (.inr (.inr (.inr (.inr (.inr (.inr (.inr (.inr (.inl ⟨dt, m, v, rfl⟩)))))))))
  | lifecycleToRma dt m v => exact .inr (.inr (.inr (.inr (.inr (.inr (.inr (.inr (.inr (.inr (.inl ⟨dt, m, v, rfl⟩))))))))))
  | lifecycleToScrapped dt m v => exact .inr (.inr (.inr (.inr (.inr (.inr (.inr (.inr (.inr (.inr (.inr (.inl ⟨dt, m, v, rfl⟩)))))))))))
  | tamperAssert dt src => exact .inr (.inr (.inr (.inr (.inr (.inr (.inr (.inr (.inr (.inr (.inr (.inr (.inl ⟨dt, src, rfl⟩))))))))))))
  | remaskStep dt slot => exact .inr (.inr (.inr (.inr (.inr (.inr (.inr (.inr (.inr (.inr (.inr (.inr (.inr ⟨dt, slot, rfl⟩))))))))))))
  | _ => exact Bool.noConfusion h

/-- The task descriptors come with the image (R390). -/
theorem footprint_tasks {c : Instr} (h : .tasks ∈ footprint c) :
    ∃ dt inp, c = .startUp dt inp := by
  have h := decide_eq_true h
  cases c with
  | startUp dt inp => exact ⟨dt, inp, rfl⟩
  | _ => exact Bool.noConfusion h

/-- Lock-outs begin with a failed OPEN and end with their time (R417). -/
theorem footprint_lockouts {c : Instr} (h : .lockouts ∈ footprint c) :
    (∃ dt inp, c = .startUp dt inp) ∨
    (∃ dt m, c = .open_ dt m) ∨
    (∃ dt ip, c = .authLockoutEnd dt ip) := by
  have h := decide_eq_true h
  cases c with
  | startUp dt inp => exact .inl ⟨dt, inp, rfl⟩
  | open_ dt m => exact .inr (.inl ⟨dt, m, rfl⟩)
  | authLockoutEnd dt ip => exact .inr (.inr ⟨dt, ip, rfl⟩)
  | _ => exact Bool.noConfusion h

/-- Records are made as events are handed over, and kept or cleared with power, images and requests (R509). -/
theorem footprint_records {c : Instr} (h : .records ∈ footprint c) :
    (∃ dt, c = .configEffective dt) ∨
    (∃ dt, c = .eventHandover dt) ∨
    (∃ dt inp, c = .startUp dt inp) ∨
    (∃ dt, c = .pwrFailQuiesced dt) ∨
    (∃ dt, c = .pwrRestored dt) ∨
    (∃ dt, c = .outputsStop dt) ∨
    (∃ dt m idx sub v, c = .write dt m idx sub v) ∨
    (∃ dt, c = .commitAccept dt) ∨
    (∃ dt, c = .activationCommit dt) ∨
    (∃ dt m v, c = .rejectTrial dt m v) ∨
    (∃ dt, c = .trialWindowExpire dt) ∨
    (∃ dt verified, c = .journalPageProgram dt verified) := by
  have h := decide_eq_true h
  cases c with
  | configEffective dt => exact .inl ⟨dt, rfl⟩
  | eventHandover dt => exact .inr (.inl ⟨dt, rfl⟩)
  | startUp dt inp => exact .inr (.inr (.inl ⟨dt, inp, rfl⟩))
  | pwrFailQuiesced dt => exact .inr (.inr (.inr (.inl ⟨dt, rfl⟩)))
  | pwrRestored dt => exact .inr (.inr (.inr (.inr (.inl ⟨dt, rfl⟩))))
  | outputsStop dt => exact .inr (.inr (.inr (.inr (.inr (.inl ⟨dt, rfl⟩)))))
  | write dt m idx sub v => exact .inr (.inr (.inr (.inr (.inr (.inr (.inl ⟨dt, m, idx, sub, v, rfl⟩))))))
  | commitAccept dt => exact .inr (.inr (.inr (.inr (.inr (.inr (.inr (.inl ⟨dt, rfl⟩)))))))
  | activationCommit dt => exact .inr (.inr (.inr (.inr (.inr (.inr (.inr (.inr (.inl ⟨dt, rfl⟩))))))))
  | rejectTrial dt m v => exact .inr (.inr (.inr (.inr (.inr (.inr (.inr (.inr (.inr (.inl ⟨dt, m, v, rfl⟩)))))))))
  | trialWindowExpire dt => exact .inr (.inr (.inr (.inr (.inr (.inr (.inr (.inr (.inr (.inr (.inl ⟨dt, rfl⟩))))))))))
  | journalPageProgram dt verified => exact .inr (.inr (.inr (.inr (.inr (.inr (.inr (.inr (.inr (.inr (.inr ⟨dt, verified, rfl⟩))))))))))
  | _ => exact Bool.noConfusion h

/-- The monitors are read by samples and cleared by writes (R547). -/
theorem footprint_mon {c : Instr} (h : .mon ∈ footprint c) :
    (∃ dt tj railsMv, c = .monitorSample dt tj railsMv) ∨
    (∃ dt m v, c = .clearHighestTj dt m v) ∨
    (∃ dt m idx sub v, c = .write dt m idx sub v) ∨
    (∃ dt inp, c = .startUp dt inp) := by
  have h := decide_eq_true h
  cases c with
  | monitorSample dt tj railsMv => exact .inl ⟨dt, tj, railsMv, rfl⟩
  | clearHighestTj dt m v => exact .inr (.inl ⟨dt, m, v, rfl⟩)
  | write dt m idx sub v => exact .inr (.inr (.inl ⟨dt, m, idx, sub, v, rfl⟩))
  | startUp dt inp => exact .inr (.inr (.inr ⟨dt, inp, rfl⟩))
  | _ => exact Bool.noConfusion h

/-- The JTAG instruction comes by the port (R546). -/
theorem footprint_jtag {c : Instr} (h : .jtag ∈ footprint c) :
    (∃ dt inp, c = .jtagInstruction dt inp) ∨
    (∃ dt inp, c = .startUp dt inp) := by
  have h := decide_eq_true h
  cases c with
  | jtagInstruction dt inp => exact .inl ⟨dt, inp, rfl⟩
  | startUp dt inp => exact .inr ⟨dt, inp, rfl⟩
  | _ => exact Bool.noConfusion h

/-- The end of the erase of the key area in flash leaves the keys of the SRAM and their wrapping as they are (R464). -/
theorem keyAreaEraseComplete_roots {dt : Nat} {s t : State} (h : exec (.keyAreaEraseComplete dt) s = .next t) :
    t.key.roots = s.key.roots ∧ t.key.inForce = s.key.inForce ∧ t.key.wrap = s.key.wrap ∧ t.key.slots = s.key.slots := by
  have hk : (s.live dt areaErased).key.roots = s.key.roots ∧ (s.live dt areaErased).key.inForce = s.key.inForce ∧
      (s.live dt areaErased).key.wrap = s.key.wrap ∧ (s.live dt areaErased).key.slots = s.key.slots := by
    unfold State.live areaErased
    simp only
    split
    · split <;> exact ⟨rfl, rfl, rfl, rfl⟩
    · exact ⟨rfl, rfl, rfl, rfl⟩
  obtain rfl : s.within [.keys, .keyCmd] (s.live dt areaErased) = t := Host.Outcome.next.inj h
  exact hk

/-- Settles O57: each guarded field lies in a part that only the footprints of the commands named hold. -/
theorem onlyTheNamedCommandsChangeIt : Obligations.OnlyTheNamedCommandsChangeIt := by
  unfold Obligations.OnlyTheNamedCommandsChangeIt
  intro c s
  obtain ⟨u, hu⟩ := exec_within c s
  refine ⟨_, hu, ⟨u, rfl⟩, rfl, rfl, ?config, ?stored, ?life, ?roots, ?tasks, ?lockouts, ?records, ?monitors, ?jtag⟩
  case config =>
    by_cases hp : .config ∈ footprint c
    · obtain ⟨_, rfl⟩ | ⟨_, rfl⟩ | ⟨_, rfl⟩ | ⟨_, _, rfl⟩ := footprint_config hp <;> trivial
    · have keep : (s.within (footprint c) u).cfg.live = s.cfg.live ∧ (s.within (footprint c) u).cfg.gen = s.cfg.gen := by simp [hp]
      split <;> trivial
  case stored =>
    by_cases hp : .stored ∈ footprint c
    · obtain ⟨_, rfl⟩ | ⟨_, rfl⟩ | ⟨_, _, rfl⟩ | ⟨_, rfl⟩ := footprint_stored hp <;> trivial
    · have keep : (s.within (footprint c) u).jrn.cfg = s.jrn.cfg ∧ (s.within (footprint c) u).jrn.cfgGen = s.jrn.cfgGen := by simp [hp]
      split <;> trivial
  case life =>
    by_cases hp : .life ∈ footprint c
    · obtain ⟨_, _, _, rfl⟩ | ⟨_, _, _, rfl⟩ | ⟨_, _, _, rfl⟩ | ⟨_, _, _, rfl⟩ | ⟨_, _, _, _, _, rfl⟩ := footprint_life hp <;> trivial
    · have keep : (s.within (footprint c) u).key.life = s.key.life := by simp [hp]
      split <;> trivial
  case roots =>
    by_cases hp : .keys ∈ footprint c
    · obtain ⟨_, rfl⟩ | named := footprint_keys hp
      · exact keyAreaEraseComplete_roots hu
      · obtain ⟨_, _, rfl⟩ | ⟨_, rfl⟩ | ⟨_, _, rfl⟩ | ⟨_, _, _, _, _, rfl⟩ | ⟨_, _, rfl⟩ | ⟨_, _, _, _, _, rfl⟩ | ⟨_, _, _, rfl⟩ |
          ⟨_, _, _, rfl⟩ | ⟨_, _, _, rfl⟩ | ⟨_, _, _, rfl⟩ | ⟨_, _, _, rfl⟩ | ⟨_, _, rfl⟩ | ⟨_, _, rfl⟩ := named <;> trivial
    · have keep : (s.within (footprint c) u).key.roots = s.key.roots ∧ (s.within (footprint c) u).key.inForce = s.key.inForce ∧
          (s.within (footprint c) u).key.wrap = s.key.wrap ∧ (s.within (footprint c) u).key.slots = s.key.slots := by simp [hp]
      split <;> trivial
  case tasks =>
    by_cases hp : .tasks ∈ footprint c
    · obtain ⟨_, _, rfl⟩ := footprint_tasks hp
      trivial
    · have keep : (s.within (footprint c) u).sched.desc = s.sched.desc := by simp [hp]
      split <;> trivial
  case lockouts =>
    by_cases hp : .lockouts ∈ footprint c
    · obtain ⟨_, _, rfl⟩ | ⟨_, _, rfl⟩ | ⟨_, _, rfl⟩ := footprint_lockouts hp <;> trivial
    · have keep : (s.within (footprint c) u).osr.lockouts = s.osr.lockouts := by simp [hp]
      split <;> trivial
  case records =>
    by_cases hp : .records ∈ footprint c
    · obtain ⟨_, rfl⟩ | ⟨_, rfl⟩ | ⟨_, _, rfl⟩ | ⟨_, rfl⟩ | ⟨_, rfl⟩ | ⟨_, rfl⟩ | ⟨_, _, _, _, _, rfl⟩ | ⟨_, rfl⟩ | ⟨_, rfl⟩ | ⟨_, _, _, rfl⟩ |
        ⟨_, rfl⟩ | ⟨_, _, rfl⟩ := footprint_records hp <;> trivial
    · have keep : (s.within (footprint c) u).rec_.circ = s.rec_.circ ∧ (s.within (footprint c) u).rec_.perm = s.rec_.perm ∧
          (s.within (footprint c) u).rec_.next = s.rec_.next := by simp [hp]
      split <;> trivial
  case monitors =>
    by_cases hp : .mon ∈ footprint c
    · obtain ⟨_, _, _, rfl⟩ | ⟨_, _, _, rfl⟩ | ⟨_, _, _, _, _, rfl⟩ | ⟨_, _, rfl⟩ := footprint_mon hp <;> trivial
    · have keep : (s.within (footprint c) u).mon = s.mon := by simp [hp]
      split <;> trivial
  case jtag =>
    by_cases hp : .jtag ∈ footprint c
    · obtain ⟨_, _, rfl⟩ | ⟨_, _, rfl⟩ := footprint_jtag hp <;> trivial
    · have keep : (s.within (footprint c) u).jtag = s.jtag := by simp [hp]
      split <;> trivial
end Sys2Proof.Machine
end

section
namespace Sys2Proof.Machine
open Sys2Proof

/-! ## Occurrences join the latches (R25) -/

/-- A running device's command keeps to its parts, where its own rules take no time. -/
theorem OnlyParts.of_act {s : State} {dt : Nat} {ps : List Part} {f : State → State} (h : (f (s.tick dt)).time.elapsed = (s.tick dt).time.elapsed) :
    OnlyParts s dt ps (s.within ps (f (s.tick dt))) :=
  ⟨⟨_, rfl⟩, h⟩

/-- What holds no latch takes one, behind the others. -/
theorem latchEvent_of_free {es : List Ev} {e : Ev} (h : ∀ x ∈ es, ¬ (x.id = e.id ∧ x.inst = e.inst)) : latchEvent es e = es ++ [e] := by
  induction es with
  | nil => rfl
  | cons x r ih =>
    have hx : ¬ (x.id = e.id ∧ x.inst = e.inst) := h x List.mem_cons_self
    have hr : latchEvent r e = r ++ [e] := ih fun y hy => h y (List.mem_cons_of_mem _ hy)
    simp [latchEvent, hr, hx]

/-- The first latch of the source counts an occurrence. -/
theorem latchEvent_of_held {l r : List Ev} {x e : Ev} (hl : ∀ y ∈ l, ¬ (y.id = e.id ∧ y.inst = e.inst)) (hid : x.id = e.id)
    (hinst : x.inst = e.inst) (hd : x.direct = false) : latchEvent (l ++ x :: r) e = l ++ { x with rep := min (x.rep + 1) 0xFFFF } :: r := by
  induction l with
  | nil => simp [latchEvent, hid, hinst, hd]
  | cons y l ih =>
    have hy : ¬ (y.id = e.id ∧ y.inst = e.inst) := hl y List.mem_cons_self
    have hr := ih fun z hz => hl z (List.mem_cons_of_mem _ hz)
    simp [latchEvent, hr, hy]

/-- The occurrence as it enters the fabric: its time, and the path it takes (R25, R515). -/
def State.occurrence (s : State) (id inst param : Nat) : Ev :=
  { id := id, inst := inst, stamp := s.now, param := BitVec.ofNat 32 param, rep := 0, direct := s.ev.fenced, el := s.time.elapsed }

/-- A source that is there raises into the latches while the fabric is not fenced. -/
theorem raise_latch {id inst param : Nat} {s : State} (ha : eventAbsent s.variant id inst = false) (hr : eventReserved id = false)
    (hf : s.ev.fenced = false) : (raise id inst param s).ev.latch = latchEvent s.ev.latch (s.occurrence id inst param) := by
  simp [raise, State.occurrence, ha, hr, hf]

/-- A source of an absent unit, or a reserved ID, never fires (R7, R549). -/
theorem raise_of_absent {id inst param : Nat} {s : State} (h : eventAbsent s.variant id inst = true ∨ eventReserved id = true) :
    raise id inst param s = s := by
  simp [raise, h]

/-- Settles O21, by what `latchEvent` does to a free latch and to a held one. -/
theorem occurrencesAreLatched : Obligations.OccurrencesAreLatched := by
  unfold Obligations.OccurrencesAreLatched
  refine ⟨fun dt id inst p s hr hi ha hv hf hfree => ?free, fun dt id inst p s l r e hr hi ha hv hf hl hid hinst hd hfirst => ?held,
    fun dt id inst p s hr hi hno => ?absent⟩
  case free =>
    have hm : inst % 65536 = inst := Nat.mod_eq_of_lt hi
    refine ⟨_, rfl, ?_⟩
    rw [State.act_runs _ _ _ _ hr, hm]
    refine ⟨OnlyParts.of_act (by simp), ?_⟩
    calc (raise id inst p.toNat (s.tick dt)).ev.latch
        = latchEvent s.ev.latch ((s.tick dt).occurrence id inst p.toNat) := raise_latch (s := s.tick dt) ha hv hf
      _ = s.ev.latch ++ [(s.tick dt).occurrence id inst p.toNat] := latchEvent_of_free hfree
      _ = _ := by simp [State.occurrence, State.elapsed, hf]
  case held =>
    have hm : inst % 65536 = inst := Nat.mod_eq_of_lt hi
    refine ⟨_, rfl, ?_⟩
    rw [State.act_runs _ _ _ _ hr, hm]
    refine ⟨OnlyParts.of_act (by simp), ?_⟩
    calc (raise id inst p.toNat (s.tick dt)).ev.latch
        = latchEvent s.ev.latch ((s.tick dt).occurrence id inst p.toNat) := raise_latch (s := s.tick dt) ha hv hf
      _ = l ++ { e with rep := min (e.rep + 1) 0xFFFF } :: r := by rw [hl]; exact latchEvent_of_held hfirst hid hinst hd
  case absent =>
    have hm : inst % 65536 = inst := Nat.mod_eq_of_lt hi
    have hraise : raise id inst p.toNat (s.tick dt) = s.tick dt := raise_of_absent hno
    show Host.Outcome.next (s.act [.events] dt (raise id (inst % 65536) p.toNat)) = .next (s.tick dt)
    rw [State.act_runs _ _ _ _ hr, hm, hraise]
    rfl

end Sys2Proof.Machine
end

section
namespace Sys2Proof.Machine
open Sys2Proof

/-! ## What the work of a unit leaves alone -/

/-- What the work of most units only reads: the timebase, the mode, the configuration, the update engine; and of Coppice the lanes that
are lost and the spare rows. -/
def State.aside (s : State) : TimeU × ModeU × CfgU × UpdU × List (Nat × Nat) × Table Nat :=
  (s.time, s.mode, s.cfg, s.upd, s.cop.lost, s.cop.rowsUsed)

/-- Occurrences only join the latches, the IRQ bits stay, and so does what stands aside: the frame that the work of most units keeps,
whatever else it changes. Each lemma says that a piece of work, done after other such work, is such work. -/
structure Undisturbed (s t : State) : Prop where
  latched : ∀ id inst, Latched s id inst → Latched t id inst
  irq : t.ev.irq = s.ev.irq
  aside : t.aside = s.aside

namespace Undisturbed

variable {s t u : State}

theorem refl (s : State) : Undisturbed s s := ⟨fun _ _ h => h, rfl, rfl⟩

theorem trans (h : Undisturbed s t) (k : Undisturbed t u) : Undisturbed s u :=
  ⟨fun id inst l => k.latched id inst (h.latched id inst l), k.irq.trans h.irq, k.aside.trans h.aside⟩

/-- An update of fields beside these. -/
theorem of_same (h : (t.ev, t.aside) = (s.ev, s.aside)) : Undisturbed s t := by
  obtain ⟨hev, ha⟩ := Prod.mk.inj h
  exact ⟨fun _ _ l => by unfold Latched at l ⊢; rwa [hev], by rw [hev], ha⟩

theorem time (h : Undisturbed s t) : t.time = s.time := congrArg (·.1) h.aside
theorem mode (h : Undisturbed s t) : t.mode = s.mode := congrArg (·.2.1) h.aside
theorem cfg (h : Undisturbed s t) : t.cfg = s.cfg := congrArg (·.2.2.1) h.aside
theorem upd (h : Undisturbed s t) : t.upd = s.upd := congrArg (·.2.2.2.1) h.aside
theorem lost (h : Undisturbed s t) : t.cop.lost = s.cop.lost := congrArg (·.2.2.2.2.1) h.aside
theorem rowsUsed (h : Undisturbed s t) : t.cop.rowsUsed = s.cop.rowsUsed := congrArg (·.2.2.2.2.2) h.aside

/-- More such fields are updated. -/
theorem update (h : Undisturbed s t) (e : (u.ev, u.aside) = (t.ev, t.aside)) : Undisturbed s u := h.trans (.of_same e)

theorem ite {p : Prop} [Decidable p] (h : Undisturbed s t) (k : Undisturbed s u) : Undisturbed s (if p then t else u) := by
  split
  · exact h
  · exact k

theorem each {α : Type} {f : α → State → State} {xs : List α} (h : Undisturbed s t) (hf : ∀ a u, Undisturbed u (f a u)) :
    Undisturbed s (each xs f t) := by
  unfold Sys2Proof.each
  induction xs generalizing t with
  | nil => exact h
  | cons a r ih => exact ih (h.trans (hf a t))

theorem when {f : State → State} {b : Bool} (h : Undisturbed s t) (hf : ∀ u, Undisturbed u (f u)) : Undisturbed s (when b f t) := by
  cases b
  · exact h
  · exact h.trans (hf t)

/-! ### Events and counters -/

theorem latchEvent_keeps {es : List Ev} (e : Ev) {id inst : Nat} (h : ∃ x ∈ es, x.id = id ∧ x.inst = inst) :
    ∃ x ∈ latchEvent es e, x.id = id ∧ x.inst = inst := by
  induction es with
  | nil => obtain ⟨x, hx, -⟩ := h; exact absurd hx List.not_mem_nil
  | cons y r ih =>
    obtain ⟨x, hx, hid⟩ := h
    unfold latchEvent
    split
    · rcases List.mem_cons.mp hx with rfl | hr
      · exact ⟨_, List.mem_cons_self, hid⟩
      · exact ⟨x, List.mem_cons_of_mem _ hr, hid⟩
    · rcases List.mem_cons.mp hx with rfl | hr
      · exact ⟨x, List.mem_cons_self, hid⟩
      · obtain ⟨z, hz, hzid⟩ := ih ⟨x, hr, hid⟩
        exact ⟨z, List.mem_cons_of_mem _ hz, hzid⟩

theorem raise {id inst param : Nat} (h : Undisturbed s t) : Undisturbed s (raise id inst param t) := by
  refine h.trans ⟨fun i k l => ?_, by simp, by simp [State.aside]⟩
  unfold Machine.raise
  split
  · exact l
  · unfold Latched
    simp only
    split
    · obtain ⟨e, he, hid⟩ := l
      exact ⟨e, List.mem_append_left _ he, hid⟩
    · exact latchEvent_keeps _ l

theorem countN {idx sub n : Nat} (h : Undisturbed s t) : Undisturbed s (countN idx sub n t) := by
  refine h.trans ?_
  unfold Machine.countN
  extract_lets old s1
  refine .ite (.of_same rfl) ?_
  cases stickyOf idx sub with
  | none => exact .of_same rfl
  | some x => exact .ite (.of_same rfl) (.raise (.of_same rfl))

theorem count {idx sub : Nat} (h : Undisturbed s t) : Undisturbed s (count idx sub t) := h.countN

theorem satEvent {old n key ev inst param : Nat} (h : Undisturbed s t) : Undisturbed s (satEvent old n key ev inst param t) :=
  .ite h (.raise (h.update rfl))

/-! ### Alarms -/

theorem markDirty {c : Cf} {a : Nat} {at_ : Stamp} (h : Undisturbed s t) : Undisturbed s (markDirty c a at_ t) :=
  h.each fun _ u => (refl u).each fun _ _ => .of_same rfl

theorem sendSummary {kind num : Nat} {body : Bytes} (h : Undisturbed s t) : Undisturbed s (sendSummary kind num body t) :=
  .ite (h.update rfl) h

theorem setAlarmFor {a : Nat} {at_ : Stamp} {x : Alarm} (h : Undisturbed s t) : Undisturbed s (t.setAlarmFor a at_ x) :=
  .ite (h.update rfl) (h.update rfl)

theorem alarmChanged {c : Cf} {a : Nat} {at_ : Stamp} {x : Alarm} (h : Undisturbed s t) : Undisturbed s (alarmChanged c a at_ x t) :=
  .sendSummary (.markDirty (.when (.count (.setAlarmFor h)) fun u => .raise (.refl u)))

theorem freezeAlarms {which : Nat → Nat → Bool} (h : Undisturbed s t) : Undisturbed s (freezeAlarms which t) :=
  .ite h (.each h fun _ u => .alarmChanged (.refl u))

theorem finalDecision {a : Nat} {d : Decision} (h : Undisturbed s t) : Undisturbed s (finalDecision a d t) := by
  unfold Machine.finalDecision
  extract_lets c x peak due res v prov y z s1 s2
  have counted : Undisturbed s s1 := by
    unfold s1
    cases res with
    | no => exact h
    | confirmed | corrected | withdrawn => exact .count h
  have changed : Undisturbed s s2 := .alarmChanged counted
  exact .ite h (.ite (.setAlarmFor h) (.ite (.raise changed) changed))

/-! ### The islanding engine -/

theorem islRestart {cause : Nat} {from_ : Option Stamp} (h : Undisturbed s t) : Undisturbed s (islRestart cause from_ t) :=
  .when (.raise (.count (h.update rfl))) fun u => .freezeAlarms (.refl u)

theorem islSettle (h : Undisturbed s t) : Undisturbed s (islSettle t) := by
  unfold Machine.islSettle
  split
  · exact .ite (.islRestart h) h
  · exact h

/-! ### The acquisition engine -/

theorem closeRecord {r : Rec} (h : Undisturbed s t) : Undisturbed s (closeRecord r t) := .raise (.count (h.update rfl))

theorem truncateCapture {g : Nat} (h : Undisturbed s t) : Undisturbed s (truncateCapture g t) := by
  unfold Machine.truncateCapture
  split
  · exact h
  · exact .raise (.count (.update (.closeRecord h) rfl))

theorem dropPending {g : Nat} (h : Undisturbed s t) : Undisturbed s (dropPending g t) := .countN (h.update rfl)

theorem acqStop (h : Undisturbed s t) : Undisturbed s (acqStop t) :=
  .each (h.update rfl) fun _ u => .update (.dropPending (.truncateCapture (.refl u))) rfl

/-! ### Tasks -/

theorem dispatch {n k : Nat} (h : Undisturbed s t) : Undisturbed s (dispatch n k t) :=
  .satEvent (.satEvent (.satEvent (.satEvent (.satEvent (h.update rfl)))))

theorem freeCore {k : Nat} (h : Undisturbed s t) : Undisturbed s (freeCore k t) := .ite (.satEvent (h.update rfl)) h

theorem noteReady {k : Nat} (h : Undisturbed s t) : Undisturbed s (noteReady k t) := h.update rfl

theorem preempt {k : Nat} (h : Undisturbed s t) : Undisturbed s (preempt k t) :=
  .noteReady (.satEvent (.satEvent (.update (.freeCore h) rfl)))

theorem placeIn {n k : Nat} (h : Undisturbed s t) : Undisturbed s (placeIn n k t) := by
  induction n generalizing k t with
  | zero => exact h
  | succ n ih =>
    unfold Machine.placeIn
    cases Table.find t.sched.desc k with
    | none => exact h
    | some d =>
      dsimp only
      cases pickCore (t.task k).core (((t.coresOf d (tuningOf t.cf k d).affinity).2).filter (fun k => (t.core k).state = 0)) with
      | some c => exact .dispatch h
      | none =>
        refine .ite ?_ h
        cases t.victim (t.task k).core (t.task k).level ((t.coresOf d (tuningOf t.cf k d).affinity).2) with
        | none => exact h
        | some c => exact ih (.dispatch (.preempt h))

theorem makeReady {n at_ : Nat} (h : Undisturbed s t) : Undisturbed s (makeReady n at_ t) := by
  unfold Machine.makeReady
  cases Table.find t.sched.desc n with
  | none => exact h
  | some d => exact h.update rfl

theorem taskReady {n : Nat} (h : Undisturbed s t) : Undisturbed s (taskReady n t) := .ite (.placeIn (.makeReady h)) h

theorem eventTasks {id : Nat} (h : Undisturbed s t) : Undisturbed s (eventTasks id t) := .each h fun _ u => .taskReady (.refl u)

end Undisturbed
end Sys2Proof.Machine
end

section
namespace Sys2Proof.Machine
open Sys2Proof

/-! ## The commit point (R16 to R19, R424 to R426) -/

/-- An accepted commit, as the acceptance numbers and times it (R16, R425). -/
def State.acceptedCommit (s : State) (k : Checked) : Commit :=
  { gen := s.cfg.lastGen + 1#32, cells := k.cells, tc := ⟨s.time.gen, s.commitInstant⟩, acc := s.now }

/-- Its report (R426, R427); values of 0x4010 are judged again (R145). -/
def State.commitReport (s : State) (k : Checked) : Report :=
  { gen := s.cfg.lastGen + 1#32, sid := k.sid, acc := s.now, tc := ⟨s.time.gen, s.commitInstant⟩,
    entries := k.entries.map (judgeAccept ⟨s.variant, Memory.apply s.variant s.cfg.live k.cells⟩ s), unchanged := k.unchanged }

/-- What an acceptance does before a device that forms no sets brings the commit into effect: the commit waits, it is
journaled, and its report stands first (R425, R426). -/
theorem commitAccept_accepts {s : State} {k : Checked} (hk : s.osr.checked = some k) (hp : s.power.failState = 0) :
    ∃ u : State, commitAccept s = (if !u.mode.cur.forms then configEffective u else u) ∧ u.mode = s.mode ∧
      u.cfg = { s.cfg with waiting := s.cfg.waiting ++ [s.acceptedCommit k], lastGen := s.cfg.lastGen + 1#32, lastAcc := s.now,
                           lastTc := ⟨s.time.gen, s.commitInstant⟩ } ∧
      u.osr.checked = none ∧ u.osr.reports = (s.commitReport k :: s.osr.reports).take 8 ∧
      u.jrn.cfgValid = true ∧ u.jrn.cfgGen = s.cfg.lastGen + 1#32 ∧ u.jrn.cfg = Memory.apply s.variant s.journaled (lasting k.cells) := by
  unfold commitAccept
  simp only [hk, hp]
  refine ⟨_, rfl, ?_, ?_, ?_, ?_, ?_, ?_, ?_⟩
  all_goals simp [State.acceptedCommit, State.commitReport]

/-- A commit that comes into effect leaves the reports of commits as they are. -/
theorem configEffective_reports (s : State) : (configEffective s).osr.reports = s.osr.reports := by
  unfold configEffective
  split
  · split <;> rfl
  · rfl

/-- At its T_c a commit is live (R17): its bytes over those of before, its generation; what is stored stays. -/
theorem effect_live (c : Commit) (s : State) :
    (effect c s).cfg.live = Memory.apply s.variant s.cfg.live (lasting c.cells) ∧ (effect c s).cfg.gen = c.gen ∧ (effect c s).cfg.valid = true :=
  ⟨rfl, rfl, rfl⟩

theorem effInstant_bounds (t : Nat) : effInstant t % 100000000 = 0 ∧ t + 20000000 ≤ effInstant t ∧ effInstant t < t + 120000000 := by
  unfold effInstant; omega

/-- With no earlier configuration held and none waiting, T_c is set by the rule of R16 alone. -/
theorem commitInstant_of_none_held {s : State} (hp : s.cfg.prev = none) (hw : s.cfg.waiting = []) :
    s.commitInstant = if s.mode.cur.forms then effInstant s.time.tai else s.time.tai := by
  simp [State.commitInstant, hp, hw]

/-- Settles O8: `effInstant` rounds up to a whole 100 ms what is 20 ms on; the model takes it where sets form. -/
theorem effectiveInstantOfACommit : Obligations.EffectiveInstantOfACommit := by
  unfold Obligations.EffectiveInstantOfACommit
  intro dt s k hr hk hp hprev hw
  obtain ⟨u, hu, -, -, -, hrep, -⟩ := commitAccept_accepts (s := s.tick dt) (k := k) hk hp
  have hc : (s.tick dt).commitInstant = if s.mode.cur.forms then effInstant (s.tick dt).time.tai else (s.tick dt).time.tai :=
    commitInstant_of_none_held hprev hw
  refine ⟨_, (s.tick dt).commitReport k, rfl, ?_, rfl, rfl, fun hf => ?_, fun hf => ?_⟩
  · have hrep' : (commitAccept (s.tick dt)).osr.reports = u.osr.reports := by
      rw [hu]; split
      · exact configEffective_reports u
      · rfl
    rw [State.act_runs _ _ _ _ hr, State.within_osr]
    simp [hrep', hrep]
  · simp only [State.commitReport, hc, hf, if_true]
    exact effInstant_bounds _
  · simp only [State.commitReport, hc, hf]
    rfl

/-- The first commit that is queued is checked, and waits for its acceptance (R423, R424). -/
theorem topiaryCheck_checks {s : State} {q : Queued} {r : List Queued} (hq : s.osr.queue = q :: r) (hc : s.osr.checked = none)
    (hp : ∀ p, s.mode.pend = some p → p.activate = true) :
    ∃ k, (topiaryCheck s).osr.queue = r ∧ (topiaryCheck s).osr.checked = some k ∧ k.sid = q.sid ∧ k.tag = q.tag := by
  have hopen : (match s.mode.pend with | some p => !p.activate | none => false) = false := by
    cases h : s.mode.pend with
    | none => rfl
    | some p => simp [hp p h]
  unfold topiaryCheck
  simp only [hq, hc]
  split
  · simp_all
  · exact ⟨_, rfl, rfl, rfl, rfl⟩

/-- The release of the previous configuration touches of the configuration only what is held (R19). -/
theorem releasePrevious_cfg {s : State} {p : List Host.Cell × BitVec 32 × Stamp} (hp : s.cfg.prev = some p)
    (hc : s.forming = false ∨ s.closedBefore p.2.2 = true) : (releasePrevious s).cfg = { s.cfg with prev := none, spent := some p } := by
  have hgo : (!s.forming || s.closedBefore p.2.2) = true := by simpa using hc
  unfold releasePrevious
  simp only [hp, hgo, if_true]
  simp [dropPrevious, hp]

theorem releasePrevious_elapsed (s : State) : (releasePrevious s).time.elapsed = s.time.elapsed := by
  unfold releasePrevious
  split
  · split
    · simp only [State.within_time, (Undisturbed.islSettle (.refl _)).time]
      rfl
    · rfl
  · rfl

/-- Settles O9, command by command along a commit's way. -/
theorem commitsTakeEffect : Obligations.CommitsTakeEffect := by
  unfold Obligations.CommitsTakeEffect
  refine ⟨fun dt s q r hr hq hc hp => ?check, fun dt s k hr hk hp hf => ?accept, fun dt s c r hr hw hg ht => ?effect, fun dt s p hr hp hc => ?release⟩
  case check =>
    obtain ⟨k, h1, h2, h3, h4⟩ := topiaryCheck_checks (s := s.tick dt) hq hc hp
    refine ⟨_, k, rfl, ?_⟩
    rw [State.act_runs _ _ _ _ hr]
    exact ⟨h1, h2, h3, h4, rfl, rfl⟩
  case accept =>
    obtain ⟨u, hu, hm, hcfg, hch, hrep, hv, hgen, hj⟩ := commitAccept_accepts (s := s.tick dt) (k := k) hk hp
    have hu' : commitAccept (s.tick dt) = u := by
      rw [hu, hm]; simp [hf]
    refine ⟨_, (s.tick dt).commitReport k, rfl, ?_⟩
    rw [State.act_runs _ _ _ _ hr, hu']
    simp only [State.within_cfg, State.within_osr, State.within_jrn, hcfg, hch, hrep, hv, hgen, hj]
    exact ⟨rfl, rfl, rfl, rfl, rfl, rfl, rfl, rfl, rfl, rfl, rfl, rfl⟩
  case effect =>
    have heff : configEffective (s.tick dt) = effect c { s.tick dt with cfg := { s.cfg with waiting := r } } := by
      have hdue : (decide (c.tc.gen = s.time.gen) && decide (c.tc.ns ≤ (s.tick dt).time.tai)) = true := by simp [hg, ht]
      have hgen : (s.tick dt).time.gen = s.time.gen := rfl
      unfold configEffective
      simp only [State.tick_same, hw, hgen, hdue, if_true]
    obtain ⟨h1, h2, h3⟩ := effect_live c { s.tick dt with cfg := { s.cfg with waiting := r } }
    refine ⟨_, rfl, ?_⟩
    rw [State.act_runs _ _ _ _ hr, heff]
    exact ⟨h1, h2, h3, rfl⟩
  case release =>
    have hcfg := releasePrevious_cfg (s := s.tick dt) hp hc
    refine ⟨_, rfl, ?_⟩
    rw [State.act_runs _ _ _ _ hr]
    refine ⟨?_, ⟨_, rfl⟩, ?_⟩
    · simp [hcfg]
    · exact releasePrevious_elapsed _
end Sys2Proof.Machine
end

section
namespace Sys2Proof.Machine
open Sys2Proof

/-! ## Hand-over and the IRQ bits (R26, R27, R550 to R554) -/

/-- A fold that takes over whatever comes before ends at an element that none comes before, where a rank says what comes before. -/
theorem foldl_first {α β : Type} [LinearOrder β] (rank : α → β) (before : α → α → Bool) (a : α) (l : List α)
    (h : ∀ x ∈ a :: l, ∀ y ∈ a :: l, before x y = true ↔ rank x < rank y) :
    l.foldl (fun b e => if before e b then e else b) a ∈ a :: l ∧ ∀ x ∈ a :: l, rank (l.foldl (fun b e => if before e b then e else b) a) ≤ rank x := by
  induction l generalizing a with
  | nil => simp
  | cons c l ih =>
    rw [List.foldl_cons]
    have hca := h c (by simp) a (by simp)
    by_cases hb : before c a = true
    · rw [if_pos hb]
      obtain ⟨hm, hle⟩ := ih c fun x hx y hy => h x (List.mem_cons_of_mem _ hx) y (List.mem_cons_of_mem _ hy)
      refine ⟨List.mem_cons_of_mem _ hm, fun x hx => ?_⟩
      rcases List.mem_cons.mp hx with rfl | hx
      · exact (hle c List.mem_cons_self).trans (hca.mp hb).le
      · exact hle x hx
    · rw [if_neg hb]
      have hsub : ∀ x ∈ a :: l, x ∈ a :: c :: l := by simp +contextual [or_imp]
      obtain ⟨hm, hle⟩ := ih a fun x hx y hy => h x (hsub x hx) y (hsub y hy)
      refine ⟨hsub _ hm, fun x hx => ?_⟩
      have hac : rank a ≤ rank c := not_lt.mp fun hl => hb (hca.mpr hl)
      rcases List.mem_cons.mp hx with rfl | hx
      · exact hle x List.mem_cons_self
      · rcases List.mem_cons.mp hx with rfl | hx
        · exact (hle a List.mem_cons_self).trans hac
        · exact hle x (List.mem_cons_of_mem _ hx)

/-- Within half the round of generations, counted from `g`, the later generation is the larger. -/
theorem genLater_iff {a b g : Gen} (ha : (a - g).toNat ≤ 32767) (hb : (b - g).toNat ≤ 32767) : genLater a b = true ↔ (b - g).toNat < (a - g).toNat := by
  unfold genLater
  simp only [decide_eq_true_eq]
  bv_omega

/-- The order of hand-over as a rank, with generations counted from `g`. -/
def Ev.rank (g : Gen) (e : Ev) : ℕ ×ₗ ℕ ×ₗ ℕ ×ₗ ℕ := toLex ((e.stamp.gen - g).toNat, toLex (e.stamp.ns, toLex (e.id, e.inst)))

theorem Ev.before_iff {g : Gen} {a b : Ev} (ha : (a.stamp.gen - g).toNat ≤ 32767) (hb : (b.stamp.gen - g).toNat ≤ 32767) :
    Ev.before a b = true ↔ a.rank g < b.rank g := by
  have hg : a.stamp.gen = b.stamp.gen ↔ (a.stamp.gen - g).toNat = (b.stamp.gen - g).toNat := by
    rw [← BitVec.toNat_eq, sub_left_inj]
  have hs : a.stamp = b.stamp ↔ (a.stamp.gen - g).toNat = (b.stamp.gen - g).toNat ∧ a.stamp.ns = b.stamp.ns := by
    rw [← hg]
    cases a.stamp; cases b.stamp; simp
  simp only [Ev.before, Stamp.before, Ev.rank, Prod.Lex.toLex_lt_toLex, Bool.or_eq_true, Bool.and_eq_true, decide_eq_true_eq, genLater_iff hb ha, hs, hg]
  tauto

/-- The event to hand over next is latched, and none comes before it (R27). -/
theorem nextEvent_earliest {s : State} {g : Gen} (hne : s.ev.latch ≠ []) (hf : s.ev.fenced = false)
    (hg : ∀ x ∈ s.ev.latch, (x.stamp.gen - g).toNat ≤ 32767) : ∃ e ∈ s.ev.latch, s.nextEvent = some e ∧ ∀ x ∈ s.ev.latch, Ev.before x e = false := by
  unfold State.nextEvent
  cases hl : s.ev.latch with
  | nil => exact absurd hl hne
  | cons h r =>
    rw [hl] at hg
    obtain ⟨hm, hle⟩ := foldl_first (Ev.rank g) Ev.before h r fun x hx y hy => Ev.before_iff (hg x hx) (hg y hy)
    refine ⟨_, hm, by simp [hf], fun x hx => ?_⟩
    rw [Bool.eq_false_iff]
    intro hb
    exact absurd ((Ev.before_iff (hg x hx) (hg _ hm)).mp hb) (not_lt.mpr (hle x hx))

namespace Undisturbed
variable {s t : State}

theorem notifyAll {e : Ev} (h : Undisturbed s t) : Undisturbed s (notifyAll e t) :=
  h.each fun _ _ => .ite (.of_same rfl) (.count (.of_same rfl))

theorem journalEntry {r : RecRow} (h : Undisturbed s t) : Undisturbed s (journalEntry r t) :=
  .ite h (.ite (h.update rfl) (.ite (h.update rfl) (.count (.when (h.update rfl) fun _ => .count (.refl _)))))

theorem recNew {c : Cf} {e : Ev} (h : Undisturbed s t) : Undisturbed s (recNew c e t) :=
  .journalEntry (.when (.when (.count (h.update rfl)) fun _ => .count (.refl _)) fun _ => .raise (.refl _))

theorem recAbsorb {r : RecRow} {e : Ev} (h : Undisturbed s t) : Undisturbed s (recAbsorb r e t) :=
  .journalEntry (.when (.countN (h.update rfl)) fun _ => .countN (.refl _))

theorem recWrite {c : Cf} {e : Ev} (h : Undisturbed s t) : Undisturbed s (recWrite c e t) := by
  unfold Machine.recWrite
  cases t.rec_.circ with
  | nil => exact h.recNew
  | cons r _ => exact .ite h.recAbsorb h.recNew

theorem alarmEvent {e : Ev} (h : Undisturbed s t) : Undisturbed s (alarmEvent e t) :=
  h.each fun _ _ => .setAlarmFor (.finalDecision (.refl _))

theorem keyServed {cls handle usage : Nat} (h : Undisturbed s t) : Undisturbed s (keyServed cls handle usage t) :=
  .ite (.count h) (.update (.count h) rfl)

theorem afterTake {m : Msg} {type : Nat} {p : Bytes} {x : Session} (h : Undisturbed s t) : Undisturbed s (t.afterTake m type p x) :=
  have taken : Undisturbed s (Machine.count 0x1080 1 ((noResp t).setSession (x.after m type p t.elapsed))) := .count (h.update rfl)
  .ite taken (.keyServed taken)

theorem tally {p sub : Nat} (h : Undisturbed s t) : Undisturbed s (tally p sub t) := .ite h h.countN

theorem mail {v : Via} {m : Bytes} (h : Undisturbed s t) : Undisturbed s (mail v m t) := by
  cases v with
  | port p _ _ => exact .ite h.tally (h.update rfl)
  | uart => exact h.update rfl

theorem respond {x : Session} {type tag status : Nat} {body : Bytes} (h : Undisturbed s t) : Undisturbed s (respond x type tag status body t) :=
  .mail (h.update rfl)

end Undisturbed

/-- A passing event whose source is enabled with the IRQ target sets its bit and no other (R550, R554). -/
theorem deliver_irq {c : Cf} {e : Ev} {s : State} (hen : bit (c.u 0xF400 1 (8 * e.id) 1) 0 = true) (htg : bit (c.u 0xF400 1 (8 * e.id + 1) 1) 0 = true) :
    (deliver c e s).ev.irq = s.ev.irq ||| (1#256 <<< e.id) := by
  have htail : Undisturbed { s with ev := { s.ev with irq := s.ev.irq ||| (1#256 <<< e.id) } } (deliver c e s) := by
    unfold deliver
    simp only [Nat.add_zero, hen, htg, if_true]
    exact .when (.when (.when (.when (.refl _) fun _ => .notifyAll (.refl _)) fun _ => .recWrite (.refl _)) fun _ => .alarmEvent (.refl _))
      fun _ => .eventTasks (.refl _)
  exact htail.irq

/-- The rate limit lets an event pass whose last hand-over to its targets lies as far back (R551). -/
abbrev State.Passes (s : State) (e : Ev) : Prop :=
  ∀ u, Table.find s.ev.lastOut (e.id * 65536 + e.inst) = some u → u + (s.routing e).u 0xF400 1 (8 * e.id + 2) 2 * 1000000 ≤ s.elapsed

theorem handOver_irq {s : State} {e : Ev} (hn : s.nextEvent = some e) (hd : e.direct = false) (hen : bit ((s.routing e).u 0xF400 1 (8 * e.id) 1) 0 = true)
    (htg : bit ((s.routing e).u 0xF400 1 (8 * e.id + 1) 1) 0 = true) (hp : s.Passes e) : (handOver s).ev.irq = s.ev.irq ||| (1#256 <<< e.id) := by
  unfold handOver
  rw [hn]
  dsimp -zeta only
  extract_lets _ s0 c s1 k limit pass held
  have hpass : pass = true := by
    unfold pass
    cases hl : Table.find s.ev.lastOut k with
    | none => exact Bool.or_true _
    | some u => exact Bool.or_eq_true_iff.mpr (.inr (decide_eq_true (hp u hl)))
  have hnote : s1.ev.irq = s.ev.irq := (Undisturbed.when (.refl s0) fun _ => .notifyAll (.refl _)).irq
  have hgo : (!bit (c.u 0xF400 1 (8 * e.id) 1) 0 && !permSelected c e.id && e.id != 0x0D) = false := by simp [c, hen]
  rw [if_neg (by simp [hd]), if_neg (by simp [hgo]), if_pos hpass]
  rw [deliver_irq (c := c) (e := { e with rep := min (e.rep + held) 0xFFFF }) hen htg, ← hnote]

/-- An event that its rate limit holds back is counted, and nothing else happens (R552). -/
theorem handOver_held {s : State} {e : Ev} {u : Nat} (hn : s.nextEvent = some e) (hd : e.direct = false) (hid : e.id ≠ 0x0D)
    (hen : bit ((s.routing e).u 0xF400 1 (8 * e.id) 1) 0 = true ∨ permSelected (s.routing e) e.id = true)
    (hl : Table.find s.ev.lastOut (e.id * 65536 + e.inst) = some u) (hu : s.elapsed < u + (s.routing e).u 0xF400 1 (8 * e.id + 2) 2 * 1000000) :
    handOver s = { s with ev := { s.ev with
      latch := s.ev.latch.erase e
      held := Table.put s.ev.held (e.id * 65536 + e.inst) (Table.getD s.ev.held (e.id * 65536 + e.inst) 0 + 1 + e.rep) } } := by
  have hgo : (!bit ((s.routing e).u 0xF400 1 (8 * e.id) 1) 0 && !permSelected (s.routing e) e.id && e.id != 0x0D) = false := by
    rcases hen with h | h <;> simp [h]
  unfold handOver
  simp only [hn, hd, hgo, hl, hid, Nat.not_le.mpr hu, decide_false, Bool.or_self, when]
  rfl

/-- Settles O22: the fold of `nextEvent` follows a rank, and what a delivery does besides leaves the IRQ bits alone. -/
theorem eventsReachTheHost : Obligations.EventsReachTheHost := by
  unfold Obligations.EventsReachTheHost
  refine ⟨fun s g hne hf hg => ?next, fun dt s e hr hn hd hid hen htg hp => ?irq, fun dt u s e hr hn hd hid hen hl hu => ?held,
    fun dt n m v s x hr h hv => ?clear⟩
  case next =>
    obtain ⟨e, hm, hn, hb⟩ := nextEvent_earliest hne hf hg
    refine ⟨e, hm, hn, fun x hx => ?_⟩
    have h := hb x hx
    simp only [Ev.before, Bool.or_eq_false_iff, Bool.and_eq_false_iff, decide_eq_false_iff_not] at h
    obtain ⟨hs, ht⟩ := h
    refine ⟨hs, fun he => ?_⟩
    have : ¬ x.id < e.id ∧ (¬ x.id = e.id ∨ ¬ x.inst < e.inst) := by
      rcases ht with h | h
      · exact absurd he h
      · exact h
    omega
  case irq =>
    refine ⟨_, rfl, ?_⟩
    rw [State.act_runs _ _ _ _ hr]
    exact ⟨handOver_irq (s := s.tick dt) hn hd hen htg hp, rfl, rfl⟩
  case held =>
    refine ⟨_, rfl, ?_⟩
    rw [State.act_runs _ _ _ _ hr, handOver_held (s := s.tick dt) hn hd hid hen hl hu]
    refine ⟨?_, rfl, ⟨_, rfl⟩, rfl⟩
    simp
  case clear =>
    have hclear : ∀ y u, irqClear v y n u = (stOk, { u with ev := { u.ev with irq := u.ev.irq &&& ~~~(BitVec.ofNat 256 n) } }) := by
      intro y u
      simp [irqClear, hv]
    obtain ⟨t, ht, ha, body, rfl⟩ := write_acts (x := x) (n := n) (c := .irqClear dt m v) (hc := rfl) (by decide) hr h (hclear _ _) (State.afterTake_self h.1.2.1) (by simp)
    refine ⟨_, ht, ha, ?_, ⟨_, rfl⟩, by simp⟩
    have htaken : ((s.tick dt).afterWrite m 0xF410 2 v x).ev.irq = s.ev.irq := (Undisturbed.afterTake (.refl _)).irq
    calc _ = ((s.tick dt).afterWrite m 0xF410 2 v x).ev.irq &&& ~~~(BitVec.ofNat 256 n) := (Undisturbed.respond (.refl _)).irq
      _ = _ := by rw [htaken]
end Sys2Proof.Machine
end

section
namespace Sys2Proof.Machine
open Sys2Proof

/-! ## More work that leaves the same alone -/

namespace Undisturbed
variable {s t : State}

/-- What a command may not change is as it was, whatever it did. -/
theorem within {ps : List Part} (h : Undisturbed s t) : Undisturbed s (s.within ps t) := by
  refine ⟨fun id inst l => ?_, ?_, ?_⟩
  · unfold Latched
    simp only [State.within]
    split
    · exact h.latched id inst l
    · exact l
  · simp [State.within, h.irq]
  · simp [State.within, State.aside, h.time, h.mode, h.cfg, h.upd, apply_ite CopU.lost, apply_ite CopU.rowsUsed, h.lost, h.rowsUsed]

/-! ### The store -/

theorem setPool {n : Nat} (h : Undisturbed s t) : Undisturbed s (setPool n t) := .ite (.raise (h.update rfl)) (.ite (h.update rfl) (h.update rfl))

theorem refusePush {q : Nat} (h : Undisturbed s t) : Undisturbed s (refusePush q t) :=
  .ite (.satEvent (h.update rfl)) (.ite (.raise (.satEvent (h.update rfl))) (.raise (.satEvent (h.update rfl))))

theorem chargeMoves {q k n : Nat} (h : Undisturbed s t) : Undisturbed s (chargeMoves q k n t) := h.update rfl

theorem enqueueData {q : Nat} {item data : Bytes} (h : Undisturbed s t) : Undisturbed s (enqueueData q item data t).2 := by
  unfold Machine.enqueueData
  split
  · exact h.refusePush
  · exact .ite (.setPool (.satEvent (.chargeMoves (h.update rfl)))) (.satEvent (.chargeMoves (h.update rfl)))

theorem addCe {k n : Nat} (h : Undisturbed s t) : Undisturbed s (addCe k n t) := .when (h.update rfl) fun _ => .raise (.refl _)

theorem addUe {k n : Nat} (h : Undisturbed s t) : Undisturbed s (addUe k n t) := .when (h.update rfl) fun _ => .raise (.refl _)

theorem storeCe {e : StoreErr} (h : Undisturbed s t) : Undisturbed s (storeCe e t) := by
  unfold Machine.storeCe
  extract_lets c s1 n _ s2
  have h1 : Undisturbed s s1 := .addCe (.addCe h)
  have h2 : Undisturbed s s2 := h1.update rfl
  clear_value s2
  exact .ite (.raise (h2.update rfl)) h2

theorem storeUe {e : StoreErr} (h : Undisturbed s t) : Undisturbed s (storeUe e t) := .raise (.update (.addUe (.addUe h)) rfl)

theorem reportRow {c g r : Nat} (h : Undisturbed s t) : Undisturbed s (reportRow c g r t) := .raise (h.update rfl)

/-! ### Units that begin and stop with a mode -/

theorem oscStop (h : Undisturbed s t) : Undisturbed s (oscStop t) := h.update rfl

theorem setUnitsStop (h : Undisturbed s t) : Undisturbed s (setUnitsStop t) := h.update rfl

theorem unitsLeave {old m : Mode} (h : Undisturbed s t) : Undisturbed s (unitsLeave old m t) :=
  .when (.when h fun _ => .when (.when (.refl _) fun _ => .freezeAlarms (.refl _)) fun _ => .freezeAlarms (.refl _)) fun _ => .oscStop (.acqStop (.refl _))

theorem placeTask {n : Nat} (h : Undisturbed s t) : Undisturbed s (placeTask n t) := h.placeIn

theorem refreshAffinity {ts : List Nat} (h : Undisturbed s t) : Undisturbed s (refreshAffinity ts t) := by
  refine h.each fun n u => ?_
  cases Table.find u.sched.desc n with
  | none => exact .refl _
  | some d =>
    exact .when (.ite (.refl _) (.when (.of_same rfl) fun _ => .raise (.refl _))) fun _ => .placeTask (.refl _)

theorem abandonShadows {which : Nat → Bool} (h : Undisturbed s t) : Undisturbed s (abandonShadows which t) :=
  .each (h.update rfl) fun _ _ => .of_same rfl

theorem refillCore {k : Nat} (h : Undisturbed s t) : Undisturbed s (refillCore k t) := by
  unfold Machine.refillCore
  split
  · cases t.nextFor k with
    | none => exact h
    | some n => exact h.dispatch
  · exact h

theorem coreIn {k : Nat} (h : Undisturbed s t) : Undisturbed s (coreIn k t) :=
  .ite (h.update rfl) (.refreshAffinity (.refillCore (h.update rfl)))

theorem laneBack {u l : Nat} (h : Undisturbed s t) : Undisturbed s (laneBack u l t) :=
  .ite (h.update rfl) (.ite (.coreIn (h.update rfl)) (h.update rfl))

theorem testIncomplete {x : LaneTest} (h : Undisturbed s t) : Undisturbed s (testIncomplete x t) := .laneBack (.count (h.update rfl))

theorem coppiceHalt (h : Undisturbed s t) : Undisturbed s (coppiceHalt t) := h.abandonShadows.each fun _ _ => .testIncomplete (.refl _)

theorem coppiceMode {old new : Mode} (h : Undisturbed s t) : Undisturbed s (coppiceMode old new t) :=
  h.abandonShadows.when fun _ => .coppiceHalt (.refl _)

theorem portSend {p cls : Nat} {b : Bytes} {stamp : Option (Nat × Nat × Nat)} (h : Undisturbed s t) : Undisturbed s (portSend p cls b stamp t) :=
  .ite h (.ite h.enqueueData h.tally)

theorem sourceCmd {c : Cf} {k cmd : Nat} (h : Undisturbed s t) : Undisturbed s (sourceCmd c k cmd t) :=
  .ite h (.portSend (h.update rfl))

theorem sourceStart {k : Nat} (h : Undisturbed s t) : Undisturbed s (sourceStart k t) := .ite (.update (.sourceCmd (.sourceCmd h)) rfl) h

theorem enableCtx {k : Nat} (h : Undisturbed s t) : Undisturbed s (enableCtx k t) := .sourceStart (h.update rfl)

theorem ingestStart (h : Undisturbed s t) : Undisturbed s (ingestStart t) :=
  .each (.each (h.update rfl) fun _ _ => .enableCtx (.refl _)) fun _ _ => .of_same rfl

theorem oscRestart {g cause : Nat} {from_ : Stamp} (h : Undisturbed s t) : Undisturbed s (oscRestart g cause from_ t) :=
  .ite h (.when (.raise (.count (h.update rfl))) fun _ => .freezeAlarms (.refl _))

theorem chainStart (h : Undisturbed s t) : Undisturbed s (chainStart t) := h.update rfl

theorem islStart (h : Undisturbed s t) : Undisturbed s (islStart t) := .ite h.islRestart h

theorem gooseStart (h : Undisturbed s t) : Undisturbed s (gooseStart t) := h.each fun _ _ => .of_same rfl

theorem outStart (h : Undisturbed s t) : Undisturbed s (outStart t) := h.each fun _ _ => .of_same rfl

theorem gooseRenew (h : Undisturbed s t) : Undisturbed s (gooseRenew t) := h.update rfl

theorem oscStart (h : Undisturbed s t) : Undisturbed s (oscStart t) := .ite (h.each fun _ _ => .oscRestart (.refl _)) h

theorem acqStart (h : Undisturbed s t) : Undisturbed s (acqStart t) := h.each fun _ _ => .ite (.of_same rfl) (.refl _)

theorem unitsEnter {old m : Mode} (h : Undisturbed s t) : Undisturbed s (unitsEnter old m t) :=
  .when (.when (.when (.when (.when h.coppiceMode fun _ => .ingestStart (.refl _))
    fun _ => .outStart (.gooseStart (.islStart (.chainStart (.refl _))))) fun _ => .gooseRenew (.refl _))
    fun _ => .oscStart (.acqStart (.refl _))) fun _ => .setUnitsStop (.refl _)

end Undisturbed
end Sys2Proof.Machine
end

section
namespace Sys2Proof.Machine
open Sys2Proof

/-! ## Transitions (R57 to R62) -/

/-- The objects of R62 once a mode is entered. -/
def State.entered (s : State) (m : Mode) (cause : Nat) : ModeU :=
  { s.mode with cur := m, prev := s.mode.cur.code, cause := cause, since := s.now, clearSince := none }

namespace Undisturbed
variable {s t : State}

theorem journalTime (h : Undisturbed s t) : Undisturbed s (journalTime t) := .ite (h.update rfl) h

/-- A mode is entered by both. -/
theorem entered {m : Mode} {cause : Nat} (h : Undisturbed s t) : Undisturbed { s with mode := s.entered m cause } { t with mode := t.entered m cause } := by
  have hm : t.entered m cause = s.entered m cause := by simp [State.entered, State.now, h.mode, h.time]
  exact ⟨h.latched, h.irq, by simp [State.aside, hm, h.time, h.cfg, h.upd, h.lost, h.rowsUsed]⟩

theorem enterMode {m : Mode} {cause : Nat} (h : Undisturbed s t) : Undisturbed { s with mode := s.entered m cause } (enterMode m cause t) :=
  .journalTime (.raise h.entered)

end Undisturbed

/-- The configuration of both changes alike. -/
theorem Undisturbed.with_cfg {s t : State} (c : CfgU) (h : Undisturbed s t) : Undisturbed { s with cfg := c } { t with cfg := c } :=
  ⟨h.latched, h.irq, by simp [State.aside, h.time, h.mode, h.upd, h.lost, h.rowsUsed]⟩

/-- EV_MODE_CHANGE (R559). -/
theorem enterMode_latched (m : Mode) (cause : Nat) (s : State) : Latched (enterMode m cause s) 0x00 0 :=
  (Undisturbed.journalTime (.refl _)).latched _ _ (raise_latched _ _ _ _ (by simp [eventAbsent]) rfl)

/-- A transition enters the mode, with EV_MODE_CHANGE; beside the mode and the configuration, nothing that units only read changes. -/
theorem toMode_enters (m : Mode) (cause : Nat) (s : State) :
    Undisturbed { s with mode := s.entered m cause, cfg := (toMode m cause s).cfg } (toMode m cause s) ∧ Latched (toMode m cause s) 0x00 0 := by
  unfold toMode
  extract_lets old s1 s2
  have h1 : Undisturbed { s with mode := s.entered m cause } s1 := .enterMode (.within (.unitsLeave (.refl s)))
  have h2 : Undisturbed s1 s2 := .within (.unitsEnter (.refl s1))
  have hl : Latched s2 0x00 0 := h2.latched _ _ (enterMode_latched ..)
  cases old.forms && !m.forms && !s.draining with
  | true => exact ⟨(h1.trans h2).with_cfg _, hl⟩
  | false => exact ⟨(h1.trans h2).with_cfg s2.cfg, hl⟩

theorem toMode_mode (m : Mode) (cause : Nat) (s : State) : (toMode m cause s).mode = s.entered m cause := (toMode_enters m cause s).1.mode

/-- Sets form from an instant on (R58). -/
theorem alignStart_mode (from_ : Nat) (s : State) : (alignStart from_ s).mode = { s.mode with formFrom := from_ } :=
by
  have h : Undisturbed { s with mode := { s.mode with formFrom := from_ } } (alignStart from_ s) := .each (.refl _) fun _ _ => .of_same rfl
  exact h.mode

/-- No transition waits any more. -/
def State.noneWaits (s : State) : State := { s with mode := { s.mode with pend := none } }

/-- The mode that OPERATE_START enters for a request of OPERATE (R59). -/
def State.startMode (s : State) : Mode := if s.fenceLevel = 1 ∨ s.paceDeficit = true then .degraded else .operate

/-- OPERATE_START when its instant is there: a fence that asks for SAFE refuses it, else sets form from that instant on. -/
theorem operateStart_due {s : State} {p : ModePending} (hp : s.mode.pend = some p) (ht : p.target = .operate) (hg : p.gen = s.time.gen)
    (hat : p.atNs ≤ s.time.tai) (hcur : s.mode.cur = .standby) :
    operateStart s = if s.fenceLevel = 2 then rejectReq 4 s.noneWaits
      else judgeReturn (setReq 0 (toMode s.startMode p.cause (alignStart p.atNs s.noneWaits))) := by
  unfold operateStart
  rw [hp]
  dsimp -zeta only
  rw [if_pos (by simp [ht, hg, hat, hcur, Mode.forms])]
  extract_lets _ s1 m
  have hl : s1.fenceLevel = s.fenceLevel := rfl
  have hd : s1.paceDeficit = s.paceDeficit := rfl
  have hm : m = s.startMode := by simp [m, State.startMode, ht, hl, hd]
  simp only [ht, hl, hm, decide_true, Bool.true_and, decide_eq_true_eq]
  rfl

/-- The transition to STANDBY at its stop instant goes on until what it stops has ended. -/
theorem stopInstant_due {s : State} {p : ModePending} (hp : s.mode.pend = some p) (ht : p.target = .standby) (hg : p.gen = s.time.gen)
    (hat : p.atNs ≤ s.time.tai) (hst : p.stopped = false) : ∃ left, stopInstant s = toMode .standby p.cause
      { s with mode := { s.mode with pend := some { p with stopped := true } }, upd := { s.upd with left := left } } := by
  unfold stopInstant
  rw [hp]
  dsimp -zeta only
  rw [if_pos (by simp [ht, hg, hat, hst])]
  exact ⟨_, rfl⟩

/-- The end of a stop, where no activation waits and no fall-back is under way. -/
theorem outputsStop_ends {s : State} {p : ModePending} (hp : s.mode.pend = some p) (hst : p.stopped = true) (hc : s.closedBefore ⟨p.gen, p.atNs⟩ = true)
    (hres : s.upd.resume = none) (hleave : s.upd.leaving = 0) : outputsStop s = if p.activate then drainEnd s else setReq 0 (drainEnd s) := by
  have hplain : ∀ t : State, t.upd = s.upd → resumeMode (fallBack t) = t := by
    intro t ht
    simp [fallBack, resumeMode, ht, hres, hleave]
  unfold outputsStop
  rw [hp]
  dsimp -zeta only
  rw [if_pos (by simp [hst, hc])]
  apply hplain
  split <;> rfl

/-- Settles O14, transition by transition. -/
theorem pendingTransitionsAct : Obligations.PendingTransitionsAct := by
  unfold Obligations.PendingTransitionsAct
  refine ⟨fun dt s p hr hp ht hg hat hcur hl => ?start, fun dt s p hr hp ht hg hat hcur hl => ?refused, fun dt s p hr hp ht hg hat hst => ?stop,
    fun dt s p hr hp hst hc hres hleave => ?close, fun dt s c hr hcur hc hdue => ?back⟩
  case start =>
    have hne : ¬ (s.tick dt).fenceLevel = 2 := Nat.ne_of_lt hl
    refine ⟨_, rfl, ?_⟩
    rw [State.act_runs _ _ _ _ hr, operateStart_due (s := s.tick dt) hp ht hg hat hcur, if_neg hne]
    refine ⟨?_, ?_, ?_, ?_⟩
    all_goals simp only [judgeReturn, setReq, toMode_mode, State.within_mode, State.entered, alignStart_mode]
    all_goals rfl
  case refused =>
    refine ⟨_, rfl, ?_⟩
    rw [State.act_runs _ _ _ _ hr, operateStart_due (s := s.tick dt) hp ht hg hat hcur, if_pos (show (s.tick dt).fenceLevel = 2 from hl)]
    refine ⟨?_, ?_, ?_, within_latched (by decide) (raise_latched _ _ _ _ (by simp [eventAbsent]) rfl)⟩
    all_goals simp [rejectReq, setReq, State.noneWaits, hcur]
  case stop =>
    obtain ⟨left, hstop⟩ := stopInstant_due (s := s.tick dt) hp ht hg hat hst
    refine ⟨_, rfl, ?_⟩
    rw [State.act_runs _ _ _ _ hr, hstop]
    refine ⟨?_, ?_, ?_, ?_, within_latched (by decide) (toMode_enters _ _ _).2⟩
    all_goals simp [toMode_mode, State.entered]
  case close =>
    refine ⟨_, rfl, ?_⟩
    rw [State.act_runs _ _ _ _ hr, outputsStop_ends (s := s.tick dt) hp hst hc hres hleave]
    cases p.activate <;> exact ⟨rfl, rfl⟩
  case back =>
    have hback : degradedReturn (s.tick dt) = toMode .operate 0x0104 (s.tick dt) := by
      have hc' : (s.tick dt).mode.clearSince = some c := hc
      have hcur' : (s.tick dt).mode.cur = .degraded := hcur
      have hdue' : c + (s.tick dt).cf.u 0x1100 0x0C 0 4 * 1000000 ≤ (s.tick dt).elapsed := hdue
      unfold degradedReturn
      rw [hc']
      dsimp only
      rw [if_pos (Bool.and_eq_true_iff.mpr ⟨decide_eq_true hcur', decide_eq_true hdue'⟩)]
    refine ⟨_, rfl, ?_⟩
    rw [State.act_runs _ _ _ _ hr, hback]
    simp [toMode_mode, State.entered, hcur, Mode.code]
end Sys2Proof.Machine
end

section
namespace Sys2Proof.Machine
open Sys2Proof

/-! ## The pace monitor (R38 to R40) -/

/-- A fold that takes over what is strictly less ends at the first of the least in an ascending list. -/
theorem foldl_least {f : Nat → Nat} {b k : Nat} {l : List Nat} (hs : (b :: l).Pairwise (· < ·)) (hk : k ∈ b :: l)
    (h : ∀ x ∈ b :: l, f k ≤ f x ∧ (x < k → f k < f x)) : l.foldl (fun b r => if f r < f b then r else b) b = k := by
  induction l generalizing b with
  | nil => exact (List.mem_singleton.mp hk).symm
  | cons c l ih =>
    obtain ⟨hb, hcl⟩ := List.pairwise_cons.mp hs
    rw [List.foldl_cons]
    by_cases hlt : f c < f b
    · have hkb : k ≠ b := fun e => by
        have := (h c (by simp)).1
        rw [e] at this
        omega
      rw [if_pos hlt]
      exact ih hcl ((List.mem_cons.mp hk).resolve_left hkb) fun x hx => h x (List.mem_cons_of_mem _ hx)
    · have hkc : k ≠ c := fun e => by
        have := (h b (by simp)).2 (e ▸ hb c (by simp))
        rw [e] at this
        omega
      have hsub : ∀ x ∈ b :: l, x ∈ b :: c :: l := by simp +contextual [or_imp]
      rw [if_neg hlt]
      refine ih (List.pairwise_cons.mpr ⟨fun x hx => hb x (List.mem_cons_of_mem _ hx), (List.pairwise_cons.mp hcl).2⟩) ?_ fun x hx => h x (hsub x hx)
      rcases List.mem_cons.mp hk with rfl | hk
      · exact List.mem_cons_self
      · exact List.mem_cons_of_mem _ ((List.mem_cons.mp hk).resolve_left hkc)

/-- Ring `k` is the slowest of those that are not fenced, and the first such. -/
def State.Slowest (s : State) (rates : List Nat) (k : Nat) : Prop :=
  k < 8 ∧ s.fenced 19 k = false ∧ ∀ j, j < 8 → s.fenced 19 j = false →
    satBits 32 (rates.getD k 0) ≤ satBits 32 (rates.getD j 0) ∧ (j < k → satBits 32 (rates.getD k 0) < satBits 32 (rates.getD j 0))

/-- EV_PACE_LOW fires at a margin (R39). -/
def State.paceFires (s : State) (m : Nat) : Bool := m < s.cf.u 0x1030 4 0 2 && s.pace.lowArmed

/-- What a window leaves whose slowest ring ran at a rate (R38 to R40). -/
def State.paced (s : State) (rate ring : Nat) : PaceU :=
  let m := satBits 16 rate
  let below := if m < 1000 then some (match s.pace.below with | some (t, l) => (t, min l m) | none => (s.elapsed, m)) else none
  { s.pace with measured := rate, margin := m, ring := ring, lowestMargin := min s.pace.lowestMargin m,
                lowestRing := if m < s.pace.lowestMargin then ring else s.pace.lowestRing, windowDone := true, below := below,
                deficitRaised := s.pace.deficitRaised && below.isSome,
                lowArmed := if s.paceFires m then false else s.pace.lowArmed || decide (s.cf.u 0x1030 4 0 2 + 50 ≤ m) }

/-- A window goes by its slowest ring (R38, R39). -/
theorem paceWindow_of_slowest {s : State} {rates : List Nat} {k : Nat} (h : s.Slowest rates k) :
    let r := satBits 32 (rates.getD k 0)
    paceWindow rates s = judgeReturn (if s.paceFires (satBits 16 r) then raise 0x04 0 (satBits 16 r) (count 0x1030 8 { s with pace := s.paced r k })
      else { s with pace := s.paced r k }) := by
  obtain ⟨hk, hf, hleast⟩ := h
  intro r
  have hmem : ∀ j, j ∈ (List.range 8).filter (fun j => !s.fenced 19 j) ↔ j < 8 ∧ s.fenced 19 j = false := by simp
  have hsorted : ((List.range 8).filter (fun j => !s.fenced 19 j)).Pairwise (· < ·) := List.pairwise_lt_range.filter _
  unfold paceWindow
  extract_lets rings rate
  change ∀ j, j ∈ rings ↔ _ at hmem
  change rings.Pairwise _ at hsorted
  cases hr : rings with
  | nil =>
    have := (hmem k).mpr ⟨hk, hf⟩
    rw [hr] at this
    exact absurd this List.not_mem_nil
  | cons first rest =>
    have hring : rest.foldl (fun b j => if rate j < rate b then j else b) first = k := by
      refine foldl_least (f := rate) (hr ▸ hsorted) (hr ▸ (hmem k).mpr ⟨hk, hf⟩) fun x hx => ?_
      obtain ⟨hx8, hxf⟩ := (hmem x).mp (hr ▸ hx)
      exact hleast x hx8 hxf
    have hmargin : rate k * 1000 / 1000 = r := Nat.mul_div_cancel _ (by decide)
    have hlow : (if satBits 16 r < s.pace.lowestMargin then satBits 16 r else s.pace.lowestMargin) = min s.pace.lowestMargin (satBits 16 r) := by
      rw [min_comm, min_def_lt]
    dsimp only
    rw [hring, hmargin]
    simp only [hlow]
    rfl

/-- Equal rings that none fences: the first is the slowest. -/
theorem State.slowest_of_equal {s : State} (r : Nat) (h : s.cop.lost = []) : s.Slowest (List.replicate 8 r) 0 := by
  refine ⟨by decide, by simp [State.fenced, h], fun j hj _ => ?_⟩
  have hget : ∀ i, i < 8 → (List.replicate 8 r).getD i 0 = r := fun i hi => List.getD_replicate r hi
  rw [hget 0 (by decide), hget j hj]
  exact ⟨le_rfl, fun hn => absurd hn (Nat.not_lt_zero j)⟩

/-- Without EV_PACE_LOW a window changes the pace monitor and the return from DEGRADED only. -/
theorem paceWindow_quiet {s : State} {rates : List Nat} {k : Nat} (h : s.Slowest rates k) (hq : s.paceFires (satBits 16 (satBits 32 (rates.getD k 0))) = false) :
    paceWindow rates s = judgeReturn { s with pace := s.paced (satBits 32 (rates.getD k 0)) k } := by
  rw [paceWindow_of_slowest h, hq]
  rfl

theorem satBits_of_lt {n v : Nat} (h : v < 2 ^ n) : satBits n v = v := by unfold satBits; omega

/-- A window of equal rings at a rate of 16 bits, none of them fenced. -/
theorem paceWindow_of_equal {s : State} {r : Nat} (h : s.cop.lost = []) (hr : r < 65536) :
    paceWindow (List.replicate 8 r) s = judgeReturn (if s.paceFires r then raise 0x04 0 r (count 0x1030 8 { s with pace := s.paced r 0 })
      else { s with pace := s.paced r 0 }) ∧ (s.paced r 0).margin = r ∧
      (s.paced r 0).lowArmed = if s.paceFires r then false else s.pace.lowArmed || decide (s.cf.u 0x1030 4 0 2 + 50 ≤ r) := by
  have hget : (List.replicate 8 r).getD 0 0 = r := List.getD_replicate r (by decide)
  have h32 : satBits 32 ((List.replicate 8 r).getD 0 0) = r := by
    rw [hget]
    exact satBits_of_lt (by omega)
  have h16 : satBits 16 r = r := satBits_of_lt hr
  refine ⟨?_, h16, by simp only [State.paced, h16]⟩
  have hw := paceWindow_of_slowest (s.slowest_of_equal r h)
  dsimp only at hw
  rwa [h32, h16] at hw

/-- Every unit of OPERATE runs in DEGRADED: the transition stops none and begins none (R57). -/
theorem toMode_degraded {cause : Nat} {s : State} (h : s.mode.cur = .operate) : toMode .degraded cause s = enterMode .degraded cause s := by
  have hself : ∀ (ps : List Part) (u : State), u.within ps u = u := fun ps u => by simp [State.within]
  have hruns : ∀ n, (unitRunsIn n .operate && !unitRunsIn n .degraded) = false := by
    intro n
    unfold unitRunsIn
    split <;> rfl
  have hmode : ∀ u, coppiceMode .operate .degraded u = u := by
    intro u
    simp [coppiceMode, abandonShadows, hruns, each, when, Mode.configures, Mode.ingests, Mode.forms]
  have henter : ∀ u, unitsEnter .operate .degraded u = u := by
    intro u
    unfold unitsEnter
    rw [hmode]
    rfl
  have hleave : ∀ u, unitsLeave .operate .degraded u = u := fun u => rfl
  unfold toMode
  dsimp only
  rw [h, hleave, hself, henter, hself]
  rfl

/-- What a pace deficit raises and counts (R40). -/
def State.inDeficit (s : State) (l : Nat) : State := raise 0x05 0 l (count 0x1030 9 { s with pace := { s.pace with deficitRaised := true } })

theorem State.inDeficit_pace (s : State) (l : Nat) : (s.inDeficit l).pace = { s.pace with deficitRaised := true } := by simp [State.inDeficit]
theorem State.inDeficit_mode (s : State) (l : Nat) : (s.inDeficit l).mode = s.mode := by simp [State.inDeficit]
theorem State.inDeficit_ctr (s : State) (l : Nat) : (s.inDeficit l).ctr 0x1030 9 = min (s.ctr 0x1030 9 + 1) ctrMax :=
  have hraise : ∀ u : State, (raise 0x05 0 l u).ctr 0x1030 9 = u.ctr 0x1030 9 := fun u => by simp [State.ctr]
  (hraise _).trans ((countN_ctr ..).trans (if_pos rfl))
theorem State.inDeficit_latched (s : State) (l : Nat) : Latched (s.inDeficit l) 0x05 0 := raise_latched _ _ _ _ (by simp [eventAbsent]) rfl

/-- 100 ms below 1000 per mille (R40). -/
theorem paceDeficit_due {s : State} {since l : Nat} (hb : s.pace.below = some (since, l)) (hdue : since + 100000000 ≤ s.elapsed)
    (hno : s.pace.deficitRaised = false) : paceDeficit s =
      if s.mode.cur = .operate then judgeReturn (enterMode .degraded 0x0103 (s.inDeficit l)) else s.inDeficit l := by
  have hmode : (s.inDeficit l).mode.cur = s.mode.cur := by rw [s.inDeficit_mode l]
  unfold paceDeficit
  rw [hb]
  dsimp -zeta only
  rw [if_pos (by simp [State.paceDeficit, hb, hdue, hno])]
  by_cases h : s.mode.cur = .operate
  · rw [if_pos h, ← toMode_degraded (hmode.trans h)]
    exact if_pos (hmode.trans h)
  · rw [if_neg h]
    exact if_neg (hmode ▸ h)

theorem journalTime_beside (s : State) : (journalTime s).stats = s.stats ∧ (journalTime s).pace = s.pace := by
  unfold journalTime
  split <;> exact ⟨rfl, rfl⟩

/-- Entering a mode counts nothing, and leaves the pace monitor. -/
theorem enterMode_beside (m : Mode) (cause : Nat) (s : State) : (enterMode m cause s).stats = s.stats ∧ (enterMode m cause s).pace = s.pace := by
  unfold enterMode
  extract_lets from_ _ s1
  have hj := journalTime_beside (raise 0x00 0 (cause * 65536 + from_ * 256 + m.code) s1)
  exact ⟨hj.1.trans (by simp [s1]), hj.2.trans (by simp [s1])⟩

theorem enterMode_ctr (m : Mode) (cause : Nat) (s : State) (j k : Nat) : (enterMode m cause s).ctr j k = s.ctr j k := by
  simp [State.ctr, enterMode_beside]

theorem judgeReturn_latched {s : State} {id inst : Nat} (h : Latched s id inst) : Latched (judgeReturn s) id inst := h
theorem judgeReturn_ctr (s : State) (j k : Nat) : (judgeReturn s).ctr j k = s.ctr j k := rfl

/-- Settles O15, by the slowest ring of a window. -/
theorem paceMonitorActs : Obligations.PaceMonitorActs := by
  unfold Obligations.PaceMonitorActs
  refine ⟨fun dt k r rates s hr hk hf hrate hbits hleast hth => ?window, fun dt r s hr hl hlow hr16 harm => ?low, fun dt r s hr hl hlow hr16 harm => ?still,
    fun dt r s hr hl hhigh hr16 => ?rearm, fun dt since l s hr hb hdue hno => ?deficit, fun dt n m v s x hr h hw => ?clear⟩
  case window =>
    have hsat : ∀ j, j < 8 → satBits 32 (rates.getD j 0) = rates.getD j 0 := fun j hj => satBits_of_lt (hbits j hj)
    have hslow : (s.tick dt).Slowest rates k := by
      refine ⟨hk, hf, fun j hj hfj => ?_⟩
      rw [hsat j hj, hsat k hk, hrate]
      exact hleast j hj hfj
    have hquiet : (s.tick dt).paceFires (satBits 16 (satBits 32 (rates.getD k 0))) = false := by
      rw [hsat k hk, hrate]
      exact Bool.and_eq_false_iff.mpr (.inl (decide_eq_false (Nat.not_lt.mpr hth)))
    refine ⟨_, rfl, ?_⟩
    rw [State.act_runs _ _ _ _ hr, paceWindow_quiet hslow hquiet, hsat k hk, hrate]
    exact ⟨rfl, rfl, rfl, rfl, rfl, rfl, rfl, rfl⟩
  case low =>
    obtain ⟨hw, hm, ha⟩ := paceWindow_of_equal (s := s.tick dt) hl hr16
    have hfires : (s.tick dt).paceFires r = true := Bool.and_eq_true_iff.mpr ⟨decide_eq_true hlow, harm⟩
    refine ⟨_, rfl, ?_⟩
    rw [State.act_runs _ _ _ _ hr, hw, hfires]
    rw [hfires] at ha
    refine ⟨?_, ?_, ?_, within_latched (by decide) (raise_latched _ _ _ _ (by simp [eventAbsent]) rfl)⟩
    · simpa [judgeReturn] using hm
    · simpa [judgeReturn] using ha
    · rw [within_ctr, if_pos (by decide)]
      have hraise : ∀ u : State, (judgeReturn (raise 0x04 0 r u)).ctr 0x1030 8 = u.ctr 0x1030 8 := fun u => by simp [judgeReturn, State.ctr]
      exact (hraise _).trans ((countN_ctr ..).trans (if_pos rfl))
  case still =>
    obtain ⟨hw, hm, ha⟩ := paceWindow_of_equal (s := s.tick dt) hl hr16
    have hfires : (s.tick dt).paceFires r = false := Bool.and_eq_false_iff.mpr (.inr harm)
    have hno : decide ((s.tick dt).cf.u 0x1030 4 0 2 + 50 ≤ r) = false := decide_eq_false (Nat.not_le.mpr hlow)
    refine ⟨_, rfl, ?_⟩
    rw [State.act_runs _ _ _ _ hr, hw, hfires]
    rw [hfires, hno] at ha
    exact ⟨hm, ha.trans (by simp [harm]), rfl, rfl⟩
  case rearm =>
    obtain ⟨hw, hm, ha⟩ := paceWindow_of_equal (s := s.tick dt) hl hr16
    have hfires : (s.tick dt).paceFires r = false :=
      Bool.and_eq_false_iff.mpr (.inl (decide_eq_false (Nat.not_lt.mpr (le_trans (Nat.le_add_right _ 50) hhigh))))
    have hyes : decide ((s.tick dt).cf.u 0x1030 4 0 2 + 50 ≤ r) = true := decide_eq_true hhigh
    refine ⟨_, rfl, ?_⟩
    rw [State.act_runs _ _ _ _ hr, hw, hfires]
    rw [hfires, hyes] at ha
    exact ⟨hm, ha.trans (by simp)⟩
  case deficit =>
    refine ⟨_, rfl, ?_⟩
    rw [State.act_runs _ _ _ _ hr, paceDeficit_due (s := s.tick dt) hb hdue hno]
    by_cases hop : s.mode.cur = .operate
    · have hmode : (enterMode .degraded 0x0103 ((s.tick dt).inDeficit l)).mode = ((s.tick dt).inDeficit l).entered .degraded 0x0103 :=
        (Undisturbed.enterMode (.refl _)).mode
      have hkept : Latched (enterMode .degraded 0x0103 ((s.tick dt).inDeficit l)) 0x05 0 :=
        (Undisturbed.enterMode (.refl _)).latched _ _ (State.inDeficit_latched _ l)
      rw [if_pos (show (s.tick dt).mode.cur = .operate from hop), if_pos hop]
      refine ⟨?_, ?_, ?_, within_latched (by decide) (judgeReturn_latched hkept), fun _ =>
        ⟨?_, within_latched (by decide) (judgeReturn_latched (enterMode_latched ..))⟩⟩
      · simp [judgeReturn, enterMode_beside, State.inDeficit_pace]
      · simp [judgeReturn, hmode, State.entered]
      · rw [within_ctr, if_pos (by decide), judgeReturn_ctr, enterMode_ctr, State.inDeficit_ctr]
        rfl
      · simp [judgeReturn, hmode, State.entered]
    · rw [if_neg (show ¬ (s.tick dt).mode.cur = .operate from hop), if_neg hop]
      refine ⟨?_, ?_, ?_, within_latched (by decide) (State.inDeficit_latched _ l), fun h => absurd h hop⟩
      · simp [State.inDeficit_pace]
      · simp [State.inDeficit_mode]
      · rw [within_ctr, if_pos (by decide), State.inDeficit_ctr]
        rfl
  case clear =>
    have hclear : ∀ (y : Session) (u : State), u.pace.windowDone = true →
        okWrite clearLowest y n u = (stOk, { u with pace := { u.pace with lowestMargin := u.pace.margin, lowestRing := u.pace.ring } }) := by
      intro y u hu
      simp [okWrite, clearLowest, hu]
    obtain ⟨t, ht, ha, body, rfl⟩ := write_acts (x := x) (n := n) (c := .clearLowestMargin dt m v) (hc := rfl) (by decide) hr h
      (hclear _ _ (by simpa using hw)) (State.afterTake_self h.1.2.1) (by simp)
    refine ⟨_, ht, ha, ?_⟩
    simp
end Sys2Proof.Machine
end

section
namespace Sys2Proof.Machine
open Sys2Proof

/-! ## The key request port (R30 to R33, R446, R447) -/

/-- The first request of the least requester. -/
def leastRequest (rs : List KeyJob) : Option KeyJob :=
  rs.foldl (fun (b : Option KeyJob) r => match b with
    | some y => if r.req.requester < y.req.requester then some r else b
    | none => some r) none

theorem leastRequest_cons (a : KeyJob) (rs : List KeyJob) :
    leastRequest (a :: rs) = some (rs.foldl (fun b r => if decide (r.req.requester < b.req.requester) then r else b) a) := by
  show rs.foldl _ (some a) = _
  induction rs generalizing a with
  | nil => rfl
  | cons c rs ih =>
    rw [List.foldl_cons, List.foldl_cons, ← ih]
    by_cases h : c.req.requester < a.req.requester <;> simp [h]

theorem leastRequest_eq_none {rs : List KeyJob} : leastRequest rs = none ↔ rs = [] := by
  cases rs with
  | nil => exact ⟨fun _ => rfl, fun _ => rfl⟩
  | cons a rs => simp [leastRequest_cons]

theorem leastRequest_spec {rs : List KeyJob} {y : KeyJob} (h : leastRequest rs = some y) :
    y ∈ rs ∧ ∀ z ∈ rs, y.req.requester ≤ z.req.requester := by
  cases rs with
  | nil => exact nomatch h
  | cons a rs =>
    rw [leastRequest_cons, Option.some.injEq] at h
    rw [← h]
    exact foldl_first (fun r : KeyJob => r.req.requester) (fun r b => decide (r.req.requester < b.req.requester)) a rs fun _ _ _ _ => decide_eq_true_iff

/-- The requests of a lane that wait in a class. -/
def waitingIn (k : KeyU) (asym : Bool) (c : Nat) : List KeyJob := (k.waiting.filter (fun r => r.req.asym = asym)).filter (fun r => r.req.cls = c)

theorem mem_waitingIn {k : KeyU} {asym : Bool} {c : Nat} {y : KeyJob} : y ∈ waitingIn k asym c ↔ y ∈ k.waiting ∧ y.req.asym = asym ∧ y.req.cls = c := by
  simp [waitingIn, and_comm]

theorem reqClass_lt (r : KeyReq) : r.cls < 3 := by
  unfold KeyReq.cls KeyOp.cls
  split <;> decide

/-- The next of a class's requests: behind the requester served last, or the first again (R30). -/
def nextAfter (last : Option Nat) (cs : List KeyJob) : Option KeyJob :=
  match last with
  | some l => (leastRequest (cs.filter (fun r => l < r.req.requester))).orElse (fun _ => leastRequest cs)
  | none => leastRequest cs

theorem nextAfter_some (l : Nat) (cs : List KeyJob) :
    nextAfter (some l) cs = (leastRequest (cs.filter (fun r => l < r.req.requester))).orElse (fun _ => leastRequest cs) := rfl

theorem nextAfter_eq_none {last : Option Nat} {cs : List KeyJob} : nextAfter last cs = none ↔ cs = [] := by
  cases last with
  | none => exact leastRequest_eq_none
  | some l =>
    rw [nextAfter_some]
    cases h : leastRequest (cs.filter (fun r => l < r.req.requester)) with
    | none => exact leastRequest_eq_none
    | some y =>
      have hy := (List.mem_filter.mp (leastRequest_spec h).1).1
      exact ⟨fun e => (nomatch e), fun e => absurd (e ▸ hy) List.not_mem_nil⟩

theorem nextAfter_mem {last : Option Nat} {cs : List KeyJob} {y : KeyJob} (h : nextAfter last cs = some y) : y ∈ cs := by
  cases last with
  | none => exact (leastRequest_spec h).1
  | some l =>
    rw [nextAfter_some] at h
    cases hl : leastRequest (cs.filter (fun r => l < r.req.requester)) with
    | none =>
      rw [hl] at h
      exact (leastRequest_spec h).1
    | some z =>
      rw [hl] at h
      obtain rfl : z = y := Option.some.inj h
      exact (List.mem_filter.mp (leastRequest_spec hl).1).1

/-- Round robin: the one that follows the requester served last, in the circle of requesters. -/
theorem nextAfter_follows {l : Nat} {cs : List KeyJob} {y : KeyJob} (h : nextAfter (some l) cs = some y) {z : KeyJob} (hz : z ∈ cs) :
    if l < y.req.requester then l < z.req.requester → y.req.requester ≤ z.req.requester
    else z.req.requester ≤ l ∧ y.req.requester ≤ z.req.requester := by
  rw [nextAfter_some] at h
  cases hl : leastRequest (cs.filter (fun r => l < r.req.requester)) with
  | none =>
    rw [hl] at h
    have hall : ∀ x ∈ cs, x.req.requester ≤ l := by simpa using leastRequest_eq_none.mp hl
    obtain ⟨hy, hleast⟩ := leastRequest_spec h
    rw [if_neg (Nat.not_lt.mpr (hall y hy))]
    exact ⟨hall z hz, hleast z hz⟩
  | some x =>
    rw [hl] at h
    obtain rfl : x = y := Option.some.inj h
    obtain ⟨hx, hleast⟩ := leastRequest_spec hl
    have hlx : l < x.req.requester := by simpa using (List.mem_filter.mp hx).2
    rw [if_pos hlx]
    exact fun hlz => hleast z (List.mem_filter.mpr ⟨hz, decide_eq_true hlz⟩)

/-- A free lane takes from the highest class in which a request waits for it. -/
theorem nextRequest_class {k : KeyU} {asym : Bool} (h : ∃ y ∈ k.waiting, y.req.asym = asym) :
    ∃ c, waitingIn k asym c ≠ [] ∧ (∀ z ∈ k.waiting, z.req.asym = asym → c ≤ z.req.cls) ∧
      nextRequest k asym = nextAfter (Table.find k.lastReq c) (waitingIn k asym c) := by
  obtain ⟨y, hy, hya⟩ := h
  have hany : ∀ c, (k.waiting.filter (fun r => r.req.asym = asym)).any (fun r => r.req.cls = c) = true ↔ waitingIn k asym c ≠ [] := by
    intro c
    simp [waitingIn, and_comm]
  have hin : ∀ z ∈ k.waiting, z.req.asym = asym → waitingIn k asym z.req.cls ≠ [] := fun z hz hza =>
    List.ne_nil_of_mem (mem_waitingIn.mpr ⟨hz, hza, rfl⟩)
  unfold nextRequest
  extract_lets mine
  cases hf : (List.range 3).find? (fun c => mine.any (fun r => r.req.cls = c)) with
  | none =>
    rw [List.find?_eq_none] at hf
    exact absurd ((hany _).mpr (hin y hy hya)) (hf y.req.cls (List.mem_range.mpr (reqClass_lt y.req)))
  | some c =>
    obtain ⟨hc, -, hmin⟩ := List.find?_range_eq_some.mp hf
    refine ⟨c, (hany c).mp hc, fun z hz hza => ?_, rfl⟩
    by_contra hlt
    have hno := hmin z.req.cls (Nat.lt_of_not_le hlt)
    rw [(hany z.req.cls).mpr (hin z hz hza)] at hno
    exact absurd hno (by decide)

/-- Where nothing waits for the lane it stays free. -/
theorem nextRequest_none {k : KeyU} {asym : Bool} (h : ∀ y ∈ k.waiting, y.req.asym ≠ asym) : nextRequest k asym = none := by
  have hmine : k.waiting.filter (fun r => r.req.asym = asym) = [] := by simpa using h
  unfold nextRequest
  rw [hmine]
  rfl

theorem keyServed_ctr (cls handle usage : Nat) (s : State) :
    (keyServed cls handle usage s).ctr 0xA080 (cls + 1) = min (s.ctr 0xA080 (cls + 1) + 1) ctrMax := by
  have hcount : (count 0xA080 (cls + 1) s).ctr 0xA080 (cls + 1) = min (s.ctr 0xA080 (cls + 1) + 1) ctrMax := (countN_ctr ..).trans (if_pos rfl)
  unfold keyServed
  split
  · exact hcount
  · exact hcount

/-- The key store once a lane's request has its outcome. -/
def State.outcome (s : State) (j : KeyJob) : KeyU :=
  let k := (keyServed j.req.cls j.req.handle j.req.usage s).key
  { k with answer := some (j.req, j.serve.1, j.serve.2), lastReq := Table.put k.lastReq j.req.cls j.req.requester }

/-- Those that wait once one of them is taken. -/
def stillWaiting (k : KeyU) (n : Option KeyJob) : List KeyJob :=
  match n with
  | some x => k.waiting.erase x
  | none => k.waiting

/-- A lane's request ends, and the next one that waits for the lane takes it. -/
theorem laneDone_ends {s : State} {b : Bool} {j : KeyJob} (h : (if b then s.key.asym else s.key.sym) = some j) : laneDone b s =
    { keyServed j.req.cls j.req.handle j.req.usage s with key :=
      if b then { s.outcome j with asym := nextRequest (s.outcome j) b, waiting := stillWaiting (s.outcome j) (nextRequest (s.outcome j) b) }
      else { s.outcome j with sym := nextRequest (s.outcome j) b, waiting := stillWaiting (s.outcome j) (nextRequest (s.outcome j) b) } } := by
  unfold laneDone
  rw [h]
  cases b <;> rfl

/-- A request as the port takes it, with the key it found. -/
def State.jobOf (s : State) (r : KeyReq) : KeyJob := { req := r, mat := (s.kslot r.handle).mat, point := (s.kslot r.handle).point }

/-- The key store once the port has taken a request: on its lane, or behind those that wait (R30). -/
def State.tookRequest (s : State) (r : KeyReq) : KeyU :=
  if r.asym && s.key.asym.isNone then { s.key with answer := none, asym := some (s.jobOf r) }
  else if !r.asym && s.key.sym.isNone then { s.key with answer := none, sym := some (s.jobOf r) }
  else { s.key with answer := none, waiting := s.key.waiting ++ [s.jobOf r] }

theorem keyRequest_fit {s : State} {r : KeyReq} (hb : s.portBusy r.cls = false) (hk : s.keyFit r.handle r.usage (r.op = .gooseGcm) = true) :
    keyRequest r s = { s with key := s.tookRequest r } := by
  unfold keyRequest State.tookRequest
  simp only [hb, hk, Bool.not_true, Bool.false_eq_true, if_false]
  by_cases h1 : (r.asym && s.key.asym.isNone) = true
  · simp only [h1, if_true]
    rfl
  · simp only [h1]
    by_cases h2 : (!r.asym && s.key.sym.isNone) = true
    · simp only [h2, if_true]
      rfl
    · simp only [h2]
      rfl

theorem tookRequest_answer (s : State) (r : KeyReq) : (s.tookRequest r).answer = none := by
  unfold State.tookRequest
  split
  · rfl
  · split <;> rfl

theorem tookRequest_asym {s : State} {r : KeyReq} (h : r.asym = true) (hl : s.key.asym = none) :
    s.tookRequest r = { s.key with answer := none, asym := some (s.jobOf r) } := by
  simp [State.tookRequest, h, hl]

theorem tookRequest_sym {s : State} {r : KeyReq} (h : r.asym = false) (hl : s.key.sym = none) :
    s.tookRequest r = { s.key with answer := none, sym := some (s.jobOf r) } := by
  simp [State.tookRequest, h, hl]

theorem tookRequest_waits {s : State} {r : KeyReq} (h : (if r.asym then s.key.asym else s.key.sym).isSome = true) :
    s.tookRequest r = { s.key with answer := none, waiting := s.key.waiting ++ [s.jobOf r] } := by
  cases ha : r.asym with
  | true =>
    have hs : s.key.asym.isNone = false := by simpa [ha] using h
    simp [State.tookRequest, ha, hs]
  | false =>
    have hs : s.key.sym.isNone = false := by simpa [ha] using h
    simp [State.tookRequest, ha, hs]

/-- What the operations of GOOSE and of a manifest give (R30, R292). -/
theorem serve_hmac {j : KeyJob} (h : j.req.op = .gooseHmac) (hm : j.req.mac = none) : j.serve = (stOk, hmac j.mat.key j.req.data) := by
  simp only [KeyJob.serve, h, hm]

theorem serve_hmac_presented {j : KeyJob} (h : j.req.op = .gooseHmac) (hm : j.req.mac.isSome = true) :
    j.serve = (if j.req.mac = some (hmac j.mat.key j.req.data) then stOk else stRejected, []) := by
  obtain ⟨m, hm⟩ := Option.isSome_iff_exists.mp hm
  simp only [KeyJob.serve, h, hm, Option.some.injEq]
  split <;> rfl

theorem serve_gcm {j : KeyJob} (h : j.req.op = .gooseGcm) (hm : j.req.mac = none) : j.serve = (stOk, gcmTag j.mat.key j.req.iv j.req.data []) := by
  simp only [KeyJob.serve, h, hm]

theorem serve_manifest {j : KeyJob} (h : j.req.op = .manifestVerify) :
    j.serve = (if ecdsaVerify j.point j.req.data (j.req.mac.getD []) then stOk else stRejected, []) := by
  simp only [KeyJob.serve, h]
  split <;> rfl

theorem waitingManifest_none {s : State} (h : s.upd.waiting = none) : waitingManifest s = s := by
  unfold waitingManifest
  rw [h]

/-- The port of an engine that is not fenced is open to class A, and out of reset to the others. -/
theorem port_open {s : State} {c : Nat} (hf : s.fenced 12 0 = false) (hc : c = 0 ∨ Table.getD s.rst.status 0x15 0 = 0) : s.portBusy c = false := by
  rcases hc with h | h <;> simp [State.portBusy, hf, h]

/-- A request that a lane takes waits for that lane; it is of the highest class in which one waits, and the next in its circle (R30). -/
theorem nextRequest_spec {k : KeyU} {asym : Bool} {y : KeyJob} (h : nextRequest k asym = some y) :
    y ∈ k.waiting ∧ y.req.asym = asym ∧ (∀ z ∈ k.waiting, z.req.asym = asym → y.req.cls ≤ z.req.cls) ∧
      ∀ l, Table.find k.lastReq y.req.cls = some l → ∀ z ∈ k.waiting, z.req.asym = asym → z.req.cls = y.req.cls →
        if l < y.req.requester then l < z.req.requester → y.req.requester ≤ z.req.requester
        else z.req.requester ≤ l ∧ y.req.requester ≤ z.req.requester := by
  have hex : ∃ z ∈ k.waiting, z.req.asym = asym := by
    by_contra hno
    push Not at hno
    rw [nextRequest_none hno] at h
    exact nomatch h
  obtain ⟨c, -, hmin, heq⟩ := nextRequest_class hex
  rw [heq] at h
  obtain ⟨hy, hya, rfl⟩ := mem_waitingIn.mp (nextAfter_mem h)
  refine ⟨hy, hya, hmin, fun l hl z hz hza hzc => ?_⟩
  rw [hl] at h
  exact nextAfter_follows h (mem_waitingIn.mpr ⟨hz, hza, hzc⟩)

theorem nextRequest_some {k : KeyU} {asym : Bool} (h : ∃ y ∈ k.waiting, y.req.asym = asym) : nextRequest k asym ≠ none := by
  obtain ⟨c, hne, -, heq⟩ := nextRequest_class h
  rw [heq]
  exact mt nextAfter_eq_none.mp hne

/-- A lane that ends its request, part by part of the key store: its own lane and those that wait by the next that it takes. -/
theorem laneDone_key {s : State} {b : Bool} {j : KeyJob} (h : (if b then s.key.asym else s.key.sym) = some j) :
    (laneDone b s).key.answer = some (j.req, j.serve.1, j.serve.2) ∧
      (laneDone b s).key.uses = (if 16 ≤ j.req.usage then s.key.uses else Table.modify s.key.uses j.req.handle 0 (fun n => satCount n 1)) ∧
      (if b then (laneDone b s).key.asym else (laneDone b s).key.sym) = nextRequest (s.outcome j) b ∧
      (if b then (laneDone b s).key.sym = s.key.sym else (laneDone b s).key.asym = s.key.asym) ∧
      (laneDone b s).key.waiting = stillWaiting (s.outcome j) (nextRequest (s.outcome j) b) := by
  rw [laneDone_ends h]
  cases b <;> simp [State.outcome]

/-- Settles O23, by what the port finds, and by the order of those that wait. -/
theorem keyRequestsAreServed : Obligations.KeyRequestsAreServed := by
  unfold Obligations.KeyRequestsAreServed
  refine ⟨fun dt r s hr hf hc hk => ?taken, fun dt r s hr hf hc hk => ?revoked, fun dt r s hr hf => ?busy, fun dt b r a q s hr hw hl => ?done⟩
  case taken =>
    have hopen : (s.tick dt).portBusy r.cls = false := port_open hf hc
    have hfit : (s.tick dt).keyFit r.handle r.usage (r.op = .gooseGcm) = true := hk
    refine ⟨_, rfl, ?_⟩
    rw [State.act_runs _ _ _ _ hr, keyRequest_fit hopen hfit]
    refine ⟨⟨⟨_, rfl⟩, rfl⟩, tookRequest_answer .., fun ha hl => ?_, fun ha hl => ?_, fun hl => ?_⟩
    · rw [tookRequest_asym (s := s.tick dt) ha hl]
      exact ⟨rfl, rfl, rfl⟩
    · rw [tookRequest_sym (s := s.tick dt) ha hl]
      exact ⟨rfl, rfl, rfl⟩
    · rw [tookRequest_waits (s := s.tick dt) hl]
      exact ⟨rfl, rfl, rfl⟩
  case revoked =>
    have hopen : (s.tick dt).portBusy r.cls = false := port_open hf hc
    have hfit : (s.tick dt).keyFit r.handle r.usage (r.op = .gooseGcm) = false := hk
    have hrun : keyRequest r (s.tick dt) = { count 0xA080 4 (s.tick dt) with key := { (count 0xA080 4 (s.tick dt)).key with answer := some (r, stRevoked, []) } } := by
      unfold keyRequest
      simp only [hopen, hfit]
      rfl
    refine ⟨_, rfl, ?_⟩
    rw [State.act_runs _ _ _ _ hr, hrun]
    refine ⟨by simp, ?_⟩
    rw [within_ctr, if_pos (by decide)]
    exact (countN_ctr 0xA080 4 1 (s.tick dt) 0xA080 4).trans (if_pos rfl)
  case busy =>
    have hrun : keyRequest r (s.tick dt) = { s.tick dt with key := { s.key with answer := some (r, stBusy, []) } } := by
      have hb : (s.tick dt).portBusy r.cls = true := Bool.or_eq_true_iff.mpr (.inl hf)
      unfold keyRequest
      simp only [hb, if_true]
      rfl
    refine ⟨_, rfl, ?_⟩
    rw [State.act_runs _ _ _ _ hr, hrun]
    exact ⟨rfl, ⟨_, rfl⟩, rfl⟩
  case done =>
    have hrun : waitingManifest (laneDone b (s.tick dt)) = laneDone b (s.tick dt) :=
      waitingManifest_none (by rw [laneDone_ends (s := s.tick dt) hl]; simpa using hw)
    have hctr : (laneDone b (s.tick dt)).ctr 0xA080 (r.cls + 1) = min (s.ctr 0xA080 (r.cls + 1) + 1) ctrMax := by
      rw [laneDone_ends (s := s.tick dt) hl]
      exact keyServed_ctr ..
    obtain ⟨hanswer, huses, hlane, hother, hwaiting⟩ := laneDone_key (s := s.tick dt) hl
    have hwait : ((s.tick dt).outcome ⟨r, a, q⟩).waiting = s.key.waiting := by simp [State.outcome]
    have hlast : Table.find ((s.tick dt).outcome ⟨r, a, q⟩).lastReq r.cls = some r.requester := by simp [State.outcome]
    refine ⟨_, rfl, ?_⟩
    rw [State.act_runs _ _ _ _ hr, hrun]
    refine ⟨fun ho hm => ?_, fun ho hm => ?_, fun ho => ?_, fun ho hm => ?_, ?_, fun hu => ?_, fun n hn => ?_, fun n => rfl, hother, fun hnone => ?_,
      fun hsome => ?_, fun y hy => ?_⟩
    · exact hanswer.trans (by rw [serve_hmac ho hm])
    · exact hanswer.trans (by rw [serve_gcm ho hm])
    · exact hanswer.trans (by rw [serve_manifest ho])
    · exact hanswer.trans (by rw [serve_hmac_presented ho hm])
    · rwa [within_ctr, if_pos (by decide)]
    · refine (congrArg (Table.getD · r.handle 0) huses).trans ?_
      simp [Nat.not_le.mpr hu]
    · refine (congrArg (Table.getD · n 0) huses).trans ?_
      split <;> simp [hn]
    · have hno : nextRequest ((s.tick dt).outcome ⟨r, a, q⟩) b = none := nextRequest_none (by rwa [hwait])
      rw [hno] at hlane hwaiting
      exact ⟨hlane, hwaiting.trans hwait⟩
    · have hne := nextRequest_some (asym := b) (hwait ▸ hsome)
      rw [← hlane] at hne
      exact hne
    · have hnext : nextRequest ((s.tick dt).outcome ⟨r, a, q⟩) b = some y := hlane.symm.trans hy
      obtain ⟨hmem, hya, hmin, hround⟩ := nextRequest_spec hnext
      rw [hwait] at hmem hmin hround
      rw [hnext] at hwaiting
      refine ⟨hmem, hya, hwaiting.trans (by simp [stillWaiting, hwait]), hmin, fun hc z hz hza hzc => ?_⟩
      exact hround r.requester (hc ▸ hlast) z hz hza (hzc.trans hc.symm)

end Sys2Proof.Machine
end

section
namespace Sys2Proof.Machine
open Sys2Proof

/-! ## Trigger units (R316 to R324) -/

/-- A fold that collects what its steps give: where each step keeps to `R` and gives what `Q` says, so does the fold. -/
theorem foldl_collects {α β σ : Type} {R : σ → Prop} {Q : β → Prop} {f : α → σ → List β × σ} {l : List α} {acc : List β} {st : σ}
    (hf : ∀ a ∈ l, ∀ st, R st → R (f a st).2 ∧ ∀ b ∈ (f a st).1, Q b) (hacc : ∀ b ∈ acc, Q b) (hst : R st) :
    R (l.foldl (fun r a => (r.1 ++ (f a r.2).1, (f a r.2).2)) (acc, st)).2 ∧
      ∀ b ∈ (l.foldl (fun r a => (r.1 ++ (f a r.2).1, (f a r.2).2)) (acc, st)).1, Q b := by
  induction l generalizing acc st with
  | nil => exact ⟨hst, hacc⟩
  | cons a l ih =>
    obtain ⟨hR, hQ⟩ := hf a List.mem_cons_self st hst
    refine ih (fun x hx => hf x (List.mem_cons_of_mem _ hx)) (fun b hb => ?_) hR
    rcases List.mem_append.mp hb with h | h
    · exact hacc b h
    · exact hQ b h

/-- The units of a source, with their records. -/
theorem mem_unitsAt {s : State} {src num : Nat} {t : Stamp} {x : Nat × UnitCf} (h : x ∈ s.unitsAt src num t) : x.2 = unitCf s.cf x.1 ∧ x.2.src = src := by
  obtain ⟨hmap, hcond⟩ := List.mem_filter.mp (List.mem_filter.mp h).1
  obtain ⟨n, -, rfl⟩ := List.mem_map.mp hmap
  simp only [Bool.and_eq_true, decide_eq_true_eq] at hcond
  exact ⟨rfl, hcond.1.1.2⟩

/-- The firings that the edges of lines bring about, one after another (R359). -/
def lineFirings (edges : List LineEdge) (s : State) : List (Nat × UnitCf × Trig) × State :=
  edges.foldl (fun r e => (r.1 ++ (digitalEdge 5 e.line e.level e.at_ r.2).1, (digitalEdge 5 e.line e.level e.at_ r.2).2)) ([], s)

/-- What a decision of the trigger units can do (R316 to R324): units of `p` step, groups take triggers, lines are driven; the inputs stay, and
every other unit. -/
structure Decides (p : Nat → Prop) (s t : State) : Prop where
  undisturbed : Undisturbed s t
  variant : t.variant = s.variant
  inputs : (t.acq.din, t.acq.edges) = (s.acq.din, s.acq.edges)
  units : ∀ n, ¬ p n → t.unit n = s.unit n

namespace Decides
variable {p : Nat → Prop} {s t u : State}

theorem refl (s : State) : Decides p s s := ⟨.refl s, rfl, rfl, fun _ _ => rfl⟩

theorem cf (h : Decides p s t) : t.cf = s.cf := by simp [State.cf, h.variant, h.undisturbed.cfg]

theorem trans (h : Decides p s t) (k : Decides p t u) : Decides p s u :=
  ⟨h.undisturbed.trans k.undisturbed, k.variant.trans h.variant, k.inputs.trans h.inputs, fun n hn => (k.units n hn).trans (h.units n hn)⟩

/-- Work beside the inputs and the units. -/
theorem of_same (h : Undisturbed s t) (e : (t.variant, t.acq.din, t.acq.edges, t.acq.unit) = (s.variant, s.acq.din, s.acq.edges, s.acq.unit)) : Decides p s t := by
  simp only [Prod.mk.injEq] at e
  obtain ⟨hv, hd, he, hu⟩ := e
  exact ⟨h, hv, by rw [hd, he], fun n _ => by simp only [State.unit, hu]⟩

theorem update (h : Decides p s t) (e : (u.ev, u.aside, u.variant, u.acq.din, u.acq.edges, u.acq.unit) = (t.ev, t.aside, t.variant, t.acq.din, t.acq.edges, t.acq.unit)) :
    Decides p s u := by
  simp only [Prod.mk.injEq] at e
  obtain ⟨hev, ha, hv, hd, he, hu⟩ := e
  exact h.trans (of_same (.of_same (by rw [hev, ha])) (by rw [hv, hd, he, hu]))

theorem ite {b : Prop} [Decidable b] (h : Decides p s t) (k : Decides p s u) : Decides p s (if b then t else u) := by
  split
  · exact h
  · exact k

theorem count {idx sub : Nat} (h : Decides p s t) : Decides p s (count idx sub t) := h.trans (of_same (.count (.refl t)) (by simp))

theorem raise {id inst param : Nat} (h : Decides p s t) : Decides p s (raise id inst param t) := h.trans (of_same (.raise (.refl t)) (by simp))

theorem setUnit {n : Nat} {x : UnitT} (h : Decides p s t) (hn : p n) : Decides p s (t.setUnit n x) := by
  refine h.trans ⟨.of_same rfl, rfl, rfl, fun k hk => ?_⟩
  have hkn : k ≠ n := fun e => hk (e ▸ hn)
  simp [State.unit, State.setUnit, hkn]

theorem joinCapture {g : Nat} {x : Trig} (h : Decides p s t) : Decides p s (joinCapture g x t).2 := by
  unfold Machine.joinCapture
  cases t.capture g with
  | none => exact h.count
  | some r =>
    dsimp only
    cases listTrigger t (t.grp g) r x with
    | none => exact h.count
    | some r' =>
      dsimp only
      cases decide (r'.trigs.length = r.trigs.length) with
      | true => exact .count (h.update rfl)
      | false => exact h.update rfl

theorem groupTrigger {g : Nat} {x : Trig} (h : Decides p s t) : Decides p s (groupTrigger g x t).2 := by
  unfold Machine.groupTrigger
  extract_lets y
  split
  · split
    · exact h.update rfl
    · split
      · exact h.count
      · exact h.update rfl
  · exact h.joinCapture
  · exact h.count

theorem driveLine {l : Nat} {at_ : Tick} (h : Decides p s t) : Decides p s (driveLine l at_ t).2 := by
  unfold Machine.driveLine
  split
  · exact h.update rfl
  · unfold mergeDrive
    extract_lets x
    split
    · exact .count (h.update rfl)
    · exact .ite (h.update rfl) (h.update rfl)

theorem fire {n : Nat} {c : UnitCf} {x : Trig} (h : Decides p s t) (hn : p n) : Decides p s (fire n c x t).2 := by
  unfold Machine.fire
  extract_lets gateOk e8 held _ s1
  have h1 : Decides p s s1 := h.setUnit hn
  have h2 : Decides p s (if bit c.flags 3 then Machine.driveLine c.line x.at_ s1 else (none, s1)).2 := by
    split
    · exact h1.driveLine
    · exact h1
  by_cases hno : (!gateOk || held) = true
  · rw [if_pos hno]
    exact h
  · rw [if_neg hno]
    exact .raise h2.groupTrigger

theorem unitStep {n : Nat} {c : UnitCf} {x : UnitT} {loU hiU loD hiD : Option Tick} {now : Tick} {v : F32} (h : Decides p s t) (hn : p n) :
    Decides p s (unitStep n c x loU hiU loD hiD now v t).2 ∧ ∀ f ∈ (unitStep n c x loU hiU loD hiD now v t).1, p f.1 := by
  refine ⟨h.setUnit hn, fun f hf => ?_⟩
  have hunit : f.1 = n := by
    rcases List.mem_append.mp hf with hf | hf
    · obtain ⟨_, -, rfl⟩ := List.mem_map.mp hf
      rfl
    · obtain ⟨_, -, rfl⟩ := List.mem_map.mp hf
      rfl
  exact hunit ▸ hn

/-- Units of a source step at an edge of it, and only they fire. -/
theorem digitalEdge {src num : Nat} {level : Bool} {at_ : Tick} (h : Decides p s t) (hp : ∀ n, (unitCf s.cf n).src = src → p n) :
    Decides p s (digitalEdge src num level at_ t).2 ∧ ∀ f ∈ (digitalEdge src num level at_ t).1, p f.1 := by
  have hsrc : ∀ x ∈ t.unitsAt src num ⟨at_.gen, at_.t8 / 8⟩, p x.1 := by
    intro x hx
    obtain ⟨hc, hs⟩ := mem_unitsAt hx
    exact hp x.1 (by rw [← h.cf, ← hc, hs])
  unfold Machine.digitalEdge
  exact foldl_collects (R := Decides p s) (Q := fun f => p f.1)
    (f := fun x st => Machine.unitStep x.1 x.2 (st.unit x.1) none (if level then some at_ else none) none (if level then none else some at_) at_ nan32 st)
    (fun x hx st hst => hst.unitStep (hsrc x hx)) (fun _ hb => absurd hb List.not_mem_nil) h

theorem lineFirings {edges : List LineEdge} (h : Decides p s t) (hp : ∀ n, (unitCf s.cf n).src = 5 → p n) :
    Decides p s (Machine.lineFirings edges t).2 ∧ ∀ f ∈ (Machine.lineFirings edges t).1, p f.1 := by
  have hedges := foldl_collects (R := Decides p s) (Q := fun f => p f.1) (f := fun e st => Machine.digitalEdge 5 e.line e.level e.at_ st)
    (l := edges) (acc := []) (st := t) (fun x _ st hst => hst.digitalEdge hp) (fun _ hb => absurd hb List.not_mem_nil) h
  exact hedges

/-- What firings bring about, line by line that rises. -/
theorem decideAll {k : Nat} {fs : List (Nat × UnitCf × Trig)} (h : Decides p s t) (hfs : ∀ f ∈ fs, p f.1) (hp : ∀ n, (unitCf s.cf n).src = 5 → p n) :
    Decides p s (decideAll k fs t) := by
  induction k generalizing fs t with
  | zero => exact h
  | succ k ih =>
    have hby : ∀ f ∈ byGroup fs, p f.1 := by
      intro f hf
      obtain ⟨l, hl, hfl⟩ := List.mem_flatten.mp hf
      obtain ⟨g, -, rfl⟩ := List.mem_map.mp hl
      exact hfs f (List.mem_filter.mp hfl).1
    have hfire := foldl_collects (R := Decides p s) (Q := fun _ : LineEdge => True)
      (f := fun x st => ((Machine.fire x.1 x.2.1 x.2.2 st).1.toList, (Machine.fire x.1 x.2.1 x.2.2 st).2))
      (l := byGroup fs) (acc := []) (st := t) (fun x hx st hst => ⟨hst.fire (hby x hx), fun _ _ => trivial⟩) (fun _ _ => trivial) h
    unfold Machine.decideAll
    generalize hr : (byGroup fs).foldl _ (([], t) : List LineEdge × State) = r
    have hfired : Decides p s r.2 := hr ▸ hfire.1
    obtain ⟨edges, s1⟩ := r
    cases edges with
    | nil => exact hfired
    | cons e es =>
      have hedges := hfired.lineFirings (edges := e :: es) hp
      exact ih hedges.1 hedges.2

theorem edgeToUnits {src num : Nat} {level : Bool} {at_ : Tick} (s : State) : (edgeToUnits src num level at_ s).acq.din = s.acq.din ∧
    (edgeToUnits src num level at_ s).acq.edges = s.acq.edges := by
  unfold Machine.edgeToUnits
  split
  · have hd := (refl (p := fun _ => True) s).digitalEdge (src := src) (num := num) (level := level) (at_ := at_) fun _ _ => trivial
    generalize Machine.digitalEdge src num level at_ s = r at hd ⊢
    obtain ⟨f, s1⟩ := r
    obtain ⟨hdin, hedges⟩ := Prod.mk.inj (hd.1.decideAll (k := 17) hd.2 fun _ _ => trivial).inputs
    constructor
    · simpa using hdin
    · simpa using hedges
  · exact ⟨rfl, rfl⟩

end Decides

/-- The events of the acquisition engine are there where it is (R6, R7). -/
theorem acqEvent_there {v id inst : Nat} (hv : v ≤ 1) (h1 : 0x90 ≤ id) (h2 : id ≤ 0x96) : eventAbsent v id inst = false := by
  have a : ¬ 2 ≤ v := by omega
  have b : ¬ id ≤ 0x67 := by omega
  have c : ¬ id ≤ 0x24 := by omega
  simp [eventAbsent, a, b, c]

/-- A free unit without a gate fires (R320, R321): it notes when, and tells it. -/
theorem fire_free {n : Nat} {c : UnitCf} {x : Trig} {s : State} (hgate : bit c.flags 2 = false) (hfree : (s.unit n).fired = none) (hv : s.hasAcq = true) :
    (fire n c x s).2.unit n = { s.unit n with fired := some (s.elapsed8 x.at_) } ∧ Latched (fire n c x s).2 0x90 n := by
  unfold fire
  extract_lets gateOk e8 held _ s1
  have hno : ¬ (!gateOk || held) = true := by
    have h1 : gateOk = true := by simp [gateOk, hgate]
    have h2 : held = false := by simp [held, hfree]
    simp [h1, h2]
  have hdrive : Decides (fun _ => False) s1 (if bit c.flags 3 then driveLine c.line x.at_ s1 else (none, s1)).2 := by
    split
    · exact .driveLine (.refl s1)
    · exact .refl s1
  have hgroup := hdrive.groupTrigger (g := c.group) (x := x)
  rw [if_neg hno]
  constructor
  · refine ((Decides.refl (p := fun _ => False) _).raise.units n id).trans ((hgroup.units n id).trans ?_)
    simp [s1, State.unit, State.setUnit, e8]
  · have hvar : (groupTrigger c.group x (if bit c.flags 3 then driveLine c.line x.at_ s1 else (none, s1)).2).2.variant ≤ 1 := by
      rw [hgroup.variant]
      exact of_decide_eq_true hv
    exact raise_latched _ _ _ _ (acqEvent_there hvar (by decide) (by decide)) rfl

/-- One firing is the whole order of its decision. -/
theorem byGroup_single {n : Nat} {c : UnitCf} {x : Trig} (h : c.group < 256) : byGroup [(n, c, x)] = [(n, c, x)] := by
  have hflat : ∀ m, ((List.range m).map (fun g => [(n, c, x)].filter (fun f => f.2.1.group = g))).flatten = if c.group < m then [(n, c, x)] else [] := by
    intro m
    induction m with
    | zero => rfl
    | succ m ih =>
      rw [List.range_succ, List.map_append, List.flatten_append, ih]
      rcases Nat.lt_trichotomy c.group m with hm | hm | hm
      · simp [hm, Nat.ne_of_lt hm, Nat.lt_succ_of_lt hm]
      · simp [hm]
      · simp [Nat.not_lt.mpr hm.le, Nat.ne_of_gt hm, Nat.not_lt.mpr hm]
  exact (hflat 256).trans (if_pos h)

/-- One firing, then what the line that it may drive brings about: to units of lines only (R359). -/
theorem decideAll_single {k n : Nat} {c : UnitCf} {x : Trig} {s : State} (h : c.group < 256) :
    Decides (fun m => (unitCf (fire n c x s).2.cf m).src = 5) (fire n c x s).2 (decideAll (k + 1) [(n, c, x)] s) := by
  unfold decideAll
  rw [byGroup_single h]
  generalize hr : [(n, c, x)].foldl _ (([], s) : List LineEdge × State) = r
  have hfired : r.2 = (fire n c x s).2 := hr ▸ rfl
  obtain ⟨edges, s1⟩ := r
  rw [← hfired]
  cases edges with
  | nil => exact .refl _
  | cons e es =>
    have hedges := (Decides.refl (p := fun m => (unitCf s1.cf m).src = 5) s1).lineFirings (edges := e :: es) fun _ hm => hm
    exact hedges.1.decideAll hedges.2 fun _ hm => hm

/-- The firing of a digital timeout (R319). -/
def State.timeoutTrig (s : State) (n : Nat) (at_ : Tick) : Trig :=
  { unit := n, kind := 3, src := 3, gate := bit (unitCf s.cf n).flags 2, at_ := at_, w8 := 0, val := nan32 }

/-- A digital timeout that is due is the one firing of its decision (R319). -/
theorem triggerTimeout_due {n : Nat} {at_ : Tick} {s : State} (hacq : s.acqRuns = true) (hn : n < 64) (hvalid : bit (unitCf s.cf n).flags 0 = true)
    (hkind : (unitCf s.cf n).kind = 3) (hsrc : (unitCf s.cf n).src = 3) (hpos : (s.unit n).pos = [at_]) (hdue : (s.unit n).posDue ≤ s.elapsed)
    (hneg : (s.unit n).neg = []) :
    triggerTimeout n s = decideAll 17 [(n, unitCf s.cf n, s.timeoutTrig n at_)] (s.setUnit n { s.unit n with pos := [] }) := by
  unfold triggerTimeout
  extract_lets u x mk a b
  rw [if_pos (by simp [hacq, hn, hvalid, hkind, hsrc, u])]
  have ha : a = [(n, u, s.timeoutTrig n at_)] := by
    simp [a, mk, x, hpos, hdue, u, hsrc, State.timeoutTrig]
  have hb : b = [] := by simp [b, mk, x, hneg]
  rw [ha, hb]
  rfl

/-- The engine is there where it runs. -/
theorem hasAcq_of_runs {s : State} (h : s.acqRuns = true) : s.hasAcq = true := by
  simp only [State.acqRuns, Bool.and_eq_true] at h
  exact h.1.1

/-- It fires its unit, and no later firing of the decision touches that: those are of units of lines. -/
theorem decideAll_fires {n : Nat} {x : Trig} {s : State} (hacq : s.hasAcq = true) (hgate : bit (unitCf s.cf n).flags 2 = false)
    (hsrc : (unitCf s.cf n).src = 3) (hgroup : (unitCf s.cf n).group < 256) (hfree : (s.unit n).fired = none) :
    (decideAll 17 [(n, unitCf s.cf n, x)] s).unit n = { s.unit n with fired := some (s.elapsed8 x.at_) } ∧
      Latched (decideAll 17 [(n, unitCf s.cf n, x)] s) 0x90 n := by
  have hdec := decideAll_single (k := 16) (n := n) (x := x) (s := s) hgroup
  have hcf : (fire n (unitCf s.cf n) x s).2.cf = s.cf := (Decides.fire (p := fun _ => True) (.refl s) trivial).cf
  have hother : ¬ (unitCf (fire n (unitCf s.cf n) x s).2.cf n).src = 5 := by
    rw [hcf, hsrc]
    decide
  obtain ⟨hunit, hlatched⟩ := fire_free (x := x) hgate hfree hacq
  exact ⟨(hdec.units n hother).trans hunit, hdec.undisturbed.latched _ _ hlatched⟩

/-! ## Records (R322 to R330) -/

/-- What each step of a fold keeps, the fold keeps. -/
theorem each_preserves {σ α : Type} {P : σ → Prop} {f : α → σ → σ} (hf : ∀ a s, P s → P (f a s)) {xs : List α} {s : σ} (h : P s) : P (each xs f s) := by
  unfold each
  induction xs generalizing s with
  | nil => exact h
  | cons a r ih => exact ih (hf a s h)

/-- A group's record in the making: it is stored, it is the only one of the group in capture, and of opened records there are `n`. -/
structure Capturing (g : Nat) (q : Seq) (row : Row) (y : GroupA) (n : Nat) (s : State) : Prop where
  stored : ∃ r ∈ s.acq.recs, r.seq = q ∧ r.group = g ∧ r.trow = row
  only : ∀ r ∈ s.acq.recs, r.group = g → r.captured = false → r.seq = q ∧ r.trow = row
  group : s.grp g = y
  opened : s.ctr 0x8080 1 = n

/-- A trigger that is listed in a record leaves its sequence, group and trigger row. -/
theorem listTrigger_same {s : State} {x : GroupA} {r r' : Rec} {t : Trig} (h : listTrigger s x r t = some r') :
    r'.seq = r.seq ∧ r'.group = r.group ∧ r'.trow = r.trow := by
  unfold listTrigger at h
  extract_lets newest within onRow cause at h
  split at h
  · exact nomatch h
  · split at h
    · obtain rfl := Option.some.inj h
      exact ⟨rfl, rfl, rfl⟩
    · obtain rfl := Option.some.inj h
      exact ⟨rfl, rfl, rfl⟩

theorem capture_mem {s : State} {g : Nat} {r : Rec} (h : s.capture g = some r) : r ∈ s.acq.recs ∧ r.group = g ∧ r.captured = false := by
  have hc := List.find?_some h
  simp only [Bool.and_eq_true, decide_eq_true_eq, Bool.not_eq_true'] at hc
  exact ⟨List.mem_of_find?_eq_some h, hc.1, hc.2⟩

namespace Capturing
variable {g n : Nat} {q : Seq} {row : Row} {y : GroupA} {s : State}

/-- The record is written anew. -/
theorem setRec {r : Rec} (h : Capturing g q row y n s) (hq : r.seq = q) (hg : r.group = g) (hrow : r.trow = row) : Capturing g q row y n (setRec r s) := by
  refine ⟨?_, fun x hx hxg hxc => ?_, h.group, h.opened⟩
  · obtain ⟨z, hz, hzq, hzg, hzrow⟩ := h.stored
    refine ⟨r, List.mem_map.mpr ⟨z, hz, ?_⟩, hq, hg, hrow⟩
    simp [hzq, hzg, hq, hg]
  · obtain ⟨z, hz, rfl⟩ := List.mem_map.mp hx
    by_cases hzr : (z.seq = r.seq && z.group = r.group) = true
    · rw [if_pos hzr]
      exact ⟨hq, hrow⟩
    · rw [if_neg hzr] at hxg hxc ⊢
      exact h.only z hz hxg hxc

theorem count {idx sub : Nat} (h : Capturing g q row y n s) (hk : 0x8080 * 256 + 1 ≠ idx * 256 + sub) : Capturing g q row y n (count idx sub s) := by
  refine ⟨by simpa using h.stored, by simpa using h.only, by simpa [State.grp] using h.group, ?_⟩
  exact (countN_ctr ..).trans ((if_neg hk).trans h.opened)

theorem joinCapture {u : Trig} (h : Capturing g q row y n s) : Capturing g q row y n (joinCapture g u s).2 := by
  unfold Machine.joinCapture
  cases hc : s.capture g with
  | none => exact h.count (by decide)
  | some r =>
    dsimp only
    cases hl : listTrigger s (s.grp g) r u with
    | none => exact h.count (by decide)
    | some r' =>
      obtain ⟨hr, hrg, hrc⟩ := capture_mem hc
      obtain ⟨hrq, hrow⟩ := h.only r hr hrg hrc
      obtain ⟨hq', hg', hrow'⟩ := listTrigger_same hl
      have hset := h.setRec (hq'.trans hrq) (hg'.trans hrg) (hrow'.trans hrow)
      dsimp only
      cases decide (r'.trigs.length = r.trigs.length) with
      | true => exact hset.count (by decide)
      | false => exact hset

/-- The record with its last row: the group's own state moves on (R322). -/
theorem captureEnd (h : Capturing g q row y n s) : ∃ st off last, Capturing g q row { y with state := st, off := off, lastRow := last } n (captureEnd g s) := by
  unfold Machine.captureEnd
  cases hc : s.capture g with
  | none => exact ⟨_, _, _, h⟩
  | some r =>
    obtain ⟨hr, hrg, hrc⟩ := capture_mem hc
    obtain ⟨hrq, hrow⟩ := h.only r hr hrg hrc
    have hgrp : ∀ st off last, Capturing g q row { y with state := st, off := off, lastRow := last } n
        (s.setGrp g { s.grp g with state := st, off := off, lastRow := last }) := fun st off last =>
      ⟨h.stored, h.only, by rw [h.group]; simp, h.opened⟩
    exact ⟨_, _, _, (hgrp _ _ _).setRec hrq hrg hrow⟩

end Capturing

/-- What readers are told of lost records leaves the records and the counts (R332, R333). -/
theorem loseRecords_beside (lost : List Seq) (s : State) : (loseRecords lost s).acq.recs = s.acq.recs ∧ (loseRecords lost s).stats = s.stats := by
  refine each_preserves (P := fun t : State => t.acq.recs = s.acq.recs ∧ t.stats = s.stats) (fun r t ht => ?_) ⟨rfl, rfl⟩
  have hsat : ∀ (old n key ev inst param : Nat) (u : State), (satEvent old n key ev inst param u).acq = u.acq ∧
      (satEvent old n key ev inst param u).stats = u.stats := by
    intro old n key ev inst param u
    unfold satEvent
    split <;> simp
  extract_lets x mine had st1 y
  have h1 : st1.acq.recs = s.acq.recs ∧ st1.stats = s.stats := by
    unfold st1
    split
    · split <;> simpa [hsat, State.setRdr] using ht
    · exact ht
  split
  · simpa [State.setRdr] using h1
  · exact h1

/-- A place for a record takes closed ones only (R330). -/
theorem placeRecord_beside (size : Nat) (s : State) : (∀ r ∈ (placeRecord size s).2.2.acq.recs, r ∈ s.acq.recs) ∧
    (placeRecord size s).2.2.ctr 0x8080 1 = s.ctr 0x8080 1 := by
  unfold placeRecord
  refine ⟨fun r hr => ?_, (countN_ctr ..).trans (if_neg (by decide))⟩
  simp only [countN_same] at hr
  exact (List.mem_filter.mp hr).1

/-- A record that opens (R322, R324): stored under the sequence kept for it, it takes the triggers that waited; the group is in capture unless
the record's last row is there already. -/
theorem openRecord_opens {g : Nat} {w : Trig} {ws : List Trig} {q : Seq} {row : Row} {s : State} (hacq : s.acqRuns = true) (hst : (s.grp g).state = 1)
    (hp : (s.grp g).pend = w :: ws) (hq : (s.grp g).seq = some q) (hrow : (s.grp g).rowFor w.at_ = some row) (hcap : s.capture g = none) :
    (∃ r ∈ (openRecord g s).acq.recs, r.seq = q ∧ r.group = g ∧ r.trow = row) ∧ ((openRecord g s).grp g).pend = [] ∧ ((openRecord g s).grp g).seq = none ∧
      (openRecord g s).ctr 0x8080 1 = min (s.ctr 0x8080 1 + 1) ctrMax ∧
      ((∀ r ∈ (s.grp g).ring, r.no + 1 < row.no + groupPost s.cf g) → ((openRecord g s).grp g).state = 2) := by
  unfold openRecord
  extract_lets x c npost size
  have hxp : x.pend = w :: ws := hp
  have hxq : x.seq = some q := hq
  have hxr : x.rowFor w.at_ = some row := hrow
  have hxs : x.state = 1 := hst
  rw [hxp, hxq]
  dsimp -zeta only
  rw [hxr]
  dsimp -zeta only
  rw [if_pos (by simp [hxs, hacq])]
  extract_lets want start1 oldest start short rows r s2 s3 s4
  obtain ⟨hrecs, hctr⟩ := placeRecord_beside size s
  obtain ⟨hlr, hls⟩ := loseRecords_beside (placeRecord size s).2.1 (storeRecord r (placeRecord size s).2.2)
  have hmem : ∀ z ∈ s3.acq.recs, z = r ∨ z ∈ s.acq.recs := by
    intro z hz
    have hz' : z ∈ (storeRecord r (placeRecord size s).2.2).acq.recs := by
      rw [← hlr]
      simpa [s3, State.setGrp] using hz
    simp only [storeRecord, List.mem_append, List.mem_filter, List.mem_singleton] at hz'
    rcases hz' with (hz' | hz') | hz'
    · exact .inr (hrecs z hz'.1)
    · exact .inl hz'
    · exact .inr (hrecs z hz'.1)
  have h3 : Capturing g q row { x with state := 2, pend := [], seq := none } (min (s.ctr 0x8080 1 + 1) ctrMax) s3 := by
    refine ⟨⟨r, ?_, rfl, rfl, rfl⟩, fun z hz hzg hzc => ?_, ?_, ?_⟩
    · have hr : r ∈ (storeRecord r (placeRecord size s).2.2).acq.recs := by simp [storeRecord]
      rw [← hlr] at hr
      simpa [s3, State.setGrp] using hr
    · rcases hmem z hz with rfl | hzs
      · exact ⟨rfl, rfl⟩
      · exact absurd (by simp [hzg, hzc]) (List.find?_eq_none.mp hcap z hzs)
    · simp [s3, State.grp, State.setGrp]
    · have hs2 : s2.ctr 0x8080 1 = s.ctr 0x8080 1 := (congrArg (Table.getD · _ 0) hls).trans hctr
      exact (countN_ctr ..).trans ((if_pos rfl).trans (congrArg (fun n => min (n + 1) ctrMax) hs2))
  have h4 : Capturing g q row { x with state := 2, pend := [], seq := none } (min (s.ctr 0x8080 1 + 1) ctrMax) s4 :=
    each_preserves (fun u st hst => hst.joinCapture) h3
  by_cases hlast : rows.any (fun r => r.no + 1 = row.no + npost) = true
  · obtain ⟨st, off, last, h5⟩ := h4.captureEnd
    rw [hlast]
    refine ⟨h5.stored, congrArg GroupA.pend h5.group, congrArg GroupA.seq h5.group, h5.opened, fun hring => ?_⟩
    obtain ⟨z, hz, hzno⟩ := List.any_eq_true.mp hlast
    have hzring := (List.mem_filter.mp (List.mem_reverse.mp hz)).1
    exact absurd (of_decide_eq_true hzno) (Nat.ne_of_lt (hring z hzring))
  · rw [Bool.not_eq_true] at hlast
    rw [hlast]
    exact ⟨h4.stored, congrArg GroupA.pend h4.group, congrArg GroupA.seq h4.group, h4.opened, fun _ => congrArg GroupA.state h4.group⟩

/-- A record that closes (R329): it is marked, it becomes the newest where no later one is closed, and EV_ACQ_CLOSED tells it. -/
theorem closeRecord_closes {r : Rec} {s : State} (hacq : s.hasAcq = true) (hr : r ∈ s.acq.recs)
    (hnew : ∀ x ∈ s.acq.recs, x.closed = true → seqLater x.seq r.seq = false) :
    (closeRecord r s).acq.newest = r.seq ∧ (∃ y ∈ (closeRecord r s).acq.recs, y.seq = r.seq ∧ y.group = r.group ∧ y.closed = true ∧ y.rows = r.rows) ∧
      (closeRecord r s).ctr 0x8080 2 = min (s.ctr 0x8080 2 + 1) ctrMax ∧ Latched (closeRecord r s) 0x91 r.group := by
  have hno : s.acq.recs.any (fun x => x.closed && seqLater x.seq r.seq) = false := by
    rw [List.any_eq_false]
    intro x hx hc
    simp only [Bool.and_eq_true] at hc
    rw [hnew x hx hc.1] at hc
    exact absurd hc.2 (by decide)
  have hv : s.variant ≤ 1 := of_decide_eq_true hacq
  unfold closeRecord
  extract_lets edges table y s1 closes newest
  have hnewest : newest = r.seq := by simp [newest, hno]
  refine ⟨by simpa using hnewest, ?_, ?_, raise_latched _ _ _ _ (acqEvent_there (by simpa [s1, setRec] using hv) (by decide) (by decide)) rfl⟩
  · refine ⟨y, ?_, rfl, rfl, rfl, rfl⟩
    simp only [raise_same, count_same]
    exact List.mem_map.mpr ⟨r, hr, if_pos (by simp [y])⟩
  · have hraise : ∀ u : State, (raise 0x91 r.group r.seq.toNat u).ctr 0x8080 2 = u.ctr 0x8080 2 := fun u => by simp [State.ctr]
    exact (hraise _).trans ((countN_ctr ..).trans (if_pos rfl))

/-! ## Inputs (R36, R310 to R312) -/

theorem within_din {s t : State} {ps : List Part} (h : .acq ∈ ps) (d : Nat) : (s.within ps t).din d = t.din d := by simp [State.din, h]
theorem within_unit {s t : State} {ps : List Part} (h : .acq ∈ ps) (n : Nat) : (s.within ps t).unit n = t.unit n := by simp [State.unit, h]
theorem within_grp {s t : State} {ps : List Part} (h : .acq ∈ ps) (g : Nat) : (s.within ps t).grp g = t.grp g := by simp [State.grp, h]

theorem setDin_self (s : State) (d : Nat) (x : Din) : (s.setDin d x).din d = x := by simp

/-- An edge of an input, with the input's compensation (R36, R312). -/
def State.edgeTick (s : State) (d frac : Nat) : Tick := ⟨s.time.gen, (8 * (s.time.tai : Int) + (frac % 8 : Nat) - 8 * s.cf.i 0x8300 1 (8 * d + 4) 4).toNat⟩

/-- With none before it an edge waits. -/
theorem dinEdge_first {d frac : Nat} {level : Bool} {s : State} (hacq : s.acqRuns = true) (hen : dinEnabled s.cf d = true) (hp : (s.din d).pend = []) :
    dinEdge d level frac s = s.setDin d { s.din d with pend := [(level != dinInvert s.cf d, s.edgeTick d frac, 8 * s.elapsed + frac % 8)] } := by
  unfold dinEdge
  extract_lets x t lv e8
  have hlast : x.pend.getLast? = none := by simp [x, hp]
  rw [if_pos (by simp [hacq, hen]), hlast]
  rfl

/-- Two edges less than 5 ns apart discard each other (R312). -/
theorem dinEdge_discards {d frac e8 : Nat} {l level : Bool} {p : Tick} {s : State} (hacq : s.acqRuns = true) (hen : dinEnabled s.cf d = true)
    (hp : (s.din d).pend = [(l, p, e8)]) (hsep : 8 * s.elapsed + frac % 8 < e8 + 40) :
    ∃ (b : Bool) (param : Nat), dinEdge d level frac s = when b (raise 0x94 d param)
      (countN 0x8080 7 2 (s.setDin d { s.din d with pend := [], lastDiscard := some s.elapsed })) := by
  unfold dinEdge
  rw [if_pos (by simp [hacq, hen])]
  simp only [hp, List.getLast?_singleton, List.dropLast_singleton]
  have hnear : 8 * s.elapsed + frac % 8 - e8 < 40 := by omega
  rw [if_pos (by simp [hnear])]
  exact ⟨_, _, rfl⟩

/-- An edge that has survived sets the level (R312). -/
theorem dinEdgeAccept_sets {d e8 : Nat} {lv : Bool} {at_ : Tick} {rest : List (Bool × Tick × Nat)} {s : State} (hacq : s.acqRuns = true)
    (hp : (s.din d).pend = (lv, at_, e8) :: rest) (hdue : e8 + dinFilter8 s.cf d ≤ 8 * s.elapsed) :
    (dinEdgeAccept d s).din d = { s.din d with level := lv, pend := rest } ∧ (dinEdgeAccept d s).acq.edges = ⟨d, lv, at_⟩ :: s.acq.edges := by
  unfold dinEdgeAccept
  extract_lets x
  have hx : x.pend = (lv, at_, e8) :: rest := hp
  rw [hx]
  dsimp -zeta only
  rw [if_pos (by simp [hacq, hdue])]
  extract_lets s1
  have hin := Decides.edgeToUnits (src := 3) (num := d) (level := lv) (at_ := at_) { s1 with acq := { s1.acq with edges := ⟨d, lv, at_⟩ :: s1.acq.edges } }
  exact ⟨(congrArg (fun n : Table Din => Table.getD n d {}) hin.1).trans (setDin_self s d { x with level := lv, pend := rest }), hin.2⟩

/-- Settles O41, command by command. -/
theorem acquisitionActs : Obligations.AcquisitionActs := by
  unfold Obligations.AcquisitionActs
  refine ⟨fun dt d frac level s hr hacq hen hp => ?edge, fun dt d frac e8 l level p s hr hacq hen hp hsep => ?glitch,
    fun dt d e8 lv at_ rest s hr hacq hp hdue => ?level, fun dt n at_ s hr hacq hn hvalid hgate hkind hsrc hgroup hpos hdue hneg hfree => ?timeout,
    fun dt g w ws q row s hr hacq hst hp hq hrow hcap => ?opened, fun dt g r s hr hacq hfind hnew => ?closed⟩
  case edge =>
    refine ⟨_, rfl, ?_⟩
    rw [State.act_runs _ _ _ _ hr, dinEdge_first (s := s.tick dt) hacq hen hp]
    rw [within_din (by decide), setDin_self]
    exact ⟨rfl, rfl, ⟨_, rfl⟩, rfl⟩
  case glitch =>
    obtain ⟨b, param, hdis⟩ := dinEdge_discards (s := s.tick dt) hacq hen hp hsep
    refine ⟨_, rfl, ?_⟩
    rw [State.act_runs _ _ _ _ hr, hdis]
    have hdin : ∀ u : State, (when b (raise 0x94 d param) u).din d = u.din d := by
      intro u
      cases b <;> simp [when, State.din]
    have hctr : ∀ u : State, (when b (raise 0x94 d param) u).ctr 0x8080 7 = u.ctr 0x8080 7 := by
      intro u
      cases b <;> simp [when, State.ctr]
    rw [within_din (by decide), within_ctr, if_pos (by decide), hdin, hctr, countN_ctr, if_pos rfl]
    have hset : ∀ u : State, (countN 0x8080 7 2 u).din d = u.din d := fun u => by simp [State.din]
    rw [hset, setDin_self]
    exact ⟨rfl, rfl, rfl⟩
  case level =>
    obtain ⟨hd, he⟩ := dinEdgeAccept_sets (s := s.tick dt) hacq hp hdue
    refine ⟨_, rfl, ?_⟩
    rw [State.act_runs _ _ _ _ hr]
    exact ⟨congrArg Din.level hd, congrArg Din.pend hd, he⟩
  case timeout =>
    obtain ⟨hunit, hlatched⟩ := decideAll_fires (n := n) (x := (s.tick dt).timeoutTrig n at_) (s := (s.tick dt).setUnit n { s.unit n with pos := [] })
      (hasAcq_of_runs hacq) hgate hsrc hgroup (by simpa using hfree)
    refine ⟨_, rfl, ?_⟩
    rw [State.act_runs _ _ _ _ hr, triggerTimeout_due (s := s.tick dt) hacq hn hvalid hkind hsrc hpos hdue hneg, within_unit (by decide)]
    refine ⟨(congrArg UnitT.pos hunit).trans (by simp), congrArg UnitT.fired hunit, within_latched (by decide) hlatched⟩
  case opened =>
    obtain ⟨hstored, hpend, hseq, hctr, hstate⟩ := openRecord_opens (s := s.tick dt) hacq hst hp hq hrow hcap
    refine ⟨_, rfl, ?_⟩
    rw [State.act_runs _ _ _ _ hr, within_grp (by decide), within_ctr, if_pos (by decide)]
    exact ⟨hstored, hpend, hseq, hctr, hstate⟩
  case closed =>
    have hfound := List.find?_some hfind
    simp only [Bool.and_eq_true, decide_eq_true_eq] at hfound
    have hg : r.group = g := hfound.1.1
    have hclose : recordClose g (s.tick dt) = closeRecord r (s.tick dt) := by
      have hf : (s.tick dt).acq.recs.find? (fun r => r.group = g && r.captured && !r.closed) = some r := hfind
      unfold recordClose
      rw [hf]
    obtain ⟨hnewest, hstored, hctr, hlatched⟩ := closeRecord_closes (s := s.tick dt) (r := r) hacq (List.mem_of_find?_eq_some hfind) hnew
    refine ⟨_, rfl, ?_⟩
    rw [State.act_runs _ _ _ _ hr, hclose, within_ctr, if_pos (by decide)]
    rw [hg] at hstored hlatched
    exact ⟨hnewest, hstored, hctr, within_latched (by decide) hlatched⟩
end Sys2Proof.Machine
end

section
namespace Sys2Proof.Machine
open Sys2Proof

/-! ## Errors of the store (R377, R378) -/

theorem errChannel_lt (e : StoreErr) : errChannel e < 4 := (Config.channelOrder (Fin.ofNat 4 (e.offset / 64))).isLt

/-- The event of a saturated count is all there is to it. -/
theorem satEvent_beside (old n key ev inst param : Nat) (s : State) : (satEvent old n key ev inst param s).store = s.store ∧
    (satEvent old n key ev inst param s).stats = s.stats := by
  unfold satEvent
  split <;> simp

theorem when_raise_store (b : Bool) (id inst param : Nat) (s : State) : (when b (raise id inst param) s).store = s.store := by cases b <;> simp [when]

/-- Corrected errors are counted in one record, and change nothing else of the store. -/
theorem addCe_store (k n : Nat) (s : State) : ∃ fl, (addCe k n s).store =
    { s.store with errs := Table.set s.store.errs k { s.errRec k with ce := min ((s.errRec k).ce + n) ctrMax, flags := fl } {} } := by
  unfold addCe
  extract_lets e above _ s1
  refine ⟨e.flags + b2n above, ?_⟩
  rw [when_raise_store]

theorem addUe_store (k n : Nat) (s : State) : ∃ fl, (addUe k n s).store =
    { s.store with errs := Table.set s.store.errs k { s.errRec k with ue := min ((s.errRec k).ue + n) ctrMax, flags := fl } {} } := by
  unfold addUe
  extract_lets e above _ s1
  refine ⟨e.flags + 2 * b2n above, ?_⟩
  rw [when_raise_store]

theorem addCe_errRec (k n j : Nat) (s : State) :
    ((addCe k n s).errRec j).ce = (if j = k then min ((s.errRec k).ce + n) ctrMax else (s.errRec j).ce) := by
  obtain ⟨fl, h⟩ := addCe_store k n s
  unfold State.errRec at *
  rw [h, Table.getD_set]
  split <;> rfl

theorem addUe_errRec (k n j : Nat) (s : State) :
    ((addUe k n s).errRec j).ue = (if j = k then min ((s.errRec k).ue + n) ctrMax else (s.errRec j).ue) := by
  obtain ⟨fl, h⟩ := addUe_store k n s
  unfold State.errRec at *
  rw [h, Table.getD_set]
  split <;> rfl

theorem errRec_of_errs {s t : State} (h : t.store.errs = s.store.errs) (k : Nat) : t.errRec k = s.errRec k := by unfold State.errRec; rw [h]

/-- A corrected word changes of the store the error records and what the pass has counted. -/
theorem storeCe_store (e : StoreErr) (s : State) : ∃ ce told, (storeCe e s).store =
    { s.store with errs := (addCe (4 + e.region) 1 (addCe (errChannel e) 1 s)).store.errs, passCe := ce, passTold := told } := by
  obtain ⟨_, h1⟩ := addCe_store (errChannel e) 1 s
  obtain ⟨_, h2⟩ := addCe_store (4 + e.region) 1 (addCe (errChannel e) 1 s)
  unfold storeCe
  extract_lets c s1 n _ s2
  have hs1 : s1.store = { s.store with errs := s1.store.errs } := by
    show (addCe (4 + e.region) 1 (addCe (errChannel e) 1 s)).store = _
    rw [h2, h1]
  have hs2 : s2.store = ({ s.store with errs := s1.store.errs, passCe := s2.store.passCe } : StoreU) := by
    calc s2.store = ({ s1.store with passCe := s2.store.passCe } : StoreU) := rfl
      _ = _ := by rw [hs1]
  split
  · refine ⟨s2.store.passCe, c :: s2.store.passTold, ?_⟩
    rw [(raise_same ..).2.2.2.2.2.2.2.2.2.2.2.2.2.1]
    calc _ = ({ s2.store with passTold := c :: s2.store.passTold } : StoreU) := rfl
      _ = _ := by rw [hs2]
  · exact ⟨s2.store.passCe, s.store.passTold, by rw [hs2]⟩

/-- It is counted in its channel's record and in its region's. -/
theorem storeCe_errRec (e : StoreErr) (s : State) : ((storeCe e s).errRec (errChannel e)).ce = min ((s.errRec (errChannel e)).ce + 1) ctrMax ∧
    ((storeCe e s).errRec (4 + e.region)).ce = min ((s.errRec (4 + e.region)).ce + 1) ctrMax := by
  have hne : errChannel e ≠ 4 + e.region := by have := errChannel_lt e; omega
  obtain ⟨_, _, h⟩ := storeCe_store e s
  have herr : ∀ k, (storeCe e s).errRec k = (addCe (4 + e.region) 1 (addCe (errChannel e) 1 s)).errRec k := errRec_of_errs (by rw [h])
  rw [herr, herr]
  exact ⟨by rw [addCe_errRec, if_neg hne, addCe_errRec, if_pos rfl], by rw [addCe_errRec, if_pos rfl, addCe_errRec, if_neg hne.symm]⟩

/-- An uncorrectable burst changes of the store the error records and what names the burst. -/
theorem storeUe_store (e : StoreErr) (s : State) : ∃ off, (storeUe e s).store =
    { s.store with errs := (addUe (4 + e.region) 1 (addUe (errChannel e) 1 s)).store.errs, ueOffset := off, ueId := errChannel e * 256 + e.region } := by
  obtain ⟨_, h1⟩ := addUe_store (errChannel e) 1 s
  obtain ⟨_, h2⟩ := addUe_store (4 + e.region) 1 (addUe (errChannel e) 1 s)
  unfold storeUe
  extract_lets off s1
  have hs1 : s1.store = { s.store with errs := s1.store.errs } := by
    show (addUe (4 + e.region) 1 (addUe (errChannel e) 1 s)).store = _
    rw [h2, h1]
  refine ⟨regionBase e.region * 2 ^ 20 + off, ?_⟩
  rw [(raise_same ..).2.2.2.2.2.2.2.2.2.2.2.2.2.1]
  calc _ = ({ s1.store with ueOffset := regionBase e.region * 2 ^ 20 + off, ueId := errChannel e * 256 + e.region } : StoreU) := rfl
    _ = _ := by rw [hs1]

theorem storeUe_errRec (e : StoreErr) (s : State) : ((storeUe e s).errRec (errChannel e)).ue = min ((s.errRec (errChannel e)).ue + 1) ctrMax := by
  have hne : errChannel e ≠ 4 + e.region := by have := errChannel_lt e; omega
  obtain ⟨_, h⟩ := storeUe_store e s
  rw [errRec_of_errs (s := addUe (4 + e.region) 1 (addUe (errChannel e) 1 s)) (by rw [h]), addUe_errRec, if_neg hne, addUe_errRec, if_pos rfl]

/-- EV_STORE_UE. -/
theorem storeUe_latched (e : StoreErr) (s : State) : Latched (storeUe e s) 0xB1 (errChannel e) := raise_latched _ _ _ _ (by simp [eventAbsent]) rfl

/-- In a region of queues nothing but the free choice follows: what waits there is damaged where it is delivered (R377). -/
theorem uncorrectable_queues {e : StoreErr} (h : e.region = 3) (q : Option Nat) (s : State) : uncorrectable e q s = (storeUe e s).takeFree.2 := by
  unfold uncorrectable ueAction
  rw [h]
  rfl

theorem readError_fixed {e : StoreErr} {q : Option Nat} {s : State} (h : e.fixed = true) : readError e q s = storeCe e s := if_pos h
theorem readError_not_fixed {e : StoreErr} {q : Option Nat} {s : State} (h : e.fixed = false) :
    readError e q s = uncorrectable e q s := if_neg (by rw [h]; decide)

/-! ## Queues (R380 to R385) -/

theorem queue_of_queues {s t : State} (h : t.store.queues = s.store.queues) (k : Nat) : t.queue k = s.queue k := by unfold State.queue; rw [h]

theorem setPool_store (used : Nat) (s : State) : ∃ low, (setPool used s).store =
    { s.store with poolUsed := used, poolHigh := max s.store.poolHigh used, poolLow := low } := by
  unfold setPool
  extract_lets _ s1
  split
  · exact ⟨true, by rw [(raise_same ..).2.2.2.2.2.2.2.2.2.2.2.2.2.1]⟩
  · split
    · exact ⟨false, rfl⟩
    · exact ⟨s.store.poolLow, rfl⟩

/-- A pop changes of the store the queue it pops, what was popped, the moves and the pool, of which it takes nothing. -/
theorem popQueue_store (q : Nat) (damaged : Bool) (s : State) : ∃ moves used high low, used ≤ s.store.poolUsed ∧ (popQueue q damaged s).store =
    { s.store with queues := Table.set s.store.queues q ((s.queue q).pop damaged).2 {}, popped := some (q, ((s.queue q).pop damaged).1),
                   moves := moves, poolUsed := used, poolHigh := high, poolLow := low } := by
  unfold popQueue
  extract_lets x
  obtain ⟨out, y⟩ := x.pop damaged
  dsimp -zeta only
  extract_lets s0 _ s1 s2
  have hs2 : ∃ used high low, used ≤ s.store.poolUsed ∧ s2.store = { s1.store with poolUsed := used, poolHigh := high, poolLow := low } := by
    unfold s2
    split
    · exact ⟨_, _, _, le_rfl, rfl⟩
    · obtain ⟨low, h⟩ := setPool_store (s1.store.poolUsed - 1) s1
      exact ⟨_, _, low, Nat.sub_le .., h⟩
  obtain ⟨used, high, low, hle, h2⟩ := hs2
  refine ⟨s1.store.moves, used, high, low, hle, ?_⟩
  have hs1 : s2.store = _ := h2
  split
  · rw [(satEvent_beside ..).1, h2]; rfl
  · rw [(satEvent_beside ..).1, h2]; rfl

theorem popQueue_popped (q : Nat) (damaged : Bool) (s : State) : (popQueue q damaged s).store.popped = some (q, ((s.queue q).pop damaged).1) := by
  obtain ⟨_, _, _, _, -, h⟩ := popQueue_store q damaged s
  rw [h]

theorem popQueue_queue (q k : Nat) (damaged : Bool) (s : State) :
    (popQueue q damaged s).queue k = if k = q then ((s.queue q).pop damaged).2 else s.queue k := by
  obtain ⟨_, _, _, _, -, h⟩ := popQueue_store q damaged s
  have hqueues : (popQueue q damaged s).store.queues = (s.setQueue q ((s.queue q).pop damaged).2).store.queues := by rw [h]; rfl
  rw [queue_of_queues hqueues, State.setQueue_queue]

theorem popQueue_self (q : Nat) (damaged : Bool) (s : State) : (popQueue q damaged s).queue q = ((s.queue q).pop damaged).2 := by
  rw [popQueue_queue, if_pos rfl]

theorem Undisturbed.popQueue {q : Nat} {damaged : Bool} {s t : State} (h : Undisturbed s t) : Undisturbed s (popQueue q damaged t) := by
  unfold Machine.popQueue
  extract_lets x
  obtain ⟨out, y⟩ := x.pop damaged
  dsimp -zeta only
  extract_lets s0 _ s1 s2
  have h1 : Undisturbed s s1 := h.update rfl
  have h2 : Undisturbed s s2 := .ite h1 h1.setPool
  split <;> exact h2.satEvent

/-- An item that a queue has room for stands last in it, with its count where the queue writes one (R381). -/
theorem enqueueData_items {q : Nat} {item data : Bytes} {s : State} (h : s.queueFull q = false) :
    ((enqueueData q item data s).2.queue q).items = (s.queue q).items ++
      [if q ≤ 95 || q = 136 then item.take 4 ++ toBE 4 ((s.queue q).seq + 1) ++ item.drop 8 else item] ∧
    (∀ k, k ≠ q → (enqueueData q item data s).2.queue k = s.queue k) := by
  unfold enqueueData
  rw [if_neg (by rw [h]; decide)]
  extract_lets count body placed _ takes z s1
  have hz : z.items = (s.queue q).items ++ [body] := by
    show ((s.queue q).place body).items = _
    unfold Queue.place
    extract_lets n tail
    split
    · rfl
    · split <;> rfl
  have hs1 : ∀ k, s1.queue k = if k = q then z else s.queue k := fun k => by
    rw [queue_of_queues (s := s.setQueue q z) (by simp only [s1]; rw [(satEvent_beside ..).1]; rfl), State.setQueue_queue]
  have hall : ∀ k, (if takes then setPool (s.store.poolUsed + 1) s1 else s1).queue k = if k = q then z else s.queue k := fun k => by
    rw [← hs1 k]
    split
    · obtain ⟨_, hp⟩ := setPool_store (s.store.poolUsed + 1) s1
      exact queue_of_queues (by rw [hp]) k
    · rfl
  exact ⟨by rw [hall, if_pos rfl, hz], fun k hk => by rw [hall, if_neg hk]⟩

/-- A consumer that does not archive what it pops only pops. -/
theorem consumerPop_plain {q : Nat} {damaged : Bool} {s : State} (h : ∀ it r, (s.queue q).items = it :: r → 95 < q ∨
    consumerOf (s.cfFor (stampAt it 8)).1 (q / 16) (q % 16) ≠ 2 ∨ ((s.queue q).pop damaged).1.take 1 ≠ [0x10#8]) :
    consumerPop q damaged s = popQueue q damaged s := by
  unfold consumerPop
  extract_lets x s1
  have hpop : s1.store.popped = some (q, (x.pop damaged).1) := popQueue_popped ..
  rw [hpop]
  cases hi : x.items with
  | nil => rfl
  | cons it r =>
    dsimp only
    rw [if_neg]
    intro hc
    simp only [Bool.and_eq_true, decide_eq_true_eq] at hc
    obtain ⟨⟨⟨hq, hcons⟩, -⟩, hitem⟩ := hc
    rcases h it r hi with hlt | hne | hne
    · omega
    · exact hne hcons
    · exact hne hitem

/-- The archive service's frames go on to the archive queue (R118). -/
theorem consumerPop_archives {q : Nat} {it : Bytes} {r : List Bytes} {s : State} (hq : q ≤ 95) (hf : s.fenced 9 (q / 16) = false)
    (hi : (s.queue q).items = it :: r) (hit : it.take 1 = [0x10#8]) (hc : consumerOf (s.cfFor (stampAt it 8)).1 (q / 16) (q % 16) = 2) :
    ∃ data, consumerPop q false s = (enqueueData 136 it data (popQueue q false s)).2 := by
  have hne : it ≠ damagedMark := by rintro rfl; revert hit; decide
  have hout : ((s.queue q).pop false).1 = it := by unfold Queue.pop; rw [hi]; simp [hne]
  unfold consumerPop
  extract_lets x s1
  have hpop : s1.store.popped = some (q, it) := by rw [← hout]; exact popQueue_popped ..
  have hx : x.items = it :: r := hi
  rw [hpop, hx]
  dsimp only
  rw [if_pos (by simp [hq, hf, hit, hc])]
  exact ⟨_, rfl⟩

/-- What is popped from a queue that holds an item that is not damaged. -/
theorem pop_item {x : Queue} {it : Bytes} {r : List Bytes} (hi : x.items = it :: r) (hne : it ≠ damagedMark) :
    (x.pop false).1 = it ∧ (x.pop false).2.items = r ∧ (x.pop false).2.delivered = min (x.delivered + 1) ctrMax := by
  unfold Queue.pop
  rw [hi]
  simp [hne, satCount]

/-- A damaged item is delivered as its marker, and its number is not the last one given out. -/
theorem pop_damaged {x : Queue} {it : Bytes} {r : List Bytes} (hi : x.items = it :: r) :
    (x.pop true).1 = [1#8, 0#8, 0#8, 0#8] ++ toBE 4 (x.last + 1) ++ zeros 56 ∧ (x.pop true).2.items = r ∧ (x.pop true).2.last = x.last := by
  unfold Queue.pop
  rw [hi]
  simp

theorem pop_idle {x : Queue} (hi : x.items = []) :
    (x.pop false).1 = zeros 4 ++ toBE 4 (if x.fresh then 0 else x.last) ++ zeros 56 ∧ (x.pop false).2.items = [] ∧
      (x.pop false).2.idles = min (x.idles + 1) ctrMax := by
  unfold Queue.pop
  rw [hi]
  exact ⟨rfl, rfl, rfl⟩

/-- Room in a queue stays while the pool's use does not grow. -/
theorem queueFull_mono {q : Nat} {s t : State} (hl : t.cop.lost = s.cop.lost) (hq : t.queue q = s.queue q) (hp : t.store.poolUsed ≤ s.store.poolUsed)
    (h : s.queueFull q = false) : t.queueFull q = false := by
  unfold State.queueFull State.qlen State.fenced at *
  rw [hl, hq]
  simp only [Bool.or_eq_false_iff, Bool.and_eq_false_iff, decide_eq_false_iff_not] at h ⊢
  obtain ⟨hfull, hpool⟩ := h
  exact ⟨hfull, hpool.imp_right fun hn => by omega⟩

/-! ### What a command that changes them leaves to be read -/

theorem within_queue {s t : State} {ps : List Part} (h : .queues ∈ ps) (k : Nat) : (s.within ps t).queue k = t.queue k := by simp [State.queue, h]
theorem within_popped {s t : State} {ps : List Part} (h : .queues ∈ ps) : (s.within ps t).store.popped = t.store.popped := by simp [h]
theorem within_errRec {s t : State} {ps : List Part} (h : .store ∈ ps) (k : Nat) : (s.within ps t).errRec k = t.errRec k := by simp [State.errRec, h]

end Sys2Proof.Machine
end

section
namespace Sys2Proof.Machine
open Sys2Proof

/-! ## The scrubber and the rows (R378, R504) -/

/-- One corrected word makes no row bad; an uncorrectable one does. -/
theorem badRows_single_ce (ms : Nat) (w : ScrubWord) : badRows ⟨ms, [w], []⟩ = [] := by
  simp [badRows, List.eraseDups_cons]

theorem badRows_single_ue (ms : Nat) (w : ScrubWord) : badRows ⟨ms, [], [w]⟩ = [w] := by
  simp [badRows, List.eraseDups_cons]

/-- The errors of a pass as they are told, before the pass is counted. -/
def scrubTold (r : ScrubReport) (s : State) : State :=
  let s1 := each r.ce (fun w => storeCe w.at_) s
  each (badRows r) (fun w st => reportRow (errChannel w.at_) w.at_.region w.row st)
    (each r.ue (fun w st => uncorrectable w.at_ none st) { s1 with store := { s1.store with passCe := [], passTold := [] } })

/-- Then the pass is counted and its duration kept. -/
theorem scrubEnd_counts (r : ScrubReport) (s : State) : (scrubEnd r s).store = { (scrubTold r s).store with passMs := min r.ms 68000 } ∧
    (scrubEnd r s).ctr 0xF100 1 = min ((scrubTold r s).ctr 0xF100 1 + 1) ctrMax ∧ Undisturbed (scrubTold r s) (scrubEnd r s) := by
  generalize hu : scrubTold r s = u
  obtain ⟨s5, hs5', hend⟩ : ∃ s5, s5 = satEvent (u.ctr 0xF100 1) 1 (recKey 0xF100 0 1) 0xB5 0 1
        { u with stats := Table.set u.stats (0xF100 * 256 + 1) (satCount (u.ctr 0xF100 1) 1) 0 } ∧
      scrubEnd r s = { s5 with store := { s5.store with passMs := min r.ms 68000 } } := by subst hu; exact ⟨_, rfl, rfl⟩
  rw [hend]
  have hs5 : s5.store = u.store ∧ s5.stats = Table.set u.stats (0xF100 * 256 + 1) (satCount (u.ctr 0xF100 1) 1) 0 := hs5' ▸ satEvent_beside ..
  obtain ⟨hstore, hstats⟩ := hs5
  have hsat : Undisturbed u s5 := hs5' ▸ .satEvent (.of_same rfl)
  refine ⟨?_, ?_, hsat.update rfl⟩
  · show ({ s5.store with passMs := min r.ms 68000 } : StoreU) = _
    rw [hstore]
  · show Table.getD s5.stats _ 0 = _
    rw [hstats, Table.getD_set, if_pos rfl]
    rfl

theorem storeCe_stats (e : StoreErr) (s : State) : (storeCe e s).stats = s.stats := by
  have hadd : ∀ k u, (addCe k 1 u).stats = u.stats := fun k u => by
    unfold addCe
    extract_lets e above _ s1
    cases above <;> simp [when, s1]
  unfold storeCe
  extract_lets c s1 n _ s2
  have hs2 : s2.stats = s.stats := (hadd ..).trans (hadd ..)
  split
  · rw [(raise_same ..).2.2.2.1]; exact hs2
  · exact hs2

/-- A pass that found one corrected word. -/
theorem scrubTold_corrected (ms : Nat) (w : ScrubWord) (s : State) : ∃ t, t = storeCe w.at_ s ∧
    scrubTold ⟨ms, [w], []⟩ s = { t with store := { t.store with passCe := [], passTold := [] } } := by
  unfold scrubTold
  rw [badRows_single_ce]
  simp only [each, List.foldl_cons, List.foldl_nil]
  exact ⟨_, rfl, rfl⟩

theorem scrubEnd_corrected (ms : Nat) (w : ScrubWord) (s : State) : (∀ k, (scrubEnd ⟨ms, [w], []⟩ s).errRec k = (storeCe w.at_ s).errRec k) ∧
    (scrubEnd ⟨ms, [w], []⟩ s).store.rowsDue = s.store.rowsDue ∧ (scrubEnd ⟨ms, [w], []⟩ s).store.passMs = min ms 68000 ∧
    (scrubEnd ⟨ms, [w], []⟩ s).ctr 0xF100 1 = min (s.ctr 0xF100 1 + 1) ctrMax := by
  obtain ⟨hstore, hctr, -⟩ := scrubEnd_counts ⟨ms, [w], []⟩ s
  obtain ⟨t, ht, htold⟩ := scrubTold_corrected ms w s
  have hdue : t.store.rowsDue = s.store.rowsDue := by
    obtain ⟨ce, told, hce⟩ := storeCe_store w.at_ s
    rw [ht, hce]
  have hstats : t.stats = s.stats := by rw [ht, storeCe_stats]
  rw [htold] at hstore hctr
  refine ⟨fun k => ?_, ?_, by rw [hstore], ?_⟩
  · rw [← ht]
    exact errRec_of_errs (by rw [hstore]) k
  · rw [hstore]
    exact hdue
  · rw [hctr]
    show min (Table.getD t.stats _ 0 + 1) ctrMax = _
    rw [hstats]
    rfl

/-- A row that is reported waits for its repair, is told of, and counts nothing as an error. -/
theorem reportRow_reports (c g row : Nat) (s : State) : (c, row) ∈ (reportRow c g row s).store.rowsDue ∧ Latched (reportRow c g row s) 0xB2 c ∧
    (∀ k, ((reportRow c g row s).errRec k).ue = (s.errRec k).ue) := by
  have hadd : ∀ j k u, ((addRow j u).errRec k).ue = (u.errRec k).ue := fun j k u => by
    unfold addRow State.errRec
    rw [Table.getD_modify]
    split
    · rename_i h; rw [h]
    · rfl
  unfold reportRow
  extract_lets s1 _
  refine ⟨?_, raise_latched _ _ _ _ (by simp [eventAbsent]) rfl, fun k => ?_⟩
  · rw [(raise_same ..).2.2.2.2.2.2.2.2.2.2.2.2.2.1]
    dsimp only
    split
    · rename_i h; exact List.contains_iff_mem.mp h
    · exact List.mem_append_right _ List.mem_cons_self
  · rw [errRec_of_errs (s := s1) (by rw [(raise_same ..).2.2.2.2.2.2.2.2.2.2.2.2.2.1])]
    exact (hadd ..).trans (hadd ..)

/-- A pass that found one uncorrectable word in a queue's region. -/
theorem scrubTold_uncorrectable {ms row : Nat} {e : StoreErr} (he : e.region = 3) (s : State) :
    ∃ t, scrubTold ⟨ms, [], [⟨e, row⟩]⟩ s = reportRow (errChannel e) e.region row t ∧ Latched t 0xB1 (errChannel e) ∧
      (t.errRec (errChannel e)).ue = min ((s.errRec (errChannel e)).ue + 1) ctrMax := by
  unfold scrubTold
  rw [badRows_single_ue]
  refine ⟨_, rfl, ?_⟩
  simp only [each, List.foldl_cons, List.foldl_nil]
  rw [uncorrectable_queues he]
  exact ⟨storeUe_latched e _, storeUe_errRec e _⟩

theorem scrubEnd_uncorrectable {ms row : Nat} {e : StoreErr} (he : e.region = 3) (s : State) :
    ((scrubEnd ⟨ms, [], [⟨e, row⟩]⟩ s).errRec (errChannel e)).ue = min ((s.errRec (errChannel e)).ue + 1) ctrMax ∧
    (errChannel e, row) ∈ (scrubEnd ⟨ms, [], [⟨e, row⟩]⟩ s).store.rowsDue ∧
    Latched (scrubEnd ⟨ms, [], [⟨e, row⟩]⟩ s) 0xB1 (errChannel e) ∧ Latched (scrubEnd ⟨ms, [], [⟨e, row⟩]⟩ s) 0xB2 (errChannel e) := by
  obtain ⟨hstore, -, hu⟩ := scrubEnd_counts ⟨ms, [], [⟨e, row⟩]⟩ s
  obtain ⟨t, htold, h1, hue⟩ := scrubTold_uncorrectable (ms := ms) (row := row) he s
  obtain ⟨hdue, h2, hkeep⟩ := reportRow_reports (errChannel e) e.region row t
  rw [htold] at hstore hu
  refine ⟨?_, by rw [hstore]; exact hdue, hu.latched _ _ ((Undisturbed.refl t).reportRow.latched _ _ h1), hu.latched _ _ h2⟩
  rw [errRec_of_errs (s := reportRow (errChannel e) e.region row t) (by rw [hstore]), hkeep, hue]

/-! ## Fences of the store's units (R491, R501, R504) -/

/-- What a fence keeps: occurrences, lost lanes and spare rows, the reads and errors told of, and what waits in the posting buffers. -/
structure Fencing (s t : State) : Prop where
  latched : ∀ id inst, Latched s id inst → Latched t id inst
  lost : t.cop.lost = s.cop.lost
  rows : t.cop.rowsUsed = s.cop.rowsUsed
  told : (t.store.reads, t.store.errs, t.store.ueId) = (s.store.reads, s.store.errs, s.store.ueId)
  posted : t.store.posted = s.store.posted

theorem Fencing.refl (s : State) : Fencing s s := ⟨fun _ _ h => h, rfl, rfl, rfl, rfl⟩

theorem enterMode_store (m : Mode) (cause : Nat) (s : State) : (enterMode m cause s).store = s.store := by
  unfold enterMode journalTime
  extract_lets from_ _ s1
  split <;> simp [s1]

/-- A transition is the work of units, none of which touches the store but its queues. -/
theorem toMode_fencing (m : Mode) (cause : Nat) (s : State) : Fencing s (toMode m cause s) := by
  obtain ⟨h, -⟩ := toMode_enters m cause s
  have hs : ((toMode m cause s).store.reads, (toMode m cause s).store.errs, (toMode m cause s).store.ueId) = (s.store.reads, s.store.errs, s.store.ueId) ∧
      (toMode m cause s).store.posted = s.store.posted := by
    unfold toMode
    extract_lets old s1 s2
    have h1 : s1.store = (s.within unitParts (unitsLeave old m s)).store := enterMode_store ..
    have h2 : ∀ b, (when b dropPrevious s2).store = s2.store := fun b => by cases b <;> rfl
    rw [h2]
    show (s1.store.reads, s1.store.errs, s1.store.ueId) = _ ∧ s1.store.posted = _
    rw [h1]
    exact ⟨rfl, rfl⟩
  exact ⟨h.latched, h.lost, h.rowsUsed, hs.1, hs.2⟩

/-- The transition that a fence may ask for, and the conditions of a return. -/
theorem judgeFences_fencing (s : State) : Fencing s (judgeFences s) := by
  unfold judgeFences
  extract_lets l s1
  have h1 : Fencing s s1 := by
    unfold s1
    split
    · exact toMode_fencing ..
    · split
      · exact toMode_fencing ..
      · exact .refl s
  exact ⟨h1.latched, h1.lost, h1.rows, h1.told, h1.posted⟩

/-- The fence of a channel of the store, of its arbiter (16) or its DRAM (10), takes its logical lane and no more. -/
theorem fence_channel {u : Nat} (hu : u = 10 ∨ u = 16) (l : Nat) (s : State) : ∃ t, Fencing t (fence u l s) ∧
    (∀ id inst, Latched s id inst → Latched t id inst) ∧ t.cop.lost = s.cop.lost ++ [(u, l)] ∧ t.cop.rowsUsed = s.cop.rowsUsed ∧ t.store = s.store := by
  have hs : unitSpared u = false := by rcases hu with rfl | rfl <;> rfl
  have hcost : ∀ t, fenceCost u l t = t := by rcases hu with rfl | rfl <;> exact fun _ => rfl
  unfold fence
  simp only [hs, hcost, Bool.false_eq_true, if_false]
  refine ⟨_, judgeFences_fencing _, fun id inst h => ?_, ?_, ?_, ?_⟩
  · exact (Undisturbed.raise (.count (.of_same rfl))).latched id inst h
  all_goals simp [count, State.setLane]

end Sys2Proof.Machine
end

section
namespace Sys2Proof.Machine
open Sys2Proof

/-! ## Work on the store alone (R371 to R378) -/

/-- Nothing differs but the store, the latches and the counters of the events. -/
def StoreWork (s t : State) : Prop :=
  t = { s with store := t.store, ev := { s.ev with latch := t.ev.latch }, sticky := t.sticky, stats := t.stats }

namespace StoreWork
variable {s t u : State}

theorem refl (s : State) : StoreWork s s := rfl

theorem trans (h : StoreWork s t) (k : StoreWork t u) : StoreWork s u := by
  unfold StoreWork at *
  rw [k, h]

theorem raise {id inst param : Nat} (h : StoreWork s t) : StoreWork s (raise id inst param t) := by
  refine h.trans ?_
  unfold StoreWork Machine.raise
  split <;> rfl

theorem update (h : StoreWork s t) (st : StoreU) : StoreWork s { t with store := st } := h.trans rfl

theorem ite {p : Prop} [Decidable p] (h : StoreWork s t) (k : StoreWork s u) : StoreWork s (if p then t else u) := by
  split
  · exact h
  · exact k

theorem when {f : State → State} {b : Bool} (h : StoreWork s t) (hf : ∀ u, StoreWork u (f u)) : StoreWork s (when b f t) := by
  cases b
  · exact h
  · exact h.trans (hf t)

theorem satEvent {old n key ev inst param : Nat} (h : StoreWork s t) : StoreWork s (satEvent old n key ev inst param t) :=
  .ite h (.raise (h.trans rfl))

theorem addCe {k n : Nat} (h : StoreWork s t) : StoreWork s (addCe k n t) := .when (h.update _) fun _ => .raise (.refl _)

theorem storeCe {e : StoreErr} (h : StoreWork s t) : StoreWork s (storeCe e t) :=
  .ite (.raise (.trans (.addCe (.addCe h)) rfl)) (.trans (.addCe (.addCe h)) rfl)

theorem cop (h : StoreWork s t) : t.cop = s.cop := by rw [h]
theorem variant (h : StoreWork s t) : t.variant = s.variant := by rw [h]

end StoreWork

/-! ## The steps of a slot frame -/

/-- A step that every element takes, and that one of them takes to what is asked: those before it keep what it starts from, and those
after it what it reaches. -/
theorem each_once {σ α : Type} {f : α → σ → σ} {P Q : σ → Prop} {xs : List α} {a : α} (hnd : xs.Nodup) (ha : a ∈ xs)
    (hbefore : ∀ b ∈ xs, b ≠ a → ∀ s, P s → P (f b s)) (hstep : ∀ s, P s → Q (f a s)) (hafter : ∀ b ∈ xs, b ≠ a → ∀ s, Q s → Q (f b s)) {s : σ}
    (h : P s) : Q (each xs f s) := by
  unfold each
  induction xs generalizing s with
  | nil => exact absurd ha List.not_mem_nil
  | cons b r ih =>
    obtain ⟨hb, hr⟩ := List.nodup_cons.mp hnd
    rw [List.foldl_cons]
    by_cases hba : b = a
    · subst hba
      have hq : ∀ s, Q s → Q (r.foldl (fun acc x => f x acc) s) := by
        have hkeep : ∀ c ∈ r, ∀ s, Q s → Q (f c s) := fun c hc => hafter c (List.mem_cons_of_mem _ hc) fun hcb => hb (hcb ▸ hc)
        clear ih ha hbefore hafter hnd hr hb
        induction r with
        | nil => exact fun _ h => h
        | cons c r ih => exact fun s h => ih (fun d hd => hkeep d (List.mem_cons_of_mem _ hd)) _ (hkeep c List.mem_cons_self s h)
      exact hq _ (hstep s h)
    · exact ih hr (List.mem_of_ne_of_mem (Ne.symm hba) ha) (fun c hc => hbefore c (List.mem_cons_of_mem _ hc))
        (fun c hc => hafter c (List.mem_cons_of_mem _ hc)) (hbefore b List.mem_cons_self hba s h)

/-- What each step keeps over the elements of a list, the fold keeps. -/
theorem each_keeps {σ α : Type} {f : α → σ → σ} {P : σ → Prop} {xs : List α} (hf : ∀ a ∈ xs, ∀ s, P s → P (f a s)) {s : σ} (h : P s) : P (each xs f s) := by
  unfold each
  induction xs generalizing s with
  | nil => exact h
  | cons b r ih => exact ih (fun c hc => hf c (List.mem_cons_of_mem _ hc)) (hf b List.mem_cons_self s h)

/-! ### Accesses -/

/-- A read without an uncorrectable burst is answered, and at most a corrected word is counted. -/
theorem storeAccess_read {a : StoreAccess} (hw : a.write = none) (h : a.err ≤ 1) (s : State) :
    ∃ reads b, storeAccess a s = when b (storeCe (granuleAt a.granule true)) { s with store := { s.store with reads := reads } } := by
  unfold storeAccess
  rw [hw]
  dsimp -zeta only
  extract_lets bad _ s1
  have hs1 : ({ s with store := { s.store with reads := s1.store.reads } } : State) = s1 := rfl
  refine ⟨s1.store.reads, bad, ?_⟩
  rw [hs1]
  clear_value s1
  cases hb : bad with
  | false => rfl
  | true =>
    have herr : a.err = 1 := by
      have hne : a.err ≠ 0 := by rintro h0; simp [bad, h0] at hb
      omega
    simp only [herr, decide_true, when, if_true]
    exact readError_fixed rfl

/-- Accesses of this kind touch nothing beside the store but for the event of a corrected word. -/
theorem storeAccess_work {a : StoreAccess} (h : a.err ≤ 1) (s : State) : StoreWork s (storeAccess a s) := by
  cases hw : a.write with
  | none =>
    obtain ⟨reads, b, heq⟩ := storeAccess_read hw h s
    rw [heq]
    exact .when rfl fun _ => .storeCe (.refl _)
  | some d =>
    unfold storeAccess
    rw [hw]
    exact .ite rfl rfl

/-- What a path may have to do in a frame. -/
def StoreU.duties (x : StoreU) : Table (List Posted) × Table Nat := (x.posted, x.moves)

/-- What an access leaves to do follows from what there was to do. -/
theorem storeAccess_duties {a : StoreAccess} (h : a.err ≤ 1) {s t : State} (hst : t.store.duties = s.store.duties) :
    (storeAccess a t).store.duties = (storeAccess a s).store.duties ∧ (storeAccess a s).store.arb = s.store.arb := by
  cases hw : a.write with
  | none =>
    have hread : ∀ u, (storeAccess a u).store.duties = u.store.duties ∧ (storeAccess a u).store.arb = u.store.arb := fun u => by
      obtain ⟨reads, b, heq⟩ := storeAccess_read hw h u
      generalize hv : ({ u with store := { u.store with reads := reads } } : State) = v at heq
      have hsame : v.store.duties = u.store.duties ∧ v.store.arb = u.store.arb := by subst hv; exact ⟨rfl, rfl⟩
      rw [heq]
      cases b with
      | false => exact hsame
      | true =>
        obtain ⟨ce, told, hce⟩ := storeCe_store (granuleAt a.granule true) v
        simp only [when, if_true]
        rw [hce]
        exact hsame
    exact ⟨by rw [(hread t).1, (hread s).1, hst], (hread s).2⟩
  | some d =>
    obtain ⟨hposted, hmoves⟩ := Prod.mk.inj hst
    unfold storeAccess
    rw [hw]
    dsimp only
    unfold State.posted
    rw [hposted]
    split
    · exact ⟨by simp [StoreU.duties, State.setPosted, hposted, hmoves], rfl⟩
    · exact ⟨by simp [StoreU.duties, State.setPosted, reachDram, hposted, hmoves], rfl⟩

/-- The accesses of a frame. -/
theorem accesses_duties {xs : List StoreAccess} (h : ∀ a ∈ xs, a.err ≤ 1) {s t : State} (hst : t.store.duties = s.store.duties) :
    (each xs storeAccess t).store.duties = (each xs storeAccess s).store.duties ∧ (each xs storeAccess s).store.arb = s.store.arb := by
  unfold each
  induction xs generalizing s t with
  | nil => exact ⟨hst, rfl⟩
  | cons a r ih =>
    obtain ⟨hd, harb⟩ := storeAccess_duties (h a List.mem_cons_self) hst
    obtain ⟨hd', harb'⟩ := ih (fun b hb => h b (List.mem_cons_of_mem _ hb)) hd
    exact ⟨hd', harb'.trans harb⟩

theorem posted_of_duties {s t : State} (h : t.store.duties = s.store.duties) (p : Nat) : t.posted p = s.posted p := by
  unfold State.posted; rw [(Prod.mk.inj h).1]
theorem moved_of_duties {s t : State} (h : t.store.duties = s.store.duties) (p c : Nat) : t.moved p c = s.moved p c := by
  unfold State.moved; rw [(Prod.mk.inj h).2]

/-! ### Reserved paths -/

/-- What a path claims is seen from its own moves and writes. -/
theorem claimed_of_duties {s t : State} {p c : Nat} (hm : t.moved p c = s.moved p c) (hp : t.posted p = s.posted p) (xs : List StoreAccess) :
    t.claimed xs p c = s.claimed xs p c := by
  unfold State.claimed; rw [hm, hp]

theorem getD_range_map (n : Nat) (g : Nat → Nat) {c : Nat} (h : c < n) : ((List.range n).map g).getD c 0 = g c := by
  simp [List.getD_eq_getElem?_getD, h]

/-- Of writes on a channel with room for all of them, none stay. -/
theorem drain_all {quota : List Nat} {xs : List Posted} (h : ∀ c, c < 4 → (xs.filter (fun w => storeChannel w.granule = c)).length ≤ quota.getD c 0) :
    (drain quota xs).2 = [] := by
  induction xs generalizing quota with
  | nil => rfl
  | cons w r ih =>
    have hc : storeChannel w.granule < 4 := (Config.channelOrder _).isLt
    have hw := h _ hc
    rw [List.filter_cons_of_pos (by simp)] at hw
    have hpos : 0 < quota.getD (storeChannel w.granule) 0 := by rw [List.length_cons] at hw; omega
    have hlen : storeChannel w.granule < quota.length := by
      by_contra hge
      rw [List.getD_eq_default _ _ (by omega)] at hpos
      omega
    unfold drain
    extract_lets c
    rw [if_pos hpos]
    refine ih fun c' hc' => ?_
    have hc' := h c' hc'
    by_cases he : storeChannel w.granule = c'
    · subst he
      rw [List.filter_cons_of_pos (by simp)] at hc'
      rw [List.length_cons] at hc'
      simp only [c, List.getD_eq_getElem?_getD, List.getElem?_set_self hlen, Option.getD_some] at hc' ⊢
      omega
    · rw [List.filter_cons_of_neg (by simpa using he)] at hc'
      simp only [c, List.getD_eq_getElem?_getD, List.getElem?_set_ne he] at hc' ⊢
      exact hc'

/-- Of writes on a channel that has no slot, all stay. -/
theorem drain_none {c : Nat} {quota : List Nat} {xs : List Posted} (h : quota.getD c 0 = 0) :
    (drain quota xs).2.filter (fun w => storeChannel w.granule = c) = xs.filter (fun w => storeChannel w.granule = c) := by
  induction xs generalizing quota with
  | nil => rfl
  | cons w r ih =>
    unfold drain
    extract_lets c'
    split
    · rename_i hpos
      have hne : c' ≠ c := by rintro rfl; omega
      rw [List.filter_cons_of_neg (by simpa using hne)]
      refine ih ?_
      rw [List.getD_eq_getElem?_getD, List.getElem?_set_ne hne, ← List.getD_eq_getElem?_getD]
      exact h
    · simp only [List.filter_cons, ih h]

/-- The use of a path, noted for it alone. -/
theorem noteUse_store (p claims grants : Nat) (s : State) : ∃ fs, (noteUse p claims grants s).store =
    { s.store with arb := Table.put s.store.arb p { granted := min ((Table.getD s.store.arb p {}).granted + grants) ctrMax, frames := fs } } := by
  unfold noteUse
  extract_lets x y
  exact ⟨y.frames, (satEvent_beside ..).1⟩

theorem noteUse_work {p claims grants : Nat} {s t : State} (h : StoreWork s t) : StoreWork s (noteUse p claims grants t) := .satEvent (h.update _)

/-- Moves that a claimant is granted slots for are served for it alone. -/
theorem served_moved {p q c : Nat} (given : List Nat) (s : State) (hne : q ≠ p) (hc : c < 4) : (served p given s).moved q c = s.moved q c := by
  have hkey : ∀ c', c' < 4 → 4 * q + c ≠ 4 * p + c' := fun c' hc' => by omega
  unfold State.moved served
  simp only [List.range_succ, List.range_zero, List.nil_append, List.foldl_append, List.foldl_cons, List.foldl_nil, Table.getD_modify]
  rw [if_neg (hkey 3 (by decide)), if_neg (hkey 2 (by decide)), if_neg (hkey 1 (by decide)), if_neg (hkey 0 (by decide))]

/-- Writes of a path that still wait after its frame. -/
def State.stays (s : State) (xs : List StoreAccess) (f : SlotLoad) (p : Nat) : List Posted :=
  (drain ((List.range 4).map (fun c => s.granted xs f p c - s.moved p c - readsOn xs p c)) (s.posted p)).2

/-- A path has been granted its slots: its writes have gone, but for `rest`. -/
def pathServed (p claims : Nat) (grants : List Nat) (out rest : List Posted) (s : State) : State :=
  noteUse p claims grants.sum (served p grants (reachDram out (s.setPosted p rest)))

/-- The frame of a path: what it is granted, and then the failures of the arbiter. -/
theorem pathFrame_eq (xs : List StoreAccess) (f : SlotLoad) (p : Nat) (s : State) : ∃ claims out, pathFrame xs f p s =
    each ((List.range 4).filter (fun c => decide (s.granted xs f p c < s.claimed xs p c)))
      (fun c st => if st.fenced 16 c then st else failUnit 16 c (raise 0xB6 c p st))
      (pathServed p claims ((List.range 4).map (s.granted xs f p)) out (s.stays xs f p) s) :=
  ⟨_, _, rfl⟩

theorem pathServed_store (p claims : Nat) (grants : List Nat) (out rest : List Posted) (s : State) : ∃ fs dram,
    (pathServed p claims grants out rest s).store = { s.store with
      posted := Table.set s.store.posted p rest []
      dram := dram
      moves := (served p grants s).store.moves
      arb := Table.put s.store.arb p { granted := min ((Table.getD s.store.arb p {}).granted + grants.sum) ctrMax, frames := fs } } := by
  obtain ⟨fs, h⟩ := noteUse_store p claims grants.sum (served p grants (reachDram out (s.setPosted p rest)))
  exact ⟨fs, _, h⟩

theorem pathServed_work (p claims : Nat) (grants : List Nat) (out rest : List Posted) (s : State) :
    StoreWork s (pathServed p claims grants out rest s) ∧ Undisturbed s (pathServed p claims grants out rest s) := by
  obtain ⟨st, hst⟩ : ∃ st, served p grants (reachDram out (s.setPosted p rest)) = { s with store := st } := ⟨_, rfl⟩
  unfold pathServed
  rw [hst]
  exact ⟨noteUse_work rfl, .satEvent (.of_same rfl)⟩

/-- What the frame of a path comes to before its arbiter is judged: it works on the store alone, and on what is the path's. -/
theorem pathFrame_serves (xs : List StoreAccess) (f : SlotLoad) (p : Nat) (s : State) : ∃ t, StoreWork s t ∧ Undisturbed s t ∧
    pathFrame xs f p s = each ((List.range 4).filter (fun c => decide (s.granted xs f p c < s.claimed xs p c)))
      (fun c st => if st.fenced 16 c then st else failUnit 16 c (raise 0xB6 c p st)) t ∧
    (t.store.reads, t.store.errs, t.store.ueId) = (s.store.reads, s.store.errs, s.store.ueId) ∧
    (∀ q, t.posted q = if q = p then s.stays xs f p else s.posted q) ∧ (∀ q c, q ≠ p → c < 4 → t.moved q c = s.moved q c) ∧
    (∀ q, q ≠ p → Table.getD t.store.arb q {} = Table.getD s.store.arb q {}) ∧
    (Table.getD t.store.arb p {}).granted = min ((Table.getD s.store.arb p {}).granted + ((List.range 4).map (s.granted xs f p)).sum) ctrMax := by
  obtain ⟨claims, out, heq⟩ := pathFrame_eq xs f p s
  obtain ⟨hw, hu⟩ := pathServed_work p claims ((List.range 4).map (s.granted xs f p)) out (s.stays xs f p) s
  obtain ⟨fs, dram, hstore⟩ := pathServed_store p claims ((List.range 4).map (s.granted xs f p)) out (s.stays xs f p) s
  generalize pathServed p claims ((List.range 4).map (s.granted xs f p)) out (s.stays xs f p) s = t at *
  refine ⟨t, hw, hu, heq, by rw [hstore], fun q => ?_, fun q c hq hc => ?_, fun q hq => ?_, ?_⟩
  · unfold State.posted
    rw [hstore]
    exact Table.getD_set ..
  · have hm : t.moved q c = (served p ((List.range 4).map (s.granted xs f p)) s).moved q c := by unfold State.moved; rw [hstore]
    rw [hm]
    exact served_moved _ s hq hc
  · rw [hstore]
    exact (Table.getD_put ..).trans (if_neg hq)
  · rw [hstore]
    refine (congrArg ArbUse.granted (Table.getD_put ..)).trans ?_
    rw [if_pos rfl]

end Sys2Proof.Machine
end

section
namespace Sys2Proof.Machine
open Sys2Proof

/-! ## Failures of the arbiter (R376) -/

/-- What the frame of a path keeps, whatever becomes of its arbiter: occurrences, lost lanes, and what reads gave and errors told. -/
structure FrameWork (s t : State) : Prop where
  latched : ∀ id inst, Latched s id inst → Latched t id inst
  lost : ∀ x ∈ s.cop.lost, x ∈ t.cop.lost
  told : (t.store.reads, t.store.errs, t.store.ueId) = (s.store.reads, s.store.errs, s.store.ueId)

theorem FrameWork.trans {s t u : State} (h : FrameWork s t) (k : FrameWork t u) : FrameWork s u :=
  ⟨fun id inst l => k.latched id inst (h.latched id inst l), fun x hx => k.lost x (h.lost x hx), k.told.trans h.told⟩

/-- A channel's arbiter that leaves a claim ungranted. -/
theorem arbiterFails_frame (c p : Nat) (s : State) : FrameWork s (if s.fenced 16 c then s else failUnit 16 c (raise 0xB6 c p s)) ∧
    (if s.fenced 16 c then s else failUnit 16 c (raise 0xB6 c p s)).store.posted = s.store.posted := by
  have hr : Undisturbed s (raise 0xB6 c p s) := .raise (.refl s)
  have hrs : (raise 0xB6 c p s).store = s.store := by simp
  have hraise : FrameWork s (raise 0xB6 c p s) := ⟨hr.latched, fun x hx => by rwa [hr.lost], by rw [hrs]⟩
  split
  · exact ⟨⟨fun _ _ h => h, fun _ h => h, rfl⟩, rfl⟩
  · unfold failUnit
    split
    · exact ⟨hraise, by rw [hrs]⟩
    · obtain ⟨t, hf, hl, hlost, -, hst⟩ := fence_channel (.inr rfl) c (raise 0xB6 c p s)
      refine ⟨hraise.trans ⟨fun id inst h => hf.latched id inst (hl id inst h), fun x hx => ?_, by rw [hf.told, hst]⟩, by rw [hf.posted, hst, hrs]⟩
      rw [hf.lost, hlost]
      exact List.mem_append_left _ hx

/-- It is fenced, with EV_ARB_FAULT. -/
theorem arbiterFails_fenced {c p : Nat} {s : State} (hf : s.fenced 16 c = false) (hl : (s.lane 16 c).state ≠ 5) :
    Latched (if s.fenced 16 c then s else failUnit 16 c (raise 0xB6 c p s)) 0xB6 c ∧
    (if s.fenced 16 c then s else failUnit 16 c (raise 0xB6 c p s)).fenced 16 c = true := by
  have hlane : (raise 0xB6 c p s).lane 16 c = s.lane 16 c := by simp [State.lane]
  rw [if_neg (by rw [hf]; decide)]
  unfold failUnit
  rw [hlane, if_neg hl]
  obtain ⟨t, hfence, hlat, hlost, -, -⟩ := fence_channel (.inr rfl) c (raise 0xB6 c p s)
  refine ⟨hfence.latched _ _ (hlat _ _ (raise_latched _ _ _ _ (by simp [eventAbsent]) rfl)), ?_⟩
  unfold State.fenced
  rw [hfence.lost, hlost]
  simp

/-! ### The frame of a reserved path -/

theorem pathFrame_frame (xs : List StoreAccess) (f : SlotLoad) (p : Nat) (s : State) : FrameWork s (pathFrame xs f p s) ∧
    ∀ q, (pathFrame xs f p s).posted q = if q = p then s.stays xs f p else s.posted q := by
  obtain ⟨t, -, hu, hpath, htold, hposted, -⟩ := pathFrame_serves xs f p s
  have ht : FrameWork s t := ⟨hu.latched, fun x hx => by rwa [hu.lost], htold⟩
  have hall : FrameWork s (pathFrame xs f p s) ∧ (pathFrame xs f p s).store.posted = t.store.posted := by
    rw [hpath]
    refine each_keeps (P := fun u => FrameWork s u ∧ u.store.posted = t.store.posted) (fun c _ u hu => ?_) ⟨ht, rfl⟩
    obtain ⟨hk, hp⟩ := arbiterFails_frame c p u
    exact ⟨hu.1.trans hk, hp.trans hu.2⟩
  refine ⟨hall.1, fun q => ?_⟩
  rw [← hposted q]
  unfold State.posted
  rw [hall.2]

/-- A path without a fault is granted what it claims. -/
theorem granted_of_sound {f : SlotLoad} {p : Nat} (h : ∀ c, f.faults.contains (p, c) = false) (xs : List StoreAccess) (c : Nat) (s : State) :
    s.granted xs f p c = s.claimed xs p c := by
  unfold State.granted
  rw [h]
  rfl

/-- Its frame then works on the store alone, and on nothing of another path. -/
theorem pathFrame_sound {f : SlotLoad} {p : Nat} (h : ∀ c, f.faults.contains (p, c) = false) (xs : List StoreAccess) (s : State) :
    StoreWork s (pathFrame xs f p s) ∧ (∀ q c, q ≠ p → c < 4 → (pathFrame xs f p s).moved q c = s.moved q c) ∧
    (∀ q, q ≠ p → Table.getD (pathFrame xs f p s).store.arb q {} = Table.getD s.store.arb q {}) ∧
    (Table.getD (pathFrame xs f p s).store.arb p {}).granted =
      min ((Table.getD s.store.arb p {}).granted + ((List.range 4).map (s.claimed xs p)).sum) ctrMax := by
  obtain ⟨t, hw, -, hpath, -, -, hmoved, harb, hgranted⟩ := pathFrame_serves xs f p s
  have hg : s.granted xs f p = s.claimed xs p := funext fun c => granted_of_sound h xs c s
  rw [hg] at hpath hgranted
  simp only [lt_irrefl, decide_false, List.filter_false] at hpath
  rw [show pathFrame xs f p s = t from hpath]
  exact ⟨hw, hmoved, harb, hgranted⟩

/-- With slots for all that waits, nothing waits on. -/
theorem stays_nil {f : SlotLoad} {p : Nat} {s : State} (h : ∀ c, f.faults.contains (p, c) = false)
    (hroom : ∀ c, c < 4 → s.moved p c + ((s.posted p).filter (fun w => storeChannel w.granule = c)).length ≤ pathSlots p / 4) : s.stays [] f p = [] := by
  refine drain_all fun c hc => ?_
  rw [getD_range_map _ _ hc, granted_of_sound h]
  have hle := hroom c hc
  show _ ≤ min (s.moved p c + 0 + _) (pathSlots p / 4) - s.moved p c - 0
  omega

/-! ### The leftover slots (R23, R375) -/

theorem sum_set (xs : List Nat) (k v : Nat) (h : k < xs.length) : (xs.set k v).sum + xs.getD k 0 = xs.sum + v := by
  induction xs generalizing k with
  | nil => exact absurd h (Nat.not_lt_zero _)
  | cons x r ih =>
    cases k with
    | zero => simp; omega
    | succ k =>
      have hr := ih k (Nat.lt_of_succ_lt_succ h)
      simp only [List.set_cons_succ, List.sum_cons, List.getD_cons_succ]
      omega

/-- The six classes get as many slots as they claim, up to the slots there are. -/
theorem deal_sum (room turn : Nat) (claims given : List Nat) (hc : claims.length = 6) (hg : given.length = 6) :
    (deal room turn claims given).1.length = 6 ∧ (deal room turn claims given).1.sum = given.sum + min claims.sum room := by
  induction room generalizing turn claims given with
  | zero => exact ⟨hg, by simp [deal]⟩
  | succ n ih =>
    unfold deal
    cases hk : ((List.range 6).map (fun i => (turn + i) % 6)).find? (fun k => 0 < claims.getD k 0) with
    | none =>
      have hzero : claims.sum = 0 := by
        rw [List.sum_eq_zero_iff]
        intro x hx
        obtain ⟨k, hlt, rfl⟩ := List.mem_iff_getElem.mp hx
        have hmem : k ∈ (List.range 6).map (fun i => (turn + i) % 6) := List.mem_map.mpr ⟨(k + 6 - turn % 6) % 6, by simp; omega, by omega⟩
        have hno := List.find?_eq_none.mp hk k hmem
        simpa [List.getD_eq_getElem?_getD, hlt] using hno
      exact ⟨hg, by simp [hzero]⟩
    | some k =>
      have hpos : 0 < claims.getD k 0 := by simpa using List.find?_some hk
      have hlt : k < 6 := by
        obtain ⟨i, -, rfl⟩ := List.mem_map.mp (List.mem_of_find?_eq_some hk)
        omega
      obtain ⟨hlen, hsum⟩ := ih ((k + 1) % 6) (claims.set k (claims.getD k 0 - 1)) (given.set k (given.getD k 0 + 1)) (by simpa using hc) (by simpa using hg)
      have h1 := sum_set claims k (claims.getD k 0 - 1) (by omega)
      have h2 := sum_set given k (given.getD k 0 + 1) (by omega)
      exact ⟨hlen, by dsimp only; rw [hsum]; omega⟩

/-- A table written from a list of numbers. -/
theorem getD_of_range (n : Nat) (g : Nat → Nat) {j : Nat} (h : j < n) : Table.getD ((List.range n).map (fun k => (k, g k))) j 0 = g j := by
  have hfind : ∀ l : List Nat, j ∈ l → Table.find (l.map (fun k => (k, g k))) j = some (g j) := fun l => by
    induction l with
    | nil => exact fun h => absurd h List.not_mem_nil
    | cons k r ih =>
      intro hj
      by_cases hk : j = k
      · simp [Table.find, hk]
      · simp [Table.find, hk, ih ((List.mem_cons.mp hj).resolve_left hk)]
  unfold Table.getD
  rw [hfind _ (List.mem_range.mpr h)]
  rfl

/-- The leftover slots of a frame work on the store alone. -/
theorem leftoverFrame_work (f : SlotLoad) (free : List Nat) (s : State) : StoreWork s (leftoverFrame f free s) ∧
    Undisturbed s (leftoverFrame f free s) ∧
    ((leftoverFrame f free s).store.reads, (leftoverFrame f free s).store.errs, (leftoverFrame f free s).store.ueId) = (s.store.reads, s.store.errs, s.store.ueId) ∧
    (leftoverFrame f free s).store.posted = s.store.posted ∧
    (∀ p, p < 5 → Table.getD (leftoverFrame f free s).store.arb p {} = Table.getD s.store.arb p {}) ∧
    (leftoverFrame f free s).store.given = (List.range 32).map (fun k => (k, (s.leftover f (free.getD (k % 4) 0) (k % 4)).1.getD (k / 4) 0)) := by
  unfold leftoverFrame
  extract_lets given claims s1
  obtain ⟨m, hs1⟩ : ∃ m, s1 = { s with store := { s.store with moves := m } } :=
    each_keeps (P := fun u => ∃ m, u = { s with store := { s.store with moves := m } })
      (fun k _ u hu => by obtain ⟨m, rfl⟩ := hu; exact ⟨_, rfl⟩) ⟨s.store.moves, rfl⟩
  clear_value s1
  subst hs1
  generalize hx : ({ s with store := { s.store with
    moves := m
    given := (List.range 32).map (fun k => (k, (given (k % 4)).getD (k / 4) 0))
    turns := (List.range 4).map (fun c => (c, (s.leftover f (free.getD c 0) c).2)) } } : State) = x
  have hwork : StoreWork s x := by subst hx; rfl
  have hund : Undisturbed s x := by subst hx; exact .of_same rfl
  have hstore : (x.store.reads, x.store.errs, x.store.ueId) = (s.store.reads, s.store.errs, s.store.ueId) ∧ x.store.posted = s.store.posted ∧
      x.store.arb = s.store.arb ∧ x.store.given = (List.range 32).map (fun k => (k, (given (k % 4)).getD (k / 4) 0)) := by
    subst hx; exact ⟨rfl, rfl, rfl, rfl⟩
  obtain ⟨htold, hposted, harb, hgiven⟩ := hstore
  obtain ⟨fs, huse⟩ := noteUse_store 5 claims.sum ((List.range 4).map (fun c => (given c).sum)).sum x
  refine ⟨noteUse_work hwork, .satEvent (hund.update rfl), ?_, ?_, fun p hp => ?_, ?_⟩
  · rw [huse]; exact htold
  · rw [huse]; exact hposted
  · rw [huse, ← harb]
    exact (Table.getD_put ..).trans (if_neg (by omega))
  · rw [huse]; exact hgiven

end Sys2Proof.Machine
end

section
namespace Sys2Proof.Machine
open Sys2Proof

/-! ## The slot frame (R371 to R376) -/

/-- The accesses of a frame have been taken. -/
def State.taken (s : State) (xs : List StoreAccess) : State := each xs storeAccess { s with store := { s.store with reads := [] } }

/-- Reserved slots of a channel that no path claims. -/
def State.unclaimed (s : State) (xs : List StoreAccess) (c : Nat) : Nat := ((List.range 5).map (fun p => pathSlots p / 4 - s.claimed xs p c)).sum

/-- The reserved paths have had their slots. -/
def State.pathsServed (s : State) (xs : List StoreAccess) (f : SlotLoad) : State := each (List.range 5) (pathFrame xs f) (s.taken xs)

theorem slotFrame_eq (xs : List StoreAccess) (f : SlotLoad) (s : State) :
    slotFrame xs f s = leftoverFrame f ((List.range 4).map ((s.taken xs).unclaimed xs)) (s.pathsServed xs f) := rfl

/-- What the accesses gave and told of stands at the end of the frame, and so does what came after them. -/
theorem pathsServed_frame (xs : List StoreAccess) (f : SlotLoad) (s : State) : FrameWork (s.taken xs) (s.pathsServed xs f) :=
  each_keeps (P := FrameWork (s.taken xs)) (fun p _ _ hu => hu.trans (pathFrame_frame xs f p _).1) ⟨fun _ _ h => h, fun _ h => h, rfl⟩

theorem leftoverFrame_frame (f : SlotLoad) (free : List Nat) (s : State) : FrameWork s (leftoverFrame f free s) := by
  obtain ⟨hw, hu, htold, -⟩ := leftoverFrame_work f free s
  exact ⟨hu.latched, fun x hx => by rwa [hw.cop], htold⟩

theorem slotFrame_frame (xs : List StoreAccess) (f : SlotLoad) (s : State) : FrameWork (s.taken xs) (slotFrame xs f s) := by
  rw [slotFrame_eq]
  exact (pathsServed_frame xs f s).trans (leftoverFrame_frame ..)

/-- The posting buffers stand at the end of the frame as the paths have left them. -/
theorem slotFrame_posted (xs : List StoreAccess) (f : SlotLoad) (s : State) (p : Nat) : (slotFrame xs f s).posted p = (s.pathsServed xs f).posted p := by
  obtain ⟨-, -, -, hposted, -⟩ := leftoverFrame_work f ((List.range 4).map ((s.taken xs).unclaimed xs)) (s.pathsServed xs f)
  rw [slotFrame_eq]
  unfold State.posted
  rw [hposted]

/-! ### Without faults -/

/-- A frame without uncorrectable bursts and without faults works on the store alone. -/
theorem taken_work {xs : List StoreAccess} (h : ∀ a ∈ xs, a.err ≤ 1) (s : State) : StoreWork s (s.taken xs) :=
  each_keeps (P := StoreWork s) (fun a ha _ hu => hu.trans (storeAccess_work (h a ha) _)) rfl

/-- The work that waits, after accesses without uncorrectable bursts, and the use of the paths before. -/
theorem taken_duties {xs : List StoreAccess} (h : ∀ a ∈ xs, a.err ≤ 1) (s : State) :
    (s.taken xs).store.duties = (each xs storeAccess s).store.duties ∧ (s.taken xs).store.arb = s.store.arb :=
  ⟨(accesses_duties (s := s) (t := { s with store := { s.store with reads := [] } }) h rfl).1,
    (accesses_duties (s := { s with store := { s.store with reads := [] } }) (t := { s with store := { s.store with reads := [] } }) h rfl).2⟩

theorem no_faults {f : SlotLoad} (h : f.faults = []) (p c : Nat) : f.faults.contains (p, c) = false := by rw [h]; rfl

theorem pathsServed_work {f : SlotLoad} (h : f.faults = []) (xs : List StoreAccess) (s : State) : StoreWork (s.taken xs) (s.pathsServed xs f) :=
  each_keeps (P := StoreWork (s.taken xs)) (fun p _ _ hu => hu.trans (pathFrame_sound (no_faults h p) xs _).1) (.refl _)

theorem slotFrame_work {xs : List StoreAccess} {f : SlotLoad} (hx : ∀ a ∈ xs, a.err ≤ 1) (hf : f.faults = []) (s : State) :
    StoreWork s (slotFrame xs f s) := by
  rw [slotFrame_eq]
  exact ((taken_work hx s).trans (pathsServed_work hf xs s)).trans (leftoverFrame_work ..).1

theorem stays_of_duties {s t : State} {p : Nat} (hm : ∀ c, c < 4 → t.moved p c = s.moved p c) (hp : t.posted p = s.posted p) (xs : List StoreAccess)
    (f : SlotLoad) : t.stays xs f p = s.stays xs f p := by
  have hquota : (List.range 4).map (fun c => t.granted xs f p c - t.moved p c - readsOn xs p c) =
      (List.range 4).map (fun c => s.granted xs f p c - s.moved p c - readsOn xs p c) := by
    refine List.map_congr_left fun c hc => ?_
    have hc := hm c (List.mem_range.mp hc)
    unfold State.granted
    rw [claimed_of_duties hc hp, hc]
  unfold State.stays
  rw [hquota, hp]

/-- What a path has to do, and what it has been granted, is as in `u`. -/
def PathKept (u : State) (p : Nat) (t : State) : Prop :=
  t.posted p = u.posted p ∧ (∀ c, c < 4 → t.moved p c = u.moved p c) ∧ Table.getD t.store.arb p {} = Table.getD u.store.arb p {}

/-- A path that in `u` still had its frame to come has had it, without a fault. -/
def PathGranted (u : State) (xs : List StoreAccess) (f : SlotLoad) (p : Nat) (t : State) : Prop :=
  (Table.getD t.store.arb p {}).granted = min ((Table.getD u.store.arb p {}).granted + ((List.range 4).map (u.claimed xs p)).sum) ctrMax ∧
    t.posted p = u.stays xs f p

/-- Over the frame each path is granted, once, what it claims, and of its writes those stay that have no slot. -/
theorem pathsServed_grants {f : SlotLoad} (hf : f.faults = []) (xs : List StoreAccess) {p : Nat} (hp : p < 5) (s : State) :
    PathGranted (s.taken xs) xs f p (s.pathsServed xs f) := by
  generalize hu : s.taken xs = u
  have hkept : PathKept u p (s.taken xs) := hu ▸ ⟨rfl, fun _ _ => rfl, rfl⟩
  refine each_once (P := PathKept u p) (Q := PathGranted u xs f p) List.nodup_range (List.mem_range.mpr hp) (fun q _ hq t ht => ?before)
    (fun t ht => ?own) (fun q _ hq t ht => ?after) hkept
  case before =>
    obtain ⟨hposted, hmoved, harb⟩ := ht
    obtain ⟨-, hm, ha, -⟩ := pathFrame_sound (no_faults hf q) xs t
    exact ⟨by rw [(pathFrame_frame xs f q t).2, if_neg hq.symm, hposted], fun c hc => by rw [hm p c hq.symm hc, hmoved c hc], by rw [ha p hq.symm, harb]⟩
  case own =>
    obtain ⟨hposted, hmoved, harb⟩ := ht
    obtain ⟨-, -, -, hg⟩ := pathFrame_sound (no_faults hf p) xs t
    have hclaims : (List.range 4).map (t.claimed xs p) = (List.range 4).map (u.claimed xs p) :=
      List.map_congr_left fun c hc => claimed_of_duties (hmoved c (List.mem_range.mp hc)) hposted xs
    exact ⟨by rw [hg, hclaims, harb], by rw [(pathFrame_frame xs f p t).2, if_pos rfl, stays_of_duties hmoved hposted]⟩
  case after =>
    obtain ⟨hg, hposted⟩ := ht
    obtain ⟨-, -, ha, -⟩ := pathFrame_sound (no_faults hf q) xs t
    exact ⟨by rw [ha p hq.symm, hg], by rw [(pathFrame_frame xs f q t).2, if_neg hq.symm, hposted]⟩

theorem slotFrame_grants {f : SlotLoad} (hf : f.faults = []) (xs : List StoreAccess) {p : Nat} (hp : p < 5) (s : State) :
    PathGranted (s.taken xs) xs f p (slotFrame xs f s) := by
  obtain ⟨hg, hposted⟩ := pathsServed_grants hf xs hp s
  obtain ⟨-, -, -, -, harb, -⟩ := leftoverFrame_work f ((List.range 4).map ((s.taken xs).unclaimed xs)) (s.pathsServed xs f)
  exact ⟨by rw [slotFrame_eq, harb p hp, hg], by rw [slotFrame_posted, hposted]⟩

/-- What the eight claimants of the leftover slots of a channel get. -/
theorem leftover_shares (f : SlotLoad) (free c : Nat) (s : State) : (s.leftover f free c).1.getD 0 0 = 1 ∧
    (s.leftover f free c).1.getD 1 0 = min (f.mirror.getD c 0) (pathSlots 5 / 4 + free - 1) ∧
    ((List.range 6).map (fun k => (s.leftover f free c).1.getD (k + 2) 0)).sum =
      min ((List.range 6).map (s.classClaim f c)).sum (pathSlots 5 / 4 + free - 1 - min (f.mirror.getD c 0) (pathSlots 5 / 4 + free - 1)) := by
  obtain ⟨hlen, hsum⟩ := deal_sum (pathSlots 5 / 4 + free - 1 - min (f.mirror.getD c 0) (pathSlots 5 / 4 + free - 1)) (Table.getD s.store.turns c 0)
    ((List.range 6).map (s.classClaim f c)) (List.replicate 6 0) (by simp) (by simp)
  have hsix : ∀ l : List Nat, l.length = 6 → ((List.range 6).map (fun k => l.getD k 0)).sum = l.sum := fun l hl => by
    match l, hl with
    | [a, b, c, d, e, f], _ => rfl
  refine ⟨rfl, rfl, ?_⟩
  refine (hsix _ hlen).trans (hsum.trans ?_)
  simp

/-- Where the claimant of a number finds its share of a channel. -/
theorem slotFrame_given {f : SlotLoad} {c k : Nat} (hc : c < 4) (hk : k < 8) (xs : List StoreAccess) (s : State) :
    Table.getD (slotFrame xs f s).store.given (4 * k + c) 0 = ((s.pathsServed xs f).leftover f ((s.taken xs).unclaimed xs c) c).1.getD k 0 := by
  obtain ⟨-, -, -, -, -, hgiven⟩ := leftoverFrame_work f ((List.range 4).map ((s.taken xs).unclaimed xs)) (s.pathsServed xs f)
  rw [slotFrame_eq, hgiven, getD_of_range _ _ (by omega), show (4 * k + c) % 4 = c by omega, show (4 * k + c) / 4 = k by omega, getD_range_map _ _ hc]

/-- The six classes claim after the reserved paths what they claimed before. -/
theorem pathsServed_classClaim {f : SlotLoad} (hf : f.faults = []) {c : Nat} (hc : c < 4) (xs : List StoreAccess) (s : State) (k : Nat) :
    (s.pathsServed xs f).classClaim f c k = (s.taken xs).classClaim f c k := by
  have hm : (s.pathsServed xs f).moved (5 + k) c = (s.taken xs).moved (5 + k) c :=
    each_keeps (P := fun t : State => t.moved (5 + k) c = (s.taken xs).moved (5 + k) c)
      (fun p hp t ht => ((pathFrame_sound (no_faults hf p) xs t).2.1 _ c (by have := List.mem_range.mp hp; omega) hc).trans ht) rfl
  unfold State.classClaim
  rw [hm]

/-! ### With a fault -/

/-- A claim of the path that waits on a channel was not granted: the arbiter of the channel is fenced, and the writes stay. -/
def HeldBack (s : State) (p c : Nat) (t : State) : Prop :=
  Latched t 0xB6 c ∧ (16, c) ∈ t.cop.lost ∧ (t.posted p).filter (fun w => storeChannel w.granule = c) = (s.posted p).filter (fun w => storeChannel w.granule = c)

/-- The one channel of a path on which less is granted than claimed. -/
theorem failing_channel {f : SlotLoad} {p c : Nat} {s : State} (hf : f.faults = [(p, c)]) (hp : p < 5) (hc : c < 4)
    (hw : (s.posted p).any (fun w => storeChannel w.granule = c) = true) :
    (List.range 4).filter (fun d => decide (s.granted [] f p d < s.claimed [] p d)) = [c] := by
  have hpos : s.granted [] f p c < s.claimed [] p c := by
    have hlen : 0 < ((s.posted p).filter (fun w => storeChannel w.granule = c)).length := by
      rw [List.length_pos_iff_exists_mem]
      obtain ⟨w, hmem, hch⟩ := List.any_eq_true.mp hw
      exact ⟨w, List.mem_filter.mpr ⟨hmem, hch⟩⟩
    have hshare : 0 < pathShare p := by interval_cases p <;> decide
    rw [show s.granted [] f p c = 0 by unfold State.granted; rw [hf]; simp]
    exact Nat.lt_min.mpr ⟨by omega, hshare⟩
  have hsame : ∀ d, d ≠ c → ¬ s.granted [] f p d < s.claimed [] p d := fun d hd => by
    rw [show s.granted [] f p d = s.claimed [] p d by unfold State.granted; rw [hf]; simp [hd]]
    exact lt_irrefl _
  have hdec : (fun d => decide (s.granted [] f p d < s.claimed [] p d)) = fun d => d == c := funext fun d => by
    by_cases hd : d = c
    · subst hd; simpa using hpos
    · rw [decide_eq_false (hsame d hd), beq_eq_false_iff_ne.mpr hd]
  rw [hdec]
  interval_cases c <;> rfl

/-- The frame of the path with the one fault. -/
theorem pathFrame_heldBack {f : SlotLoad} {p c : Nat} {s t : State} (hf : f.faults = [(p, c)]) (hp : p < 5) (hc : c < 4)
    (hw : (s.posted p).any (fun w => storeChannel w.granule = c) = true) (hfree : s.fenced 16 c = false) (hl : (s.lane 16 c).state ≠ 5)
    (hwork : StoreWork s t) (hposted : t.posted p = s.posted p) : HeldBack s p c (pathFrame [] f p t) := by
  obtain ⟨u, hu, -, hpath, -⟩ := pathFrame_serves [] f p t
  rw [failing_channel hf hp hc (by rw [hposted]; exact hw)] at hpath
  have hcop : u.cop = s.cop := hu.cop.trans hwork.cop
  have hlane : u.lane 16 c = s.lane 16 c := by unfold State.lane; rw [hcop, hu.variant, hwork.variant]
  have hfenced : u.fenced 16 c = s.fenced 16 c := by unfold State.fenced; rw [hcop]
  obtain ⟨h1, h2⟩ := arbiterFails_fenced (p := p) (hfenced.trans hfree) (by rw [hlane]; exact hl)
  refine ⟨by rw [hpath]; exact h1, by rw [hpath]; exact List.contains_iff_mem.mp h2, ?_⟩
  rw [(pathFrame_frame [] f p t).2, if_pos rfl, ← hposted]
  refine drain_none ?_
  rw [getD_range_map _ _ hc, show t.granted [] f p c = 0 by unfold State.granted; rw [hf]; simp]
  omega

/-- The one fault of a frame: what is held back, and the arbiter that holds it back. -/
theorem slotFrame_fault {f : SlotLoad} {p c : Nat} {s : State} (hf : f.faults = [(p, c)]) (hp : p < 5) (hc : c < 4)
    (hw : (s.posted p).any (fun w => storeChannel w.granule = c) = true) (hfree : s.fenced 16 c = false) (hl : (s.lane 16 c).state ≠ 5) :
    HeldBack s p c (slotFrame [] f s) := by
  have hother : ∀ q, q ≠ p → ∀ d, f.faults.contains (q, d) = false := fun q hq d => by rw [hf]; simp [hq]
  have hpaths : HeldBack s p c (s.pathsServed [] f) := by
    refine each_once (P := fun t : State => StoreWork s t ∧ t.posted p = s.posted p) (Q := HeldBack s p c)
      List.nodup_range (List.mem_range.mpr hp) (fun q _ hq t ht => ?before) (fun t ht => ?own) (fun q _ hq t ht => ?after) ⟨rfl, rfl⟩
    case before =>
      exact ⟨ht.1.trans (pathFrame_sound (hother q hq) [] t).1, by rw [(pathFrame_frame [] f q t).2, if_neg hq.symm, ht.2]⟩
    case own => exact pathFrame_heldBack hf hp hc hw hfree hl ht.1 ht.2
    case after =>
      obtain ⟨h1, h2, h3⟩ := ht
      obtain ⟨hk, hposted⟩ := pathFrame_frame [] f q t
      exact ⟨hk.latched _ _ h1, hk.lost _ h2, by rw [hposted, if_neg hq.symm, h3]⟩
  obtain ⟨h1, h2, h3⟩ := hpaths
  have hk : FrameWork (s.pathsServed [] f) (slotFrame [] f s) := by rw [slotFrame_eq]; exact leftoverFrame_frame ..
  exact ⟨hk.latched _ _ h1, hk.lost _ h2, by rw [slotFrame_posted]; exact h3⟩

/-! ### Reads (R374, R377) -/

theorem flatten_single {α β : Type} {f : α → List β} {xs : List α} {a : α} (hnd : xs.Nodup) (ha : a ∈ xs) (h : ∀ b ∈ xs, b ≠ a → f b = []) :
    (xs.map f).flatten = f a := by
  have hnil : ∀ ys : List α, (∀ b ∈ ys, f b = []) → (ys.map f).flatten = [] := fun ys hys => by
    rw [List.flatten_eq_nil_iff]
    intro l hl
    obtain ⟨b, hb, rfl⟩ := List.mem_map.mp hl
    exact hys b hb
  induction xs with
  | nil => exact absurd ha List.not_mem_nil
  | cons b r ih =>
    obtain ⟨hb, hr⟩ := List.nodup_cons.mp hnd
    rw [List.map_cons, List.flatten_cons]
    by_cases hba : b = a
    · subst hba
      rw [hnil r fun c hc => h c (List.mem_cons_of_mem _ hc) fun hcb => hb (hcb ▸ hc), List.append_nil]
    · rw [h b List.mem_cons_self hba, List.nil_append]
      exact ih hr (List.mem_of_ne_of_mem (Ne.symm hba) ha) fun c hc => h c (List.mem_cons_of_mem _ hc)

/-- The newest write to a granule that waits in the one buffer that holds it. -/
theorem granule_posted {p g : Nat} {d : Bytes} {xs : List Posted} {s : State} (hp : p < 5) (hlast : s.posted p = xs ++ [⟨g, d⟩])
    (hother : ∀ q, q < 5 → q ≠ p → ∀ w ∈ s.posted q, w.granule ≠ g) : s.granule g = d ∧ s.waits g = true := by
  have hmem : (⟨g, d⟩ : Posted) ∈ ((List.range 5).map s.posted).flatten :=
    List.mem_flatten.mpr ⟨_, List.mem_map_of_mem (List.mem_range.mpr hp), by rw [hlast]; simp⟩
  have hall : ((List.range 5).map s.posted).flatten.filter (fun w => w.granule = g) = (s.posted p).filter (fun w => w.granule = g) := by
    rw [List.filter_flatten, List.map_map]
    refine flatten_single List.nodup_range (List.mem_range.mpr hp) fun q hq hne => ?_
    exact List.filter_eq_nil_iff.mpr fun w hw => by simpa using hother q (List.mem_range.mp hq) hne w hw
  refine ⟨?_, List.any_eq_true.mpr ⟨_, hmem, by simp⟩⟩
  unfold State.granule
  rw [hall, hlast, List.filter_append]
  simp

/-- A write that has room waits, and a read of its granule gives it (R374). -/
theorem taken_write_read {p g e : Nat} {d : Bytes} {s : State} (hp : p < 5) (hroom : (s.posted p).length < postingRoom p)
    (hother : ∀ q, q < 5 → q ≠ p → ∀ w ∈ s.posted q, w.granule ≠ g) :
    (s.taken [⟨p, g, some d, 0⟩, ⟨p, g, none, e⟩]).store.reads = [(p, g, d)] := by
  have hwrite : storeAccess ⟨p, g, some d, 0⟩ { s with store := { s.store with reads := [] } } =
      State.setPosted { s with store := { s.store with reads := [] } } p (s.posted p ++ [⟨g, d⟩]) := by
    unfold storeAccess
    dsimp only
    exact if_pos (by rw [List.length_append]; exact hroom)
  generalize hu : State.setPosted { s with store := { s.store with reads := [] } } p (s.posted p ++ [⟨g, d⟩]) = u at hwrite
  have hposted : ∀ q, u.posted q = if q = p then s.posted p ++ [⟨g, d⟩] else s.posted q := fun q => by subst hu; exact Table.getD_set ..
  have hreads : u.store.reads = [] := by subst hu; rfl
  obtain ⟨hg, hwaits⟩ := granule_posted (s := u) (xs := s.posted p) (d := d) hp (by rw [hposted, if_pos rfl])
    fun q hq hne w hw => hother q hq hne w (by rwa [hposted, if_neg hne] at hw)
  have hread : (storeAccess ⟨p, g, none, e⟩ u).store.reads = u.store.reads ++ [(p, g, u.granule g)] := by
    unfold storeAccess
    dsimp only
    rw [hwaits]
    simp [when]
  unfold State.taken each
  simp only [List.foldl_cons, List.foldl_nil]
  rw [hwrite, hread, hreads, hg]
  rfl

/-- Region 3 starts at a whole number of four granules, so that a place in it is on the channel of its granule (R370). -/
theorem errChannel_granuleAt {g : Nat} {b : Bool} (h : regionOf (g / 16384) = 3) : errChannel (granuleAt g b) = storeChannel g := by
  have hin : inRegion 3 (g / 16384) = true := by
    unfold regionOf at h
    cases hfind : (List.range 13).find? (fun r => inRegion r (g / 16384)) with
    | none => rw [hfind] at h; exact absurd h (by decide)
    | some r =>
      rw [hfind] at h
      have hr : r = 3 := h
      rw [← hr]
      exact List.find?_some (p := fun r => inRegion r (g / 16384)) hfind
  have hbase : 3264 ≤ g / 16384 := by
    simp only [inRegion, regionBase, Bool.and_eq_true, decide_eq_true_eq] at hin
    exact hin.1
  unfold errChannel granuleAt
  dsimp only
  rw [h, show (64 * g - regionBase 3 * 2 ^ 20) / 64 = g - 53477376 by simp only [regionBase]; omega]
  unfold storeChannel
  rw [show Fin.ofNat 4 (g - 53477376) = Fin.ofNat 4 g from Fin.ext (by simp only [Fin.ofNat]; omega)]

/-- An uncorrectable burst of a queue's region gives nothing and is told (R377). -/
theorem taken_uncorrectable {p g : Nat} {s : State} (h : regionOf (g / 16384) = 3) (hw : s.waits g = false) :
    (s.taken [⟨p, g, none, 2⟩]).store.reads = [(p, g, [])] ∧ (s.taken [⟨p, g, none, 2⟩]).store.ueId = storeChannel g * 256 + 3 ∧
      ((s.taken [⟨p, g, none, 2⟩]).errRec (storeChannel g)).ue = min ((s.errRec (storeChannel g)).ue + 1) ctrMax := by
  have hbad : ∃ u, u.store.reads = [(p, g, [])] ∧ u.store.errs = s.store.errs ∧ s.taken [⟨p, g, none, 2⟩] = uncorrectable (granuleAt g false) none u := by
    refine ⟨{ s with store := { s.store with reads := [(p, g, [])] } }, rfl, rfl, ?_⟩
    have hw' : State.waits { s with store := { s.store with reads := [] } } g = false := hw
    unfold State.taken each
    simp only [List.foldl_cons, List.foldl_nil]
    unfold storeAccess
    dsimp only
    rw [hw']
    rfl
  obtain ⟨u, hreads, herrs, htaken⟩ := hbad
  have hreg : (granuleAt g false).region = 3 := h
  have hch : errChannel (granuleAt g false) = storeChannel g := errChannel_granuleAt h
  obtain ⟨off, hstore⟩ := storeUe_store (granuleAt g false) u
  rw [htaken, uncorrectable_queues hreg]
  refine ⟨?_, ?_, ?_⟩
  · show (storeUe (granuleAt g false) u).store.reads = _
    rw [hstore]; exact hreads
  · show (storeUe (granuleAt g false) u).store.ueId = _
    rw [hstore, ← hch, ← hreg]
  · show ((storeUe (granuleAt g false) u).errRec _).ue = _
    rw [← hch, storeUe_errRec, errRec_of_errs herrs]

end Sys2Proof.Machine
end

section
namespace Sys2Proof.Machine
open Sys2Proof

/-! ## Commands of the store -/

theorem within_posted {s t : State} {ps : List Part} (h : .store ∈ ps) (p : Nat) : (s.within ps t).posted p = t.posted p := by simp [State.posted, h]
theorem within_reads {s t : State} {ps : List Part} (h : .store ∈ ps) : (s.within ps t).store.reads = t.store.reads := by simp [h]
theorem within_ueId {s t : State} {ps : List Part} (h : .store ∈ ps) : (s.within ps t).store.ueId = t.store.ueId := by simp [h]
theorem within_arb {s t : State} {ps : List Part} (h : .store ∈ ps) : (s.within ps t).store.arb = t.store.arb := by simp [h]
theorem within_given {s t : State} {ps : List Part} (h : .store ∈ ps) : (s.within ps t).store.given = t.store.given := by simp [h]
theorem within_rowsDue {s t : State} {ps : List Part} (h : .store ∈ ps) : (s.within ps t).store.rowsDue = t.store.rowsDue := by simp [h]
theorem within_fenced {s t : State} {ps : List Part} (h : .cop ∈ ps) (u l : Nat) : (s.within ps t).fenced u l = t.fenced u l := by simp [State.fenced, h]

/-- A row that is reported is repaired from a spare row, or its channel is fenced (R504). -/
theorem rowRepair_of_due {c row : Nat} {s : State} (h : s.store.rowsDue.contains (c, row) = true) : ∃ t : State,
    t = { s with store := { s.store with rowsDue := s.store.rowsDue.filter (· ≠ (c, row)) } } ∧
    rowRepair c row s = if Table.getD s.cop.rowsUsed c 0 < 256
      then { t with cop := { t.cop with rowsUsed := Table.set t.cop.rowsUsed c (Table.getD s.cop.rowsUsed c 0 + 1) 0 } } else failUnit 10 c t := by
  have hfilter : s.store.rowsDue.filter (· != (c, row)) = s.store.rowsDue.filter (· ≠ (c, row)) :=
    List.filter_congr fun x _ => by by_cases hx : x = (c, row) <;> simp [hx]
  refine ⟨_, rfl, ?_⟩
  unfold rowRepair
  rw [if_pos h, hfilter]

/-- A refill that has something to move changes its own queue alone (R380). -/
theorem queueRefill_queue {q : Nat} {s : State} (hq : q < 512) (hm : (s.queue q).middle ≠ 0) (hh : (s.queue q).head < 16) (hf : s.fenced 9 (q / 16) = false)
    (k : Nat) : (queueRefill q none s).queue k = if k = q then (s.queue q).refill else s.queue k := by
  have hgo : ¬ (decide (512 ≤ q) || decide ((s.queue q).middle = 0) || decide (16 ≤ (s.queue q).head) || s.fenced 9 (q / 16)) = true := by
    simp only [hf, hm, Bool.or_false, decide_false, Bool.or_eq_true, decide_eq_true_eq]; omega
  unfold queueRefill
  extract_lets x
  rw [if_neg hgo]
  exact (queue_of_queues (s := s.setQueue q x.refill) rfl k).trans (State.setQueue_queue ..)

/-- A pop that meets an error in the middle of a queue (R377). -/
theorem queuePop_error {q : Nat} {e : StoreErr} {s : State} (hq : q < 512) (he : e.region = 3) :
    queuePop q (some e) s = consumerPop q (!e.fixed) (readError e (some q) s) := by
  unfold queuePop
  rw [if_neg (by omega)]
  dsimp only
  rw [he, if_neg (by simp)]
  simp

/-- A read gives what was posted before it (R374). -/
theorem slotFrame_gives_posted (dt p g e : Nat) (d : Bytes) (f : SlotLoad) (s : State) (hr : s.runs = true) (hp : p < 5)
    (hroom : (s.posted p).length < postingRoom p) (hother : ∀ q, q < 5 → q ≠ p → ∀ w ∈ s.posted q, w.granule ≠ g) :
    ∃ t, exec (.slotFrame dt [⟨p, g, some d, 0⟩, ⟨p, g, none, e⟩] f) s = .next t ∧ t.store.reads = [(p, g, d)] := by
  have hk := slotFrame_frame [⟨p, g, some d, 0⟩, ⟨p, g, none, e⟩] f (s.tick dt)
  refine ⟨_, rfl, ?_⟩
  rw [State.act_runs _ _ _ _ hr, within_reads (by decide), (Prod.mk.inj hk.told).1]
  exact taken_write_read (s := s.tick dt) hp hroom hother

/-- A read in error gives nothing, and is told (R377). -/
theorem slotFrame_tells_uncorrectable (dt p g c : Nat) (f : SlotLoad) (s : State) (hr : s.runs = true) (hreg : regionOf (g / 16384) = 3)
    (hw : s.waits g = false) (hc : c = storeChannel g) :
    ∃ t, exec (.slotFrame dt [⟨p, g, none, 2⟩] f) s = .next t ∧ t.store.reads = [(p, g, [])] ∧ t.store.ueId = c * 256 + 3 ∧
      (t.errRec c).ue = min ((s.errRec c).ue + 1) ctrMax := by
  subst hc
  have hk := slotFrame_frame [⟨p, g, none, 2⟩] f (s.tick dt)
  obtain ⟨hreads, hid, hue⟩ := taken_uncorrectable (p := p) (s := s.tick dt) hreg hw
  obtain ⟨hr', hrest⟩ := Prod.mk.inj hk.told
  obtain ⟨herrs, hid'⟩ := Prod.mk.inj hrest
  refine ⟨_, rfl, ?_⟩
  rw [State.act_runs _ _ _ _ hr, within_reads (by decide), within_ueId (by decide), within_errRec (by decide), hr', hid', errRec_of_errs herrs]
  exact ⟨hreads, hid, hue⟩

/-- A reserved path without a fault is granted what it claims (R23, R371, R372). -/
theorem slotFrame_grants_claims (dt p : Nat) (xs : List StoreAccess) (f : SlotLoad) (s u : State) (hr : s.runs = true) (hp : p < 5)
    (hf : f.faults = []) (hx : ∀ a ∈ xs, a.err ≤ 1) (hu : u = each xs storeAccess (s.tick dt)) :
    ∃ t, exec (.slotFrame dt xs f) s = .next t ∧
      (Table.getD t.store.arb p {}).granted = min ((Table.getD s.store.arb p {}).granted +
        ((List.range 4).map (fun c => min (u.moved p c + readsOn xs p c + ((u.posted p).filter (fun w => storeChannel w.granule = c)).length) (pathSlots p / 4))).sum) ctrMax ∧
      (xs = [] → (∀ c, c < 4 → s.moved p c + ((s.posted p).filter (fun w => storeChannel w.granule = c)).length ≤ pathSlots p / 4) → t.posted p = []) ∧
      OnlyParts s dt [.events, .stats, .queues, .store] t := by
  obtain ⟨hd, harb⟩ := taken_duties hx (s.tick dt)
  obtain ⟨hg, hposted⟩ := slotFrame_grants hf xs hp (s.tick dt)
  have hwork := slotFrame_work hx hf (s.tick dt)
  refine ⟨_, rfl, ?_⟩
  rw [State.act_runs _ _ _ _ hr, within_arb (by decide), within_posted (by decide)]
  refine ⟨?_, fun hnil hroom => ?_, ?_⟩
  · rw [hg, harb]
    have hclaims : (List.range 4).map (((s.tick dt).taken xs).claimed xs p) = (List.range 4).map (u.claimed xs p) :=
      List.map_congr_left fun c _ => by subst hu; exact claimed_of_duties (moved_of_duties hd p c) (posted_of_duties hd p) xs
    rw [hclaims]
    rfl
  · subst hnil
    rw [hposted]
    exact stays_nil (no_faults hf p) hroom
  · rw [hwork]
    exact ⟨⟨_, rfl⟩, rfl⟩

/-- The scrubber has its slot, the event mirror its claims, the six classes as many of theirs as there are slots (R375). -/
theorem slotFrame_gives_leftover (dt c room : Nat) (xs : List StoreAccess) (f : SlotLoad) (s u : State) (hr : s.runs = true) (hc : c < 4)
    (hf : f.faults = []) (hx : ∀ a ∈ xs, a.err ≤ 1) (hu : u = each xs storeAccess (s.tick dt))
    (hroom : room = pathSlots 5 / 4 + ((List.range 5).map (fun p => pathSlots p / 4 - u.claimed xs p c)).sum) :
    ∃ t, exec (.slotFrame dt xs f) s = .next t ∧ Table.getD t.store.given c 0 = 1 ∧
      Table.getD t.store.given (4 + c) 0 = min (f.mirror.getD c 0) (room - 1) ∧
      ((List.range 6).map (fun k => Table.getD t.store.given (4 * (k + 2) + c) 0)).sum =
        min ((List.range 6).map (u.classClaim f c)).sum (room - 1 - min (f.mirror.getD c 0) (room - 1)) := by
  obtain ⟨hd, -⟩ := taken_duties hx (s.tick dt)
  have hfree : pathSlots 5 / 4 + ((s.tick dt).taken xs).unclaimed xs c = room := by
    have hclaims : ∀ p, ((s.tick dt).taken xs).claimed xs p c = u.claimed xs p c := fun p => by
      subst hu; exact claimed_of_duties (moved_of_duties hd p c) (posted_of_duties hd p) xs
    rw [hroom]
    unfold State.unclaimed
    simp only [hclaims]
  have hclass : ((s.tick dt).pathsServed xs f).classClaim f c = u.classClaim f c := funext fun k => by
    rw [pathsServed_classClaim hf hc]
    unfold State.classClaim
    subst hu
    rw [moved_of_duties hd]
  obtain ⟨h0, h1, h2⟩ := leftover_shares f (((s.tick dt).taken xs).unclaimed xs c) c ((s.tick dt).pathsServed xs f)
  rw [hfree] at h1 h2
  rw [hclass] at h2
  refine ⟨_, rfl, ?_⟩
  rw [State.act_runs _ _ _ _ hr, within_given (by decide)]
  refine ⟨?_, ?_, ?_⟩
  · rw [← h0, ← slotFrame_given hc (by decide) xs, Nat.mul_zero, Nat.zero_add]
  · rw [← h1, ← slotFrame_given hc (by decide) xs, Nat.mul_one]
  · rw [← h2]
    exact congrArg List.sum (List.map_congr_left fun k hk => slotFrame_given hc (by have := List.mem_range.mp hk; omega) xs _)

/-- A claim left ungranted fences the channel's arbiter (R376). -/
theorem slotFrame_fences_arbiter (dt p c : Nat) (f : SlotLoad) (s : State) (hr : s.runs = true) (hp : p < 5) (hc : c < 4) (hf : f.faults = [(p, c)])
    (hw : (s.posted p).any (fun w => storeChannel w.granule = c) = true) (hfree : s.fenced 16 c = false) (hl : (s.lane 16 c).state ≠ 5) :
    ∃ t, exec (.slotFrame dt [] f) s = .next t ∧ Latched t 0xB6 c ∧ t.fenced 16 c = true ∧
      (t.posted p).filter (fun w => storeChannel w.granule = c) = (s.posted p).filter (fun w => storeChannel w.granule = c) := by
  obtain ⟨h1, h2, h3⟩ := slotFrame_fault (s := s.tick dt) hf hp hc hw hfree hl
  refine ⟨_, rfl, ?_⟩
  rw [State.act_runs _ _ _ _ hr, within_fenced (by decide), within_posted (by decide)]
  exact ⟨within_latched (by decide) h1, List.contains_iff_mem.mpr h2, h3⟩

/-- A pop gives the oldest item (R383). -/
theorem queuePop_gives_oldest (dt q : Nat) (it : Bytes) (r : List Bytes) (s : State) (hr : s.runs = true) (hq : q < 512)
    (hi : (s.queue q).items = it :: r) (hne : it ≠ damagedMark)
    (hc : 95 < q ∨ consumerOf (s.cfFor (stampAt it 8)).1 (q / 16) (q % 16) ≠ 2) :
    ∃ t, exec (.queuePop dt q none) s = .next t ∧ t.store.popped = some (q, it) ∧ (t.queue q).items = r ∧
      (t.queue q).delivered = min ((s.queue q).delivered + 1) ctrMax ∧ (∀ k, k ≠ q → t.queue k = s.queue k) := by
  have hplain : consumerPop q false (s.tick dt) = popQueue q false (s.tick dt) := consumerPop_plain fun it' r' hi' => by
    have hit : it' = it := (List.cons.inj (hi'.symm.trans hi)).1
    rw [hit]
    exact hc.imp_right .inl
  obtain ⟨h1, h2, h3⟩ := pop_item hi hne
  have hexec : queuePop q none (s.tick dt) = popQueue q false (s.tick dt) := (if_neg (by omega)).trans hplain
  refine ⟨_, rfl, ?_⟩
  rw [State.act_runs _ _ _ _ hr, hexec, within_popped (by decide), popQueue_popped, within_queue (by decide), popQueue_self]
  exact ⟨congrArg (fun y => some (q, y)) h1, h2, h3, fun k hk => by rw [within_queue (by decide), popQueue_queue, if_neg hk]; rfl⟩

/-- The archive service's frames go on to the archive queue (R118). -/
theorem queuePop_archives (dt q : Nat) (it : Bytes) (r : List Bytes) (s : State) (hr : s.runs = true) (hq : q ≤ 95)
    (hfree : s.fenced 9 (q / 16) = false) (hi : (s.queue q).items = it :: r) (hit : it.take 1 = [0x10#8])
    (hc : consumerOf (s.cfFor (stampAt it 8)).1 (q / 16) (q % 16) = 2) (hfull : s.queueFull 136 = false) :
    ∃ t, exec (.queuePop dt q none) s = .next t ∧ (t.queue q).items = r ∧
      (t.queue 136).items = (s.queue 136).items ++ [it.take 4 ++ toBE 4 ((s.queue 136).seq + 1) ++ it.drop 8] := by
  obtain ⟨data, harch⟩ := consumerPop_archives (s := s.tick dt) hq hfree hi hit hc
  have hne : it ≠ damagedMark := by rintro rfl; revert hit; decide
  have hq136 : (136 : Nat) ≠ q := by omega
  have hsame : (popQueue q false (s.tick dt)).queue 136 = s.queue 136 := (popQueue_queue ..).trans (if_neg hq136)
  obtain ⟨_, used, _, _, hle, hstore⟩ := popQueue_store q false (s.tick dt)
  have hroom : (popQueue q false (s.tick dt)).queueFull 136 = false :=
    queueFull_mono (s := s) (Undisturbed.popQueue (.refl _)).lost hsame (by rw [hstore]; exact hle) hfull
  obtain ⟨hitems, hothers⟩ := enqueueData_items (item := it) (data := data) hroom
  have hexec : queuePop q none (s.tick dt) = (enqueueData 136 it data (popQueue q false (s.tick dt))).2 := (if_neg (by omega)).trans harch
  refine ⟨_, rfl, ?_⟩
  rw [State.act_runs _ _ _ _ hr, hexec, within_queue (by decide), within_queue (by decide), hothers q hq136.symm, popQueue_self, hitems, hsame]
  exact ⟨(pop_item hi hne).2.1, rfl⟩

/-- An empty queue gives the idle item (R383). -/
theorem queuePop_gives_idle (dt q : Nat) (s : State) (hr : s.runs = true) (hq : q < 512) (hi : (s.queue q).items = []) :
    ∃ t, exec (.queuePop dt q none) s = .next t ∧ (t.queue q).items = [] ∧ (t.queue q).idles = min ((s.queue q).idles + 1) ctrMax ∧
      t.store.popped = some (q, zeros 4 ++ toBE 4 (if (s.queue q).fresh then 0 else (s.queue q).last) ++ zeros 56) := by
  have hplain : consumerPop q false (s.tick dt) = popQueue q false (s.tick dt) := consumerPop_plain fun it' r' hi' => by
    rw [show (s.tick dt).queue q = s.queue q from rfl, hi] at hi'; exact absurd hi' (by simp)
  obtain ⟨h1, h2, h3⟩ := pop_idle hi
  have hexec : queuePop q none (s.tick dt) = popQueue q false (s.tick dt) := (if_neg (by omega)).trans hplain
  refine ⟨_, rfl, ?_⟩
  rw [State.act_runs _ _ _ _ hr, hexec, within_queue (by decide), within_popped (by decide), popQueue_popped, popQueue_self]
  exact ⟨h2, h3, congrArg (fun y => some (q, y)) h1⟩

/-- A damaged item is delivered as its marker (R377). -/
theorem queuePop_gives_marker (dt q o : Nat) (it : Bytes) (r : List Bytes) (s : State) (hr : s.runs = true) (hq : q < 512) (hi : (s.queue q).items = it :: r) :
    ∃ t, exec (.queuePop dt q (some ⟨3, o, false⟩)) s = .next t ∧
      t.store.popped = some (q, [1#8, 0#8, 0#8, 0#8] ++ toBE 4 ((s.queue q).last + 1) ++ zeros 56) ∧ (t.queue q).items = r ∧
      (t.queue q).last = (s.queue q).last ∧ t.store.ueId = storeChannel (o / 64) * 256 + 3 ∧ Latched t 0xB1 (storeChannel (o / 64)) := by
  obtain ⟨off, hstore⟩ := storeUe_store ⟨3, o, false⟩ (s.tick dt)
  have hue := uncorrectable_queues (e := ⟨3, o, false⟩) rfl (some q) (s.tick dt)
  generalize hu : uncorrectable ⟨3, o, false⟩ (some q) (s.tick dt) = u at hue
  have hus : u.store = (storeUe ⟨3, o, false⟩ (s.tick dt)).store := by rw [hue]; rfl
  have hqueue : u.queue q = s.queue q := queue_of_queues (s := s) (by rw [hus, hstore]; rfl) q
  obtain ⟨h1, h2, h3⟩ := pop_damaged hi
  have hplain : consumerPop q true u = popQueue q true u := consumerPop_plain fun _ _ _ => by
    rw [hqueue, h1]; exact .inr (.inr (by simp))
  have hexec : queuePop q (some ⟨3, o, false⟩) (s.tick dt) = popQueue q true u := by
    rw [queuePop_error hq rfl, readError_not_fixed rfl, hu]
    exact hplain
  have hlatched : Latched u 0xB1 (storeChannel (o / 64)) := by rw [hue]; exact storeUe_latched ⟨3, o, false⟩ _
  obtain ⟨_, _, _, _, -, hpop⟩ := popQueue_store q true u
  refine ⟨_, rfl, ?_⟩
  rw [State.act_runs _ _ _ _ hr, hexec, within_queue (by decide), within_popped (by decide), within_ueId (by decide), popQueue_popped, popQueue_self, hqueue]
  refine ⟨congrArg (fun y => some (q, y)) h1, h2, h3, ?_, within_latched (by decide) ((Undisturbed.popQueue (.refl u)).latched _ _ hlatched)⟩
  rw [hpop, hus, hstore]
  rfl

/-- A corrected word is only counted (R377). -/
theorem queuePop_counts_corrected (dt q o c : Nat) (it : Bytes) (r : List Bytes) (s : State) (hr : s.runs = true) (hq : 95 < q) (hq' : q < 512)
    (hi : (s.queue q).items = it :: r) (hne : it ≠ damagedMark) (hc : c = storeChannel (o / 64)) :
    ∃ t, exec (.queuePop dt q (some ⟨3, o, true⟩)) s = .next t ∧ t.store.popped = some (q, it) ∧ (t.queue q).items = r ∧
      (t.errRec c).ce = min ((s.errRec c).ce + 1) ctrMax ∧ (t.errRec 7).ce = min ((s.errRec 7).ce + 1) ctrMax := by
  obtain ⟨ce, told, hstore⟩ := storeCe_store ⟨3, o, true⟩ (s.tick dt)
  obtain ⟨hchan, hreg⟩ := storeCe_errRec ⟨3, o, true⟩ (s.tick dt)
  generalize hu : storeCe ⟨3, o, true⟩ (s.tick dt) = u at hstore hchan hreg
  have hqueue : u.queue q = s.queue q := queue_of_queues (s := s) (by rw [hstore]; rfl) q
  obtain ⟨h1, h2, -⟩ := pop_item hi hne
  have hplain : consumerPop q false u = popQueue q false u := consumerPop_plain fun _ _ _ => .inl hq
  have hexec : queuePop q (some ⟨3, o, true⟩) (s.tick dt) = popQueue q false u := by
    rw [queuePop_error hq' rfl, readError_fixed rfl, hu]
    exact hplain
  obtain ⟨_, _, _, _, -, hpop⟩ := popQueue_store q false u
  have herr : ∀ k, (popQueue q false u).errRec k = u.errRec k := errRec_of_errs (by rw [hpop])
  refine ⟨_, rfl, ?_⟩
  rw [State.act_runs _ _ _ _ hr, hexec, within_queue (by decide), within_popped (by decide), within_errRec (by decide), within_errRec (by decide),
    popQueue_popped, popQueue_self, hqueue, herr, herr, hc]
  exact ⟨congrArg (fun y => some (q, y)) h1, h2, hchan, hreg⟩

/-- A refill moves items from the middle to the head (R380). -/
theorem queueRefill_moves (dt q : Nat) (s : State) (hr : s.runs = true) (hq : q < 512) (hm : (s.queue q).middle ≠ 0) (hh : (s.queue q).head < 16)
    (hfree : s.fenced 9 (q / 16) = false) :
    ∃ t, exec (.queueRefill dt q none) s = .next t ∧
      t.queue q = { s.queue q with
        head := (s.queue q).head + min (16 - (s.queue q).head) (s.queue q).middle
        middle := (s.queue q).middle - min (16 - (s.queue q).head) (s.queue q).middle } ∧
      (∀ k, k ≠ q → t.queue k = s.queue k) := by
  refine ⟨_, rfl, ?_⟩
  rw [State.act_runs _ _ _ _ hr, within_queue (by decide), queueRefill_queue (s := s.tick dt) hq hm hh hfree, if_pos rfl]
  exact ⟨rfl, fun k hk => by rw [within_queue (by decide), queueRefill_queue (s := s.tick dt) hq hm hh hfree, if_neg hk]; rfl⟩

/-- A pass counts a corrected word in its channel and its region (R378). -/
theorem scrubPassEnd_counts_corrected (dt ms : Nat) (w : ScrubWord) (s : State) (hr : s.runs = true) :
    ∃ t, exec (.scrubPassEnd dt ⟨ms, [w], []⟩) s = .next t ∧ (t.errRec (errChannel w.at_)).ce = min ((s.errRec (errChannel w.at_)).ce + 1) ctrMax ∧
      (t.errRec (4 + w.at_.region)).ce = min ((s.errRec (4 + w.at_.region)).ce + 1) ctrMax ∧ t.store.rowsDue = s.store.rowsDue ∧
      t.store.passMs = min ms 68000 ∧ t.ctr 0xF100 1 = min (s.ctr 0xF100 1 + 1) ctrMax := by
  obtain ⟨herr, hdue, hms, hctr⟩ := scrubEnd_corrected ms w (s.tick dt)
  obtain ⟨hchan, hreg⟩ := storeCe_errRec w.at_ (s.tick dt)
  refine ⟨_, rfl, ?_⟩
  rw [State.act_runs _ _ _ _ hr, within_errRec (by decide), within_errRec (by decide), within_rowsDue (by decide), within_ctr, if_pos (by decide), herr, herr]
  exact ⟨hchan, hreg, hdue, by simpa using hms, hctr⟩

/-- A row with an uncorrectable word is reported (R378). -/
theorem scrubPassEnd_reports_row (dt ms row o c : Nat) (s : State) (hr : s.runs = true) (hc : c = storeChannel (o / 64)) :
    ∃ t, exec (.scrubPassEnd dt ⟨ms, [], [⟨⟨3, o, false⟩, row⟩]⟩) s = .next t ∧ (t.errRec c).ue = min ((s.errRec c).ue + 1) ctrMax ∧
      (c, row) ∈ t.store.rowsDue ∧ Latched t 0xB1 c ∧ Latched t 0xB2 c := by
  subst hc
  obtain ⟨hue, hdue, h1, h2⟩ := scrubEnd_uncorrectable (ms := ms) (row := row) (e := ⟨3, o, false⟩) rfl (s.tick dt)
  refine ⟨_, rfl, ?_⟩
  rw [State.act_runs _ _ _ _ hr, within_errRec (by decide), within_rowsDue (by decide)]
  exact ⟨hue, hdue, within_latched (by decide) h1, within_latched (by decide) h2⟩

/-- A row reported is repaired from a spare row (R504). -/
theorem rowRepair_takes_spare (dt c row : Nat) (s : State) (hr : s.runs = true) (hdue : s.store.rowsDue.contains (c, row) = true)
    (hused : Table.getD s.cop.rowsUsed c 0 < 256) :
    ∃ t, exec (.rowRepair dt c row) s = .next t ∧ t.store.rowsDue = s.store.rowsDue.filter (· ≠ (c, row)) ∧
      Table.getD t.cop.rowsUsed c 0 = Table.getD s.cop.rowsUsed c 0 + 1 ∧ OnlyParts s dt [.store, .cop] t := by
  obtain ⟨t, ht, hrep⟩ := rowRepair_of_due (s := s.tick dt) hdue
  rw [if_pos (show Table.getD (s.tick dt).cop.rowsUsed c 0 < 256 from hused)] at hrep
  refine ⟨_, rfl, ?_⟩
  rw [State.act_runs _ _ _ _ hr, hrep, ht]
  refine ⟨rfl, ?_, ⟨_, rfl⟩, rfl⟩
  rw [State.within_cop, if_pos (by decide)]
  simp

/-- With no spare row left the channel is fenced (R504). -/
theorem rowRepair_fences_channel (dt c row : Nat) (s : State) (hr : s.runs = true) (hdue : s.store.rowsDue.contains (c, row) = true)
    (hused : 256 ≤ Table.getD s.cop.rowsUsed c 0) (hl : (s.lane 10 c).state ≠ 5) :
    ∃ t, exec (.rowRepair dt c row) s = .next t ∧ t.fenced 10 c = true ∧ Table.getD t.cop.rowsUsed c 0 = Table.getD s.cop.rowsUsed c 0 := by
  obtain ⟨t, ht, hrep⟩ := rowRepair_of_due (s := s.tick dt) hdue
  have hlane : (t.lane 10 c).state ≠ 5 := by rw [ht]; exact hl
  have hcop : t.cop = s.cop := by rw [ht]; rfl
  obtain ⟨u, hfence, -, hlost, hrows, -⟩ := fence_channel (.inl rfl) c t
  rw [if_neg (show ¬ Table.getD (s.tick dt).cop.rowsUsed c 0 < 256 from Nat.not_lt.mpr hused)] at hrep
  have hfail : failUnit 10 c t = fence 10 c t := if_neg hlane
  refine ⟨_, rfl, ?_⟩
  rw [State.act_runs _ _ _ _ hr, hrep, hfail, within_fenced (by decide)]
  refine ⟨?_, ?_⟩
  · unfold State.fenced
    rw [hfence.lost, hlost]
    simp
  · show Table.getD (fence 10 c t).cop.rowsUsed c 0 = _
    rw [hfence.rows, hrows, hcop]

/-- A queue's high-water mark is set to what it holds (R386). -/
theorem clearHighWater_sets (dt n : Nat) (m : Msg) (v : List (BitVec 8)) (s : State) (x : Session) (hr : s.runs = true)
    (h : TakesWrite (s.tick dt) m x 0xF100 8 v n) (hn : n ≤ 511) :
    ∃ t, exec (.clearHighWater dt m v) s = .next t ∧ Answered t m x 0x12 stOk ∧ t.queue n = { s.queue n with high := (s.queue n).items.length } ∧
      (∀ k, k ≠ n → t.queue k = s.queue k) := by
  have hclear : ∀ (y : Session) (u : State), clearHighWater y n u = (stOk, u.setQueue n { u.queue n with high := (u.queue n).items.length }) :=
    fun y u => if_pos hn
  obtain ⟨t, ht, ha, body, rfl⟩ := write_acts (x := x) (n := n) (c := .clearHighWater dt m v) (hc := rfl) (by decide) hr h
    (hclear _ _) (State.afterTake_self h.1.2.1) (by simp)
  have hbefore : ∀ k, ((s.tick dt).afterWrite m 0xF100 8 v x).queue k = s.queue k := queue_of_queues (by simp)
  refine ⟨_, ht, ha, ?_⟩
  have hafter : ∀ k (u : State), (respond (x.afterWrite m 0xF100 8 v (s.tick dt).elapsed) 0x12 m.tag stOk body u).queue k = u.queue k :=
    fun k u => queue_of_queues (by simp) k
  refine ⟨?_, fun k hk => ?_⟩
  · rw [within_queue (by decide), hafter, State.setQueue_queue, if_pos rfl, hbefore]
  · rw [within_queue (by decide), hafter, State.setQueue_queue, if_neg hk, hbefore]

/-- Learned latencies are forgotten (R204). -/
theorem clearLearnedLatency_forgets (dt n : Nat) (m : Msg) (v : List (BitVec 8)) (s : State) (x : Session) (hr : s.runs = true)
    (h : TakesWrite (s.tick dt) m x 0x6000 3 v n) :
    ∃ t, exec (.clearLearnedLatency dt m v) s = .next t ∧ (n = 0xFFFF → Answered t m x 0x12 stOk ∧ t.align.lat = []) ∧
      (n < s.contexts → Answered t m x 0x12 stOk ∧ Table.find t.align.lat n = none ∧ (∀ k, k ≠ n → Table.find t.align.lat k = Table.find s.align.lat k)) ∧
      (s.contexts ≤ n → n ≠ 0xFFFF → Answered t m x 0x12 stRejected ∧ t.align = s.align) := by
  by_cases hall : n = 0xFFFF
  · have hmany : s.contexts ≤ n := by rw [hall]; unfold State.contexts byPart; split <;> decide
    have hclear : ∀ (y : Session) (u : State), clearLearned y n u = (stOk, { u with align := { u.align with lat := [] } }) := fun y u => if_pos hall
    obtain ⟨t, ht, ha, body, rfl⟩ := write_acts (x := x) (n := n) (c := .clearLearnedLatency dt m v) (hc := rfl) (by decide) hr h
      (hclear _ _) (State.afterTake_self h.1.2.1) (by simp)
    exact ⟨_, ht, fun _ => ⟨ha, by simp⟩, fun hlt => absurd hlt (by omega), fun _ hne => absurd hall hne⟩
  · by_cases hlt : n < s.contexts
    · have hclear : ∀ (y : Session) (u : State), u.variant = s.variant → clearLearned y n u = (stOk, clearLatency n u) := fun y u hu =>
        (if_neg hall).trans (if_pos (by unfold State.contexts at hlt ⊢; rwa [hu]))
      obtain ⟨t, ht, ha, body, rfl⟩ := write_acts (x := x) (n := n) (c := .clearLearnedLatency dt m v) (hc := rfl) (by decide) hr h
        (hclear _ _ (by simp)) (State.afterTake_self h.1.2.1) (by simp)
      exact ⟨_, ht, fun hn => absurd hn hall, fun _ => ⟨ha, by simp [clearLatency], fun k hk => by simp [clearLatency, hk]⟩, fun hge => absurd hlt (by omega)⟩
    · have hclear : ∀ (y : Session) (u : State), u.variant = s.variant → clearLearned y n u = (stRejected, u) := fun y u hu =>
        (if_neg hall).trans (if_neg (by unfold State.contexts at hlt ⊢; rwa [hu]))
      obtain ⟨t, ht, ha, body, rfl⟩ := write_acts (x := x) (n := n) (c := .clearLearnedLatency dt m v) (hc := rfl) (by decide) hr h
        (hclear _ _ (by simp)) (State.afterTake_self h.1.2.1) (by simp)
      exact ⟨_, ht, fun hn => absurd hn hall, fun hn => absurd hn hlt, fun _ _ => ⟨ha, by simp⟩⟩

/-- Settles O45, command by command. -/
theorem storeActs : Obligations.StoreActs :=
  ⟨slotFrame_gives_posted, slotFrame_tells_uncorrectable, slotFrame_grants_claims, slotFrame_gives_leftover, slotFrame_fences_arbiter,
    fun dt q it r s hr hq _ => queuePop_gives_oldest dt q it r s hr hq, queuePop_archives, queuePop_gives_idle,
    fun dt q o it r s hr hq _ => queuePop_gives_marker dt q o it r s hr hq, queuePop_counts_corrected, queueRefill_moves,
    scrubPassEnd_counts_corrected, scrubPassEnd_reports_row, rowRepair_takes_spare, rowRepair_fences_channel, clearHighWater_sets,
    clearLearnedLatency_forgets⟩

end Sys2Proof.Machine
end

section
namespace Sys2Proof.Machine
open Sys2Proof

/-! ## The state after reset, and reports -/

/-- Settles O59: with no cell listed every byte reads as its default, and with no counter listed every counter reads 0. -/
theorem resetIsCanonical : Obligations.ResetIsCanonical := by
  unfold Obligations.ResetIsCanonical
  exact ⟨rfl, rfl, rfl, rfl, rfl, fun _ => rfl, fun _ _ => rfl⟩

/-- A report that is kept, read within the bounds of R418 and R558. -/
theorem reportRead_kept {gen : BitVec 32} {off n : Nat} {s : State} {r : Report} (h0 : 0 < n) (hn : n ≤ 1280) (hm : s.mode.cur ≠ .zeroized)
    (hr : s.osr.reports.find? (fun y => y.gen = gen) = some r) (x : Session) : reportRead gen off n x s = (stOk, slice (reportBytes r) off n, s) := by
  have hb : (n = 0 || 1280 < n || s.mode.cur = .zeroized) = false := by simp [hm, hn]; omega
  unfold reportRead
  rw [hr, hb]
  rfl

/-- What R418, R426 and R558 refuse. -/
theorem reportRead_refused {gen : BitVec 32} {off n : Nat} {s : State} (h : n = 0 ∨ 1280 < n ∨ s.mode.cur = .zeroized ∨ ∀ r ∈ s.osr.reports, r.gen ≠ gen)
    (x : Session) : reportRead gen off n x s = (stRejected, [], s) := by
  unfold reportRead
  by_cases hb : n = 0 ∨ 1280 < n ∨ s.mode.cur = .zeroized
  · rw [if_pos (by simpa [or_assoc] using hb)]
  · have hnone : s.osr.reports.find? (fun y => y.gen = gen) = none := List.find?_eq_none.mpr (by
      have := h
      simp only [not_or] at hb
      simpa [hb] using h)
    rw [hnone, ite_self]

/-- Settles O7: the message is taken, and its effect is that of `reportRead`. -/
theorem reportsAreRead : Obligations.ReportsAreRead := by
  unfold Obligations.ReportsAreRead
  refine ⟨fun dt off n gen m s x r hr ht h0 hn hm hrep => ?kept, fun dt off n gen m s x hr ht h => ?refused⟩
  case kept =>
    obtain ⟨t, he, ha, rfl⟩ := msg_acts (x := x) (c := .reportRead dt m gen off n) (hc := rfl) (by decide) hr ht
      (reportRead_kept (s := (s.tick dt).afterTake m _ _ x) h0 hn (by simpa using hm) (by simpa using hrep) _) (State.afterTake_self ht.2.1) (by simp)
    obtain ⟨a, hresp, _, _, _, _, _, hbody⟩ := respond_resp (x := x.after m 0x24 (toBE 4 gen.toNat ++ toBE 4 off ++ toBE 2 n) (s.tick dt).elapsed)
      (y := x.after m 0x24 (toBE 4 gen.toNat ++ toBE 4 off ++ toBE 2 n) (s.tick dt).elapsed) (s := (s.tick dt).afterTake m 0x24 _ x)
      (by simpa [State.session_id ht.2.1] using State.afterTake_self ht.2.1) 0x24 m.tag stOk (slice (reportBytes r) off n)
    exact ⟨_, a, he, ha, by simpa using hresp, hbody⟩
  case refused =>
    obtain ⟨t, he, ha, -⟩ := msg_acts (x := x) (c := .reportRead dt m gen off n) (hc := rfl) (by decide) hr ht
      (reportRead_refused (s := (s.tick dt).afterTake m _ _ x) (by simpa using h) _) (State.afterTake_self ht.2.1) (by simp)
    exact ⟨t, he, ha⟩

end Sys2Proof.Machine
end

section
namespace Sys2Proof.Machine
open Sys2Proof

/-! ## The power-fail warning (R67 to R69, R76) -/

/-- A command that finds nothing to do: only the clock runs. -/
theorem State.within_tick (s : State) (ps : List Part) (dt : Nat) : s.within ps (s.tick dt) = s.tick dt := by
  by_cases h : Part.time ∈ ps <;> simp [State.within, State.tick, h]

namespace Undisturbed
variable {s t : State}

theorem raiseFree {id inst top : Nat} (h : Undisturbed s t) : Undisturbed s (raiseFree id inst top t) := .raise (h.update rfl)

end Undisturbed

/-- A source that is there latches an occurrence whose parameter is free as well. -/
theorem raiseFree_latched (id inst top : Nat) (s : State) (ha : eventAbsent s.variant id inst = false) (hr : eventReserved id = false) :
    Latched (raiseFree id inst top s) id inst := raise_latched _ _ _ _ ha hr

/-- Stopping an activation touches the update engine and the request that waits. -/
theorem stopActivation_beside (s : State) : (stopActivation s).ev = s.ev ∧ (stopActivation s).power = s.power ∧ (stopActivation s).mode.cur = s.mode.cur := by
  unfold stopActivation
  split
  · exact ⟨rfl, rfl, rfl⟩
  · dsimp only
    split
    · split
      · exact ⟨rfl, rfl, rfl⟩
      · split <;> exact ⟨rfl, rfl, rfl⟩
    · exact ⟨rfl, rfl, rfl⟩

/-- A pulse longer than the filter, while no warning is in force (R67). -/
theorem pwrFail_warns {low : Nat} {s : State} (hl : 20000 < low) (h0 : s.power.failState = 0) : (pwrFail low s).power.failState = 1 ∧
    (pwrFail low s).power.failAt = s.elapsed ∧ Latched (pwrFail low s) 0x01 0 ∧ (pwrFail low s).mode.cur = s.mode.cur := by
  have hb : ¬ (low ≤ 20000 || s.power.failState != 0) = true := by simp [h0, hl]
  have hu : Undisturbed s (each s.cop.tests testIncomplete (raiseFree 0x01 0 0 s)) := .each (.raiseFree (.refl s)) fun _ _ => .testIncomplete (.refl _)
  have hl' : Latched (each s.cop.tests testIncomplete (raiseFree 0x01 0 0 s)) 0x01 0 :=
    (Undisturbed.each (.refl _) fun _ _ => .testIncomplete (.refl _)).latched _ _ (raiseFree_latched _ _ _ _ (by simp [eventAbsent]) rfl)
  unfold pwrFail
  rw [if_neg hb]
  extract_lets s1
  obtain ⟨hev, hpow, hcur⟩ := stopActivation_beside { s1 with power := { s1.power with failState := 1, failAt := s1.elapsed } }
  refine ⟨by rw [hpow], ?_, ?_, ?_⟩
  · rw [hpow]
    exact congrArg TimeU.elapsed hu.time
  · unfold Latched
    rw [hev]
    exact hl'
  · rw [hcur]
    exact congrArg ModeU.cur hu.mode

/-- The end of a key command without effect touches the key store and its counts. -/
theorem keyResult_same (cmd status reason target revoked us : Nat) (s : State) :
    (keyResult cmd status reason target revoked us s).power = s.power ∧ (keyResult cmd status reason target revoked us s).jrn = s.jrn ∧
      (keyResult cmd status reason target revoked us s).time = s.time ∧ (keyResult cmd status reason target revoked us s).mode = s.mode ∧
      (keyResult cmd status reason target revoked us s).rec_ = s.rec_ := by
  unfold keyResult
  dsimp only
  cases decide (status = stRejected) <;> simp [State.setKey]

theorem abandonKeyCmd_same (s : State) : (abandonKeyCmd s).power = s.power ∧ (abandonKeyCmd s).jrn = s.jrn ∧ (abandonKeyCmd s).time = s.time ∧
    (abandonKeyCmd s).mode = s.mode ∧ (abandonKeyCmd s).rec_ = s.rec_ := by
  unfold abandonKeyCmd
  split
  · exact ⟨rfl, rfl, rfl, rfl, rfl⟩
  · exact keyResult_same ..

/-- No entry is pending once a page holds them (R67 step 4). -/
theorem journalFlush_pend (s : State) : (journalFlush s).rec_.pend = [] := by
  unfold journalFlush
  dsimp only
  split
  · assumption
  · rfl

theorem journalFlush_beside (s : State) : (journalFlush s).time = s.time ∧ (journalFlush s).mode = s.mode := by
  unfold journalFlush
  dsimp only
  split <;> exact ⟨rfl, rfl⟩

/-- Step 5 of R67: what is pending is in the journals. -/
theorem pwrQuiesced_acts {s : State} (h : s.power.failState = 1) : (pwrQuiesced s).power.failState = 2 ∧
    (pwrQuiesced s).jrn.time = some (s.time.gen, s.time.tai / 1000000000) ∧ (pwrQuiesced s).jrn.mode = s.mode.cur.code ∧ (pwrQuiesced s).rec_.pend = [] := by
  obtain ⟨-, -, htime, hmode, -⟩ := abandonKeyCmd_same s
  obtain ⟨hftime, hfmode⟩ := journalFlush_beside (abandonKeyCmd s)
  have htime' : (journalFlush (abandonKeyCmd s)).time = s.time := hftime.trans htime
  have hmode' : (journalFlush (abandonKeyCmd s)).mode = s.mode := hfmode.trans hmode
  unfold pwrQuiesced
  rw [if_pos h]
  refine ⟨rfl, ?_, ?_, journalFlush_pend (abandonKeyCmd s)⟩
  · simp only [flushTime, htime']
  · simp only [flushTime, hmode']

/-- What the end of a warning looks at: it is told, the mode stays, and no activation or fall-back waits for it. -/
def State.restored (s : State) : Nat × EventU × ModeU × Option Mode × Nat := (s.power.failState, s.ev, s.mode, s.upd.resume, s.upd.leaving)

theorem journalTime_restored (s : State) : (journalTime s).restored = s.restored := by
  unfold journalTime
  split <;> rfl

/-- Nothing of what the warning has kept out of the journals is looked at by the end of the warning (R68). -/
theorem writeRecord_restored (kind bank : Nat) (s : State) : (writeRecord kind bank s).restored = s.restored := rfl
theorem journalFlush_restored (s : State) : (journalFlush s).restored = s.restored := by
  unfold journalFlush
  dsimp only
  split <;> rfl
theorem journalClear_restored (s : State) : (journalClear s).restored = s.restored := journalFlush_restored _
theorem journalUtc_restored (s : State) : (journalUtc s).restored = s.restored := rfl

theorem State.when_restored {f : State → State} (hf : ∀ s, (f s).restored = s.restored) (b : Bool) (s : State) : (when b f s).restored = s.restored := by
  cases b
  · rfl
  · exact hf s

/-- With nothing to resume and nothing to leave, the end of a warning is that of the journals. -/
theorem fallBack_resumeMode {s : State} (hres : s.upd.resume = none) (hleave : s.upd.leaving = 0) : fallBack (resumeMode s) = s := by
  have hm : resumeMode s = s := by
    unfold resumeMode
    rw [hres]
  rw [hm]
  unfold fallBack
  rw [if_neg (by simp [hleave])]

/-- Power is back while a warning is in force (R68). -/
theorem pwrRestored_ends {s : State} (h : s.power.failState ≠ 0) (hres : s.upd.resume = none) (hleave : s.upd.leaving = 0) :
    (pwrRestored s).restored = (0, (raiseFree 0x02 0 0 s).ev, s.mode, none, 0) := by
  have hsame : Undisturbed s (raiseFree 0x02 0 0 s) := .raiseFree (.refl s)
  unfold pwrRestored
  rw [if_neg h]
  extract_lets s1 p s2
  have hall : (when s2.time.utcOwed journalUtc (when s2.rec_.clearOwed journalClear (when s2.upd.owed (writeRecord 5 s2.inactive) (journalTime s2)))).restored =
      (0, s1.ev, s.mode, none, 0) := by
    rw [State.when_restored journalUtc_restored, State.when_restored journalClear_restored, State.when_restored (writeRecord_restored _ _), journalTime_restored]
    simp only [State.restored, s2, s1, hsame.mode, hsame.upd, hres, hleave]
  obtain ⟨-, -, -, hr, hl⟩ := by simpa only [State.restored, Prod.mk.injEq] using hall
  rw [fallBack_resumeMode hr hl, hall]

/-- Settles O16, command by command. -/
theorem powerFailWarning : Obligations.PowerFailWarning := by
  unfold Obligations.PowerFailWarning
  refine ⟨fun dt low s hr hl h0 => ?warn, fun dt low s hr hl => ?filtered, fun dt s hr h1 => ?quiesced, fun dt s hr h hres hleave => ?back, fun dt s hr h0 => ?flush⟩
  case warn =>
    obtain ⟨hfail, hat, hlatch, hcur⟩ := pwrFail_warns (s := s.tick dt) hl h0
    refine ⟨_, rfl, ?_⟩
    rw [State.act_runs _ _ _ _ hr]
    exact ⟨hfail, hat, within_latched (by decide) hlatch, rfl⟩
  case filtered =>
    have hnone : pwrFail low (s.tick dt) = s.tick dt := if_pos (by simp [hl])
    show Host.Outcome.next (s.act _ dt (pwrFail low)) = _
    rw [State.act_runs _ _ _ _ hr, hnone, State.within_tick]
  case quiesced =>
    obtain ⟨hfail, htime, hmode, hpend⟩ := pwrQuiesced_acts (s := s.tick dt) h1
    refine ⟨_, rfl, ?_⟩
    rw [State.act_runs _ _ _ _ hr]
    exact ⟨hfail, htime, hmode, hpend⟩
  case back =>
    have hall := pwrRestored_ends (s := s.tick dt) h hres hleave
    obtain ⟨hfail, hev, hmode, -, -⟩ := by simpa only [State.restored, Prod.mk.injEq] using hall
    refine ⟨_, rfl, ?_⟩
    rw [State.act_runs _ _ _ _ hr]
    refine ⟨hfail, within_latched (by decide) ?_, by simp [hmode]⟩
    unfold Latched
    rw [hev]
    exact raiseFree_latched _ _ _ _ (by simp [eventAbsent]) rfl
  case flush =>
    have hf : configFlush (s.tick dt) = flushTime (s.tick dt) := if_pos h0
    show Host.Outcome.next (s.act _ dt configFlush) = _
    rw [State.act_runs _ _ _ _ hr, hf]
    rfl

end Sys2Proof.Machine
end

section
namespace Sys2Proof.Machine
open Sys2Proof

/-! ## Supplies, RESET_N, temperature (R47 to R50, R538) -/

/-- Power hold that has lasted its 2 ms with every rail good is over (R47). -/
theorem wake_due {s : State} (hp : s.power.phase = .hold) (hg : s.power.good.all id = true) (hat : s.power.since + 2000000 ≤ s.elapsed) :
    wake s = s.setPower { s.power with phase := if s.power.resetLow then .reset else .booting, attemptAt := s.power.since + 2000000 } :=
  if_pos (by simp only [hp, hg, hat, decide_true, Bool.and_self])

/-- Until then power hold goes on. -/
theorem wake_held {s : State} (h : s.power.good.all id = false ∨ s.elapsed < s.power.since + 2000000) : wake s = s :=
  if_neg (by rcases h with h | h <;> simp [h])

/-- Elsewhere than in power hold nothing is waited for. -/
theorem wake_of_phase {s : State} (h : s.power.phase ≠ .hold) : wake s = s := if_neg (by simp [h])

/-- The end of power hold touches the start alone. -/
theorem wake_same (s : State) : ∃ p : PowerU, wake s = s.setPower p ∧ p.good = s.power.good ∧ p.resetLow = s.power.resetLow := by
  unfold wake
  dsimp only
  split
  · exact ⟨_, rfl, rfl, rfl⟩
  · exact ⟨s.power, rfl, rfl, rfl⟩

/-- Nothing starts in power hold. -/
theorem startUp_of_phase {s : State} (h : s.power.phase ≠ .booting) (i : StartIn) : startUp i s = s := if_pos (by simpa using h)

/-- A pulse of a microsecond holds a running device (R50). -/
theorem resetAssert_running {width : Nat} {s : State} (hw : 1000 ≤ width) (hp : s.power.phase = .running) :
    resetAssert width s = s.takeFree.2.setPower { s.power with resetLow := true, phase := .reset, start := { cause := 2, cold := false } } := by
  have hw' : ¬ width < 1000 := Nat.not_lt.mpr hw
  unfold resetAssert
  simp [hw', hp]

/-- Settles O17, command by command. -/
theorem suppliesAndResetAct : Obligations.SuppliesAndResetAct := by
  unfold Obligations.SuppliesAndResetAct
  refine ⟨fun dt mV r s hg hv => ?good, fun dt i s hp hw => ?held, fun dt s hp hg hat => ?ends, fun dt mV r s hv => ?fails, fun dt width s hw hp => ?asserted,
    fun dt s hp => ?released, fun dt tj s ht hh hth => ?hot, fun dt tj s ht hp hlow => ?cooled⟩
  case good =>
    have hk : railGood r mV (s.tick dt) = (s.tick dt).setPower { s.power with good := s.power.good.set (railNo r) true, since := s.elapsed + dt } :=
      if_neg (by simpa [List.getD, hg] using hv)
    show Host.Outcome.next (s.within _ (railGood r mV (s.tick dt))) = _
    rw [hk]
    rfl
  case held =>
    have hwake : wake (s.tick dt) = s.tick dt := wake_held hw
    have hstart : startUp i (s.tick dt) = s.tick dt := startUp_of_phase (by simp [hp]) i
    have hrelease : resetRelease (s.tick dt) = (s.tick dt).setPower { s.power with resetLow := false } := if_neg (by simp [State.setPower, hp])
    refine ⟨?_, ?_⟩
    · show Host.Outcome.next (s.within _ (startUp i (wake (s.tick dt)))) = _
      rw [hwake, hstart, State.within_tick]
    · show Host.Outcome.next (s.within _ (resetRelease (wake (s.tick dt)))) = _
      rw [hwake, hrelease]
      rfl
  case ends => exact congrArg State.power (wake_due (s := s.tick dt) hp hg hat)
  case fails =>
    obtain ⟨p, hwake, hgood, hlow⟩ := wake_same (s.tick dt)
    have hk : railFail r mV (wake (s.tick dt)) = ((s.tick dt).setPower p).setPower { p with phase := .hold, good := p.good.set (railNo r) false, start := {} } := by
      rw [hwake]
      exact if_pos hv
    refine ⟨_, rfl, ⟨⟨_, rfl⟩, ?_⟩, ?_⟩ <;> rw [hk]
    · rfl
    · exact ⟨rfl, by simp [State.setPower, hgood], rfl, hlow⟩
  case asserted =>
    have hwake : wake (s.tick dt) = s.tick dt := wake_of_phase (by simp [hp])
    have hk := resetAssert_running (s := s.tick dt) hw hp
    refine ⟨_, rfl, ?_, ⟨_, rfl⟩, ?_⟩ <;> rw [hwake, hk] <;> rfl
  case released =>
    have hwake : wake (s.tick dt) = s.tick dt := wake_of_phase (by simp [hp])
    have hk : resetRelease (s.tick dt) = beginBoot ((s.tick dt).setPower { s.power with resetLow := false }) := if_pos hp
    show Host.Outcome.next (s.within _ (resetRelease (wake (s.tick dt)))) = _
    rw [hwake, hk]
    rfl
  case hot =>
    have hk : thermalShutdown tj (s.tick dt) = (s.tick dt).setPower { s.power with phase := .thermal, start := {} } := if_pos (by simp [ht, hh, hth])
    show Host.Outcome.next (s.within _ (thermalShutdown tj (s.tick dt))) = _
    rw [hk]
    rfl
  case cooled =>
    have hk : thermalRecovery tj (s.tick dt) = beginBoot (s.tick dt) := if_pos (by simp [ht, hp])
    show Host.Outcome.next (s.within _ (thermalRecovery tj (s.tick dt))) = _
    rw [hk]
    simp only [beginBoot, State.tick_same, hlow]
    rfl

/-! ## Starts that fail (R53) -/

/-- What a failed attempt does not touch, and the attempts counted. -/
theorem failAttempt_counts (cause : Nat) (s : State) : (failAttempt cause s).power.phase = .retry ∧ (failAttempt cause s).power.attemptAt = s.elapsed ∧
    (failAttempt cause s).jrn = { s.jrn with failedBoots := min 3 (s.jrn.failedBoots + 1), untold := s.jrn.untold + 1 } := ⟨rfl, rfl, rfl⟩

/-- A FALLBACK record is the update engine's. -/
theorem fallRecord_same (b why : Nat) (s : State) : ∃ u, fallRecord b why s = s.setUpd u := ⟨_, rfl⟩

/-- Whichever bank the next attempt takes, the attempt has failed. -/
theorem bootFail_fails (b : Nat) (s : State) : ∃ cause u, bootFail b s = failAttempt cause (s.setUpd u) := by
  unfold bootFail
  extract_lets trial second
  split
  · exact ⟨6, _, rfl⟩
  · exact ⟨4, s.upd, rfl⟩

/-- The choice of the bank writes the update engine's records alone. -/
theorem bankSelect_same (s : State) : ∃ u, (bankSelect s).2.2 = s.setUpd u := by
  unfold bankSelect
  dsimp only
  split
  · exact ⟨_, rfl⟩
  · exact ⟨_, rfl⟩
  · exact ⟨s.upd, rfl⟩
  · exact ⟨s.upd, rfl⟩
  · exact ⟨s.upd, rfl⟩

/-- A start whose 5 s are over has failed. -/
theorem bootTimeout_due {s : State} (hp : s.power.phase = .booting) (hat : s.power.attemptAt + 5000000000 ≤ s.elapsed) :
    ∃ cause u, bootTimeout s = failAttempt cause ((bootFuses s).setUpd u) := by
  obtain ⟨u, hbank⟩ := bankSelect_same (bootFuses s)
  unfold bootTimeout
  rw [if_pos (by simp [hp, hat])]
  show ∃ cause u, bootFail (bankSelect (bootFuses s)).1 (bankSelect (bootFuses s)).2.2 = _
  rw [hbank]
  exact bootFail_fails _ _

/-- A start that takes longer than 5 s has failed: the attempt is counted on what it found. -/
theorem startUp_late {s : State} {i : StartIn} (hp : s.power.phase = .booting) (ht : 5000000000 < i.took) :
    ∃ (cause : Nat) (t : State) (u : UpdU) (ps : List Part), startUp i s = t.within ps (failAttempt cause (t.setUpd u)) ∧ t.jrn = s.jrn ∧ t.cfg = s.cfg ∧
      Part.power ∈ ps ∧ Part.journal ∈ ps := by
  unfold startUp
  rw [if_neg (by simp [hp])]
  extract_lets rose s1 late
  have hl : late = true := decide_eq_true ht
  rw [hl]
  split
  · exact ⟨4, s1, s1.upd, _, rfl, rfl, rfl, by decide, by decide⟩
  · rcases bankSelect s1 with ⟨b, c, t⟩
    obtain ⟨cause, u, hfail⟩ := bootFail_fails b (s1.within [.upd] t)
    exact ⟨cause, s1.within [.upd] t, u, [.power, .journal, .upd], congrArg (State.within _ _) hfail, rfl, rfl, by decide, by decide⟩

/-- Settles O18: what every failed attempt leaves, for a start without step 7, one that waits for the next, and one that took too long. -/
theorem failedStartsAreRetried : Obligations.FailedStartsAreRetried := by
  unfold Obligations.FailedStartsAreRetried
  refine ⟨fun dt s hp hat => ?timeout, fun dt s hp hat => ?retry, fun dt i s hp ht hn => ?late⟩
  case timeout =>
    have hwake : wake (s.tick dt) = s.tick dt := wake_of_phase (by simp [hp])
    obtain ⟨cause, u, hk⟩ := bootTimeout_due (s := s.tick dt) hp hat
    refine ⟨_, rfl, ?_⟩
    rw [hwake, hk]
    exact ⟨rfl, rfl, rfl, rfl, rfl, rfl, rfl⟩
  case retry =>
    have hk : bootRetry (s.tick dt) = beginBoot (s.tick dt) := if_pos (Bool.and_eq_true_iff.mpr ⟨decide_eq_true hp, decide_eq_true hat⟩)
    show Host.Outcome.next (s.within _ (bootRetry (s.tick dt))) = _
    rw [hk]
    rfl
  case late =>
    have hwake : wake (s.tick dt) = s.tick dt := wake_of_phase (by simp [hp])
    obtain ⟨cause, t, u, ps, hk, hjrn, hcfg, hpow, hjou⟩ := startUp_late (s := s.tick dt) hp ht
    have hless : min 3 (s.jrn.failedBoots + 1) = s.jrn.failedBoots + 1 := Nat.min_eq_right hn
    refine ⟨_, rfl, ?_⟩
    rw [hwake, hk]
    simp [hpow, hjou, hjrn, hcfg, failAttempt, State.setUpd, hless]

end Sys2Proof.Machine
end

section
namespace Sys2Proof.Machine
open Sys2Proof

/-! ## Answers to a session that the effect may have ended (R413, R416) -/

/-- No message has gone out to a session between two states: each session there has its transmit number still. -/
def KeepsNumbers (s t : State) : Prop := ∀ j z, t.session j = some z → ∃ y, s.session j = some y ∧ z.txSeq = y.txSeq

namespace KeepsNumbers
variable {s t u : State}

theorem refl (s : State) : KeepsNumbers s s := fun _ z h => ⟨z, h, rfl⟩

theorem trans (h : KeepsNumbers s t) (k : KeepsNumbers t u) : KeepsNumbers s u := fun j z hz =>
  have ⟨y, hy, hyz⟩ := k j z hz
  have ⟨w, hw, hwy⟩ := h j y hy
  ⟨w, hw, hyz.trans hwy⟩

theorem of_sessions (h : t.osr.sessions = s.osr.sessions) : KeepsNumbers s t := fun j z hz => ⟨z, (State.session_congr h j).symm.trans hz, rfl⟩

/-- Sessions keep their numbers under a change of something else of theirs. -/
theorem of_map {f : Session → Session} (hid : ∀ x, (f x).id = x.id) (hseq : ∀ x, (f x).txSeq = x.txSeq) (h : t.osr.sessions = s.osr.sessions.map f) :
    KeepsNumbers s t := by
  intro j z hz
  unfold State.session at hz ⊢
  rw [h, List.find?_map] at hz
  have hp : ((fun x : Session => decide (x.id = j)) ∘ f) = fun x => decide (x.id = j) := by
    funext x
    simp [hid]
  rw [hp] at hz
  obtain ⟨y, hy, rfl⟩ := Option.map_eq_some_iff.mp hz
  exact ⟨y, hy, hseq y⟩

theorem each {α : Type} {f : α → State → State} {xs : List α} (hf : ∀ a u, KeepsNumbers u (f a u)) (s : State) : KeepsNumbers s (each xs f s) := by
  unfold Sys2Proof.each
  induction xs generalizing s with
  | nil => exact refl s
  | cons a r ih => exact (hf a s).trans (ih (f a s))

/-- A session that ends needs none. -/
theorem endSession (sid : Nat) (s : State) : KeepsNumbers s (endSession sid s) := by
  cases hx : s.session sid with
  | none =>
    have hsame : Machine.endSession sid s = s := by
      unfold Machine.endSession
      rw [hx]
    rw [hsame]
    exact refl s
  | some x =>
    intro j z hz
    rw [endSession_session hx] at hz
    by_cases hj : j = sid
    · simp [hj] at hz
    · rw [if_neg hj] at hz
      exact ⟨z, hz, rfl⟩

end KeepsNumbers

/-- An answer goes out under the session's number, whether it is there still or has just ended. -/
theorem respond_answers {x : Session} {s : State} (h : ∀ y, s.session x.id = some y → y.txSeq = x.txSeq) (type tag status : Nat) (body : Bytes) :
    ∃ r, (respond x type tag status body s).osr.resp = some r ∧ r.sid = x.id ∧ r.type = type ∧ r.tag = tag ∧ r.seq = x.txSeq ∧ r.status = status := by
  cases hy : s.session x.id with
  | none => simp [respond, hy]
  | some y => simp [respond, hy, h y hy]

/-- A command that carries a WRITE whose value is taken, and whose effect sends no message of its own: its answer, and the state it leaves. -/
theorem write_answers {s : State} {dt : Nat} {m : Msg} {x : Session} {c : Instr} {ps : List Part} {idx sub n : Nat} {v : Bytes}
    {f : Session → Nat → State → Nat × State} (hc : exec c s = .next (s.act ps dt (onWrite m idx sub v f))) (hp : .sessions ∈ ps) (hr : s.runs = true)
    (h : TakesWrite (s.tick dt) m x idx sub v n) {st : Nat} {u : State}
    (hf : f (x.afterWrite m idx sub v (s.tick dt).elapsed) n ((s.tick dt).afterWrite m idx sub v x) = (st, u))
    (hu : KeepsNumbers ((s.tick dt).afterWrite m idx sub v x) u) :
    ∃ t, exec c s = .next t ∧ Answered t m x 0x12 st ∧
      ∃ body, t = s.within ps (respond (x.afterWrite m idx sub v (s.tick dt).elapsed) 0x12 m.tag st body u) := by
  have hid : (x.afterWrite m idx sub v (s.tick dt).elapsed).id = m.sid := by
    rw [Session.after_same .. |>.1]
    exact State.session_id h.1.2.1
  have hseq : ∀ y, u.session (x.afterWrite m idx sub v (s.tick dt).elapsed).id = some y → y.txSeq = (x.afterWrite m idx sub v (s.tick dt).elapsed).txSeq := by
    intro y hy
    rw [hid] at hy
    obtain ⟨z, hz, hyz⟩ := hu _ _ hy
    rw [State.afterTake_self h.1.2.1, Option.some.injEq] at hz
    rw [hyz, ← hz]
  refine ⟨_, hc, ?_, ?_⟩ <;> rw [State.act_runs _ _ _ _ hr, onWrite_takes h, hf]
  · obtain ⟨r, h1, h2, h3, h4, h5, h6⟩ := respond_answers hseq 0x12 m.tag st (if st = stClamped then toBE v.length n else [])
    exact ⟨r, by simp only [State.within_osr, hp, if_true, h1], h2.trans (by simp), h3, h4, h5.trans (by simp), h6⟩
  · exact ⟨_, rfl⟩

/-- An occurrence that the effect of a message has raised is latched once it is answered. -/
theorem answered_latched {s u : State} {ps : List Part} {x : Session} {type tag status : Nat} {body : Bytes} {id inst : Nat} (hp : .events ∈ ps)
    (h : Latched u id inst) : Latched (s.within ps (respond x type tag status body u)) id inst :=
  within_latched hp ((Undisturbed.respond (.refl u)).latched _ _ h)

/-! ## Mode requests (R57 to R63) -/

/-- The request's message changes nothing that the mode controller looks at. -/
theorem State.afterWrite_gates (s : State) (dt : Nat) (m : Msg) (v : Bytes) (x : Session) :
    ((s.tick dt).afterWrite m 0x1100 2 v x).inTransition = s.inTransition ∧ ((s.tick dt).afterWrite m 0x1100 2 v x).underWay = s.underWay ∧
      ((s.tick dt).afterWrite m 0x1100 2 v x).readable = s.readable ∧ ((s.tick dt).afterWrite m 0x1100 2 v x).fenceLevel = s.fenceLevel := by
  simp [State.inTransition, State.underWay, State.readable, State.fenceLevel, State.cf]

theorem modeGate_open {go : State → Nat × State} {s : State} (h : s.inTransition = false) : modeGate go s = go s := if_neg (by simp [h])
theorem modeGate_busy {go : State → Nat × State} {s : State} (h : s.inTransition = true) : modeGate go s = (stBusy, setReq 2 s) := if_pos h

/-- No session speaks in a transition, and no key changes. -/
theorem toMode_same (m : Mode) (cause : Nat) (s : State) : (toMode m cause s).osr = s.osr ∧ (toMode m cause s).key = s.key := by
  have hj : ∀ t : State, (journalTime t).osr = t.osr ∧ (journalTime t).key = t.key := fun t => by unfold journalTime; split <;> exact ⟨rfl, rfl⟩
  unfold toMode
  extract_lets old s1 s2
  have h1 : s1.osr = s.osr ∧ s1.key = s.key := by simp [s1, enterMode, hj, unitParts]
  have h2 : s2.osr = s.osr ∧ s2.key = s.key := by simp [s2, h1, unitParts]
  cases old.forms && !m.forms && !s.draining with
  | true => exact h2
  | false => exact h2

/-- The mode entered, and why. -/
theorem toMode_cur (m : Mode) (cause : Nat) (s : State) : (toMode m cause s).mode.cur = m ∧ (toMode m cause s).mode.cause = cause := by
  rw [toMode_mode]
  exact ⟨rfl, rfl⟩

section Requests
variable {s : State} {dt n : Nat} {m : Msg} {x : Session} {c : Instr} {ps : List Part} {go : State → Nat × State}

/-- A request of a transition that takes place at once (R59). -/
theorem modeRequest_enters {M : Mode} (hc : exec c s = .next (s.act ps dt (onWrite m 0x1100 2 (toBE 1 n) (fun _ _ => go)))) (hps : [.sessions, .events, .mode, .request] ⊆ ps)
    (hr : s.runs = true) (h : TakesWrite (s.tick dt) m x 0x1100 2 (toBE 1 n) n)
    (hgo : ∀ u : State, u.mode = s.mode → u.cfg = s.cfg → u.inTransition = s.inTransition → go u = (stOk, setReq 0 (toMode M 0x0101 u))) :
    ∃ t, exec c s = .next t ∧ Answered t m x 0x12 stOk ∧ Latched t 0x00 0 ∧ t.mode.cur = M ∧ t.mode.prev = s.mode.cur.code ∧ t.mode.cause = 0x0101 ∧
      t.mode.reqStatus = 0 := by
  obtain ⟨hsess, hev, hmode, hreq⟩ : .sessions ∈ ps ∧ .events ∈ ps ∧ .mode ∈ ps ∧ .request ∈ ps := by simpa using hps
  obtain ⟨t, he, ha, body, rfl⟩ := write_answers hc hsess hr h
    (hgo _ (by simp) (by simp) (State.afterWrite_gates ..).1) (.of_sessions (congrArg OsrU.sessions (toMode_same ..).1))
  refine ⟨_, he, ha, answered_latched hev (toMode_enters _ _ _).2, ?_⟩
  simp [hmode, hreq, setReq, toMode_mode, State.entered]

/-- A request of a transition that waits for its instant (R58). -/
theorem modeRequest_waits {M : Mode} (hc : exec c s = .next (s.act ps dt (onWrite m 0x1100 2 (toBE 1 n) (fun _ _ => go)))) (hps : [.sessions, .request] ⊆ ps)
    (hr : s.runs = true) (h : TakesWrite (s.tick dt) m x 0x1100 2 (toBE 1 n) n)
    (hgo : go ((s.tick dt).afterWrite m 0x1100 2 (toBE 1 n) x) = (stPending, setReq 3 (pendMode M 0x0101 false ((s.tick dt).afterWrite m 0x1100 2 (toBE 1 n) x)))) :
    ∃ t p, exec c s = .next t ∧ Answered t m x 0x12 stPending ∧ t.mode.cur = s.mode.cur ∧ t.mode.pend = some p ∧ p.target = M ∧
      p.atNs = effInstant (s.tick dt).time.tai ∧ p.stopped = false ∧ t.mode.reqStatus = 3 := by
  obtain ⟨hsess, hreq⟩ : .sessions ∈ ps ∧ .request ∈ ps := by simpa using hps
  obtain ⟨t, he, ha, body, rfl⟩ := write_answers hc hsess hr h hgo (.of_sessions rfl)
  refine ⟨_, { target := M, atNs := effInstant (s.tick dt).time.tai, gen := s.time.gen, cause := 0x0101 }, he, ha, ?_, ?_, rfl, rfl, rfl, ?_⟩
  · by_cases hm : Part.mode ∈ ps <;> simp [hm, setReq, pendMode]
  all_goals simp [hreq, setReq, pendMode, State.tick]

/-- A request that is answered without a transition: the mode stays, and 0x1100.03 tells why (R59). -/
theorem modeRequest_stays {st k : Nat} {u : State} (hc : exec c s = .next (s.act ps dt (onWrite m 0x1100 2 (toBE 1 n) (fun _ _ => go)))) (hps : [.sessions, .request] ⊆ ps)
    (hr : s.runs = true) (h : TakesWrite (s.tick dt) m x 0x1100 2 (toBE 1 n) n)
    (hgo : go ((s.tick dt).afterWrite m 0x1100 2 (toBE 1 n) x) = (st, u)) (hu : u.osr = ((s.tick dt).afterWrite m 0x1100 2 (toBE 1 n) x).osr)
    (hmode : u.mode = { s.mode with reqStatus := k }) :
    ∃ t, exec c s = .next t ∧ Answered t m x 0x12 st ∧ t.mode = { s.mode with reqStatus := k } ∧
      ((∀ id inst, Latched u id inst → .events ∈ ps → Latched t id inst) ∧ (.reset ∈ ps → t.rst = u.rst)) := by
  obtain ⟨hsess, hreq⟩ : .sessions ∈ ps ∧ .request ∈ ps := by simpa using hps
  obtain ⟨t, he, ha, body, rfl⟩ := write_answers hc hsess hr h hgo (.of_sessions (congrArg OsrU.sessions hu))
  refine ⟨_, he, ha, ?_, fun _ _ hl hev => answered_latched hev hl, fun hrst => by simp [hrst]⟩
  by_cases hm : Part.mode ∈ ps <;> simp [hm, hreq, hmode]

/-- A request that is not in the table (R59): EV_MODE_REQ_REJECTED. -/
theorem modeRequest_rejected {k : Nat} (hc : exec c s = .next (s.act ps dt (onWrite m 0x1100 2 (toBE 1 n) (fun _ _ => go)))) (hps : [.sessions, .request, .events] ⊆ ps)
    (hr : s.runs = true) (h : TakesWrite (s.tick dt) m x 0x1100 2 (toBE 1 n) n)
    (hgo : go ((s.tick dt).afterWrite m 0x1100 2 (toBE 1 n) x) = (stRejected, rejectReq k ((s.tick dt).afterWrite m 0x1100 2 (toBE 1 n) x))) :
    ∃ t, exec c s = .next t ∧ Answered t m x 0x12 stRejected ∧ t.mode = { s.mode with reqStatus := 1 } ∧ Latched t 0x07 0 := by
  obtain ⟨hsess, hreq, hev⟩ : .sessions ∈ ps ∧ .request ∈ ps ∧ .events ∈ ps := by simpa using hps
  obtain ⟨t, he, ha, hm, hl, -⟩ := modeRequest_stays (k := 1) hc (by simp [hsess, hreq]) hr h hgo (by simp [rejectReq, setReq]) (by simp [rejectReq, setReq])
  exact ⟨t, he, ha, hm, hl _ _ (raise_latched _ _ _ _ (by simp [eventAbsent]) rfl) hev⟩

end Requests
end Sys2Proof.Machine
end

section
namespace Sys2Proof.Machine
open Sys2Proof

/-! ## What is not a transition of the table (R59) -/

/-- A request that waits for its turn: nothing but 0x1100.03 changes. -/
theorem modeRequest_busy {s : State} {dt n : Nat} {m : Msg} {x : Session} {c : Instr} {ps : List Part} {go : State → Nat × State}
    (hc : exec c s = .next (s.act ps dt (onWrite m 0x1100 2 (toBE 1 n) (fun _ _ => go)))) (hps : [.sessions, .request] ⊆ ps) (hr : s.runs = true)
    (h : TakesWrite (s.tick dt) m x 0x1100 2 (toBE 1 n) n)
    (hgo : ∀ u : State, u.inTransition = s.inTransition → u.underWay = s.underWay → go u = (stBusy, setReq 2 u)) :
    ∃ t, exec c s = .next t ∧ Answered t m x 0x12 stBusy ∧ t.mode = { s.mode with reqStatus := 2 } := by
  obtain ⟨htr, huw, -, -⟩ := s.afterWrite_gates dt m (toBE 1 n) x
  obtain ⟨t, he, ha, hm, -⟩ := modeRequest_stays (k := 2) hc hps hr h (hgo _ htr huw) rfl (by simp [setReq])
  exact ⟨t, he, ha, hm⟩

theorem State.inTransition_of_underWay {s : State} (h : s.underWay = true) : s.inTransition = true := by simp [State.inTransition, h]

/-- Settles O13: a request that the gate lets through is refused by its own conditions, and one that it does not is BUSY. -/
theorem otherModeRequestsAreRefused : Obligations.OtherModeRequestsAreRefused := by
  unfold Obligations.OtherModeRequestsAreRefused
  refine ⟨fun dt m s x hr h htr hno => ?operate, fun dt m s x hr h htr hno => ?safe, fun dt m s x hr h htr hno => ?configure,
    fun dt m s x hr h htr hno hnc => ?standby, fun dt n m c s x hr hmem h hbusy => ?busy⟩
  case operate =>
    obtain ⟨hgate, -, hread, hfence⟩ := s.afterWrite_gates dt m (toBE 1 4) x
    refine modeRequest_rejected (k := 4) (go := modeGate askOperate) (c := .modeRequestOperate dt m) (hc := rfl) (by decide) hr h ?_
    rw [modeGate_open (hgate.trans htr)]
    refine if_neg ?_
    simp only [hread, hfence, State.afterTake_same, State.tick_same, Bool.and_eq_true, decide_eq_true_eq]
    rintro ⟨⟨hcur, hopen⟩, hlevel⟩
    rcases hno with hno | hno | hno
    · exact hno hcur
    · simp [hno] at hopen
    · omega
  case safe =>
    obtain ⟨hgate, -, -, -⟩ := s.afterWrite_gates dt m (toBE 1 6) x
    refine modeRequest_rejected (k := 6) (go := modeGate askSafe) (c := .modeRequestSafe dt m) (hc := rfl) (by decide) hr h ?_
    rw [modeGate_open (hgate.trans htr)]
    exact if_neg (by simp [hno])
  case configure =>
    obtain ⟨hgate, -, -, -⟩ := s.afterWrite_gates dt m (toBE 1 2) x
    refine modeRequest_rejected (k := 2) (go := modeGate askConfigure) (c := .modeRequestConfigure dt m) (hc := rfl) (by decide) hr h ?_
    rw [modeGate_open (hgate.trans htr)]
    exact if_neg (by simpa using hno)
  case standby =>
    obtain ⟨hgate, -, -, -⟩ := s.afterWrite_gates dt m (toBE 1 3) x
    refine modeRequest_rejected (k := 3) (go := modeGate askStandby) (c := .modeRequestStandby dt m) (hc := rfl) (by decide) hr h ?_
    rw [modeGate_open (hgate.trans htr)]
    refine (if_neg ?_).trans (if_neg (by simp [hno]))
    simp only [State.afterTake_same, State.tick_same]
    rcases hnc with hnc | hnc <;> simp [hnc]
  case busy =>
    have gated : ∀ (go : State → Nat × State), n ≠ 7 → ∀ u : State, u.inTransition = s.inTransition → u.underWay = s.underWay →
        modeGate go u = (stBusy, setReq 2 u) := fun go hn u htr _ =>
      modeGate_busy (htr.trans (hbusy.elim State.inTransition_of_underWay (·.2)))
    simp only [List.mem_cons, Prod.mk.injEq, List.not_mem_nil, or_false] at hmem
    rcases hmem with ⟨rfl, rfl⟩ | ⟨rfl, rfl⟩ | ⟨rfl, rfl⟩ | ⟨rfl, rfl⟩ | ⟨rfl, rfl⟩ | ⟨rfl, rfl⟩
    · exact modeRequest_busy (hc := rfl) (by decide) hr h (gated askQuickset (by decide))
    · exact modeRequest_busy (hc := rfl) (by decide) hr h (gated askConfigure (by decide))
    · exact modeRequest_busy (hc := rfl) (by decide) hr h (gated askStandby (by decide))
    · exact modeRequest_busy (hc := rfl) (by decide) hr h (gated askOperate (by decide))
    · exact modeRequest_busy (hc := rfl) (by decide) hr h (gated askSafe (by decide))
    · have huw : s.underWay = true := hbusy.elim id fun hne => absurd rfl hne.1
      exact modeRequest_busy (hc := rfl) (by decide) hr h fun u _ hu => if_pos (hu.trans huw)

/-! ## A destruction of everything (R61, R463, R464) -/

/-- What a destruction does beside the key store leaves the keys, the mode and the numbers of the sessions that stay. -/
structure Halts (s t : State) : Prop where
  key : t.key = s.key
  cur : t.mode.cur = s.mode.cur
  numbers : KeepsNumbers s t

namespace Halts
variable {s t u : State}

theorem refl (s : State) : Halts s s := ⟨rfl, rfl, .refl s⟩
theorem trans (h : Halts s t) (k : Halts t u) : Halts s u := ⟨k.key.trans h.key, k.cur.trans h.cur, h.numbers.trans k.numbers⟩

theorem drainEnd (s : State) : Halts s (drainEnd s) :=
  ⟨by simp [Machine.drainEnd, dropPrevious, unitParts], rfl, .of_sessions (by simp [Machine.drainEnd, dropPrevious, unitParts])⟩

theorem dropItems (q : Nat) (s : State) : Halts s (dropItems q s) := by
  have hpool : ∀ (n : Nat) (t : State), (setPool n t).key = t.key ∧ (setPool n t).mode = t.mode ∧ (setPool n t).osr = t.osr := fun n t => by
    unfold setPool
    dsimp only
    split
    · simp
    · split <;> exact ⟨rfl, rfl, rfl⟩
  unfold Machine.dropItems
  dsimp only
  split
  · exact ⟨rfl, rfl, .of_sessions rfl⟩
  · obtain ⟨hkey, hmode, hosr⟩ := hpool ((s.setQueue q { s.queue q with items := [], data := [], head := 0, middle := 0, pool := 0, fullAt := none }).store.poolUsed - (s.queue q).pool)
      (s.setQueue q { s.queue q with items := [], data := [], head := 0, middle := 0, pool := 0, fullAt := none })
    exact ⟨hkey, congrArg ModeU.cur hmode, .of_sessions (congrArg OsrU.sessions hosr)⟩

theorem each {α : Type} {f : α → State → State} {xs : List α} (hf : ∀ a u, Halts u (f a u)) (s : State) : Halts s (each xs f s) :=
  each_preserves (P := Halts s) (fun a _ h => h.trans (hf a _)) (.refl s)

theorem haltData (s : State) : Halts s (haltData s) := by
  unfold Machine.haltData
  refine .trans ?_ (.each (fun _ _ => .each (fun _ _ => .dropItems _ _) _) _)
  exact ⟨rfl, rfl, .of_map (f := fun x => { x with stage := none }) (fun _ => rfl) (fun _ => rfl) rfl⟩

theorem endSession (sid : Nat) (s : State) : Halts s (endSession sid s) := ⟨by simp, by simp, .endSession sid s⟩

end Halts

theorem keyResult_key (cmd status reason target revoked us : Nat) (s : State) : (keyResult cmd status reason target revoked us s).key =
    { s.key with result := { s.key.result with cmd := cmd, status := status, reason := reason, target := target, revoked := revoked, us := us } } := by
  unfold keyResult
  dsimp only
  cases decide (status = stRejected) <;> simp [State.setKey]

/-- The key store once its keys are gone (R464): the verification key alone is left, no root is in force, and the zeroize flag is set. -/
structure Wiped (s t : KeyU) : Prop where
  slots : t.slots.map (·.1) = [0]
  inForce : t.inForce = none
  wrap : t.wrap = {}
  destroyed : t.destroyed = true
  zeroized : t.zeroized = true
  life : t.life = s.life
  /-- No area becomes free: that of the root in force is burnt. -/
  free : t.areaFree = true → s.areaFree = true
  roots : s.inForce = none → t.roots = s.roots

/-- Programming a used area frees none. -/
theorem areaFree_of_burnt {roots : List RootArea} {i : Nat} (h : (roots.set i .burnt).any (fun r => !r.used) = true) : roots.any (fun r => !r.used) = true := by
  obtain ⟨r, hr, hu⟩ := List.any_eq_true.mp h
  rcases List.mem_or_eq_of_mem_set hr with hmem | rfl
  · exact List.any_eq_true.mpr ⟨r, hmem, hu⟩
  · simp [RootArea.burnt] at hu

theorem endKeyCmd_same (s : State) : (endKeyCmd s).osr = s.osr ∧ (endKeyCmd s).mode = s.mode ∧
    ∃ r c, (endKeyCmd s).key = { s.key with result := r, cmd := c } := by
  unfold endKeyCmd
  split
  · exact ⟨rfl, rfl, s.key.result, s.key.cmd, rfl⟩
  · refine ⟨?_, ?_, _, none, keyResult_key ..⟩
    all_goals unfold keyResult State.setKey when; dsimp only; split <;> simp

theorem wipeKeys_wipes (s : State) : Wiped s.key (wipeKeys s).key ∧ (wipeKeys s).osr = s.osr ∧ (wipeKeys s).mode = s.mode := by
  obtain ⟨hosr, hmode, r, c, hkey⟩ := endKeyCmd_same s
  have hodd : ∀ z : Nat, z % 2 ≠ 1 → (z + 1) % 16 % 2 = 1 := by omega
  unfold wipeKeys
  extract_lets t k gone last roots
  have hk : k = { s.key with result := r, cmd := c } := hkey
  refine ⟨⟨by simp [State.setKey], by simp [State.setKey], by simp [State.setKey], by simp [State.setKey], ?_, ?_, ?_, ?_⟩, by simpa [State.setKey] using hosr,
    by simpa [State.setKey] using hmode⟩
  · simp only [countN_same, State.setKey]
    cases hz : k.zeroized with
    | true => exact hz
    | false => simpa [KeyU.zeroized] using hodd _ (by simpa [KeyU.zeroized] using hz)
  · simp [State.setKey, hk]
  · intro hfree
    have hroots : roots.any (fun r => !r.used) = true := by simpa [State.setKey, KeyU.areaFree] using hfree
    have hkroots : k.roots = s.key.roots := by rw [hk]
    unfold KeyU.areaFree
    rw [← hkroots]
    simp only [roots] at hroots
    split at hroots
    · exact areaFree_of_burnt hroots
    · exact hroots
  · intro hnone
    simp [State.setKey, roots, hk, hnone]

theorem returnPassage_keeps (s : State) : KeepsNumbers s (returnPassage s) := by
  unfold returnPassage
  split
  · exact .of_sessions (congrArg OsrU.sessions (toMode_same ..).1)
  · exact .refl s

/-- From ZEROIZED a returned device with an area for a root passes on (R460). -/
theorem returnPassage_passes {s : State} (hcur : s.mode.cur = .zeroized) (hrma : s.key.life = .rma) (hfree : s.key.areaFree = true) :
    (returnPassage s).mode.cur = .provision ∧ (returnPassage s).mode.cause = 0x0108 ∧
      (returnPassage s).key = { s.key with zeroize := (s.key.zeroize + 1) % 16, destroyed := false } := by
  have hpassage : returnPassage s = toMode .provision 0x0108 (s.setKey { s.key with zeroize := (s.key.zeroize + 1) % 16, destroyed := false }) :=
    if_pos (by simp [hcur, hrma, hfree])
  obtain ⟨-, hkey⟩ := toMode_same .provision 0x0108 (s.setKey { s.key with zeroize := (s.key.zeroize + 1) % 16, destroyed := false })
  obtain ⟨hmode, hcause⟩ := toMode_cur .provision 0x0108 (s.setKey { s.key with zeroize := (s.key.zeroize + 1) % 16, destroyed := false })
  rw [hpassage]
  exact ⟨hmode, hcause, hkey⟩

theorem returnPassage_stays {s : State} (h : s.key.life ≠ .rma ∨ s.key.areaFree = false) : returnPassage s = s :=
  if_neg (by rcases h with h | h <;> simp [h])

/-- A destruction outside of QUICKSET enters ZEROIZED with the keys gone, and goes on as the device's life lets it. -/
theorem destroyAll_enters (cause : Nat) {s : State} (hcur : s.mode.cur ≠ .zeroized) : ∃ t, destroyAll cause false s = returnPassage t ∧ KeepsNumbers s t ∧
    t.mode.cur = .zeroized ∧ t.mode.cause = cause ∧ t.key = (wipeKeys s).key := by
  obtain ⟨-, hosr, hmode⟩ := wipeKeys_wipes s
  unfold destroyAll
  extract_lets s1 s2
  have hdrain : Halts (wipeKeys s) (when s.draining drainEnd (wipeKeys s)) := by
    cases s.draining
    · exact .refl _
    · exact .drainEnd _
  have h2 : Halts (wipeKeys s) s2 := (hdrain.trans (.haltData _)).trans (.each (fun _ _ => .endSession _ _) _)
  clear_value s2
  rw [if_neg (by simp [h2.cur, hmode, hcur])]
  obtain ⟨hosr3, hkey3⟩ := toMode_same .zeroized cause s2
  exact ⟨_, rfl, ((KeepsNumbers.of_sessions (congrArg OsrU.sessions hosr)).trans h2.numbers).trans (.of_sessions (congrArg OsrU.sessions hosr3)),
    (toMode_cur ..).1, (toMode_cur ..).2, hkey3.trans h2.key⟩

end Sys2Proof.Machine
end

section
namespace Sys2Proof.Machine
open Sys2Proof

/-- What a key store holds: its slots, the root in force and its wrap key, and whether it has been destroyed. -/
def KeyU.holds (k : KeyU) : Table KeySlot × Option Nat × Shares × Bool × Nat := (k.slots, k.inForce, k.wrap, k.destroyed, k.zeroize)

/-- A zeroize request that no transition keeps back (R61, R464): the keys go, and what follows is the passage from ZEROIZED. -/
theorem modeRequestZeroize_destroys {s : State} {dt : Nat} {m : Msg} {x : Session} (hr : s.runs = true) (h : TakesWrite (s.tick dt) m x 0x1100 2 (toBE 1 7) 7)
    (hno : s.underWay = false) (hcur : s.mode.cur ≠ .zeroized) : ∃ t w, exec (.modeRequestZeroize dt m) s = .next t ∧ Answered t m x 0x12 stOk ∧
      w.mode.cur = .zeroized ∧ w.mode.cause = 0x0101 ∧ Wiped s.key w.key ∧ t.mode.cur = (returnPassage w).mode.cur ∧ t.mode.cause = (returnPassage w).mode.cause ∧
      t.key.holds = (returnPassage w).key.holds := by
  obtain ⟨-, huw, -, -⟩ := s.afterWrite_gates dt m (toBE 1 7) x
  obtain ⟨w, hall, hnum, hwcur, hwcause, hwkey⟩ := destroyAll_enters (s := setReq 0 ((s.tick dt).afterWrite m 0x1100 2 (toBE 1 7) x)) 0x0101 (by simpa [setReq] using hcur)
  obtain ⟨hw, -, -⟩ := wipeKeys_wipes (setReq 0 ((s.tick dt).afterWrite m 0x1100 2 (toBE 1 7) x))
  rw [← hwkey] at hw
  have hask : askZeroize ((s.tick dt).afterWrite m 0x1100 2 (toBE 1 7) x) = (stOk, returnPassage w) := by
    unfold askZeroize
    rw [if_neg (by simp [huw, hno]), if_pos (by simpa using hcur), hall]
  obtain ⟨t, he, ha, body, rfl⟩ := write_answers (c := .modeRequestZeroize dt m) (f := fun _ _ => askZeroize) (hc := rfl) (by decide) hr h hask
    (hnum.trans (returnPassage_keeps w))
  exact ⟨_, w, he, ha, hwcur, hwcause, ⟨hw.slots, hw.inForce, hw.wrap, hw.destroyed, hw.zeroized, by simpa [setReq] using hw.life, by simpa [setReq, KeyU.areaFree] using hw.free,
    by simpa [setReq] using hw.roots⟩, by simp, by simp, by simp [KeyU.holds]⟩

/-- Settles O12, request by request: each passes the gate and the condition of its row. -/
theorem modeRequestsAct : Obligations.ModeRequestsAct := by
  unfold Obligations.ModeRequestsAct
  refine ⟨fun dt m s x hr h htr => ?quickset, fun dt m s x hr h htr hcur => ?configure, fun dt m s x hr h htr hcur hvalid => ?standby,
    fun dt m s x hr h htr hforms => ?stop, fun dt m s x hr h htr hcur hread hfence => ?operate, fun dt m s x hr h htr hfull => ?safe,
    fun dt m s x hr h huw hcur hlife => ?zeroize, fun dt m s x hr h huw hcur hrma hnone hfree => ?returned⟩
  case quickset =>
    obtain ⟨hgate, -, -, -⟩ := s.afterWrite_gates dt m (toBE 1 0) x
    obtain ⟨t, he, ha, hmode, -, hrst⟩ := modeRequest_stays (k := 0) (go := modeGate askQuickset) (c := .modeRequestQuickset dt m) (hc := rfl) (by decide) hr h
      (modeGate_open (hgate.trans htr)) rfl (by simp [setReq])
    exact ⟨t, he, ha, by rw [hrst (by decide)]; simp [setReq, State.elapsed], hmode⟩
  case configure =>
    obtain ⟨t, he, ha, hl, hc, hp, hrest⟩ := modeRequest_enters (M := .configure) (go := modeGate askConfigure) (c := .modeRequestConfigure dt m) (hc := rfl) (by decide) hr h
      fun u hm _ htr' => (modeGate_open (htr'.trans htr)).trans (if_pos (by rw [hm, hcur]))
    exact ⟨t, he, ha, hl, hc, by rw [hp, hcur]; rfl, hrest⟩
  case standby =>
    obtain ⟨t, he, ha, hl, hc, hp, hrest⟩ := modeRequest_enters (M := .standby) (go := modeGate askStandby) (c := .modeRequestStandby dt m) (hc := rfl) (by decide) hr h
      fun u hm hcfg htr' => (modeGate_open (htr'.trans htr)).trans (if_pos (by simp [hm, hcfg, hcur, hvalid]))
    exact ⟨t, he, ha, hl, hc, by rw [hp, hcur]; rfl, hrest⟩
  case stop =>
    obtain ⟨hgate, -, -, -⟩ := s.afterWrite_gates dt m (toBE 1 3) x
    have hne : s.mode.cur ≠ .configure := fun hc => by simp [hc, Mode.forms] at hforms
    exact modeRequest_waits (M := .standby) (go := modeGate askStandby) (c := .modeRequestStandby dt m) (hc := rfl) (by decide) hr h
      ((modeGate_open (hgate.trans htr)).trans ((if_neg (by simp [hne])).trans (if_pos (by simpa using hforms))))
  case operate =>
    obtain ⟨hgate, -, hopen, hlevel⟩ := s.afterWrite_gates dt m (toBE 1 4) x
    obtain ⟨t, p, he, ha, hc, hp, ht, hat, -, hreq⟩ := modeRequest_waits (M := .operate) (go := modeGate askOperate) (c := .modeRequestOperate dt m) (hc := rfl) (by decide) hr h
      ((modeGate_open (hgate.trans htr)).trans (if_pos (by simp [hopen, hlevel, hcur, hread, hfence])))
    exact ⟨t, p, he, ha, hc.trans hcur, hp, ht, hat, hreq⟩
  case safe =>
    obtain ⟨t, he, ha, hl, hc, -, hrest⟩ := modeRequest_enters (M := .safe) (go := modeGate askSafe) (c := .modeRequestSafe dt m) (hc := rfl) (by decide) hr h
      fun u hm _ htr' => (modeGate_open (htr'.trans htr)).trans (if_pos (by rw [hm, hfull]))
    exact ⟨t, he, ha, hl, hc, hrest⟩
  case zeroize =>
    obtain ⟨t, w, he, ha, hwcur, hwcause, hw, hc, hcause, hk⟩ := modeRequestZeroize_destroys hr h huw hcur
    have hstay : returnPassage w = w := returnPassage_stays (hlife.imp (fun hl => by rwa [hw.life]) fun hf => by simpa [hf] using hw.free)
    rw [hstay] at hc hcause hk
    simp only [KeyU.holds, Prod.mk.injEq] at hk
    obtain ⟨hslots, hforce, hwrap, hdest, hzero⟩ := hk
    exact ⟨t, he, ha, hc.trans hwcur, hcause.trans hwcause, by rw [hslots, hw.slots], by rw [hforce, hw.inForce], by rw [hwrap, hw.wrap], by rw [hdest, hw.destroyed],
      by simpa [KeyU.zeroized, hzero] using hw.zeroized⟩
  case returned =>
    obtain ⟨t, w, he, ha, hwcur, -, hw, hc, hcause, hk⟩ := modeRequestZeroize_destroys hr h huw hcur
    obtain ⟨hpcur, hpcause, hpkey⟩ := returnPassage_passes hwcur (hw.life.trans hrma) (by unfold KeyU.areaFree; rwa [hw.roots hnone])
    rw [hpkey] at hk
    simp only [KeyU.holds, Prod.mk.injEq] at hk
    obtain ⟨hslots, -, hwrap, hdest, hzero⟩ := hk
    have hodd : w.key.zeroize % 2 = 1 := by simpa [KeyU.zeroized] using hw.zeroized
    exact ⟨t, he, ha, hc.trans hpcur, hcause.trans hpcause, by rw [hslots, hw.slots], by rw [hwrap, hw.wrap], hdest,
      by simp only [KeyU.zeroized, hzero, decide_eq_false_iff_not]; omega⟩

end Sys2Proof.Machine
end

section
namespace Sys2Proof.Machine
open Sys2Proof

/-! ## Resets (R70, R556, R557) -/

/-- A device whose own reset waits for its response to leave, and whose table lists subindex 0x18 as restoring, as no command makes it. -/
def deviceInReset : State := { rst := { status := [(0x18, 2)], device := some (3, 0) } }

/-- Refutes O20: its clause on UNIT_RESET_COMPLETE takes every subindex, and 0x18 reads the reset of the whole device, which the end of a
unit's reset leaves waiting, so that it reads 1 still. -/
theorem not_unitResetsAct : ¬ Obligations.UnitResetsAct := by
  unfold Obligations.UnitResetsAct
  rintro ⟨-, hcomplete, -⟩
  obtain ⟨t, ht, hidle, -⟩ := hcomplete 0 0x18 deviceInReset rfl rfl (by decide)
  have hsame : exec (.unitResetComplete 0 0x18) deviceInReset = .next (deviceInReset.within _ (endReset 0x18 (deviceInReset.tick 0))) := rfl
  obtain rfl := Host.Outcome.next.inj (hsame.symm.trans ht)
  exact absurd hidle (by decide)

end Sys2Proof.Machine
end

section
namespace Sys2Proof.Machine
open Sys2Proof

/-! ## What the scheduler's work leaves of Coppice (R397, R399) -/

/-- What the scheduler's work leaves: Coppice's record, the counters, the kind of part, the journal and the keys. -/
def State.afar (s : State) : CopU × Table Nat × Nat × JournalU × KeyU := (s.cop, s.stats, s.variant, s.jrn, s.key)

theorem satEvent_afar (old n key ev inst param : Nat) (s : State) : (satEvent old n key ev inst param s).afar = s.afar := by
  unfold satEvent
  split
  · rfl
  · simp [State.afar]

theorem dispatch_afar (n k : Nat) (s : State) : (dispatch n k s).afar = s.afar := by
  unfold dispatch binSat schedSat
  simp only [satEvent_afar]
  simp [State.afar]

theorem freeCore_afar (k : Nat) (s : State) : (freeCore k s).afar = s.afar := by
  unfold freeCore busySat schedSat
  dsimp only
  split
  · simp only [satEvent_afar]
    simp [State.afar]
  · rfl

theorem preempt_afar (k : Nat) (s : State) : (preempt k s).afar = s.afar := by
  have hsched : ∀ u : State, (u.setTask (s.core k).task { s.task (s.core k).task with state := 1, levelAt := s.elapsed, preempted := satCount (s.task (s.core k).task).preempted 1 }).afar = u.afar :=
    fun u => by simp [State.afar]
  have hnote : ∀ (l : Nat) (u : State), (noteReady l u).afar = u.afar := fun l u => by simp [noteReady, State.afar]
  have hcore : ∀ (n : Nat) (c : CoreU) (u : State), (u.setCore n c).afar = u.afar := fun n c u => by simp [State.afar]
  unfold preempt schedSat
  simp only [hnote, satEvent_afar, hcore, hsched, freeCore_afar]

theorem placeIn_afar (n k : Nat) (s : State) : (placeIn n k s).afar = s.afar := by
  induction n generalizing k s with
  | zero => rfl
  | succ n ih =>
    unfold placeIn
    cases Table.find s.sched.desc k with
    | none => rfl
    | some d =>
      dsimp only
      cases pickCore (s.task k).core (((s.coresOf d (tuningOf s.cf k d).affinity).2).filter (fun k => (s.core k).state = 0)) with
      | some c => exact dispatch_afar ..
      | none =>
        dsimp only
        split
        · cases s.victim (s.task k).core (s.task k).level ((s.coresOf d (tuningOf s.cf k d).affinity).2) with
          | none => rfl
          | some c => exact (ih ..).trans ((dispatch_afar ..).trans (preempt_afar ..))
        · rfl

theorem when_afar {f : State → State} (hf : ∀ u, (f u).afar = u.afar) (b : Bool) (s : State) : (when b f s).afar = s.afar := by
  cases b
  · rfl
  · exact hf s

theorem each_afar {α : Type} {f : α → State → State} (hf : ∀ a u, (f a u).afar = u.afar) (xs : List α) (s : State) : (each xs f s).afar = s.afar :=
  each_preserves (P := fun t => t.afar = s.afar) (fun a t h => (hf a t).trans h) rfl

theorem refreshAffinity_afar (ts : List Nat) (s : State) : (refreshAffinity ts s).afar = s.afar := by
  refine each_afar (fun n u => ?_) ts s
  cases Table.find u.sched.desc n with
  | none => rfl
  | some d =>
    refine (when_afar (placeIn_afar 17 n) _ _).trans ?_
    split
    · rfl
    · exact when_afar (fun v => by simp [State.afar]) _ _

theorem coreIn_afar (k : Nat) (s : State) : (coreIn k s).afar = s.afar := by
  have hrefill : ∀ u : State, (refillCore k u).afar = u.afar := fun u => by
    unfold refillCore
    split
    · split
      · exact dispatch_afar ..
      · rfl
    · rfl
  unfold coreIn
  split
  · rfl
  · rw [refreshAffinity_afar, hrefill]
    rfl

/-! ## Slices (R497, R499, R501) -/

@[simp] theorem State.setLane_lane (s : State) (u l : Nat) (x : Lane) : (s.setLane u l x).lane u l = x := by simp [State.setLane, State.lane]

@[simp] theorem State.setLane_ctr (s : State) (u l : Nat) (x : Lane) (j k : Nat) : (s.setLane u l x).ctr j k = s.ctr j k := rfl

/-- The same as of `countN`, for the increment by one. -/
@[simp] theorem count_ctr (idx sub : Nat) (s : State) (j k : Nat) :
    (count idx sub s).ctr j k = if j * 256 + k = idx * 256 + sub then min (s.ctr idx sub + 1) ctrMax else s.ctr j k := countN_ctr ..

@[simp] theorem count_lane (idx sub : Nat) (s : State) (u l : Nat) : (count idx sub s).lane u l = s.lane u l := by simp [State.lane]
@[simp] theorem raise_lane (id inst param : Nat) (s : State) (u l : Nat) : (raise id inst param s).lane u l = s.lane u l := by simp [State.lane]
@[simp] theorem raise_ctr (id inst param : Nat) (s : State) (j k : Nat) : (raise id inst param s).ctr j k = s.ctr j k := by simp [State.ctr]

@[simp] theorem putTest_lane (t : LaneTest) (s : State) (u l : Nat) : (putTest t s).lane u l = s.lane u l := rfl
@[simp] theorem dropTest_lane (t : LaneTest) (s : State) (u l : Nat) : (dropTest t s).lane u l = s.lane u l := rfl
@[simp] theorem putTest_ctr (t : LaneTest) (s : State) (j k : Nat) : (putTest t s).ctr j k = s.ctr j k := rfl
@[simp] theorem dropTest_ctr (t : LaneTest) (s : State) (j k : Nat) : (dropTest t s).ctr j k = s.ctr j k := rfl

/-- A lane is read from Coppice's record. -/
theorem State.lane_congr {s t : State} (hl : t.cop.lanes = s.cop.lanes) (hv : t.variant = s.variant) (u l : Nat) : t.lane u l = s.lane u l := by
  unfold State.lane
  rw [hl, hv]

/-- A tested lane is back in service, and nothing else of Coppice has changed. -/
theorem laneBack_back (u l : Nat) (s : State) : (laneBack u l s).cop.tests = s.cop.tests ∧ (laneBack u l s).stats = s.stats ∧ (laneBack u l s).variant = s.variant ∧
    ((laneBack u l s).lane u l).result = (s.lane u l).result ∧ ((laneBack u l s).lane u l).state = (if unitSpared u then 1 else 0) := by
  unfold laneBack
  dsimp only
  split
  · exact ⟨rfl, rfl, rfl, by simp, by simp⟩
  · have hafar : ∀ t : State, (if u = 11 then coreIn l t else t).afar = t.afar := fun t => by
      split
      · exact coreIn_afar l t
      · rfl
    obtain ⟨hcop, hstats, hvar, -⟩ := by simpa only [State.afar, Prod.mk.injEq] using hafar (s.setLane u l { s.lane u l with state := 0 })
    have hlane := State.lane_congr (congrArg CopU.lanes hcop) hvar u l
    rw [State.setLane_lane] at hlane
    refine ⟨(congrArg CopU.tests hcop).trans rfl, hstats, hvar, ?_, ?_⟩ <;> rw [hlane]

/-- What is tested of a round is the round's alone. -/
theorem elementDone_same (k : Nat) (s : State) : (elementDone k s).cop.tests = s.cop.tests ∧ (elementDone k s).cop.lanes = s.cop.lanes ∧
    (elementDone k s).cop.lost = s.cop.lost ∧ (elementDone k s).stats = s.stats ∧ (elementDone k s).ev = s.ev ∧ (elementDone k s).variant = s.variant := by
  unfold elementDone
  extract_lets done s1
  split <;> exact ⟨rfl, rfl, rfl, rfl, rfl, rfl⟩

/-- A slice of a test that has ended: it is counted, on the lane too. -/
def State.sliced (s : State) (u : Nat) (y : LaneTest) : State := count 0xC080 1 (s.setLane u y.lane { s.lane u y.lane with slices := (s.lane u y.lane).slices + 1 })

theorem State.sliced_same (s : State) (u : Nat) (y : LaneTest) : (s.sliced u y).cop.tests = s.cop.tests ∧ (s.sliced u y).variant = s.variant ∧
    (s.sliced u y).lane u y.lane = { s.lane u y.lane with slices := (s.lane u y.lane).slices + 1 } ∧
    (s.sliced u y).ctr 0xC080 1 = min (s.ctr 0xC080 1 + 1) ctrMax ∧ (∀ k, k ≠ 1 → (s.sliced u y).ctr 0xC080 k = s.ctr 0xC080 k) :=
  ⟨by simp [State.sliced, State.setLane], by simp [State.sliced], by simp [State.sliced], by simp [State.sliced], fun k hk => by
    simp only [State.sliced, count_ctr]
    rw [if_neg (by omega), State.setLane_ctr]⟩

section Slice
variable {s : State} {u a : Nat} {y : LaneTest} {ok : Bool} {e : Option Nat}

/-- A slice of the test itself ends. -/
theorem coppiceSliceEnd_tests (ht : s.cop.tests = [y]) (hu : y.unit = u) (hrun : y.running = some a) (hdue : a + 10000000 ≤ s.elapsed) (hd : y.diag = none) :
    coppiceSliceEnd u ok e s = if ok then
        (if y.slice + 1 < sliceCount u then putTest { y with running := none, yields := 0, slice := y.slice + 1, again := false } (s.sliced u y)
          else testPass { y with running := none, yields := 0 } (s.sliced u y))
      else if !y.again then putTest { y with running := none, yields := 0, again := true } (s.sliced u y)
      else raise 0xF0 u ((y.slice + 1) * 65536 + u * 256 + y.lane) (count 0xC080 3
        (putTest { y with running := none, yields := 0, diag := some 0, again := false }
          ((s.sliced u y).setLane u y.lane { (s.sliced u y).lane u y.lane with result := 2, at_ := s.now }))) := by
  unfold coppiceSliceEnd
  rw [ht, List.find?_cons_of_pos (by simp [hu, hrun, hdue])]
  dsimp only
  rw [hd]
  rfl

/-- A slice of the diagnosis ends, and names an element. -/
theorem coppiceSliceEnd_diagnoses {n el : Nat} (ht : s.cop.tests = [y]) (hu : y.unit = u) (hrun : y.running = some a) (hdue : a + 10000000 ≤ s.elapsed)
    (hd : y.diag = some n) : coppiceSliceEnd u ok (some el) s = repair { y with running := none, yields := 0 } (some el) (s.sliced u y) := by
  unfold coppiceSliceEnd
  rw [ht, List.find?_cons_of_pos (by simp [hu, hrun, hdue])]
  dsimp only
  rw [hd]
  rfl

end Slice

/-- A test takes the place of the one that it goes on from. -/
theorem putTest_tests {s : State} {x y : LaneTest} (ht : s.cop.tests = [y]) (hu : y.unit = x.unit) (hl : y.lane = x.lane) : (putTest x s).cop.tests = [x] := by
  simp [putTest, setTests, ht, hu, hl]

theorem dropTest_tests {s : State} {x y : LaneTest} (ht : s.cop.tests = [y]) (hu : y.unit = x.unit) (hl : y.lane = x.lane) : (dropTest x s).cop.tests = [] := by
  simp [dropTest, setTests, ht, hu, hl]

/-- A test that passes is counted, whatever lane is to be tested next. -/
theorem testPass_ctr (x : LaneTest) (s : State) (k : Nat) : (testPass x s).ctr 0xC080 k = if k = 2 then min (s.ctr 0xC080 2 + 1) ctrMax else s.ctr 0xC080 k := by
  have hback : ∀ t : State, (elementDone (laneKey x.unit x.lane) (laneBack x.unit x.lane t)).ctr 0xC080 k = t.ctr 0xC080 k := fun t => by
    obtain ⟨-, -, -, hstats, -, -⟩ := elementDone_same (laneKey x.unit x.lane) (laneBack x.unit x.lane t)
    simp only [State.ctr, hstats, (laneBack_back x.unit x.lane t).2.1]
  have hcount : ∀ t : State, t.stats = s.stats → (count 0xC080 2 t).ctr 0xC080 k = if k = 2 then min (s.ctr 0xC080 2 + 1) ctrMax else s.ctr 0xC080 k := fun t ht => by
    have hsame : ∀ j, t.ctr 0xC080 j = s.ctr 0xC080 j := fun j => by simp only [State.ctr, ht]
    simp only [count_ctr, Nat.add_left_cancel_iff, hsame]
  unfold testPass
  extract_lets u _ s1
  have h1 : s1.ctr 0xC080 k = if k = 2 then min (s.ctr 0xC080 2 + 1) ctrMax else s.ctr 0xC080 k := hcount _ rfl
  clear_value s1
  rw [← h1]
  cases x.next with
  | none => exact hback s1
  | some o =>
    dsimp only
    split
    · rfl
    · exact hback s1

/-- The last slice of a test passes it: its lane is back in service (R497). -/
theorem testPass_passes {s : State} {x y : LaneTest} (ht : s.cop.tests = [y]) (hu : y.unit = x.unit) (hl : y.lane = x.lane) (hn : x.next = none) :
    (testPass x s).cop.tests = [] ∧ (testPass x s).variant = s.variant ∧ ((testPass x s).lane x.unit x.lane).result = 1 ∧
      ((testPass x s).lane x.unit x.lane).state = (if unitSpared x.unit then 1 else 0) := by
  unfold testPass
  rw [hn]
  extract_lets u _ s1
  obtain ⟨htests, hlanes, -, -, -, hvar⟩ := elementDone_same (laneKey u x.lane) (laneBack u x.lane s1)
  obtain ⟨hbtests, -, hbvar, hbresult, hbstate⟩ := laneBack_back u x.lane s1
  have h1 : (s1.lane u x.lane).result = 1 := by simp [s1]
  have h1t : s1.cop.tests = [] := by simp [s1, dropTest, setTests, State.setLane, ht, hu, hl]
  refine ⟨htests.trans (hbtests.trans h1t), hvar.trans (hbvar.trans (by simp [s1, dropTest, setTests])), ?_, ?_⟩
  · rw [State.lane_congr hlanes hvar, hbresult, h1]
  · rw [State.lane_congr hlanes hvar, hbstate]

end Sys2Proof.Machine
end

section
namespace Sys2Proof.Machine
open Sys2Proof

/-! ## Repairs and fences (R491, R492, R501) -/

/-- An event of Coppice has a source on every part (R7, R549). -/
theorem raise_coppice {id : Nat} (h : 0xF0 ≤ id) (h' : id ≤ 0xF3) (inst param : Nat) (s : State) : Latched (raise id inst param s) id inst := by
  refine raise_latched _ _ _ _ ?_ ?_
  · simp only [eventAbsent, Bool.or_eq_false_iff, Bool.and_eq_false_iff, decide_eq_false_iff_not]
    omega
  · obtain rfl | rfl | rfl | rfl : id = 0xF0 ∨ id = 0xF1 ∨ id = 0xF2 ∨ id = 0xF3 := by omega
    all_goals rfl

namespace Undisturbed
variable {s t : State}

theorem setCore {k : Nat} {x : CoreU} (h : Undisturbed s t) : Undisturbed s (t.setCore k x) := h.update rfl

theorem coreOut {k : Nat} (h : Undisturbed s t) : Undisturbed s (coreOut k t) :=
  .ite (.refreshAffinity (.placeTask (.setCore (.preempt h)))) (.refreshAffinity h.setCore)

theorem dropItems {q : Nat} (h : Undisturbed s t) : Undisturbed s (dropItems q t) := .ite (h.update rfl) (.setPool (h.update rfl))

theorem dropLink {p : Nat} (h : Undisturbed s t) : Undisturbed s (dropLink p t) := by
  unfold Machine.dropLink
  extract_lets x mine n _ s0 s1 s2
  have h1 : Undisturbed s s1 := .each (h.update rfl) fun _ _ => .dropItems (.refl _)
  clear_value s1
  have h2 : Undisturbed s s2 := h1.update rfl
  clear_value s2
  exact .ite (.raise (.tally (.ite h2 (.countN h2)))) h

end Undisturbed

/-- HOLDOVER is the timebase's. -/
theorem enterHoldover_cop (s : State) : (enterHoldover s).cop = s.cop := by
  have hraise : ∀ (b : Bool) (i j k : Nat) (t : State), (when b (raise i j k) t).cop = t.cop := fun b i j k t => by
    cases b
    · rfl
    · simp [when]
  simp [enterHoldover, refreshQual, takeUtc, setTb, hraise]

/-- What a lost lane of a unit without a spare costs takes no lane (R491); units 4 to 9 have a spare. -/
theorem fenceCost_lost {u : Nat} (hu : unitSpared u = false) (l : Nat) (s : State) : (fenceCost u l s).cop.lost = s.cop.lost := by
  unfold fenceCost
  split
  iterate 6 exact absurd hu (by decide)
  · exact (Undisturbed.coreOut (.refl s)).lost
  · rw [enterHoldover_cop]
  · rfl
  · exact (Undisturbed.dropLink (.refl s)).lost
  · split
    · simp [State.setHr]
    · rfl
  · rfl

/-- A fence of a unit without a spare lane takes the lane itself, with EV_COPPICE_FENCED (R501). -/
theorem fence_unspared {u : Nat} (hu : unitSpared u = false) (l : Nat) (s : State) : (u, l) ∈ (fence u l s).cop.lost ∧ Latched (fence u l s) 0xF3 u := by
  unfold fence
  simp only [hu, Bool.false_eq_true, if_false]
  constructor
  · rw [(judgeFences_fencing _).lost]
    simp [fenceCost_lost hu]
  · exact (judgeFences_fencing _).latched _ _ (raise_coppice (by decide) (by decide) _ _ _)

section Repair
variable {s : State} {x y : LaneTest}

/-- A spare element takes the place of the one found, and the test begins afresh. -/
theorem repair_replaces (ht : s.cop.tests = [y]) (hu : y.unit = x.unit) (hl : y.lane = x.lane) (e : Nat)
    (hused : (s.lane x.unit x.lane).used < spareElements x.unit) :
    (repair x (some e) s).variant = s.variant ∧ (repair x (some e) s).cop.tests = [{ unit := x.unit, lane := x.lane, next := x.next }] ∧
      (repair x (some e) s).lane x.unit x.lane = { s.lane x.unit x.lane with used := (s.lane x.unit x.lane).used + 1, repair := 1, elem := e, slices := 0 } ∧
      (repair x (some e) s).ctr 0xC080 6 = min (s.ctr 0xC080 6 + 1) ctrMax ∧ Latched (repair x (some e) s) 0xF1 x.unit := by
  unfold repair
  dsimp only
  rw [if_pos hused]
  refine ⟨by simp [putTest, setTests], ?_, ?_, ?_, raise_coppice (by decide) (by decide) _ _ _⟩
  · simp [putTest, setTests, State.setLane, ht, hu, hl]
  · simp [putTest, setTests, State.setLane, State.lane]
  · simp only [raise_ctr, count_ctr, if_true]
    rfl

/-- With no spare element left a lane with a spare lane is retired. -/
theorem repair_retires (ht : s.cop.tests = [y]) (hu : y.unit = x.unit) (hl : y.lane = x.lane) (e : Nat)
    (hused : spareElements x.unit ≤ (s.lane x.unit x.lane).used) (hs : unitSpared x.unit = true) :
    (repair x (some e) s).variant = s.variant ∧ (repair x (some e) s).cop.tests = [] ∧ ((repair x (some e) s).lane x.unit x.lane).state = 4 ∧ ((repair x (some e) s).lane x.unit x.lane).logical = none ∧
      Latched (repair x (some e) s) 0xF1 x.unit := by
  unfold repair
  dsimp only
  rw [if_neg (Nat.not_lt.mpr hused), if_pos hs]
  have hdone : ∀ r : State, r.variant = s.variant → r.cop.tests = [] → (r.lane x.unit x.lane).state = 4 → (r.lane x.unit x.lane).logical = none → Latched r 0xF1 x.unit →
      (elementDone (laneKey x.unit x.lane) r).variant = s.variant ∧ (elementDone (laneKey x.unit x.lane) r).cop.tests = [] ∧ ((elementDone (laneKey x.unit x.lane) r).lane x.unit x.lane).state = 4 ∧
        ((elementDone (laneKey x.unit x.lane) r).lane x.unit x.lane).logical = none ∧ Latched (elementDone (laneKey x.unit x.lane) r) 0xF1 x.unit := by
    intro r hv htests hstate hlog hl
    obtain ⟨het, hel, -, -, hev, hvar⟩ := elementDone_same (laneKey x.unit x.lane) r
    rw [State.lane_congr hel hvar]
    exact ⟨hvar.trans hv, het.trans htests, hstate, hlog, by unfold Latched; rwa [hev]⟩
  refine hdone _ (by simp [dropTest, setTests]) ?_ ?_ ?_ (raise_coppice (by decide) (by decide) _ _ _)
  · simp [dropTest, setTests, State.setLane, ht, hu, hl]
  all_goals simp [State.setLane, State.lane]

/-- And a unit without one is fenced. -/
theorem repair_fences (e : Nat) (hused : spareElements x.unit ≤ (s.lane x.unit x.lane).used) (hs : unitSpared x.unit = false) :
    (repair x (some e) s).fenced x.unit x.lane = true ∧ Latched (repair x (some e) s) 0xF3 x.unit := by
  unfold repair
  dsimp only
  rw [if_neg (Nat.not_lt.mpr hused), if_neg (by simp [hs])]
  obtain ⟨-, -, hlost, -, hev, -⟩ := elementDone_same (laneKey x.unit x.lane) (fence x.unit x.lane (dropTest x s))
  obtain ⟨hmem, hlatch⟩ := fence_unspared hs x.lane (dropTest x s)
  refine ⟨?_, ?_⟩
  · unfold State.fenced
    rw [hlost]
    exact List.contains_iff_mem.mpr hmem
  · unfold Latched
    rw [hev]
    exact hlatch

end Repair

/-- A command that Coppice's record is part of leaves the lane that its effect leaves. -/
theorem within_lane {s t : State} {ps : List Part} (h : .cop ∈ ps) (hv : t.variant = s.variant) (u l : Nat) : (s.within ps t).lane u l = t.lane u l :=
  State.lane_congr (s := t) (t := s.within ps t) (by simp [h]) hv.symm u l

/-- A failed slice that is not the first is the test's failure (R501). -/
theorem testFail_fails {s : State} {x y : LaneTest} (ht : s.cop.tests = [y]) (hu : y.unit = x.unit) (hl : y.lane = x.lane) (l : Lane) (param : Nat) :
    let t := raise 0xF0 x.unit param (count 0xC080 3 (putTest x (s.setLane x.unit x.lane l)))
    t.cop.tests = [x] ∧ t.variant = s.variant ∧ t.lane x.unit x.lane = l ∧ t.ctr 0xC080 1 = s.ctr 0xC080 1 ∧ t.ctr 0xC080 3 = min (s.ctr 0xC080 3 + 1) ctrMax ∧
      Latched t 0xF0 x.unit := by
  refine ⟨?_, by simp [putTest, setTests], by simp, by simp, by simp, raise_coppice (by decide) (by decide) _ _ _⟩
  simpa using putTest_tests (s := s.setLane x.unit x.lane l) ht hu hl

section Fuse
variable {s : State} {k : Nat} {r : List Nat}

/-- A safe point, with a repair that waits and a word for it (R72). -/
structure FuseSafe (k : Nat) (r : List Nat) (s : State) : Prop where
  soft : s.cop.soft = k :: r
  words : s.cop.words ≠ 0
  power : s.power.failState = 0
  at_ : s.power.failAt + 1000000000 ≤ s.elapsed
  cmd : s.key.cmd = none
  upd : s.upd.state ≠ 3
  fuse : s.cop.fuseAt = none

/-- The word that a repair takes. -/
def State.fuseTaken (s : State) : State := { s with cop := { s.cop with words := s.cop.words - 1, fuseAt := some s.elapsed } }

/-- A lane whose repair has been made permanent. -/
def State.fixed (s : State) (u l : Nat) : State := if (s.lane u l).repair = 1 then s.setLane u l { s.lane u l with repair := 2 } else s

theorem State.fixed_same (s : State) (u l : Nat) : (s.fixed u l).cop.words = s.cop.words ∧ (s.fixed u l).cop.fuseAt = s.cop.fuseAt ∧ (s.fixed u l).variant = s.variant ∧
    (∀ j k, (s.fixed u l).ctr j k = s.ctr j k) ∧ ((s.lane u l).repair = 1 → ((s.fixed u l).lane u l).repair = 2) := by
  unfold State.fixed
  split
  · exact ⟨rfl, rfl, rfl, fun _ _ => rfl, fun _ => by simp⟩
  · next hr => exact ⟨rfl, rfl, rfl, fun _ _ => rfl, fun hone => absurd hone hr⟩

theorem fuseProgram_safe (h : FuseSafe k r s) (ok : Bool) : fuseProgram ok s =
    if ok then
      raise 0xF2 (k / 64) ((s.cop.words - 1) * 65536 + k / 64 * 256 + k % 64)
        (count 0xC080 7 { s.fuseTaken.fixed (k / 64) (k % 64) with cop := { (s.fuseTaken.fixed (k / 64) (k % 64)).cop with soft := r } })
    else if (s.fuseTaken.lane (k / 64) (k % 64)).repair = 1 then
      s.fuseTaken.setLane (k / 64) (k % 64) { s.fuseTaken.lane (k / 64) (k % 64) with used := min ((s.fuseTaken.lane (k / 64) (k % 64)).used + 1) (spareElements (k / 64)) }
    else s.fuseTaken := by
  obtain ⟨hsoft, hw, hf, hat, hcmd, hupd, hfuse⟩ := h
  unfold fuseProgram
  rw [hsoft]
  dsimp only
  rw [if_pos (by simp [hw, hf, hat, hcmd, hupd, hfuse])]
  rfl

/-- A word that verifies makes the repair permanent. -/
theorem fuseProgram_fuses (h : FuseSafe k r s) : (fuseProgram true s).cop.words = s.cop.words - 1 ∧ (fuseProgram true s).cop.soft = r ∧
    (fuseProgram true s).cop.fuseAt = some s.elapsed ∧ (fuseProgram true s).variant = s.variant ∧ Latched (fuseProgram true s) 0xF2 (k / 64) ∧
    ((s.lane (k / 64) (k % 64)).repair = 1 → ((fuseProgram true s).lane (k / 64) (k % 64)).repair = 2) ∧ (fuseProgram true s).ctr 0xC080 7 = min (s.ctr 0xC080 7 + 1) ctrMax := by
  rw [fuseProgram_safe h, if_pos rfl]
  obtain ⟨hwords, hat, hvar, hctr, hrepair⟩ : (s.fuseTaken.fixed (k / 64) (k % 64)).cop.words = s.cop.words - 1 ∧ (s.fuseTaken.fixed (k / 64) (k % 64)).cop.fuseAt = some s.elapsed ∧
      (s.fuseTaken.fixed (k / 64) (k % 64)).variant = s.variant ∧ (∀ i j, (s.fuseTaken.fixed (k / 64) (k % 64)).ctr i j = s.ctr i j) ∧
      ((s.lane (k / 64) (k % 64)).repair = 1 → ((s.fuseTaken.fixed (k / 64) (k % 64)).lane (k / 64) (k % 64)).repair = 2) := s.fuseTaken.fixed_same (k / 64) (k % 64)
  generalize s.fuseTaken.fixed (k / 64) (k % 64) = t at hwords hat hvar hctr hrepair ⊢
  refine ⟨by simpa using hwords, by simp, by simpa using hat, by simpa using hvar, raise_coppice (by decide) (by decide) _ _ _, fun hone => ?_, ?_⟩
  · simpa [State.lane] using hrepair hone
  · rw [raise_ctr, count_ctr, if_pos rfl]
    exact congrArg (fun n => min (n + 1) ctrMax) (hctr 0xC080 7)

/-- A word that does not verify is spent, and the repair waits on with a fresh spare element. -/
theorem fuseProgram_spends (h : FuseSafe k r s) : (fuseProgram false s).cop.words = s.cop.words - 1 ∧ (fuseProgram false s).cop.soft = s.cop.soft ∧
    (fuseProgram false s).ev = s.ev ∧ (fuseProgram false s).variant = s.variant ∧
    ((s.lane (k / 64) (k % 64)).repair = 1 → ((fuseProgram false s).lane (k / 64) (k % 64)).used = min ((s.lane (k / 64) (k % 64)).used + 1) (spareElements (k / 64))) := by
  rw [fuseProgram_safe h, if_neg (by decide)]
  split
  · exact ⟨rfl, rfl, rfl, rfl, fun _ => by simp; rfl⟩
  · next hr => exact ⟨rfl, rfl, rfl, rfl, fun hone => absurd hone hr⟩

end Fuse

/-- Settles O53: what a slice comes to, what the diagnosis does, and the antifuse words. -/
theorem slicesAndRepairsAct : Obligations.SlicesAndRepairsAct := by
  unfold Obligations.SlicesAndRepairsAct
  refine ⟨fun dt u a y e s hr ht hu hrun hdue hd => ?passes, fun dt u a y e s hr ht hu hrun hdue hd => ?differs,
    fun dt u a n e ok y s hr ht hu hrun hdue hd => ?diagnosed, fun dt k r s hr hsoft hw hf hat hcmd hupd hfuse => ?fuse, fun dt ok s hr hf => ?warned⟩
  case passes =>
    obtain ⟨htests, hvar, hlane, hone, hother⟩ := (s.tick dt).sliced_same u y
    have hend := coppiceSliceEnd_tests (s := s.tick dt) (ok := true) (e := e) ht hu hrun hdue hd
    rw [if_pos rfl] at hend
    refine ⟨_, rfl, ?_⟩
    rw [State.act_runs _ _ _ _ hr, hend]
    by_cases hmore : y.slice + 1 < sliceCount u
    · rw [if_pos hmore]
      exact ⟨hone, fun _ => putTest_tests (x := { y with running := none, yields := 0, slice := y.slice + 1, again := false }) (htests.trans ht) rfl rfl,
        fun hlast => absurd hmore (Nat.not_lt.mpr hlast)⟩
    · rw [if_neg hmore]
      refine ⟨(testPass_ctr _ _ 1).trans hone, fun hlt => absurd hlt hmore, fun _ hnext => ?_⟩
      obtain ⟨hptests, hpvar, hresult, hstate⟩ := testPass_passes (x := { y with running := none, yields := 0 }) (htests.trans ht) rfl rfl hnext
      subst hu
      rw [within_lane (s := s) (by decide) (hpvar.trans hvar), within_ctr, if_pos (by decide), testPass_ctr, if_pos rfl, hother 2 (by decide)]
      exact ⟨hptests, rfl, hresult, hstate⟩
  case differs =>
    obtain ⟨htests, hvar, hlane, hone, hother⟩ := (s.tick dt).sliced_same u y
    have hend := coppiceSliceEnd_tests (s := s.tick dt) (ok := false) (e := e) ht hu hrun hdue hd
    rw [if_neg (by decide)] at hend
    refine ⟨_, rfl, ?_⟩
    rw [State.act_runs _ _ _ _ hr, hend]
    cases hagain : y.again with
    | false =>
      rw [if_pos (hc := (by decide : (!false) = true))]
      exact ⟨hone, fun _ => putTest_tests (x := { y with running := none, yields := 0, again := true }) (htests.trans ht) rfl rfl, fun h => absurd h (by decide)⟩
    | true =>
      rw [if_neg (hnc := (by decide : ¬ (!true) = true))]
      obtain ⟨hftests, hfvar, hflane, hfone, hfthree, hlatch⟩ := testFail_fails (x := { y with running := none, yields := 0, diag := some 0, again := false }) (htests.trans ht) rfl rfl
        { ((s.tick dt).sliced u y).lane u y.lane with result := 2, at_ := (s.tick dt).now } ((y.slice + 1) * 65536 + u * 256 + y.lane)
      subst hu
      refine ⟨?_, fun h => absurd h (by decide), fun _ => ⟨?_, ?_, ?_, ?_⟩⟩
      · exact hfone.trans hone
      · exact hftests
      · rw [within_lane (s := s) (by decide) (hfvar.trans hvar)]
        exact congrArg Lane.result hflane
      · refine hfthree.trans ?_
        rw [hother 3 (by decide)]
        rfl
      · exact within_latched (by decide) hlatch
  case diagnosed =>
    obtain ⟨htests, hvar, hlane, -, hother⟩ := (s.tick dt).sliced_same u y
    refine ⟨_, rfl, ?_⟩
    rw [State.act_runs _ _ _ _ hr, coppiceSliceEnd_diagnoses (s := s.tick dt) (ok := ok) ht hu hrun hdue hd]
    subst hu
    have hused : (((s.tick dt).sliced y.unit y).lane y.unit y.lane).used = (s.lane y.unit y.lane).used := by
      rw [hlane]
      rfl
    refine ⟨fun hspare => ?_, fun hnone hs => ?_, fun hnone hs => ?_⟩
    · obtain ⟨hrvar, hrtests, hrlane, hctr, hlatch⟩ := repair_replaces (x := { y with running := none, yields := 0 }) (htests.trans ht) rfl rfl e (hused.trans_lt hspare)
      rw [within_lane (s := s) (by decide) (hrvar.trans hvar), within_ctr, if_pos (by decide), hctr, hother 6 (by decide)]
      exact ⟨hrtests, (congrArg Lane.used hrlane).trans (congrArg (· + 1) hused), congrArg Lane.repair hrlane, congrArg Lane.elem hrlane, rfl, within_latched (by decide) hlatch⟩
    · obtain ⟨hrvar, hrtests, hstate, hlog, hlatch⟩ := repair_retires (x := { y with running := none, yields := 0 }) (htests.trans ht) rfl rfl e (hnone.trans_eq hused.symm) hs
      rw [within_lane (s := s) (by decide) (hrvar.trans hvar)]
      exact ⟨hrtests, hstate, hlog, within_latched (by decide) hlatch⟩
    · obtain ⟨hfenced, hlatch⟩ := repair_fences (x := { y with running := none, yields := 0 }) e (hnone.trans_eq hused.symm) hs
      exact ⟨hfenced, within_latched (by decide) hlatch⟩
  case fuse =>
    have hsafe : FuseSafe k r (s.tick dt) := ⟨hsoft, hw, hf, hat, hcmd, hupd, hfuse⟩
    refine ⟨⟨_, rfl, ?_⟩, _, rfl, ?_⟩ <;> rw [State.act_runs _ _ _ _ hr, State.within_cop, if_pos (by decide)]
    · obtain ⟨hwords, hsoft', hat', hvar, hlatch, hrepair, hctr⟩ := fuseProgram_fuses hsafe
      rw [within_lane (s := s) (by decide) hvar, within_ctr, if_pos (by decide)]
      exact ⟨hwords, hsoft', hat', within_latched (by decide) hlatch, hrepair, hctr⟩
    · obtain ⟨hwords, hsoft', hev, hvar, hused⟩ := fuseProgram_spends hsafe
      rw [within_lane (s := s) (by decide) hvar]
      exact ⟨hwords, hsoft', by simp [hev], hused⟩
  case warned =>
    have hnone : fuseProgram ok (s.tick dt) = s.tick dt := by
      unfold fuseProgram
      split
      · rfl
      · exact if_neg (by simp [hf])
    show Host.Outcome.next (s.act _ dt (fuseProgram ok)) = _
    rw [State.act_runs _ _ _ _ hr, hnone, State.within_tick]

end Sys2Proof.Machine
end

section
namespace Sys2Proof.Machine
open Sys2Proof

/-! ## Key commands (R450 to R457, R466) -/

/-- The checks of a block look at the slots, the root, the life cycle and the mode. -/
theorem State.keyReason_congr {s t : State} (hslots : t.key.slots = s.key.slots) (hroot : t.key.inForce = s.key.inForce) (hlife : t.key.life = s.key.life)
    (hcur : t.mode.cur = s.mode.cur) (b : Bytes) : t.keyReason b = s.keyReason b := by
  simp only [State.keyReason, State.kslot, State.unwrapped, KeyU.descendants, hslots, hroot, hlife, hcur]
  rfl

theorem State.unwrapped_congr {s t : State} (hslots : t.key.slots = s.key.slots) (b : Bytes) : t.unwrapped b = s.unwrapped b := by
  simp only [State.unwrapped, State.kslot, hslots]

theorem State.kslot_congr {s t : State} (hslots : t.key.slots = s.key.slots) (n : Nat) : t.kslot n = s.kslot n := by
  simp only [State.kslot, hslots]

/-- A reason that is not given leaves the checks that follow. -/
theorem not_and_of_ite_eq_zero {c : Prop} [Decidable c] {r n : Nat} (hr : r ≠ 0) (h : (if c then r else n) = 0) : ¬ c ∧ n = 0 := by
  by_cases hc : c
  · exact absurd ((if_pos hc).symm.trans h) hr
  · exact ⟨hc, (if_neg hc).symm.trans h⟩

/-- A block that is wrapped and passes the checks, of which that of the tag is the eighteenth, has data whose tag verifies (R451). -/
theorem State.unwrapped_of_keyReason {s : State} {b : Bytes} (h : s.keyReason b = 0) (hw : field b 0 1 = 1 ∨ (field b 0 1 = 5 ∧ (s.kslot (field b 2 2)).origin ≠ 1)) :
    ∃ w, s.unwrapped b = some w := by
  unfold State.keyReason at h
  extract_lets cmd target src kind usage x y derived wraps life kids at h
  iterate 17 replace h := (not_and_of_ite_eq_zero (by decide) h).2
  have htag := (not_and_of_ite_eq_zero (by decide) h).1
  have hwraps : wraps = true := by
    rcases hw with h1 | ⟨h5, ho⟩
    · simp [wraps, cmd, h1]
    · simp [wraps, derived, x, cmd, target, h5, ho]
  exact Option.ne_none_iff_exists'.mp (by simpa [hwraps] using htag)

/-- Shares are drawn for a key, which is theirs (R449). -/
theorem freshShares_key (k : BitVec 256) (s : State) : (freshShares k s).1.key = k := by
  simp [freshShares, Shares.key, BitVec.xor_comm k]

/-- What a block makes of the slot that it names (R450 to R452). -/
structure Fills (b : Bytes) (s : State) (z : KeySlot) : Prop where
  state : z.state = 1
  kind : z.kind = field b 6 1
  scope : z.scope = field b 7 1
  usage : z.usage = field b 8 2
  version : z.version = field b 12 4
  copy : z.copy = ((s.kslot (field b 2 2)).copy + 1) % 2 ^ 32
  wrapped : field b 0 1 = 1 → z.parent = 0xFFFE ∧ z.origin = 2 ∧ z.mat.key = BitVec.ofNat 256 (ofBE ((s.unwrapped b).getD []))
  clear : field b 0 1 = 2 → z.parent = 0xFFFE ∧ z.origin = 3 ∧ z.mat.key = BitVec.ofNat 256 (field b 32 32)
  published : field b 0 1 = 3 → z.parent = 0xFFFE ∧ z.origin = 4 ∧ z.point = b.drop 32
  derived : field b 0 1 = 4 → z.parent = field b 4 2 ∧ z.origin = 1 ∧
    z.mat.key = kdf (s.kslot (field b 4 2)).mat.key (slice b 32 (field b 16 2)) (slice b (32 + field b 16 2) (field b 18 2))
  updated : field b 0 1 = 5 → z.parent = (s.kslot (field b 2 2)).parent ∧ z.origin = (s.kslot (field b 2 2)).origin ∧
    ((s.kslot (field b 2 2)).origin = 1 →
      z.mat.key = kdf (s.kslot (s.kslot (field b 2 2)).parent).mat.key (slice b 32 (field b 16 2)) (slice b (32 + field b 16 2) (field b 18 2))) ∧
    ((s.kslot (field b 2 2)).origin ≠ 1 → z.mat.key = BitVec.ofNat 256 (ofBE ((s.unwrapped b).getD [])))

/-- A block of an import, a derivation or an update fills its slot. -/
theorem nextSlot_fills {b : Bytes} (h1 : 1 ≤ field b 0 1) (h5 : field b 0 1 ≤ 5) (s : State) : ∃ z, (nextSlot b s).1 = some z ∧ Fills b s z := by
  unfold nextSlot
  extract_lets cmd target src x derived base label context key
  by_cases h3 : cmd = 3
  · rw [if_pos h3]
    refine ⟨_, rfl, rfl, rfl, rfl, rfl, rfl, rfl, fun hc => ?_, fun hc => ?_, fun hc => ?_, fun hc => ?_, fun hc => ?_⟩
    · exact absurd (hc.symm.trans h3) (by decide)
    · exact absurd (hc.symm.trans h3) (by decide)
    · simp [base, h3]
    · exact absurd (hc.symm.trans h3) (by decide)
    · exact absurd (hc.symm.trans h3) (by decide)
  · rw [if_neg h3, if_neg (by omega), if_neg (by omega)]
    refine ⟨_, rfl, rfl, rfl, rfl, rfl, rfl, rfl, fun hc => ?_, fun hc => ?_, fun hc => ?_, fun hc => ?_, fun hc => ?_⟩
    · exact ⟨by simp [base, cmd, hc], by simp [base, cmd, hc], by simp [freshShares_key, key, derived, cmd, hc]⟩
    · exact ⟨by simp [base, cmd, hc], by simp [base, cmd, hc], by simp [freshShares_key, key, cmd, hc]⟩
    · exact absurd hc h3
    · exact ⟨by simp [base, cmd, hc, src], by simp [base, cmd, hc], by simp [freshShares_key, key, derived, cmd, hc, label, context, src]⟩
    · exact ⟨by simp [base, cmd, hc, x, target], by simp [base, cmd, hc, x, target], fun ho => by simp [freshShares_key, key, derived, cmd, hc, label, context, x, target, ho],
        fun ho => by simp [freshShares_key, key, derived, cmd, hc, x, target, ho]⟩

theorem nextSlot_revokes {b : Bytes} (h : field b 0 1 = 6) (s : State) : (nextSlot b s).1 = none := by simp [nextSlot, h]
theorem nextSlot_destroys {b : Bytes} (h : field b 0 1 = 7) (s : State) : (nextSlot b s).1 = some {} := by simp [nextSlot, h]

/-- Only the noise of the shares is drawn. -/
theorem nextSlot_same (b : Bytes) (s : State) : (nextSlot b s).2.key = s.key ∧ (nextSlot b s).2.osr = s.osr ∧ (nextSlot b s).2.stats = s.stats := by
  unfold nextSlot
  extract_lets
  split_ifs <;> exact ⟨rfl, rfl, rfl⟩

theorem keyResult_osr (cmd status reason target revoked us : Nat) (s : State) : (keyResult cmd status reason target revoked us s).osr = s.osr := by
  unfold keyResult
  dsimp only
  cases decide (status = stRejected) <;> simp [State.setKey]

/-- A command that is refused is counted (R466). -/
theorem keyResult_rejected_ctr (cmd reason target revoked us : Nat) (s : State) :
    (keyResult cmd stRejected reason target revoked us s).ctr 0xA080 7 = min (s.ctr 0xA080 7 + 1) ctrMax := by
  simp only [keyResult, when, decide_true, if_true, count_ctr]
  rfl

/-- A session that may write key commands, and a key store that takes one (R450, R454). -/
structure TakesKeyBlock (b : Bytes) (x : Session) (s : State) : Prop where
  session : x.anon = false ∨ (s.mode.cur = .provision ∧ field b 0 1 = 2)
  idle : s.key.cmd = none
  power : s.power.failState = 0
  state : s.key.stateCode = 1
  erasing : s.key.erasing = false
  upd : s.upd.state ≠ 3

/-- The next key command is numbered (R466). -/
def State.keyNumbered (s : State) : State := s.setKey { s.key with result := { s.key.result with seq := (s.key.result.seq + 1) % 2 ^ 32 } }

/-- A block that is taken is answered PENDING, whatever its checks say; one that passes them begins. -/
theorem keyWrite_takes {b : Bytes} {x : Session} {s : State} (h : TakesKeyBlock b x s) : keyWrite b x s = (stPending,
    if s.keyReason b ≠ 0 then keyResult (field b 0 1) stRejected (s.keyReason b) (field b 2 2) 0 0 s.keyNumbered
    else
      let s3 := keyResult (field b 0 1) stPending 0 (field b 2 2) 0 0 (nextSlot b s.keyNumbered).2
      s3.setKey { s3.key with block := b.take 32 ++ zeros (b.length - 32), cmd := some { cmd := field b 0 1, target := field b 2 2, next := (nextSlot b s.keyNumbered).1, at_ := s.elapsed } }) := by
  obtain ⟨hsess, hidle, hpow, hstate, her, hupd⟩ := h
  unfold keyWrite
  rw [if_neg (by rcases hsess with h | ⟨h, h'⟩ <;> simp [*]), if_neg (by simp [*])]
  by_cases hr : s.keyReason b = 0
  · rw [if_neg (not_not.mpr hr)]
    simp only [hr]
    rfl
  · rw [if_pos hr]
    dsimp only
    rw [if_pos (by simpa using hr)]
    rfl

end Sys2Proof.Machine
end

section
namespace Sys2Proof.Machine
open Sys2Proof

/-- What a completed change of a slot leaves in the key store (R454, R455). -/
structure Changed (k : KeyCmd) (z : KeySlot) (iv : Bytes) (s t : KeyU) : Prop where
  slots : t.slots = Table.set s.slots k.target z {}
  cmd : t.cmd = none
  dropped : k.cmd = 7 → Table.find t.copies (2 * k.target) = none ∧ Table.find t.copies (2 * k.target + 1) = none
  sealed : k.cmd ≠ 7 → Table.find t.copies (2 * k.target + z.copy % 2) = some (copySeal s.wrap.key k.target iv z)

theorem keyApply_changes {k : KeyCmd} {z : KeySlot} (h : k.next = some z) (s : State) :
    Changed k z (freeIv s.freeCount) s.key (keyApply k s).key ∧ (keyApply k s).key.result.status = stOk ∧ Latched (keyApply k s) 0xD0 k.target := by
  unfold keyApply
  rw [h]
  extract_lets us seq _ s0
  dsimp -zeta only
  extract_lets s1 _ s2 _ s3
  have h1 : Changed k z (freeIv s.freeCount) s.key s1.key := by
    unfold s1
    split
    · next h7 => exact ⟨rfl, rfl, fun _ => by simp [dropCopies, State.setKey], fun hne => absurd h7 hne⟩
    · next h7 => exact ⟨rfl, rfl, fun h => absurd h h7, fun _ => by simp [writeCopy, State.setKey, State.takeFree, State.setKslot, s0]; rfl⟩
  have h2 : s2.key.slots = s1.key.slots ∧ s2.key.cmd = s1.key.cmd ∧ s2.key.copies = s1.key.copies := by
    unfold s2
    split <;> exact ⟨rfl, rfl, rfl⟩
  have h3 : s3.key = s2.key := by
    unfold s3
    split <;> rfl
  clear_value s1 s2 s3
  obtain ⟨hslots, hcmd, hdrop, hseal⟩ := h1
  obtain ⟨h2slots, h2cmd, h2copies⟩ := h2
  refine ⟨⟨?_, ?_, ?_, ?_⟩, ?_, raise_latched _ _ _ _ (by simp [eventAbsent]) rfl⟩ <;> simp only [raise_same, keyResult_key, h3, h2slots, h2cmd, h2copies]
  · exact hslots
  · exact hcmd
  · exact hdrop
  · exact hseal

/-- A slot that is revoked (R456): one that is active or suspended. -/
def KeySlot.revoked (seq : Nat) (x : KeySlot) : KeySlot := { x with state := 2, revSeq := seq }

/-- To revoke a list of slots is to revoke each, however often it is named. -/
theorem getD_foldl_revoked (seq : Nat) (who : List Nat) (t : Table KeySlot) (j : Nat) :
    Table.getD (who.foldl (fun t n => Table.put t n ((Table.getD t n {}).revoked seq)) t) j {} = if j ∈ who then (Table.getD t j {}).revoked seq else Table.getD t j {} := by
  induction who generalizing t with
  | nil => rfl
  | cons n r ih =>
    rw [List.foldl_cons, ih]
    by_cases hjn : j = n
    · subst hjn
      by_cases hr : j ∈ r <;> simp [hr, KeySlot.revoked]
    · simp [hjn]

theorem keyApply_revokes {k : KeyCmd} (h : k.next = none) (s : State) : (keyApply k s).key.cmd = none ∧ (keyApply k s).key.result.status = stOk ∧
    Latched (keyApply k s) 0xD1 k.target ∧ (keyApply k s).key.revJournal = s.key.revJournal ++ [(k.target, s.key.result.seq)] ∧
    ∀ j, (keyApply k s).kslot j = if (j = k.target ∨ j ∈ s.key.descendants k.target) ∧ ((s.kslot j).state = 1 ∨ (s.kslot j).state = 3) then
      (s.kslot j).revoked s.key.result.seq else s.kslot j := by
  unfold keyApply
  rw [h]
  refine ⟨by simp [keyResult_key, revoke, State.setKey], by simp [keyResult_key], raise_latched _ _ _ _ (by simp [eventAbsent]) rfl,
    by simp [keyResult_key, revoke, State.setKey], fun j => ?_⟩
  have hslots := getD_foldl_revoked s.key.result.seq ((k.target :: s.key.descendants k.target).filter (fun n => (s.kslot n).state = 1 || (s.kslot n).state = 3)) s.key.slots j
  simp only [List.mem_filter, List.mem_cons, Bool.or_eq_true, decide_eq_true_eq] at hslots
  simp only [State.kslot, raise_same, keyResult_key]
  exact hslots

section Complete
variable {s : State} {k : KeyCmd}

theorem keyComplete_verified (h : s.key.cmd = some k) : keyComplete true s = keyApply k s := by
  unfold keyComplete
  rw [h]
  rfl

theorem keyComplete_retries (h : s.key.cmd = some k) (hp : s.power.failState = 0) (hr : k.retried = false) :
    keyComplete false s = s.setKey { s.key with cmd := some { k with retried := true } } := by
  unfold keyComplete
  rw [h]
  simp [hp, hr]

theorem keyComplete_abandons (h : s.key.cmd = some k) (hr : k.retried = true ∨ s.power.failState ≠ 0) : (keyComplete false s).key.cmd = none ∧
    (keyComplete false s).key.result.status = stRejected ∧ (keyComplete false s).key.result.reason = 9 ∧ (keyComplete false s).key.slots = s.key.slots := by
  have hab : keyComplete false s = abandonKeyCmd s := by
    unfold keyComplete
    rw [h]
    rcases hr with hr | hr <;> simp [hr]
  rw [hab]
  unfold abandonKeyCmd
  rw [h]
  simp [keyResult_key, State.setKey]

end Complete

section Command
variable {dt n code : Nat} {m : Msg} {b : Bytes} {s : State} {x : Session}

/-- A command's write of a block of its own code is the message's. -/
theorem keyCommand_runs (h : field b 0 1 = code) (hb : b ≠ []) : keyCommand code dt m b s =
    .next (s.act [.events, .stats, .free, .sessions, .keyCmd, .keyPort] dt (onWrite m 0xA200 1 b (fun x _ => keyWrite b x))) := by
  unfold keyCommand
  rw [h]
  simp [hb]

/-- The block finds the key store as the message did. -/
theorem TakesKeyBlock.afterWrite (h : TakesKeyBlock b x s) : TakesKeyBlock b (x.afterWrite m 0xA200 1 b (s.tick dt).elapsed) ((s.tick dt).afterWrite m 0xA200 1 b x) := by
  obtain ⟨hsess, hidle, hpow, hstate, her, hupd⟩ := h
  refine ⟨by simpa using hsess, by simpa using hidle, by simpa using hpow, ?_, by simpa using her, by simpa using hupd⟩
  simpa [KeyU.stateCode, KeyU.areaFree] using hstate

/-- What a written block looks at is as before its message. -/
theorem State.afterWrite_keyReason (s : State) (dt : Nat) (m : Msg) (b : Bytes) (x : Session) :
    ((s.tick dt).afterWrite m 0xA200 1 b x).keyReason b = s.keyReason b ∧ (∀ j, ((s.tick dt).afterWrite m 0xA200 1 b x).keyNumbered.kslot j = s.kslot j) ∧
      ((s.tick dt).afterWrite m 0xA200 1 b x).keyNumbered.unwrapped b = s.unwrapped b :=
  ⟨State.keyReason_congr (by simp) (by simp) (by simp) (by simp) b, fun j => State.kslot_congr (by simp [State.keyNumbered, State.setKey]) j,
    State.unwrapped_congr (by simp [State.keyNumbered, State.setKey]) b⟩

/-- A key command that is taken changes no session, and no slot. -/
theorem keyWrite_osr (h : TakesKeyBlock b x s) : (keyWrite b x s).2.osr = s.osr := by
  rw [keyWrite_takes h]
  dsimp only
  split
  · exact keyResult_osr ..
  · exact (keyResult_osr ..).trans (nextSlot_same b _).2.1

/-- The result of a key command that has been written (R466). -/
def KeyResult.written (r : KeyResult) (b : Bytes) (status reason : Nat) : KeyResult :=
  { r with seq := (r.seq + 1) % 2 ^ 32, cmd := field b 0 1, status := status, reason := reason, target := field b 2 2, revoked := 0, us := 0 }

theorem keyWrite_refuses (h : TakesKeyBlock b x s) (hz : s.keyReason b ≠ 0) : (keyWrite b x s).2.key.result = s.key.result.written b stRejected (s.keyReason b) ∧
    (keyWrite b x s).2.key.cmd = none ∧ (keyWrite b x s).2.ctr 0xA080 7 = min (s.ctr 0xA080 7 + 1) ctrMax := by
  rw [keyWrite_takes h, if_pos hz]
  exact ⟨congrArg KeyU.result (keyResult_key ..), (congrArg KeyU.cmd (keyResult_key ..)).trans h.idle, keyResult_rejected_ctr ..⟩

theorem keyWrite_begins (h : TakesKeyBlock b x s) (hz : s.keyReason b = 0) : (keyWrite b x s).2.key.result = s.key.result.written b stPending 0 ∧
    (keyWrite b x s).2.key.cmd = some { cmd := field b 0 1, target := field b 2 2, next := (nextSlot b s.keyNumbered).1, at_ := s.elapsed } := by
  rw [keyWrite_takes h, if_neg (not_not.mpr hz)]
  refine ⟨?_, rfl⟩
  have hkey := keyResult_key (field b 0 1) stPending 0 (field b 2 2) 0 0 (nextSlot b s.keyNumbered).2
  rw [(nextSlot_same b s.keyNumbered).1] at hkey
  exact congrArg KeyU.result hkey

/-- The answer to a block is PENDING (R454), and what it leaves of the key store is what `keyWrite` does. -/
theorem keyCommand_answers {c : Instr} (hc : exec c s = keyCommand code dt m b s) (hr : s.runs = true) (h : TakesWrite (s.tick dt) m x 0xA200 1 b n) (hcode : field b 0 1 = code) (hb : b ≠ []) (hk : TakesKeyBlock b x s) :
    ∃ t, exec c s = .next t ∧ Answered t m x 0x12 stPending ∧ t.key.slots = s.key.slots ∧
      (let u := (keyWrite b (x.afterWrite m 0xA200 1 b (s.tick dt).elapsed) ((s.tick dt).afterWrite m 0xA200 1 b x)).2
       t.key.result = u.key.result ∧ t.key.cmd = u.key.cmd ∧ t.ctr 0xA080 7 = u.ctr 0xA080 7) := by
  have hst : (keyWrite b (x.afterWrite m 0xA200 1 b (s.tick dt).elapsed) ((s.tick dt).afterWrite m 0xA200 1 b x)).1 = stPending := by rw [keyWrite_takes hk.afterWrite]
  obtain ⟨t, he, ha, body, rfl⟩ := write_answers (hc.trans (keyCommand_runs hcode hb)) (by decide) hr h (Prod.ext hst rfl : _ = (stPending, _))
    (.of_sessions (congrArg OsrU.sessions (keyWrite_osr hk.afterWrite)))
  refine ⟨_, he, ha, by simp, by simp, by simp, ?_⟩
  rw [within_ctr, if_pos (by decide)]
  exact mail_ctr _ _ _ _ _ (.inr (by decide)) (by decide)

/-- The counter of refused commands is not that of the message. -/
theorem State.afterWrite_keyCtr (s : State) (dt : Nat) (m : Msg) (b : Bytes) (x : Session) : ((s.tick dt).afterWrite m 0xA200 1 b x).ctr 0xA080 7 = s.ctr 0xA080 7 :=
  (State.afterTake_ctr _ _ _ _ _ _ _ (by decide)).trans (if_neg (by decide))

end Command

/-- Settles O47: a command's write, and the four ways in which it ends. -/
theorem keyCommandsAct : Obligations.KeyCommandsAct := by
  unfold Obligations.KeyCommandsAct
  refine ⟨fun dt n code m v d b s x c hc hr h hcode hb hsess hidle hpow hstate her hupd => ?written, fun dt k z s hr _ hk hz => ?changes,
    fun dt k s hr _ hk hz => ?revokes, fun dt k s hr hp hk hre => ?retries, fun dt k s hr hk hre => ?abandoned⟩
  case written =>
    obtain ⟨hexec, h1, h7⟩ : exec c s = keyCommand code dt m b s ∧ 1 ≤ code ∧ code ≤ 7 := by
      simp only [List.mem_cons, Prod.mk.injEq, List.not_mem_nil, or_false] at hc
      rcases hc with ⟨rfl, rfl, rfl⟩ | ⟨rfl, rfl, rfl⟩ | ⟨rfl, rfl, rfl⟩ | ⟨rfl, rfl, rfl⟩ | ⟨rfl, rfl, rfl⟩ | ⟨rfl, rfl, rfl⟩ | ⟨rfl, rfl, rfl⟩
      all_goals exact ⟨rfl, by decide, by decide⟩
    have hk : TakesKeyBlock b x s := ⟨by rw [hcode]; exact hsess, hidle, hpow, hstate, her, hupd⟩
    obtain ⟨t, he, ha, hslots, hu⟩ := keyCommand_answers hexec hr h hcode hb hk
    obtain ⟨hresult, hcmd, hctr⟩ := hu
    obtain ⟨hreason, hkslot, hunwrap⟩ := s.afterWrite_keyReason dt m b x
    have hrec : ((s.tick dt).afterWrite m 0xA200 1 b x).key.result = s.key.result := by simp
    refine ⟨t, he, ha, hslots, ?_⟩
    subst hcode
    by_cases hz : s.keyReason b = 0
    · obtain ⟨hbresult, hbcmd⟩ := keyWrite_begins hk.afterWrite (hreason.trans hz)
      rw [hresult, hbresult, hcmd, hbcmd, hrec, hz]
      refine ⟨rfl, rfl, rfl, rfl, fun hne => absurd rfl hne, fun _ => ⟨rfl, _, rfl, rfl, rfl, by simp [State.elapsed], rfl, fun h6 => nextSlot_revokes h6 _,
        fun h7 => nextSlot_destroys h7 _, fun h5 => ?_⟩⟩
      obtain ⟨z, hnext, hstate, hkind, hscope, husage, hversion, hcopy, hwrapped, hclear, hpublished, hderived, hupdated⟩ :=
        nextSlot_fills h1 h5 ((s.tick dt).afterWrite m 0xA200 1 b x).keyNumbered
      simp only [hkslot, hunwrap] at hcopy hwrapped hderived hupdated
      refine ⟨z, hnext, hstate, hkind, hscope, husage, hversion, hcopy, fun hc1 => ?_, hclear, hpublished, hderived, fun hc5 => ?_⟩
      · obtain ⟨w, hw⟩ := s.unwrapped_of_keyReason hz (.inl hc1)
        obtain ⟨hparent, horigin, hmat⟩ := hwrapped hc1
        exact ⟨hparent, horigin, w, hw, by rwa [hw] at hmat⟩
      · obtain ⟨hparent, horigin, hown, hother⟩ := hupdated hc5
        refine ⟨hparent, horigin, hown, fun ho => ?_⟩
        obtain ⟨w, hw⟩ := s.unwrapped_of_keyReason hz (.inr ⟨hc5, ho⟩)
        exact ⟨w, hw, by simpa [hw] using hother ho⟩
    · obtain ⟨hbresult, hbcmd, hbctr⟩ := keyWrite_refuses hk.afterWrite (hreason.trans_ne hz)
      rw [hresult, hbresult, hcmd, hbcmd, hctr, hbctr, hrec, hreason, s.afterWrite_keyCtr]
      exact ⟨rfl, rfl, rfl, rfl, fun _ => ⟨rfl, rfl, rfl⟩, fun h0 => absurd h0 hz⟩
  case changes =>
    obtain ⟨⟨hslots, hcmd, hdrop, hseal⟩, hstatus, hlatch⟩ := keyApply_changes hz (s.tick dt)
    have hkslot : ∀ j, Table.getD (keyApply k (s.tick dt)).key.slots j {} = if j = k.target then z else s.kslot j := fun j => by
      rw [hslots]
      exact Table.getD_set ..
    refine ⟨_, freeIv s.freeCount, rfl, ?_⟩
    rw [State.act_runs _ _ _ _ hr, keyComplete_verified (s := s.tick dt) hk]
    exact ⟨(hkslot k.target).trans (if_pos rfl), fun j hj => (hkslot j).trans (if_neg hj), hcmd, hdrop, hseal, hstatus, within_latched (by decide) hlatch⟩
  case revokes =>
    obtain ⟨hcmd, hstatus, hlatch, hjournal, hkslot⟩ := keyApply_revokes hz (s.tick dt)
    refine ⟨_, rfl, ?_⟩
    rw [State.act_runs _ _ _ _ hr, keyComplete_verified (s := s.tick dt) hk]
    exact ⟨hcmd, hstatus, within_latched (by decide) hlatch, hkslot, hjournal⟩
  case retries =>
    show Host.Outcome.next (s.act _ dt (keyComplete false)) = _
    rw [State.act_runs _ _ _ _ hr, keyComplete_retries (s := s.tick dt) hk hp hre]
    rfl
  case abandoned =>
    obtain ⟨hcmd, hstatus, hreason, hslots⟩ := keyComplete_abandons (s := s.tick dt) hk hre
    refine ⟨_, rfl, ?_⟩
    rw [State.act_runs _ _ _ _ hr]
    exact ⟨hcmd, hstatus, hreason, hslots⟩

end Sys2Proof.Machine
end

section
namespace Sys2Proof.Machine
open Sys2Proof

/-! ## What a start has to tell (R54)

The failed attempts not yet told stand in the journal. No unit that takes the stored configuration at step 6, loses a lane to a fence or
starts with the boot mode changes their number: a frame, unit by unit, of `takeConfig`, `bootFences` and `ingestStart`. -/

section Frame
variable (s : State)

@[simp] theorem ite_untold (p : Prop) [Decidable p] (t : State) : (if p then s else t).jrn.untold = if p then s.jrn.untold else t.jrn.untold := by
  split <;> rfl

@[simp] theorem when_untold {f : State → State} (hf : ∀ u, (f u).jrn.untold = u.jrn.untold) (b : Bool) : (when b f s).jrn.untold = s.jrn.untold := by
  cases b
  · rfl
  · exact hf s

@[simp] theorem each_untold {α : Type} {f : α → State → State} (hf : ∀ a u, (f a u).jrn.untold = u.jrn.untold) (xs : List α) :
    (each xs f s).jrn.untold = s.jrn.untold :=
  each_preserves (P := fun t => t.jrn.untold = s.jrn.untold) (fun a t h => (hf a t).trans h) rfl

/-! ### Counters, queues and ports -/

@[simp] theorem satEvent_untold (old n key ev inst param : Nat) : (satEvent old n key ev inst param s).jrn.untold = s.jrn.untold := by simp [satEvent]

@[simp] theorem tallyN_untold (p sub n : Nat) : (tallyN p sub n s).jrn.untold = s.jrn.untold := by simp [tallyN]

@[simp] theorem setPool_untold (used : Nat) : (setPool used s).jrn.untold = s.jrn.untold := by simp [setPool]

@[simp] theorem enqueueData_untold (q : Nat) (item data : Bytes) : (enqueueData q item data s).2.jrn.untold = s.jrn.untold := by
  unfold enqueueData
  split <;> simp [refusePush, chargeMoves]

@[simp] theorem portSend_untold (p cls : Nat) (b : Bytes) (stamp : Option (Nat × Nat × Nat)) : (portSend p cls b stamp s).jrn.untold = s.jrn.untold := by
  unfold portSend
  simp [tally]

@[simp] theorem dropItems_untold (q : Nat) : (dropItems q s).jrn.untold = s.jrn.untold := by simp [dropItems]

@[simp] theorem dropLink_untold (p : Nat) : (dropLink p s).jrn.untold = s.jrn.untold := by simp [dropLink, tally]

theorem portsCommit_untold (o : Cf) : (portsCommit o s).jrn.untold = s.jrn.untold := by simp [portsCommit, clearPort, clearQueue, endPause]

/-! ### Tasks (R390 to R399) -/

theorem untold_of_afar {t : State} (h : t.afar = s.afar) : t.jrn.untold = s.jrn.untold := congrArg (fun a => a.2.2.2.1.untold) h

@[simp] theorem refreshAffinity_untold (ts : List Nat) : (refreshAffinity ts s).jrn.untold = s.jrn.untold := untold_of_afar s (refreshAffinity_afar ts s)

theorem retune_untold (tuned : Bool) : (retune tuned s).jrn.untold = s.jrn.untold := by simp [retune, noteReady]

theorem coreOut_untold (k : Nat) : (coreOut k s).jrn.untold = s.jrn.untold := by
  have hpreempt : ∀ t : State, (preempt k t).jrn.untold = t.jrn.untold := fun t => untold_of_afar t (preempt_afar k t)
  have hplace : ∀ (n : Nat) (t : State), (placeTask n t).jrn.untold = t.jrn.untold := fun n t => untold_of_afar t (placeIn_afar 17 n t)
  simp [coreOut, hpreempt, hplace]

/-! ### Acquisition (R310 to R334) -/

@[simp] theorem setRec_untold (r : Rec) : (setRec r s).jrn.untold = s.jrn.untold := by simp [setRec]

@[simp] theorem truncateCapture_untold (g : Nat) : (truncateCapture g s).jrn.untold = s.jrn.untold := by
  unfold truncateCapture
  split
  · rfl
  · simp [closeRecord]

@[simp] theorem dropPending_untold (g : Nat) : (dropPending g s).jrn.untold = s.jrn.untold := by simp [dropPending]

@[simp] theorem loseRecords_untold (lost : List Seq) : (loseRecords lost s).jrn.untold = s.jrn.untold := by
  refine each_untold s (fun r t => ?_) _
  dsimp only
  split <;> simp

@[simp] theorem captureEnd_untold (g : Nat) : (captureEnd g s).jrn.untold = s.jrn.untold := by
  unfold captureEnd
  split
  · rfl
  · simp

@[simp] theorem writeRow_untold (g : Nat) (at_ : Stamp) (vals : List (F32 × Cond × Qual)) : (writeRow g at_ vals s).jrn.untold = s.jrn.untold := by
  unfold writeRow
  dsimp only
  split <;> simp

@[simp] theorem takeEarly_untold : (takeEarly s).jrn.untold = s.jrn.untold := by simp [takeEarly, acqValue]

theorem acqCommit_untold (o : Cf) : (acqCommit o s).jrn.untold = s.jrn.untold := by simp [acqCommit]

/-! ### The chain, alignment and intake (R138 to R215) -/

theorem chainCommit_untold (o : Cf) : (chainCommit o s).jrn.untold = s.jrn.untold := by simp [chainCommit, compSilent, handDecision]

@[simp] theorem tellMismatch_untold (k : Nat) : (tellMismatch k s).jrn.untold = s.jrn.untold := by simp [tellMismatch]

@[simp] theorem clearLatency_untold (k : Nat) : (clearLatency k s).jrn.untold = s.jrn.untold := by simp [clearLatency]

theorem alignCommit_untold (o : Cf) : (alignCommit o s).jrn.untold = s.jrn.untold := by simp [alignCommit]

@[simp] theorem resolveMap_untold : (resolveMap s).jrn.untold = s.jrn.untold := by simp [resolveMap]

@[simp] theorem acceptCfg_untold (k : Nat) (since : Option Stamp) : (acceptCfg k since s).jrn.untold = s.jrn.untold := by
  unfold acceptCfg
  dsimp only
  split
  · rfl
  · simp

@[simp] theorem sourceCmd_untold (c : Cf) (k cmd : Nat) : (sourceCmd c k cmd s).jrn.untold = s.jrn.untold := by simp [sourceCmd]

@[simp] theorem freshSent_untold : (freshSent s).jrn.untold = s.jrn.untold := by simp [freshSent]

@[simp] theorem enableCtx_untold (k : Nat) : (enableCtx k s).jrn.untold = s.jrn.untold := by simp [enableCtx, sourceStart]

theorem ingestStart_untold : (ingestStart s).jrn.untold = s.jrn.untold := by simp [ingestStart]

theorem ingestCommit_untold (o : Cf) (gen : BitVec 32) (tc : Stamp) : (ingestCommit o gen tc s).jrn.untold = s.jrn.untold := by
  unfold ingestCommit
  extract_lets n ks s1 s2 s3 s4
  have h1 : s1.jrn.untold = s.jrn.untold := by simp [s1]
  have h2 : s2.jrn.untold = s1.jrn.untold := each_untold s1 (fun k t => by dsimp only; split <;> simp) _
  clear_value s1 s2
  simp [s4, s3, h2, h1]

/-! ### Time (R81 to R97) -/

@[simp] theorem takeUtc_untold : (takeUtc s).jrn.untold = s.jrn.untold := by simp [takeUtc]

@[simp] theorem refreshQual_untold : (refreshQual s).jrn.untold = s.jrn.untold := by simp [refreshQual]

@[simp] theorem schedule_untold (kind : Nat) (byHand : Bool) : (schedule kind byHand s).jrn.untold = s.jrn.untold := by simp [schedule]

@[simp] theorem cancelLeap_untold : (cancelLeap s).jrn.untold = s.jrn.untold := by simp [cancelLeap]

@[simp] theorem followLeap_untold : (followLeap s).jrn.untold = s.jrn.untold := by
  unfold followLeap
  split
  · split
    · split
      · simp
      · rfl
    · rfl
  · rfl

/-- A step is counted and journaled; of the attempts it says nothing. -/
@[simp] theorem stepTime_untold (d : Int) : (stepTime d s).jrn.untold = s.jrn.untold := by simp [stepTime, alignStep, retime, journalTime]

@[simp] theorem acquire_untold (k : Nat) (switching : Bool) : (acquire k switching s).jrn.untold = s.jrn.untold := by simp [acquire, setTb, setSource]

@[simp] theorem enterHoldover_untold : (enterHoldover s).jrn.untold = s.jrn.untold := by simp [enterHoldover, setTb]

@[simp] theorem selectSource_untold : (selectSource s).jrn.untold = s.jrn.untold := by
  unfold selectSource
  split
  · rfl
  · dsimp only
    repeat' split
    all_goals simp

@[simp] theorem disqualify_untold (k : Nat) : (disqualify k s).jrn.untold = s.jrn.untold := by simp [disqualify]

theorem timeCommit_untold (o : Cf) (staged : Nat → Nat → Bool) : (timeCommit o staged s).jrn.untold = s.jrn.untold := by
  simp [timeCommit, ptpJudge, seeValid, manualLeap]

/-! ### Hedgerow, alarms and outputs -/

theorem hrCommit_untold (o : Cf) : (hrCommit o s).jrn.untold = s.jrn.untold := by
  simp [hrCommit, hrReset, hrInit, dropWorker, setMgrState, setWkState, toRemote, forcedFalls, edgeToUnits]

@[simp] theorem alarmChanged_untold (c : Cf) (a : Nat) (t : Stamp) (x : Alarm) : (alarmChanged c a t x s).jrn.untold = s.jrn.untold := by
  simp [alarmChanged, sendSummary, markDirty, State.setAlarmFor]

theorem alarmCommit_untold (o : Cf) : (alarmCommit o s).jrn.untold = s.jrn.untold := by simp [alarmCommit]

@[simp] theorem freezeAlarms_untold (which : Nat → Nat → Bool) : (freezeAlarms which s).jrn.untold = s.jrn.untold := by simp [freezeAlarms]

theorem islCommit_untold (o : Cf) (tc : Stamp) : (islCommit o tc s).jrn.untold = s.jrn.untold := by simp [islCommit, islRestart]

theorem oscCommit_untold (o : Cf) (tc : Stamp) : (oscCommit o tc s).jrn.untold = s.jrn.untold := by simp [oscCommit, oscRestart]

theorem gooseCommit_untold (o : Cf) : (gooseCommit o s).jrn.untold = s.jrn.untold := by simp [gooseCommit, freshPub]

theorem outCommit_untold (o : Cf) : (outCommit o s).jrn.untold = s.jrn.untold := by simp [outCommit, outDrop, skipCloses]

/-! ### The mode, fences and sessions -/

@[simp] theorem toMode_untold (m : Mode) (cause : Nat) : (toMode m cause s).jrn.untold = s.jrn.untold := by
  simp [toMode, enterMode, journalTime, unitParts, dropPrevious]

theorem judgeFences_untold : (judgeFences s).jrn.untold = s.jrn.untold := by simp [judgeFences, judgeReturn]

theorem roleCommit_untold (o : Cf) : (roleCommit o s).jrn.untold = s.jrn.untold := by simp [roleCommit]

theorem irqCommit_untold (o : Cf) : (irqCommit o s).jrn.untold = s.jrn.untold := rfl

/-- Every unit takes its configuration without a word on failed attempts. -/
theorem takeConfig_untold (o : Cf) (gen : BitVec 32) (tc : Stamp) (staged : Nat → Nat → Bool) : (takeConfig o gen tc staged s).jrn.untold = s.jrn.untold := by
  simp only [takeConfig, judgeFences_untold, roleCommit_untold, irqCommit_untold, retune_untold, portsCommit_untold, outCommit_untold, gooseCommit_untold, islCommit_untold,
    oscCommit_untold, alarmCommit_untold, hrCommit_untold, timeCommit_untold, ingestCommit_untold, chainCommit_untold, alignCommit_untold, acqCommit_untold]

theorem fenceCost_untold (u l : Nat) : (fenceCost u l s).jrn.untold = s.jrn.untold := by
  unfold fenceCost
  split
  case _ => exact each_untold s (fun _ _ => by simp) _
  case _ => simp
  case _ => simp [islStop]
  case _ => simp [gooseStop]
  case _ => exact each_untold s (fun _ _ => by simp) _
  case _ => exact each_untold s (fun _ _ => by simp) _
  case _ => exact coreOut_untold s l
  case _ => simp
  case _ => rfl
  case _ => simp
  case _ => split <;> simp
  case _ => rfl

theorem bootFences_untold : (bootFences s).jrn.untold = s.jrn.untold := by simp [bootFences, fenceCost_untold]

end Frame
end Sys2Proof.Machine
end

section
namespace Sys2Proof.Machine
open Sys2Proof

/-! ## Keys, while a start hands its events over (R25, R51, R521)

What the hand-over of an event, the recorder's start and the timebase's leave as they are: the key store. -/

section Frame
variable (s : State)

@[simp] theorem ite_key (p : Prop) [Decidable p] (t : State) : (if p then s else t).key = if p then s.key else t.key := by split <;> rfl

@[simp] theorem when_key {f : State → State} (hf : ∀ u, (f u).key = u.key) (b : Bool) : (when b f s).key = s.key := by
  cases b
  · rfl
  · exact hf s

@[simp] theorem each_key {α : Type} {f : α → State → State} (hf : ∀ a u, (f a u).key = u.key) (xs : List α) : (each xs f s).key = s.key :=
  each_preserves (P := fun t => t.key = s.key) (fun a t h => (hf a t).trans h) rfl

@[simp] theorem notifyAll_key (e : Ev) : (notifyAll e s).key = s.key := by simp [notifyAll, notifySession]

@[simp] theorem recWrite_key (c : Cf) (e : Ev) : (recWrite c e s).key = s.key := by
  have habsorb : ∀ r : RecRow, (recAbsorb r e s).key = s.key := fun r => by simp [recAbsorb, journalEntry]
  have hnew : (recNew c e s).key = s.key := by simp [recNew, journalEntry]
  unfold recWrite
  split
  · split
    · exact habsorb _
    · exact hnew
  · exact hnew

@[simp] theorem alarmChanged_key (c : Cf) (a : Nat) (t : Stamp) (x : Alarm) : (alarmChanged c a t x s).key = s.key := by
  simp [alarmChanged, sendSummary, markDirty, State.setAlarmFor]

@[simp] theorem finalDecision_key (a : Nat) (d : Decision) : (finalDecision a d s).key = s.key := by
  unfold finalDecision
  extract_lets c x peak due res v prov y z s1 s2
  have h1 : s1.key = s.key := by
    unfold s1
    cases res <;> simp
  clear_value s1
  simp [s2, h1, State.setAlarmFor]

@[simp] theorem alarmEvent_key (e : Ev) : (alarmEvent e s).key = s.key := by simp [alarmEvent, State.setAlarmFor]

@[simp] theorem taskReady_key (n : Nat) : (taskReady n s).key = s.key := by
  have hplace : ∀ t : State, (placeTask n t).key = t.key := fun t => congrArg (fun a => a.2.2.2.2) (placeIn_afar 17 n t)
  have hready : ∀ at_ : Nat, (makeReady n at_ s).key = s.key := fun at_ => by
    unfold makeReady
    split <;> simp [noteReady]
  simp [taskReady, readyFrom, hplace, hready]

theorem handOver_key : (handOver s).key = s.key := by
  have hdeliver : ∀ (c : Cf) (e : Ev) (t : State), (deliver c e t).key = t.key := fun c e t => by simp [deliver, eventTasks]
  unfold handOver
  split
  · rfl
  · simp [hdeliver]

theorem handOverAll_key (n : Nat) : (handOverAll n s).key = s.key := by
  induction n generalizing s with
  | zero => rfl
  | succ n ih =>
    unfold handOverAll
    split
    · rfl
    · exact (ih _).trans (handOver_key s)

theorem bootRecorder_key (i : StartIn) (warm lost : Bool) : (bootRecorder i warm lost s).key = s.key := by
  simp [bootRecorder, recFault]

theorem bootTime_key (before : Option (Gen × Nat)) : (bootTime before s).key = s.key := by simp [bootTime]

theorem refLost_key : (refLost s).key = s.key := by simp [refLost, refreshQual, takeUtc, setTb]

/-! ### The zeroize flag (R460) -/

/-- With no tamper source asserted a start finds the zeroize flag as the fuses hold it (R462). -/
theorem bootKeys_zeroize {i : StartIn} (hi : i.tamper = 0) : (bootKeys i s).key.zeroize = s.key.zeroize := by
  have hnone : (List.range 5).filter (bit i.tamper) = [] := by rw [hi]; decide
  have heach : ∀ {α : Type} {f : α → State → State}, (∀ a u, (f a u).key.zeroize = u.key.zeroize) → ∀ xs u, (each xs f u).key.zeroize = u.key.zeroize :=
    fun {α f} hf xs u => each_preserves (P := fun t => t.key.zeroize = u.key.zeroize) (fun a t h => (hf a t).trans h) rfl
  have hload : ∀ n row b u, (loadSlot n row b u).key.zeroize = u.key.zeroize := fun n row b u => by
    unfold loadSlot
    split <;> rfl
  have hslot : ∀ wrap damage n u, (bootSlot wrap damage n u).key.zeroize = u.key.zeroize := fun wrap damage n u => by
    unfold bootSlot
    extract_lets copy hi good
    split
    · exact hload ..
    · split
      · simp [hload]
      · simp [freshShares, State.setKslot]
  unfold bootKeys
  rw [hnone]
  extract_lets t
  have ht : t.key.zeroize = s.key.zeroize := rfl
  clear_value t
  rw [← ht]
  split
  · rfl
  · dsimp only
    refine (heach (fun p u => heach (fun n v => ?_) _ u) _ _).trans ((heach (fun n u => hslot _ _ n u) _ _).trans ?_) <;> rfl

end Frame
end Sys2Proof.Machine
end

section
namespace Sys2Proof.Machine
open Sys2Proof

/-! ## Starts that succeed (R51, R52, R54, R59) -/

/-- What decides the boot mode, and what a start has to tell: the part that steps 2 to 6 hand on. -/
def State.brief (s : State) : Phase × Nat × Bool × Bool × Life := (s.power.phase, s.jrn.untold, s.jrn.cfgValid, s.key.zeroized, s.key.life)

theorem State.bootMode_congr {s t : State} (h : t.brief.2.2 = s.brief.2.2) (quick : Bool) : t.bootMode quick = s.bootMode quick := by
  simp only [State.brief, Prod.mk.injEq] at h
  obtain ⟨hvalid, hzero, hlife⟩ := h
  simp only [State.bootMode, hvalid, hzero, hlife]

theorem bootConfig_brief (s : State) : (bootConfig s).brief = s.brief := by
  simp [bootConfig, State.brief, takeParts, takeConfig_untold, KeyU.zeroized]

/-- An image of the stored configuration's format finds it readable. -/
theorem bootSettings_own (ok : Bool) {s : State} (h : s.upd.format = s.ownFormat) : (bootSettings ok s).brief = s.brief := by
  unfold bootSettings
  dsimp only
  rw [if_pos (by simp [h])]
  rfl

/-- Step 7 enters the boot mode. -/
theorem bootEnter_enters (m : Mode) (cause start : Nat) (s : State) : (bootEnter m cause start s).mode.cur = m ∧ (bootEnter m cause start s).mode.startCause = start ∧
    (bootEnter m cause start s).jrn.untold = s.jrn.untold := by
  have hjournal : ∀ t : State, (journalTime t).mode = t.mode ∧ (journalTime t).jrn.untold = t.jrn.untold := fun t => by
    unfold journalTime
    split <;> exact ⟨rfl, rfl⟩
  have hingest : ∀ (b : Bool) (t : State), (when b ingestStart t).mode = t.mode ∧ (when b ingestStart t).jrn.untold = t.jrn.untold := fun b t =>
    ⟨(Undisturbed.when (.refl t) fun u => .ingestStart (.refl u)).mode, when_untold t ingestStart_untold b⟩
  unfold bootEnter
  dsimp only
  rw [(hingest _ _).1, (hingest _ _).2, (hjournal _).1, (hjournal _).2]
  simp

/-- A report of a start adds events and counts; it leaves the mode and the journal. -/
structure Tells (s t : State) : Prop where
  mode : t.mode = s.mode
  jrn : t.jrn = s.jrn
  latched : ∀ id inst, Latched s id inst → Latched t id inst

namespace Tells
variable {s t u : State}

theorem refl (s : State) : Tells s s := ⟨rfl, rfl, fun _ _ h => h⟩
theorem trans (h : Tells s t) (k : Tells t u) : Tells s u := ⟨k.mode.trans h.mode, k.jrn.trans h.jrn, fun id inst l => k.latched id inst (h.latched id inst l)⟩
theorem setUpd {v : UpdU} (h : Tells s t) : Tells s (t.setUpd v) := ⟨h.mode, h.jrn, h.latched⟩
theorem raise {id inst param : Nat} (h : Tells s t) : Tells s (raise id inst param t) :=
  h.trans ⟨by simp, by simp, (Undisturbed.raise (.refl t)).latched⟩
theorem count {idx sub : Nat} (h : Tells s t) : Tells s (count idx sub t) := h.trans ⟨by simp, by simp, (Undisturbed.count (.refl t)).latched⟩

end Tells

/-- The failed attempts not yet told are told (R54). -/
theorem bootTrial_tells (s : State) : (bootTrial s).mode = s.mode ∧ (bootTrial s).jrn.untold = 0 ∧ (s.jrn.untold ≠ 0 → Latched (bootTrial s) 0x06 0) := by
  unfold bootTrial
  extract_lets u trial s1 s3 _ _ s2 _ s4 _
  have h1 : s1.mode = s.mode ∧ s1.jrn.untold = 0 ∧ (s.jrn.untold ≠ 0 → Latched s1 0x06 0) := by
    unfold s1
    by_cases h : s.jrn.untold = 0
    · simp [h, when]
    · simp only [when, bne_iff_ne, ne_eq, h, not_false_eq_true, if_true]
      exact ⟨by simp, by simp, fun _ => raise_latched _ _ _ _ (by simp [eventAbsent]) rfl⟩
  have h2 : Tells s1 s2 := by
    unfold s2
    split
    · exact .raise (.count (.setUpd (.setUpd (.refl s1))))
    · exact .setUpd (.refl s1)
  have h4 : Tells s1 s4 := h2.setUpd
  clear_value s1 s4
  have hall : Tells s1 (if s4.upd.fellBack = 0 then s4 else Machine.raise 0xE5 0 s4.upd.fellBack (Machine.count 0xB080 8 (s4.setUpd { s4.upd with fellBack := 0 }))) := by
    split
    · exact h4
    · exact .raise (.count h4.setUpd)
  exact ⟨hall.mode.trans h1.1, (congrArg JournalU.untold hall.jrn).trans h1.2.1, fun hne => hall.latched _ _ (h1.2.2 hne)⟩

/-- Auto-operate asks for a mode, or tells that it cannot. -/
theorem autoOperate_asks (s : State) : (autoOperate s).mode.cur = s.mode.cur ∧ (autoOperate s).mode.startCause = s.mode.startCause ∧ (autoOperate s).jrn = s.jrn ∧
    (∀ id inst, Latched s id inst → Latched (autoOperate s) id inst) := by
  unfold autoOperate
  split
  · split
    · exact ⟨by simp [rejectReq, setReq], by simp [rejectReq, setReq], by simp [rejectReq, setReq], (Undisturbed.raise (.refl (setReq 1 s))).latched⟩
    · exact ⟨rfl, rfl, rfl, fun _ _ h => h⟩
  · exact ⟨rfl, rfl, rfl, fun _ _ h => h⟩

/-- A bank holds its image at the start as before; a trial is over (R479). -/
theorem bootState_bank (i : StartIn) {s : State} {bank : Nat} {k : BankU} (h : s.upd.banks[bank]? = some k) :
    ∃ k' : BankU, (bootState i s).upd.banks[bank]? = some k' ∧ k'.manifest = k.manifest := by
  refine ⟨if k.state = 4 then { k with state := 2 } else k, ?_, by split <;> rfl⟩
  simp [bootState, h]

/-- A start of an image that reads the stored configuration, or of ROM, enters the boot mode and tells of the attempts before it. -/
theorem boot_enters {i : StartIn} {quick : Bool} (rose : Bool) {bank : Nat} (cause : Nat) {s : State} {k : BankU} (hi : i.tamper = 0)
    (hf : quick = false → s.upd.banks[bank]? = some k ∧ mFormat k.manifest = s.upd.format) (hz : s.bootMode quick ≠ .zeroized) :
    (boot i quick rose bank cause s).power.phase = .running ∧ (quick = false → (boot i quick rose bank cause s).jrn.failedBoots = 0) ∧
      (boot i quick rose bank cause s).mode.startCause = cause ∧ (boot i quick rose bank cause s).mode.cur = s.bootMode quick ∧ (boot i quick rose bank cause s).jrn.untold = 0 ∧
      (s.jrn.untold ≠ 0 → Latched (boot i quick rose bank cause s) 0x06 0) := by
  unfold boot
  extract_lets warm fell s0 lost _ s1 s2 lostArea s3 s4 s5 _ s6 s7 m s8 _ s9
  have h1 : s1.brief = (.running, s.brief.2) := rfl
  have h3 : s3.key.zeroize = s1.key.zeroize := by
    have hlost : ∀ t : State, (raiseFree 0x03 0x18 1 t).key = t.key := fun t => by simp [raiseFree]
    simp [s3, s2, hlost, bootRecorder_key, bootKeys_zeroize _ hi, refLost_key, bootTime_key]
  have h4 : s4.brief = s1.brief := by simp [s4, State.brief, keepParts, handOverAll_key, KeyU.zeroized, h3]
  have h5 : s5.brief = s4.brief ∧ s5.upd = s1.upd := by
    unfold s5
    cases fell && !quick <;> exact ⟨rfl, rfl⟩
  have h6 : s6.brief = s5.brief := by
    unfold s6
    cases quick with
    | true => rfl
    | false =>
      obtain ⟨hbank, hformat⟩ := hf rfl
      refine (bootConfig_brief _).trans (bootSettings_own _ ?_)
      obtain ⟨k', hk, hman⟩ : ∃ k' : BankU, s1.upd.banks[s1.upd.running]? = some k' ∧ k'.manifest = k.manifest := bootState_bank i hbank
      have hown : s5.ownFormat = mFormat k.manifest := by
        unfold State.ownFormat
        rw [h5.2, hk, ← hman]
        rfl
      rw [hown, h5.2, hformat]
      rfl
  have h7 : s7.brief = s6.brief := by simp [s7, State.brief, KeyU.zeroized]
  have hbrief : s7.brief = (.running, s.brief.2) := h7.trans (h6.trans (h5.1.trans (h4.trans h1)))
  have hm : m = s.bootMode quick := State.bootMode_congr (congrArg (·.2.2) hbrief) quick
  have hphase : s7.power.phase = .running := congrArg (·.1) hbrief
  have huntold : (bootFences s7).jrn.untold = s.jrn.untold := (bootFences_untold s7).trans (congrArg (·.2.1) hbrief)
  clear_value s7 m
  obtain ⟨hcur, hstart, hsame⟩ := bootEnter_enters m (if m = .zeroized && s7.key.erasing then 0x0105 else cause) cause (bootFences s7)
  obtain ⟨htmode, htuntold, htlatch⟩ := bootTrial_tells (bootEnter m (if m = .zeroized && s7.key.erasing then 0x0105 else cause) cause (bootFences s7))
  rw [hsame, huntold] at htlatch
  have h8 : s8.mode.cur = s.bootMode quick ∧ s8.mode.startCause = cause ∧ s8.jrn.untold = 0 ∧ s8.power.phase = .running ∧ (s.jrn.untold ≠ 0 → Latched s8 0x06 0) :=
    ⟨(congrArg ModeU.cur htmode).trans (hcur.trans hm), (congrArg ModeU.startCause htmode).trans hstart, htuntold, hphase, fun hne => within_latched (by decide) (htlatch hne)⟩
  clear_value s8
  obtain ⟨h8cur, h8start, h8untold, h8phase, h8latch⟩ := h8
  have h9 : s9.mode = s8.mode ∧ s9.power = s8.power ∧ s9.ev = s8.ev ∧ s9.jrn.untold = 0 ∧ (quick = false → s9.jrn.failedBoots = 0) := by
    unfold s9
    split
    · next hq => exact ⟨rfl, rfl, rfl, h8untold, fun h => by simp [h] at hq⟩
    · exact ⟨rfl, rfl, rfl, h8untold, fun _ => rfl⟩
  clear_value s9
  obtain ⟨h9mode, h9power, h9ev, h9untold, h9failed⟩ := h9
  have hstay : returnPassage s9 = s9 := if_neg (by simp [h9mode, h8cur, hz])
  obtain ⟨hacur, hastart, hajrn, halatch⟩ := autoOperate_asks s9
  rw [hstay]
  refine ⟨?_, fun hq => ?_, ?_, ?_, ?_, fun hne => within_latched (by decide) (halatch _ _ ?_)⟩
  · exact (congrArg PowerU.phase h9power).trans h8phase
  · exact (congrArg JournalU.failedBoots hajrn).trans (h9failed hq)
  · exact hastart.trans ((congrArg ModeU.startCause h9mode).trans h8start)
  · exact hacur.trans ((congrArg ModeU.cur h9mode).trans h8cur)
  · exact (congrArg JournalU.untold hajrn).trans h9untold
  · unfold Latched
    rw [h9ev]
    exact h8latch hne

/-- What the fuses complete at step 2 is not what a start is chosen by (R464, R481). -/
theorem bootFuses_within (s : State) : (s.within [.keys, .keyCmd, .upd] (bootFuses s)).power = s.power ∧ (s.within [.keys, .keyCmd, .upd] (bootFuses s)).brief = s.brief ∧
    (s.within [.keys, .keyCmd, .upd] (bootFuses s)).jrn = s.jrn ∧
    (s.within [.keys, .keyCmd, .upd] (bootFuses s)).upd = { s.upd with secVer := max s.upd.secVer s.upd.secGoal } := ⟨rfl, rfl, rfl, rfl⟩

/-- A confirmed bank is selected as it is (R478). -/
theorem bankSelect_confirmed {s : State} {b : Nat} (h : s.upd.latest = some (2, b)) : bankSelect s = (b, s.power.start.cause, s) := by
  unfold bankSelect
  rw [h]
  rfl

theorem State.within_self (s : State) (ps : List Part) : s.within ps s = s := by
  unfold State.within
  simp only [ite_self]

/-- Settles O19: the start of a confirmed image, and that of ROM. -/
theorem startsEnterTheBootMode : Obligations.StartsEnterTheBootMode := by
  unfold Obligations.StartsEnterTheBootMode
  refine ⟨fun dt b i s k hp ht hrec hfail hquick hi hlatest hbank hok hlen hver hfmt hzero => ?image, fun dt i s hp ht hpick hlife hi => ?rom⟩
  case image =>
    have hwake : wake (s.tick dt) = s.tick dt := wake_of_phase (by simp [hp])
    obtain ⟨hpow, hbrief, hjrn, hupd⟩ := bootFuses_within (s.tick dt)
    have hstart : startUp i (s.tick dt) = boot i false (decide (s.upd.secVer < s.upd.secGoal)) b s.power.start.cause ((s.tick dt).within [.keys, .keyCmd, .upd] (bootFuses (s.tick dt))) := by
      unfold startUp
      rw [if_neg (by simp [hp])]
      extract_lets rose s1 late
      have hpicks : s1.picksQuickset i = false := by simp [State.picksQuickset, s1, hrec, hquick, hfail]
      have hselect : bankSelect s1 = (b, s.power.start.cause, s1) := bankSelect_confirmed hlatest
      have himage : s1.imageOk i b = true := by
        unfold State.imageOk
        rw [hupd, hok]
        simp only [State.tick_same, hbank]
        simpa using ⟨Nat.max_le.mp hver, hlen⟩
      rw [hpicks, hselect]
      dsimp only
      rw [State.within_self, himage, if_neg (by decide), if_neg (by simp [late, ht])]
      rfl
    have hmode : ((s.tick dt).within [.keys, .keyCmd, .upd] (bootFuses (s.tick dt))).bootMode false =
        if s.key.life = .manufacture ∨ s.key.life = .rma then .provision else if s.jrn.cfgValid then .standby else .configure := by
      rw [State.bootMode_congr (s := s) (congrArg (·.2.2) hbrief) false]
      simp [State.bootMode, hzero]
    generalize (s.tick dt).within [.keys, .keyCmd, .upd] (bootFuses (s.tick dt)) = u at hstart hmode hbrief hupd hjrn
    have hkept : u.bootMode false ≠ .zeroized := by
      rw [hmode]
      split_ifs <;> decide
    obtain ⟨hphase, hfailed, hcause, hcur, huntold, hlatch⟩ := boot_enters (decide (s.upd.secVer < s.upd.secGoal)) s.power.start.cause (s := u) (bank := b) (k := k) hi
      (fun _ => by rw [hupd]; exact ⟨hbank, hfmt⟩) hkept
    refine ⟨_, rfl, ?_⟩
    rw [hwake, hstart]
    rw [hjrn] at hlatch
    generalize boot i false (decide (s.upd.secVer < s.upd.secGoal)) b s.power.start.cause u = t at *
    exact ⟨hphase, hfailed rfl, hcause, hcur.trans hmode, huntold, fun hne => within_latched (by decide) (hlatch hne)⟩
  case rom =>
    have hwake : wake (s.tick dt) = s.tick dt := wake_of_phase (by simp [hp])
    obtain ⟨hpow, hbrief, hjrn, hupd⟩ := bootFuses_within (s.tick dt)
    have hstart : ∃ rose bank cause, startUp i (s.tick dt) = boot i true rose bank cause ((s.tick dt).within [.keys, .keyCmd, .upd] (bootFuses (s.tick dt))) := by
      unfold startUp
      rw [if_neg (by simp [hp])]
      extract_lets rose s1 late
      have hpicks : s1.picksQuickset i = true := by
        have h : (i.recoveryLow || decide (3 ≤ s.jrn.failedBoots) || s.power.start.quick) = true := by simpa [or_assoc] using hpick
        simp only [State.picksQuickset, s1, hjrn, hpow, State.tick_same, h, Bool.true_and]
        simpa using hlife
      rw [hpicks, if_pos rfl, if_neg (by simp [late, ht])]
      exact ⟨_, _, _, rfl⟩
    obtain ⟨rose, bank, cause, hboot⟩ := hstart
    generalize (s.tick dt).within [.keys, .keyCmd, .upd] (bootFuses (s.tick dt)) = u at hboot hjrn
    obtain ⟨hphase, -, -, hcur, huntold, hlatch⟩ := boot_enters (k := {}) rose cause (s := u) (bank := bank) (quick := true) hi (fun h => absurd h (by decide)) (by simp [State.bootMode])
    refine ⟨_, rfl, ?_⟩
    rw [hwake, hboot]
    rw [hjrn] at hlatch
    generalize boot i true rose bank cause u = t at *
    exact ⟨hphase, hcur, huntold, fun hne => within_latched (by decide) (hlatch hne)⟩

end Sys2Proof.Machine
end

section
namespace Sys2Proof.Machine
open Sys2Proof

/-! ## Closes of sets leave the timebase alone (R197 to R213) -/

namespace Undisturbed
variable {s t : State}

/-- A fold of steps that give firings and a state. -/
theorem collects {α β : Type} {f : α → State → List β × State} {l : List α} {acc : List β} (h : Undisturbed s t)
    (hf : ∀ a u, Undisturbed u (f a u).2) : Undisturbed s (l.foldl (fun r a => (r.1 ++ (f a r.2).1, (f a r.2).2)) (acc, t)).2 :=
  (foldl_collects (R := Undisturbed s) (Q := fun _ => True) (fun a _ u hu => ⟨hu.trans (hf a u), fun _ _ => trivial⟩) (fun _ _ => trivial) h).1

theorem unitValue {n : Nat} {c : UnitCf} {at_ : Stamp} {y : F32} {cond : Cond} (h : Undisturbed s t) : Undisturbed s (unitValue n c at_ y cond t).2 := by
  unfold Machine.unitValue
  extract_lets x
  split
  · exact h.update rfl
  · exact h.update rfl

theorem decideAll {k : Nat} {fs : List (Nat × UnitCf × Trig)} (h : Undisturbed s t) : Undisturbed s (decideAll k fs t) :=
  h.trans ((Decides.refl (p := fun _ => True) t).decideAll (fun _ _ => trivial) fun _ _ => trivial).undisturbed

theorem valueToUnits {src num ag : Nat} {at_ : Stamp} {y : F32} {cond : Cond} (h : Undisturbed s t) :
    Undisturbed s (valueToUnits src num ag at_ y cond t) := by
  refine .ite (h.trans (.within (.decideAll ?_))) h
  exact (refl t).collects (f := fun (x : Nat × UnitCf) u => Machine.unitValue x.1 x.2 at_ y cond u) fun _ u => (refl u).unitValue

theorem push {q : Nat} {item : Bytes} (h : Undisturbed s t) : Undisturbed s (push q item t) := by
  have hq : Undisturbed t (Machine.enqueueData q item [] t).2 := (refl t).enqueueData
  refine h.trans ?_
  unfold Machine.push pushData
  refine .within (.ite ?_ hq)
  split
  · exact hq.taskReady
  · exact hq

theorem uplinkClose {g : Nat} {c : Close} (h : Undisturbed s t) : Undisturbed s (uplinkClose g c t) :=
  .ite (.ite (h.update rfl) (.ite (.count (.satEvent (h.update rfl))) h)) h

theorem publish {g : Nat} {c : Close} (h : Undisturbed s t) : Undisturbed s (publish g c t) := by
  unfold Machine.publish
  dsimp -zeta only [State.takeFree]
  extract_lets x item c' keep s3
  have hpushed : Undisturbed s s3 := .push (h.update rfl)
  exact .ite hpushed (.uplinkClose (.each hpushed fun _ u => (refl u).valueToUnits))

theorem finalClose {g cause : Nat} {o : OpenSet} {decAt : Int} (h : Undisturbed s t) : Undisturbed s (finalClose g o cause decAt t) := by
  unfold Machine.finalClose
  extract_lets after kind c s1 s2 s3
  have hpublished : Undisturbed s s1 := .publish (h.update rfl)
  have hcounted : Undisturbed s s2 := by
    unfold s2
    split
    · exact hpublished.count
    · exact hpublished.count
    · exact hpublished.count
    · exact hpublished
  have htold : Undisturbed s s3 := .ite hcounted.count (.ite (.raise hcounted.count) hcounted)
  split
  · exact .ite htold.raise htold
  · exact htold

theorem provisionalClose {g : Nat} {o : OpenSet} {decAt : Int} (h : Undisturbed s t) : Undisturbed s (provisionalClose g o decAt t) :=
  .count (.publish (h.update rfl))

theorem advanceSet {g : Nat} {seq : Seq} (h : Undisturbed s t) : Undisturbed s (advanceSet g seq t) := by
  unfold Machine.advanceSet
  split
  · exact h
  · dsimp -zeta only
    extract_lets c p s1
    have hprov : Undisturbed s s1 := .ite (.ite h.provisionalClose (.count (.raise (h.update rfl)))) h
    refine .ite ?_ hprov
    split
    · exact hprov.finalClose
    · exact hprov

theorem tellDeadline {g who d : Nat} (h : Undisturbed s t) : Undisturbed s (tellDeadline g who d t) := by
  unfold Machine.tellDeadline
  extract_lets key s1
  split
  · exact h.update rfl
  · exact .ite (.raise (h.update rfl)) h

theorem openSet {g tr : Nat} {step : Bool} (h : Undisturbed s t) : Undisturbed s (openSet g tr step t) :=
  .each (h.update rfl) fun _ u => (refl u).tellDeadline

theorem alignStep {old : Nat} (h : Undisturbed s t) : Undisturbed s (alignStep old t) := by
  refine h.trans (.within (.each (.refl t) fun g u => ?_))
  extract_lets x
  refine .ite (.ite (.of_same rfl) (.refl u)) (.ite (.when (.each (.of_same rfl) fun a v => .advanceSet (.openSet (.refl v))) fun v => .raise (.refl v)) (.of_same rfl))

end Undisturbed
end Sys2Proof.Machine
end

section
namespace Sys2Proof.Machine
open Sys2Proof

/-! ## The timebase: what follows a change of it, and its steps (R86 to R100) -/

theorem raise_time (id inst param : Nat) (s : State) : (raise id inst param s).time = s.time := by simp
theorem raise_cfg (id inst param : Nat) (s : State) : (raise id inst param s).cfg = s.cfg := by simp

/-- The timebase apart from what follows its state and its source at once: the error, the unlocked bit, the UTC offset, a scheduled leap. -/
def TimeU.ground (t : TimeU) : TimeU := { t with err := 0, unlocked := false, utc := 0, leap := 0, leapAt := 0, leapByHand := false }

/-- What follows a change of the timebase: its quality, the UTC offset and leap that its source carries, occurrences; nothing else. -/
structure Follows (s t : State) : Prop where
  latched : ∀ id inst, Latched s id inst → Latched t id inst
  ground : t.time.ground = s.time.ground
  beside : t = { s with ev := t.ev, time := t.time }

namespace Follows
variable {s t u : State}

theorem refl (s : State) : Follows s s := ⟨fun _ _ h => h, rfl, rfl⟩

theorem trans (h : Follows s t) (k : Follows t u) : Follows s u := by
  refine ⟨fun id inst l => k.latched id inst (h.latched id inst l), k.ground.trans h.ground, ?_⟩
  rw [k.beside, h.beside]

theorem raise {id inst param : Nat} (h : Follows s t) : Follows s (raise id inst param t) := by
  refine h.trans ⟨(Undisturbed.raise (.refl t)).latched, by simp, ?_⟩
  unfold Machine.raise
  split <;> rfl

/-- An update of what follows. -/
theorem update (h : Follows s t) {x : TimeU} (e : x.ground = t.time.ground) : Follows s { t with time := x } :=
  h.trans ⟨fun _ _ l => l, e, rfl⟩

theorem ite {p : Prop} [Decidable p] (h : Follows s t) (k : Follows s u) : Follows s (if p then t else u) := by
  split
  · exact h
  · exact k

theorem refreshQual (h : Follows s t) : Follows s (refreshQual t) := by
  unfold Machine.refreshQual
  extract_lets e un _ s1
  have hset : Follows s s1 := h.update rfl
  cases un && !t.time.unlocked with
  | true => exact hset.raise
  | false => exact hset

theorem takeUtc (h : Follows s t) : Follows s (takeUtc t) := h.update rfl

theorem schedule {kind : Nat} {byHand : Bool} (h : Follows s t) : Follows s (schedule kind byHand t) := .raise (h.update rfl)

theorem cancelLeap (h : Follows s t) : Follows s (cancelLeap t) := .ite h (h.update rfl)

theorem followLeap (h : Follows s t) : Follows s (followLeap t) := by
  unfold Machine.followLeap
  split
  · split
    · split
      · exact .ite h.cancelLeap (.ite (h.update rfl) (.ite h h.schedule))
      · exact h
    · exact h
  · exact h

theorem sourceInfo {k : Nat} {before : Option Int} (h : Follows s t) : Follows s (sourceInfo k before t) := by
  unfold Machine.sourceInfo
  split
  · exact .ite (.refreshQual (.followLeap (.ite h.takeUtc h))) h
  · exact h

theorem state (h : Follows s t) : t.time.state = s.time.state := congrArg (·.state) h.ground
theorem source (h : Follows s t) : t.time.source = s.time.source := congrArg (·.source) h.ground
theorem slew (h : Follows s t) : t.time.slew = s.time.slew := congrArg (·.slew) h.ground
theorem gen (h : Follows s t) : t.time.gen = s.time.gen := congrArg (·.gen) h.ground
theorem tai (h : Follows s t) : t.time.tai = s.time.tai := congrArg (·.tai) h.ground
theorem lastStep (h : Follows s t) : t.time.lastStep = s.time.lastStep := congrArg (·.lastStep) h.ground
theorem holdAt (h : Follows s t) : t.time.holdAt = s.time.holdAt := congrArg (·.holdAt) h.ground
theorem unlockedAt (h : Follows s t) : t.time.unlockedAt = s.time.unlockedAt := congrArg (·.unlockedAt) h.ground
theorem backup (h : Follows s t) : t.time.backup = s.time.backup := congrArg (·.backup) h.ground
theorem freq (h : Follows s t) : t.time.freq = s.time.freq := congrArg (·.freq) h.ground
theorem elapsed (h : Follows s t) : t.time.elapsed = s.time.elapsed := congrArg (·.elapsed) h.ground
theorem refPresent (h : Follows s t) : t.time.refPresent = s.time.refPresent := congrArg (·.refPresent) h.ground
theorem src (h : Follows s t) (k : Nat) : t.src k = s.src k := by
  have hs : t.time.sources = s.time.sources := congrArg (·.sources) h.ground
  unfold State.src
  rw [hs]
theorem osr (h : Follows s t) : t.osr = s.osr := by rw [h.beside]
theorem port (h : Follows s t) : t.port = s.port := by rw [h.beside]
theorem cf (h : Follows s t) : t.cf = s.cf := by rw [h.beside]; rfl

end Follows

/-! ### A step of internal time (R86, R99, R100) -/

/-- The timebase once internal time has been stepped. -/
def TimeU.stepped (t : TimeU) (d : Int) : TimeU :=
  { t with
    tai := ((t.tai : Int) + d).toNat, gen := t.gen + 1#16, lastStep := d, slew := 0, offsets := [], settled := none
    stepSums := Table.keep (Table.set t.stepSums (t.gen + 1#16).toNat (Table.getD t.stepSums t.gen.toNat 0 + d) 0)
      (fun g _ => (((t.gen + 1#16).toNat + 65536 - g) % 65536) ≤ 255)
    sources := Table.mapVals t.sources (fun x => { x with offset := x.offset + d }) }

theorem alignStep_osr (old : Nat) (s : State) : (alignStep old s).osr = s.osr := by simp [alignStep]

/-- A step moves the timebase, is told, and no session hears of it. -/
theorem stepTime_steps (d : Int) (s : State) : (stepTime d s).time = s.time.stepped d ∧ Latched (stepTime d s) 0x10 0 ∧ (stepTime d s).osr = s.osr := by
  unfold stepTime
  extract_lets old gen sum sums _ _ _ s1 s2 s3
  have hraised : Undisturbed s2 s3 := by
    cases hz : decide (gen = 0#16) with
    | true => simpa [s3, hz] using (Undisturbed.refl s2).raise
    | false => simpa [s3, hz] using Undisturbed.refl s2
  have hjournal : Undisturbed s2 (journalTime s3) := hraised.journalTime
  have hlatch : Latched (retime (journalTime s3)) 0x10 0 := hjournal.latched _ _ (raise_latched _ _ _ _ (by simp [eventAbsent]) rfl)
  have haligned : Undisturbed (retime (journalTime s3)) (alignStep old (retime (journalTime s3))) := (Undisturbed.refl _).alignStep
  refine ⟨haligned.time.trans (hjournal.time.trans (raise_time ..)), haligned.latched _ _ hlatch, ?_⟩
  rw [alignStep_osr]
  show (journalTime s3).osr = s.osr
  unfold journalTime
  split <;> simp [s3, s2, s1, when, apply_ite State.osr]

end Sys2Proof.Machine
end

section
namespace Sys2Proof.Machine
open Sys2Proof

/-! ## Sources: what selection leaves of them, and when it takes one (R83 to R86) -/

theorem within_timebase {s t : State} {ps : List Part} (h : .time ∈ ps) : (s.within ps t).time = t.time := by simp [h]
theorem within_src {s t : State} {ps : List Part} (h : .time ∈ ps) (k : Nat) : (s.within ps t).src k = t.src k := by simp [State.src, h]
theorem within_ptpP {s t : State} {ps : List Part} (h : .time ∈ ps) (p : Nat) : (s.within ps t).ptpP p = t.ptpP p := by simp [State.ptpP, h]

/-- A command that changes the timebase alone. -/
theorem within_of_time {ps : List Part} (h : .time ∈ ps) (s : State) (dt : Nat) (x : TimeU) :
    s.within ps { s.tick dt with time := x } = { s.tick dt with time := x } := by
  simp [State.within, State.tick, h]

/-- A source apart from its offset. -/
def Source.standing (x : Source) : Source := { x with offset := 0 }

/-- What the ports and the on-time marks have brought. -/
def TimeU.heard (t : TimeU) : Table PtpPort × Option Nat × Option Nat × Bool := (t.ptp, t.ppsLast, t.irigLast, t.irigExt)

/-- Work of the servo and of selection: what was heard stays, and of the sources all but their offsets. -/
structure Selects (s t : State) : Prop where
  heard : t.time.heard = s.time.heard
  standing : ∀ j, (t.src j).standing = (s.src j).standing

namespace Selects
variable {s t u : State}

theorem refl (s : State) : Selects s s := ⟨rfl, fun _ => rfl⟩

theorem trans (h : Selects s t) (k : Selects t u) : Selects s u := ⟨k.heard.trans h.heard, fun j => (k.standing j).trans (h.standing j)⟩

/-- Work that leaves the sources and what was heard alone. -/
theorem of_same (h : (t.time.heard, t.time.sources) = (s.time.heard, s.time.sources)) : Selects s t := by
  obtain ⟨hheard, hsources⟩ := Prod.mk.inj h
  exact ⟨hheard, fun j => by rw [State.src, hsources]; rfl⟩

theorem of_follows (h : Follows s t) : Selects s t := ⟨(congrArg TimeU.heard h.ground :), fun j => by rw [h.src]⟩

theorem stepTime (d : Int) (s : State) : Selects s (stepTime d s) := by
  have htime := (stepTime_steps d s).1
  refine ⟨by rw [htime]; rfl, fun j => ?_⟩
  unfold State.src Table.getD
  rw [htime]
  show (((Table.find (Table.mapVals s.time.sources fun x => { x with offset := x.offset + d }) j).getD {})).standing = _
  induction s.time.sources with
  | nil => rfl
  | cons p r ih =>
    obtain ⟨i, x⟩ := p
    by_cases hj : j = i
    · simp [Table.mapVals, Table.find, hj, Source.standing]
    · simpa [Table.mapVals, Table.find, hj] using ih

theorem ptpP (h : Selects s t) (p : Nat) : t.ptpP p = s.ptpP p := by
  have hp : t.time.ptp = s.time.ptp := congrArg (·.1) h.heard
  rw [State.ptpP, hp]
  rfl

theorem ppsLast (h : Selects s t) : t.time.ppsLast = s.time.ppsLast := congrArg (·.2.1) h.heard
theorem validSince (h : Selects s t) (j : Nat) : (t.src j).validSince = (s.src j).validSince := (congrArg Source.validSince (h.standing j) :)
theorem qualified (h : Selects s t) (j : Nat) : (t.src j).qualified = (s.src j).qualified := (congrArg Source.qualified (h.standing j) :)
theorem utc (h : Selects s t) (j : Nat) : (t.src j).utc = (s.src j).utc := (congrArg Source.utc (h.standing j) :)
theorem leap (h : Selects s t) (j : Nat) : (t.src j).leap = (s.src j).leap := (congrArg Source.leap (h.standing j) :)

end Selects

/-- A source is the one to be acquired: the timebase is in ACQUIRING for it, its offset still there. -/
def State.acquiring (s : State) (k : Nat) (switching : Bool) : State :=
  let s1 := setSource k s
  setTb .acquiring { s1 with time := { s1.time with
    switching := switching, holdE0 := if switching then s.errNow else s1.time.holdE0, holdAt := if switching then s1.time.elapsed else s1.time.holdAt
    offset := (s.src k).offset, offsets := [], settled := none } }

/-- The timebase as an acquisition begins. -/
theorem acquiring_time (s : State) (k : Nat) (switching : Bool) : (s.acquiring k switching).time =
    { s.time with
      state := .acquiring, source := k, switching := switching, holdE0 := if switching then s.errNow else s.time.holdE0
      holdAt := if switching then s.time.elapsed else s.time.holdAt, offset := (s.src k).offset, offsets := [], settled := none
      unlockedAt := if s.time.state = .locked then some s.time.elapsed else s.time.unlockedAt } := by
  by_cases hk : s.time.source = k <;> simp [State.acquiring, setSource, setTb, hk]

/-- Its offset is slewed out from now on. -/
def State.slewing (s : State) (k : Nat) (switching : Bool) : State :=
  { s.acquiring k switching with time := { (s.acquiring k switching).time with slew := (s.src k).offset } }

theorem slewing_time (s : State) (k : Nat) (switching : Bool) :
    (s.slewing k switching).time = { (s.acquiring k switching).time with slew := (s.src k).offset } := rfl

theorem acquiring_src (s : State) (k j : Nat) (switching : Bool) : (s.acquiring k switching).src j = s.src j := by
  rw [State.src, acquiring_time]
  rfl

theorem slewing_src (s : State) (k j : Nat) (switching : Bool) : (s.slewing k switching).src j = s.src j := acquiring_src s k j switching

/-- The offset of a source acquired is slewed out when it is within the limit, and stepped out otherwise (R86). -/
theorem acquire_slews {s : State} {k : Nat} (switching : Bool) (h : (s.src k).offset.natAbs ≤ s.cf.u 0x3040 1 0 4 * 1000) :
    Follows (s.slewing k switching) (acquire k switching s) := by
  unfold acquire
  dsimp only
  rw [if_pos h]
  exact .followLeap (.takeUtc (.refreshQual (.refl _)))

theorem acquire_steps {s : State} {k : Nat} (switching : Bool) (h : s.cf.u 0x3040 1 0 4 * 1000 < (s.src k).offset.natAbs) :
    Follows (stepTime (-(s.src k).offset) (s.acquiring k switching)) (acquire k switching s) := by
  unfold acquire
  dsimp only
  rw [if_neg (by omega)]
  exact .followLeap (.takeUtc (.refreshQual (.refl _)))

/-- HOLDOVER begins: no source leads, and nothing is slewed (R85, R87). -/
def State.holding (s : State) : State := setTb .holdover { s with time := { s.time with holdE0 := s.errNow, holdAt := s.time.elapsed, switching := false, slew := 0 } }

theorem holding_src (s : State) (k : Nat) : s.holding.src k = s.src k := rfl

theorem holding_unlockedAt {s : State} (h : s.time.state = .locked) : s.holding.time.unlockedAt = some s.elapsed := by simp [State.holding, setTb, State.elapsed, h]

theorem enterHoldover_follows (s : State) : Follows s.holding (enterHoldover s) := .raise (.takeUtc (.refreshQual (.refl _)))

theorem enterHoldover_latched (s : State) : Latched (enterHoldover s) 0x12 0 := raise_latched _ _ _ _ (by simp [eventAbsent]) rfl

/-- What selection does: nothing, or it takes a source, or it enters HOLDOVER. -/
theorem selectSource_cases (s : State) : selectSource s = s ∨ (∃ k switching, selectSource s = acquire k switching s) ∨ selectSource s = enterHoldover s := by
  unfold selectSource
  extract_lets q cur
  clear_value q cur
  split
  · exact .inl rfl
  · cases s.time.state with
    | refFault => exact .inl rfl
    | freerun | holdover =>
      cases q with
      | nil => exact .inl rfl
      | cons k r => exact .inr (.inl ⟨k, false, rfl⟩)
    | acquiring | locked =>
      cases q with
      | nil => exact .inr (.inr (if_neg (by simp)))
      | cons k r =>
        dsimp only
        split
        · split
          · exact .inr (.inl ⟨k, true, rfl⟩)
          · exact .inl rfl
        · exact .inr (.inl ⟨k, true, rfl⟩)

namespace Selects
variable {s t : State}

theorem acquire (k : Nat) (switching : Bool) (s : State) : Selects s (acquire k switching s) := by
  have hacq : Selects s (s.acquiring k switching) := .of_same (by rw [acquiring_time]; rfl)
  rcases Nat.lt_or_ge (s.cf.u 0x3040 1 0 4 * 1000) (s.src k).offset.natAbs with h | h
  · exact hacq.trans ((stepTime _ _).trans (.of_follows (acquire_steps switching h)))
  · exact hacq.trans ((of_same (s := s.acquiring k switching) (t := s.slewing k switching) rfl).trans (.of_follows (acquire_slews switching h)))

theorem enterHoldover (s : State) : Selects s (enterHoldover s) :=
  trans (t := s.holding) (of_same rfl) (of_follows (enterHoldover_follows s))

theorem selectSource (s : State) : Selects s (selectSource s) := by
  rcases selectSource_cases s with h | ⟨k, switching, h⟩ | h
  · rw [h]
    exact refl s
  · rw [h]
    exact acquire k switching s
  · rw [h]
    exact enterHoldover s

end Selects

/-- A source has lost its validity, and with it its qualification (R83). -/
def State.without (s : State) (k : Nat) : State := s.setSrc k { s.src k with validSince := none, qualified := false, fault := false }

theorem without_src (s : State) (k j : Nat) :
    (s.without k).src j = if j = k then { s.src k with validSince := none, qualified := false, fault := false } else s.src j := State.setSrc_src ..

/-- Of a source lost selection may hear. -/
theorem disqualify_selects (k : Nat) (s : State) : Selects (s.without k) (disqualify k s) := by
  unfold disqualify
  dsimp only
  split
  · exact .selectSource _
  · exact .refl _

/-- A source measured. -/
def State.measured (s : State) (k : Nat) (raw : Int) : State := s.setSrc k { s.src k with offset := s.offsetOf k raw }

/-- A measurement against a source that is not in use is noted with the source alone. -/
theorem noteOffset_of_unused {s : State} {k : Nat} (raw : Int) (h : s.inUse ≠ some k) : noteOffset k raw s = s.measured k raw := if_neg h

/-- What comes in for the timebase: what was heard, the sources, the ports. -/
def State.inputs (s : State) : (Table PtpPort × Option Nat × Option Nat × Bool) × Table Source × Table Port := (s.time.heard, s.time.sources, s.port)

theorem Follows.inputs {s t : State} (h : Follows s t) : t.inputs = s.inputs := by
  have hheard : t.time.heard = s.time.heard := (congrArg TimeU.heard h.ground :)
  have hsources : t.time.sources = s.time.sources := congrArg (·.sources) h.ground
  rw [State.inputs, hheard, hsources, h.port]
  rfl

/-- The servo moves the frequency alone. -/
theorem steerFreq_inputs (s : State) : (steerFreq s).inputs = s.inputs := by
  unfold steerFreq
  split <;> rfl

/-- A measurement moves the offset of its source. -/
theorem noteOffset_inputs (k : Nat) (raw : Int) (s : State) : (noteOffset k raw s).inputs = (s.measured k raw).inputs := by
  unfold noteOffset
  dsimp only
  split
  · exact (Follows.refreshQual (.refl _)).inputs.trans (steerFreq_inputs _)
  · rfl

end Sys2Proof.Machine
end

section
namespace Sys2Proof.Machine
open Sys2Proof

/-! ## Sources taken and lost, and LOCKED (R83 to R86) -/

theorem State.srcOrder_congr {s t : State} (h : t.cf = s.cf) : t.srcOrder = s.srcOrder := by
  unfold State.srcOrder
  rw [h]

/-- The source that gives 1PPS its time of day looks at what the others are valid for. -/
theorem State.todSource_congr {s t : State} (hcf : t.cf = s.cf) (h : ∀ j, j ≠ 7 → (t.src j).validSince.isSome = (s.src j).validSince.isSome) :
    t.todSource = s.todSource := by
  unfold State.todSource
  rw [State.srcOrder_congr hcf]
  congr 1
  funext j
  by_cases hj : j = 7
  · simp [hj]
  · rw [h j hj]

theorem State.offsetOf_congr {s t : State} (h : t.todSource = s.todSource) (k : Nat) (raw : Int) : t.offsetOf k raw = s.offsetOf k raw := by
  unfold State.offsetOf
  rw [h]

/-- In FREERUN and HOLDOVER no source is in use. -/
theorem State.inUse_none {s : State} (h : s.time.state = .freerun ∨ s.time.state = .holdover) : s.inUse = none := by
  rcases h with h | h <;> simp [State.inUse, h]

/-- The only qualified source leads. -/
theorem State.filter_qualified {s : State} {k : Nat} (hk : k ∈ s.srcOrder) (hq : (s.src k).qualified = true)
    (honly : ∀ j ∈ s.srcOrder, (s.src j).qualified = true → j = k) : ∃ r, s.srcOrder.filter (fun j => (s.src j).qualified) = k :: r := by
  have hmem : k ∈ s.srcOrder.filter (fun j => (s.src j).qualified) := List.mem_filter.mpr ⟨hk, hq⟩
  cases hl : s.srcOrder.filter (fun j => (s.src j).qualified) with
  | nil => simp [hl] at hmem
  | cons a r =>
    have ha : a ∈ s.srcOrder.filter (fun j => (s.src j).qualified) := by simp [hl]
    obtain ⟨hao, haq⟩ := List.mem_filter.mp ha
    exact ⟨r, by rw [honly a hao haq]⟩

/-- A free timebase takes the only qualified source (R84). -/
theorem selectSource_takes {s : State} {k : Nat} (hb : s.cop.bypass.contains 14 = false) (hst : s.time.state = .freerun ∨ s.time.state = .holdover)
    (hk : k ∈ s.srcOrder) (hq : (s.src k).qualified = true) (honly : ∀ j ∈ s.srcOrder, (s.src j).qualified = true → j = k) :
    selectSource s = acquire k false s := by
  obtain ⟨r, hr⟩ := State.filter_qualified hk hq honly
  unfold selectSource
  rw [if_neg (Bool.eq_false_iff.mp hb), hr]
  rcases hst with h | h <;> rw [h]

/-- LOCKED without a qualified source is HOLDOVER (R85). -/
theorem selectSource_holds {s : State} (hb : s.cop.bypass.contains 14 = false) (hst : s.time.state = .locked)
    (hnone : ∀ j ∈ s.srcOrder, (s.src j).qualified = false) : selectSource s = enterHoldover s := by
  have hq : s.srcOrder.filter (fun j => (s.src j).qualified) = [] := List.filter_eq_nil_iff.mpr fun j hj => by simp [hnone j hj]
  unfold selectSource
  rw [if_neg (Bool.eq_false_iff.mp hb), hq, hst]
  dsimp only
  rw [if_neg (by simp)]

/-- A source qualifies, measured. -/
def State.qualifying (s : State) (k : Nat) (raw : Int) : State := (s.setSrc k { s.src k with qualified := true }).measured k raw

theorem qualifying_src (s : State) (k j : Nat) (raw : Int) :
    (s.qualifying k raw).src j = if j = k then { s.src k with qualified := true, offset := s.offsetOf k raw } else s.src j := by
  have htod : (s.setSrc k { s.src k with qualified := true }).todSource = s.todSource :=
    State.todSource_congr rfl fun i _ => by
      rw [State.setSrc_src]
      split <;> simp [*]
  by_cases hj : j = k
  · simp [State.qualifying, State.measured, hj, State.offsetOf_congr htod]
  · simp [State.qualifying, State.measured, hj]

theorem qualifying_self (s : State) (k : Nat) (raw : Int) :
    (s.qualifying k raw).src k = { s.src k with qualified := true, offset := s.offsetOf k raw } := (qualifying_src s k k raw).trans (if_pos rfl)

section Qualified
variable {s : State} {k v : Nat} {raw : Int}

/-- The first source to qualify is acquired (R83, R84). -/
theorem sourceQualified_acquires (hb : s.cop.bypass.contains 14 = false) (hst : s.time.state = .freerun ∨ s.time.state = .holdover) (hk : k ∈ s.srcOrder)
    (hnone : ∀ j ∈ s.srcOrder, (s.src j).qualified = false) (hv : (s.src k).validSince = some v)
    (hdue : v + s.cf.u 0x3010 9 0 2 * 1000000000 ≤ s.elapsed) : sourceQualified k raw s = acquire k false (s.qualifying k raw) := by
  have hnoted : noteOffset k raw (s.setSrc k { s.src k with qualified := true }) = s.qualifying k raw := by
    refine noteOffset_of_unused raw ?_
    rw [State.inUse_none (by simpa [State.setSrc] using hst)]
    simp
  have htaken : selectSource (s.qualifying k raw) = acquire k false (s.qualifying k raw) :=
    selectSource_takes hb hst hk (by simp [qualifying_src]) fun j hj hq => by
      by_contra hne
      rw [qualifying_src, if_neg hne, hnone j hj] at hq
      exact Bool.noConfusion hq
  unfold sourceQualified
  dsimp only
  split
  · next since hsince =>
    obtain rfl : v = since := Option.some.inj (hv.symm.trans hsince)
    rw [if_pos (by simp [hnone k hk, hdue]), hnoted, htaken]
  · next hno => simp [hv] at hno

theorem sourceQualified_early (hv : (s.src k).validSince = some v) (hdue : s.elapsed < v + s.cf.u 0x3010 9 0 2 * 1000000000) :
    sourceQualified k raw s = s := by
  unfold sourceQualified
  simp [hv, hdue]

end Qualified

/-- The source in use loses its qualification, and no other leads (R83, R85). -/
theorem disqualify_holds {s : State} {k : Nat} (hb : s.cop.bypass.contains 14 = false) (hst : s.time.state = .locked) (hq : (s.src k).qualified = true)
    (honly : ∀ j ∈ s.srcOrder, (s.src j).qualified = true → j = k) :
    disqualify k s = enterHoldover (s.without k) := by
  unfold disqualify
  dsimp only
  rw [if_pos hq]
  refine selectSource_holds hb hst fun j hj => ?_
  rw [← State.without, without_src]
  split
  · rfl
  · rename_i hne
    cases hqj : (s.src j).qualified with
    | false => rfl
    | true => exact absurd (honly j hj hqj) hne

theorem disqualify_unqualified {s : State} {k : Nat} (hq : (s.src k).qualified = false) :
    disqualify k s = s.setSrc k { s.src k with validSince := none, fault := false } := by
  unfold disqualify
  simp [hq]

/-- LOCKED, as its commands leave it (R86). -/
def State.locking (s : State) : State := setTb .locked { s with time := { s.time with switching := false, unlockedAt := some s.elapsed } }

theorem servoLocked_locks {s : State} {since : Nat} (hb : s.cop.bypass.contains 14 = false) (hst : s.time.state = .acquiring)
    (hset : s.time.settled = some since) (hdue : since + 16000000000 ≤ s.elapsed) :
    servoLocked s = raise 0x14 0 s.time.source (refreshQual s.locking) := by
  unfold servoLocked
  split
  · next t ht =>
    obtain rfl : since = t := Option.some.inj (hset.symm.trans ht)
    exact if_pos (by simp only [hst, hdue, hb, decide_true, Bool.not_false, Bool.and_self])
  · next hno => simp [hset] at hno

/-- Quality follows the state. -/
theorem refreshQual_time (s : State) : (refreshQual s).time =
    { s.time with err := s.errNow, unlocked := !(s.time.state = .locked || (s.time.inHoldover && s.errNow < s.cf.u 0x3040 5 0 4)) } := by
  unfold refreshQual
  extract_lets e un _ s1
  cases un && !s.time.unlocked with
  | true => exact raise_time ..
  | false => rfl

/-- Settles O25: a source that qualifies is acquired, one that is lost gives way to HOLDOVER, and what follows either moves neither the
state nor time. -/
theorem sourcesAndServoAct : Obligations.SourcesAndServoAct := by
  unfold Obligations.SourcesAndServoAct
  refine ⟨fun dt k v off s hr hb hst hk hnone hv hdue hoff => ?slew, fun dt k v off s hr hb hst hk hnone hv hdue hoff => ?step,
    fun dt k v off s hr hv hdue => ?early, fun dt k s hr hb hst hsrc hq honly => ?lost, fun dt k s hr hq => ?unqualified,
    fun dt since s hr hb hst hset hdue => ?locked⟩
  case slew =>
    have hsrc := qualifying_self (s.tick dt) k off
    have hacq := acquire_slews (s := (s.tick dt).qualifying k off) (k := k) false (by rw [hsrc]; exact hoff)
    refine ⟨_, rfl, ?_⟩
    rw [State.act_runs _ _ _ _ hr, sourceQualified_acquires (s := s.tick dt) hb hst hk hnone hv hdue, within_src (by decide), within_timebase (by decide),
      hacq.src, hacq.state, hacq.source, hacq.slew, hacq.gen, hacq.tai, slewing_src, slewing_time, acquiring_time, hsrc]
    exact ⟨rfl, rfl, rfl, rfl, rfl, rfl⟩
  case step =>
    have hsrc := qualifying_self (s.tick dt) k off
    have hacq := acquire_steps (s := (s.tick dt).qualifying k off) (k := k) false (by rw [hsrc]; exact hoff)
    obtain ⟨htime, hlatch, -⟩ := stepTime_steps (-(((s.tick dt).qualifying k off).src k).offset) (((s.tick dt).qualifying k off).acquiring k false)
    refine ⟨_, rfl, ?_⟩
    rw [State.act_runs _ _ _ _ hr, sourceQualified_acquires (s := s.tick dt) hb hst hk hnone hv hdue, within_src (by decide), within_timebase (by decide),
      hacq.src, (Selects.stepTime ..).qualified, hacq.state, hacq.source, hacq.slew, hacq.gen, hacq.tai, hacq.lastStep, htime, acquiring_src, acquiring_time, hsrc]
    exact ⟨rfl, rfl, rfl, rfl, rfl, rfl, rfl, within_latched (by decide) (hacq.latched _ _ hlatch)⟩
  case early =>
    show Host.Outcome.next (s.act _ dt (sourceQualified k off)) = .next (s.tick dt)
    rw [State.act_runs _ _ _ _ hr, sourceQualified_early (s := s.tick dt) hv hdue, State.within_tick]
  case lost =>
    have hold := enterHoldover_follows ((s.tick dt).without k)
    refine ⟨_, rfl, ?_⟩
    rw [State.act_runs _ _ _ _ hr, disqualify_holds (s := s.tick dt) hb hst hq honly, within_src (by decide), within_timebase (by decide),
      hold.src, hold.state, hold.holdAt, hold.unlockedAt, hold.gen, hold.tai, holding_src, without_src, if_pos rfl, holding_unlockedAt (s := (s.tick dt).without k) hst]
    exact ⟨rfl, rfl, rfl, rfl, rfl, rfl, rfl, within_latched (by decide) (enterHoldover_latched _)⟩
  case unqualified =>
    show Host.Outcome.next (s.act _ dt (disqualify k)) = _
    rw [State.act_runs _ _ _ _ hr, disqualify_unqualified (s := s.tick dt) hq]
    exact congrArg Host.Outcome.next (within_of_time (by decide) s dt _)
  case locked =>
    have hfollows : Follows (s.tick dt).locking (servoLocked (s.tick dt)) := by
      rw [servoLocked_locks (s := s.tick dt) hb hst hset hdue]
      exact .raise (.refreshQual (.refl _))
    have hunlocked : (servoLocked (s.tick dt)).time.unlocked = false := by
      rw [servoLocked_locks (s := s.tick dt) hb hst hset hdue, raise_time, refreshQual_time]
      rfl
    have hlatch : Latched (servoLocked (s.tick dt)) 0x14 0 := by
      rw [servoLocked_locks (s := s.tick dt) hb hst hset hdue]
      exact raise_latched _ _ _ _ (by simp [eventAbsent]) rfl
    refine ⟨_, rfl, ?_⟩
    rw [State.act_runs _ _ _ _ hr, within_timebase (by decide), hfollows.state, hunlocked, hfollows.gen, hfollows.source]
    exact ⟨rfl, rfl, rfl, rfl, within_latched (by decide) hlatch, .of_act hfollows.elapsed⟩

end Sys2Proof.Machine
end

section
namespace Sys2Proof.Machine
open Sys2Proof

/-! ## Time without a source, and time set by request (R85 to R92) -/

/-- While the device counts as in HOLDOVER its error is e(t) (R85, R87). -/
theorem errNow_of_holdover {s : State} (h : s.time.inHoldover = true) : s.errNow = s.holdError := by
  unfold State.errNow
  unfold TimeU.inHoldover at h
  cases hst : s.time.state with
  | holdover =>
    dsimp only
    rw [hst]
  | acquiring => simp_all
  | freerun | locked | refFault => simp [hst] at h

/-- The error in HOLDOVER, and the unlocked bit by the threshold (R87). -/
theorem refreshQual_holdover {s : State} (h : s.time.inHoldover = true) : (refreshQual s).time =
    { s.time with err := s.holdError, unlocked := !decide (s.holdError < s.cf.u 0x3040 5 0 4) } := by
  have hst : s.time.state ≠ .locked := fun hl => by simp [TimeU.inHoldover, hl] at h
  rw [refreshQual_time, errNow_of_holdover h, h]
  simp [hst]

/-- Time that becomes unlocked is told. -/
theorem refreshQual_latched {s : State} (h : (refreshQual s).time.unlocked = true) (hwas : s.time.unlocked = false) : Latched (refreshQual s) 0x13 0 := by
  rw [refreshQual_time] at h
  unfold refreshQual
  extract_lets e un _ s1
  rw [show un = true from h, hwas]
  exact raise_latched _ _ _ _ (by simp [eventAbsent]) rfl

/-- The class of the unlocked duration (R91, R92). -/
theorem classStep_unlocked {s : State} {u : Nat} (hst : s.time.state ≠ .locked) (hu : s.time.unlockedAt = some u) :
    classStep s = { s with time := { s.time with
      durClass := if (s.elapsed - u) / 1000000000 < 10 then 0 else if (s.elapsed - u) / 1000000000 < 100 then 1
        else if (s.elapsed - u) / 1000000000 < 1000 then 2 else 3 } } := by
  have hfor : s.unlockedFor = some ((s.elapsed - u) / 1000000000) := by
    unfold State.unlockedFor
    rw [if_neg hst, hu]
    rfl
  unfold classStep
  rw [hfor]

/-- The reference clock is gone: the backup oscillator takes over (R89). -/
def State.faulted (s : State) : State :=
  setTb .refFault { s.takeFree.2 with time := { s.time with refPresent := false, slew := 0, switching := false, backup := Config.freeFreq s.freeCount } }

theorem refLost_follows {s : State} (h : s.time.refPresent = true) : Follows s.faulted (refLost s) ∧ Latched (refLost s) 0x16 0 := by
  have hlost : refLost s = raise 0x16 0 0 (takeUtc (refreshQual s.faulted)) := if_pos h
  rw [hlost]
  exact ⟨.raise (.takeUtc (.refreshQual (.refl _))), raise_latched _ _ _ _ (by simp [eventAbsent]) rfl⟩

/-- FREERUN, with no source in use. -/
def State.freed (s : State) : State := setTb .freerun (setSource 0 { s with time := { s.time with slew := 0, switching := false } })

theorem freerun_follows (s : State) : Follows s.freed (freerun s) := .takeUtc (.refreshQual (.refl _))

theorem freed_time (s : State) : s.freed.time =
    { s.time with
      state := .freerun, source := 0, slew := 0, switching := false, unlockedAt := if s.time.state = .locked then some s.time.elapsed else s.time.unlockedAt
      offsets := if s.time.source = 0 then s.time.offsets else [], settled := if s.time.source = 0 then s.time.settled else none } := by
  by_cases h : s.time.source = 0 <;> simp [State.freed, setSource, setTb, h]

theorem freed_src (s : State) (k : Nat) : s.freed.src k = s.src k := by
  rw [State.src, freed_time]
  rfl

theorem freed_osr (s : State) : s.freed.osr = s.osr := by
  by_cases h : s.time.source = 0 <;> simp [State.freed, setSource, setTb, h]

theorem freed_cf (s : State) : s.freed.cf = s.cf := by
  by_cases h : s.time.source = 0 <;> simp [State.freed, setSource, setTb, State.cf, h]

/-- What is latched stays so in FREERUN. -/
theorem freed_latched {s : State} {id inst : Nat} (h : Latched s id inst) : Latched s.freed id inst := by
  show Latched (setSource 0 { s with time := { s.time with slew := 0, switching := false } }) id inst
  unfold setSource
  split
  · exact h
  · exact (Undisturbed.raise (.refl _)).latched _ _ h

/-- The reference is back while no source is qualified: FREERUN (R89). -/
theorem refRestored_frees {s : State} {off : Int} (h : s.time.refPresent = false) (hnone : ∀ j ∈ s.srcOrder, (s.src j).qualified = false) :
    refRestored off s = freerun { s with time := { s.time with refPresent := true } } := by
  have hfree := freerun_follows { s with time := { s.time with refPresent := true } }
  have hfind : (freerun { s with time := { s.time with refPresent := true } }).srcOrder.find?
      (fun k => ((freerun { s with time := { s.time with refPresent := true } }).src k).qualified) = none := by
    refine List.find?_eq_none.mpr fun j hj => ?_
    rw [State.srcOrder_congr (hfree.cf.trans (freed_cf _))] at hj
    rw [hfree.src, freed_src]
    exact Bool.eq_false_iff.mp (hnone j hj)
  unfold refRestored
  rw [if_neg (by simp [h])]
  dsimp only
  rw [hfind]

/-- Settles O26, by what each command leaves of the timebase beside what follows from it. -/
theorem unlockedTimeActs : Obligations.UnlockedTimeActs := by
  unfold Obligations.UnlockedTimeActs
  refine ⟨fun dt s hr hh => ?holdover, fun dt u s hr hst hu => ?classes, fun dt s hr hp => ?lost, fun dt off s hr hp hnone => ?restored⟩
  case holdover =>
    have hq : when (s.tick dt).time.inHoldover refreshQual (s.tick dt) = refreshQual (s.tick dt) := by rw [show (s.tick dt).time.inHoldover = true from hh, when_true]
    have htime := refreshQual_holdover (s := s.tick dt) hh
    refine ⟨_, rfl, ?_⟩
    rw [State.act_runs _ _ _ _ hr, hq, within_timebase (by decide), htime]
    refine ⟨rfl, rfl, fun hun hwas => within_latched (by decide) (refreshQual_latched (by rw [htime]; exact hun) hwas), .of_act ?_⟩
    rw [htime]
  case classes =>
    refine ⟨_, rfl, ?_⟩
    rw [State.act_runs _ _ _ _ hr, classStep_unlocked (s := s.tick dt) hst hu]
    exact ⟨⟨⟨_, rfl⟩, rfl⟩, rfl⟩
  case lost =>
    obtain ⟨hfollows, hlatch⟩ := refLost_follows (s := s.tick dt) hp
    refine ⟨_, rfl, ?_⟩
    rw [State.act_runs _ _ _ _ hr, within_timebase (by decide), hfollows.state, hfollows.refPresent, hfollows.gen, hfollows.tai, hfollows.backup, hfollows.freq]
    exact ⟨rfl, rfl, rfl, rfl, rfl, rfl, within_latched (by decide) hlatch, .of_act hfollows.elapsed⟩
  case restored =>
    have hfollows := freerun_follows { s.tick dt with time := { (s.tick dt).time with refPresent := true } }
    refine ⟨_, rfl, ?_⟩
    rw [State.act_runs _ _ _ _ hr, refRestored_frees (s := s.tick dt) hp hnone, within_timebase (by decide), hfollows.state, hfollows.source, hfollows.refPresent, hfollows.gen,
      hfollows.tai, freed_time]
    exact ⟨rfl, rfl, rfl, rfl, rfl⟩

/-- A step by request while no source is qualified (R88). -/
theorem setTime_steps {v : Bytes} {s : State} (hns : field v 6 4 ≤ 999999999) (hnone : ∀ k, 1 ≤ k → k ≤ 8 → (s.src k).qualified = false) (x : Session) (n : Nat) :
    ∃ t, setTime v x n s = (stOk, t) ∧ t.time.tai = field v 0 6 * 1000000000 + field v 6 4 ∧ t.time.gen = s.time.gen + 1#16 ∧ t.time.state = .freerun ∧
      t.time.source = 0 ∧ Latched t 0x10 0 ∧ t.osr = s.osr := by
  have hany : (span 1 9).any (fun k => (s.src k).qualified) = false := List.any_eq_false.mpr fun k hk => by
    have hspan : ∀ j ∈ span 1 9, 1 ≤ j ∧ j ≤ 8 := by decide
    simp [hnone k (hspan k hk).1 (hspan k hk).2]
  have hset : setTime v x n s = (stOk, freerun (stepTime ((field v 0 6 * 1000000000 + field v 6 4 : Nat) - (s.time.tai : Int)) s)) := by
    unfold setTime
    simp [hany, Nat.not_lt.mpr hns]
  obtain ⟨hstep, hlatch, hosr⟩ := stepTime_steps ((field v 0 6 * 1000000000 + field v 6 4 : Nat) - (s.time.tai : Int)) s
  have hfree := freerun_follows (stepTime ((field v 0 6 * 1000000000 + field v 6 4 : Nat) - (s.time.tai : Int)) s)
  refine ⟨_, hset, ?_⟩
  rw [hfree.tai, hfree.gen, hfree.state, hfree.source, hfree.osr, freed_osr, hosr, freed_time, hstep]
  refine ⟨?_, rfl, rfl, rfl, hfree.latched _ _ (freed_latched hlatch), rfl⟩
  show ((s.time.tai : Int) + _).toNat = _
  omega

/-- It is refused while one is (R88). -/
theorem setTime_rejects {v : Bytes} {s : State} {k : Nat} (h1 : 1 ≤ k) (h8 : k ≤ 8) (hq : (s.src k).qualified = true) (x : Session) (n : Nat) :
    setTime v x n s = (stRejected, s) := by
  have hmem : k ∈ span 1 9 := by
    unfold span
    exact List.mem_map.mpr ⟨k - 1, List.mem_range.mpr (by omega), by omega⟩
  have hany : (span 1 9).any (fun k => (s.src k).qualified) = true := List.any_eq_true.mpr ⟨k, hmem, hq⟩
  unfold setTime
  simp [hany]

theorem respond_time (x : Session) (type tag status : Nat) (body : Bytes) (s : State) : (respond x type tag status body s).time = s.time := by simp

/-- Settles O27: the message is taken, and its effect is a step into FREERUN, or nothing. -/
theorem timeIsSetByRequest : Obligations.TimeIsSetByRequest := by
  unfold Obligations.TimeIsSetByRequest
  refine ⟨fun dt n m v s x hr ht hns hnone => ?steps, fun dt n k m v s x hr ht h1 h8 hq => ?rejects⟩
  case steps =>
    have htime : ((s.tick dt).afterWrite m 0x3000 8 v x).time = (s.tick dt).time := by simp
    obtain ⟨u, hset, htai, hgen, hstate, hsource, hlatch, hosr⟩ := setTime_steps (s := (s.tick dt).afterWrite m 0x3000 8 v x) hns
      (fun k h1 h8 => by rw [State.src, htime]; exact hnone k h1 h8) (x.afterWrite m 0x3000 8 v (s.tick dt).elapsed) n
    obtain ⟨t, he, ha, body, rfl⟩ := write_answers (c := .setTime dt m v) rfl (by decide) hr ht hset (.of_sessions (by rw [hosr]))
    refine ⟨_, he, ha, ?_⟩
    rw [within_timebase (by decide), respond_time, htai, hgen, hstate, hsource, htime]
    exact ⟨rfl, rfl, rfl, rfl, answered_latched (by decide) hlatch⟩
  case rejects =>
    have htime : ((s.tick dt).afterWrite m 0x3000 8 v x).time = (s.tick dt).time := by simp
    obtain ⟨t, he, ha, body, rfl⟩ := write_answers (c := .setTime dt m v) rfl (by decide) hr ht
      (setTime_rejects h1 h8 (by rw [State.src, htime]; exact hq) _ _) (.refl _)
    refine ⟨_, he, ha, ?_⟩
    rw [within_timebase (by decide), respond_time, htime]

end Sys2Proof.Machine
end

section
namespace Sys2Proof.Machine
open Sys2Proof

/-! ## Leap seconds and the pulse output (R90, R97) -/

/-- The configured UTC offset after the device has set it (R97): within its range, and the other cells as they are. -/
def CfgU.withUtc (c : CfgU) (v : Nat) (u : Int) : CfgU := { c with live := Memory.writes v c.live (cfgAddr 0x3050 1 0) (toBEi 4 (max 0 (min 100 u))) }

/-- Journaling the configured offset, or owing it, leaves the timebase and the configuration. -/
theorem setConfiguredUtc_sets (u : Int) (s : State) : (∃ owed, (setConfiguredUtc u s).time = { s.time with utcOwed := owed }) ∧
    (setConfiguredUtc u s).cfg = s.cfg.withUtc s.variant u ∧ (setConfiguredUtc u s).variant = s.variant := by
  unfold setConfiguredUtc
  extract_lets _ _ s1
  split
  · exact ⟨⟨false, rfl⟩, rfl, rfl⟩
  · exact ⟨⟨true, rfl⟩, rfl, rfl⟩

/-- The timebase once a leap has occurred. -/
def State.leapt (s : State) : State :=
  { s with time := { s.time with
    utc := if s.time.leap = 1 then s.time.utc + 1 else s.time.utc - 1, leap := 0, leapPend := false, leapDone := true, doneAt := s.time.leapAt
    doneDel := decide (s.time.leap ≠ 1), leapByHand := false, leapDoneAt := s.elapsed + (if s.time.leap = 1 then 1000000000 else 0) } }

/-- A leap that is due: the offset moves, and the configured one with it when no source gives one (R97). -/
theorem leapOccur_occurs {s : State} (hleap : s.time.leap ≠ 0) (hdue : s.time.leapAt ≤ s.time.tai) :
    leapOccur s = raise 0x15 0 3 (if s.utcSource.isNone then setConfiguredUtc s.leapt.time.utc s.leapt else s.leapt) := by
  have hutc : s.time.utc + (if s.time.leap = 1 then 1 else -1) = if s.time.leap = 1 then s.time.utc + 1 else s.time.utc - 1 := by
    split <;> omega
  unfold leapOccur
  rw [if_pos (by simp [hleap, hdue])]
  simp [State.leapt, hutc]

/-- What of it the timebase and the configuration show. -/
theorem leapOccur_shows {s : State} (hleap : s.time.leap ≠ 0) (hdue : s.time.leapAt ≤ s.time.tai) :
    (∃ owed, (leapOccur s).time = { s.leapt.time with utcOwed := owed }) ∧
      (leapOccur s).cfg = (if s.utcSource.isNone then s.cfg.withUtc s.variant s.leapt.time.utc else s.cfg) ∧ Latched (leapOccur s) 0x15 0 := by
  obtain ⟨⟨owed, htime⟩, hcfg, -⟩ := setConfiguredUtc_sets s.leapt.time.utc s.leapt
  have hlatch : Latched (leapOccur s) 0x15 0 := by
    rw [leapOccur_occurs hleap hdue]
    exact raise_latched _ _ _ _ (by simp [eventAbsent]) rfl
  refine ⟨?_, ?_, hlatch⟩
  · rw [leapOccur_occurs hleap hdue, raise_time]
    split
    · exact ⟨owed, htime⟩
    · exact ⟨s.time.utcOwed, rfl⟩
  · rw [leapOccur_occurs hleap hdue, raise_cfg]
    split
    · exact hcfg
    · rfl

/-- A pulse has begun (R90). -/
def State.pulsing (s : State) : State := { s with time := { s.time with ppsOut := true, ppsOutAt := s.elapsed } }

theorem ppsPulse_pulses {s : State} (hen : s.cf.u 0x3040 6 0 1 = 1) (hsec : s.time.tai % 1000000000 = 0) : ppsPulse s = s.pulsing :=
  if_pos (by simp [hen, hsec])

/-- The output is high while enabled. -/
theorem pulsing_level {s : State} (hr : s.runs = true) (hen : s.cf.u 0x3040 6 0 1 = 1) : s.pulsing.ppsLevel = true := by
  show (s.runs && true && decide (s.elapsed < s.elapsed + 10000000) && decide (s.cf.u 0x3040 6 0 1 = 1)) = true
  simp [hr, hen]

/-- Once 10 ms have passed since its edge the output is low. -/
theorem ppsLevel_low {s : State} (h : s.time.ppsOutAt + 10000000 ≤ s.elapsed) : s.ppsLevel = false := by
  unfold State.ppsLevel
  simp [Nat.not_lt.mpr h]

/-- It is low again after 10 ms. -/
theorem pulsing_ends (s : State) : (s.pulsing.tick 10000000).ppsLevel = false := by
  have hat : ∀ n, (s.pulsing.tick n).time.ppsOutAt = s.elapsed := fun _ => rfl
  have hnow : s.pulsing.elapsed = s.elapsed := rfl
  exact ppsLevel_low (by rw [hat, State.tick_elapsed', hnow])

/-- Settles O29, by what each command does when it is due. -/
theorem leapSecondsAct : Obligations.LeapSecondsAct := by
  unfold Obligations.LeapSecondsAct
  refine ⟨fun dt s hr hleap hdue => ?pending, fun dt s hr hkind hdue => ?occurs, fun dt s hr hdone hdue => ?clears, fun dt s hr hen hsec => ?pulses⟩
  case pending =>
    have hstart : leapPendStart (s.tick dt) = { s.tick dt with time := { (s.tick dt).time with leapPend := true } } := if_pos (by simpa [hleap] using ⟨hleap, hdue⟩)
    show Host.Outcome.next (s.act _ dt leapPendStart) = _
    rw [State.act_runs _ _ _ _ hr, hstart, within_of_time (by decide)]
  case occurs =>
    have hleap : s.time.leap ≠ 0 := by omega
    obtain ⟨⟨owed, htime⟩, hcfg, hlatch⟩ := leapOccur_shows (s := s.tick dt) hleap hdue
    refine ⟨_, rfl, ?_⟩
    rw [State.act_runs _ _ _ _ hr, within_timebase (by decide), State.within_cfg, htime, hcfg]
    refine ⟨rfl, rfl, rfl, rfl, rfl, ?_, within_latched (by decide) hlatch, ?_⟩
    · show decide (s.time.leap ≠ 1) = decide (s.time.leap = 2)
      exact decide_eq_decide.mpr (by omega)
    · have hsource : (s.tick dt).utcSource = s.utcSource := rfl
      rw [if_pos (by decide), hsource]
      cases s.utcSource.isNone <;> rfl
  case clears =>
    have hclear : leapClear (s.tick dt) = { s.tick dt with time := { (s.tick dt).time with leapDone := false } } :=
      if_pos (Bool.and_eq_true_iff.mpr ⟨hdone, decide_eq_true hdue⟩)
    show Host.Outcome.next (s.act _ dt leapClear) = _
    rw [State.act_runs _ _ _ _ hr, hclear, within_of_time (by decide)]
  case pulses =>
    refine ⟨_, rfl, ?_⟩
    rw [State.act_runs _ _ _ _ hr, ppsPulse_pulses (s := s.tick dt) hen hsec, State.pulsing, within_of_time (by decide), ← State.pulsing]
    exact ⟨pulsing_level (s := s.tick dt) hr hen, pulsing_ends (s.tick dt), rfl, ⟨_, (within_of_time (by decide) s dt _).symm⟩, rfl⟩

end Sys2Proof.Machine
end

section
namespace Sys2Proof.Machine
open Sys2Proof

/-! ## PTP messages sent (R82, R113, R122, R131) -/

theorem overlay_length {b x : Bytes} {at_ : Nat} (h : at_ + x.length ≤ b.length) : (overlay b at_ x).length = b.length := by
  simp only [overlay, List.length_append, List.length_take, List.length_drop]
  omega

/-- Bytes before those laid over stay. -/
theorem slice_overlay {b x : Bytes} {at_ off n : Nat} (h : off + n ≤ at_) (hb : at_ ≤ b.length) : slice (overlay b at_ x) off n = slice b off n := by
  unfold overlay slice
  rw [List.append_assoc, List.drop_append_of_le_length (by simp; omega), List.take_append_of_le_length (by simp; omega), List.drop_take, List.take_take,
    Nat.min_eq_left (by omega)]

/-- The frame of a PTP message before its fields are laid in: addresses, EtherType, and what no rule states. -/
def ptpBlank (k p n : Nat) : Bytes := freeRun k 0 6 ++ toBE 6 (portMac p) ++ toBE 2 0x88F7 ++ freeRun k 14 n

theorem ptpBlank_length (k p n : Nat) : (ptpBlank k p n).length = 14 + n := by
  simp only [ptpBlank, freeRun, toBE, List.length_append, List.length_map, List.length_range, List.length_cons, List.length_nil]

theorem ptpBlank_etherType (k p n : Nat) : slice (ptpBlank k p n) 12 2 = toBE 2 0x88F7 := by
  have hlen : (freeRun k 0 6 ++ toBE 6 (portMac p)).length = 12 := by simp [freeRun, toBE]
  rw [slice, ptpBlank, List.append_assoc, ← hlen, List.drop_left]
  rfl

/-- A PTP message has the length of its kind, and its EtherType. -/
theorem ptpBytes_shape (k p type dom seq : Nat) {n : Nat} (locked : Bool) (hn : 44 ≤ n) (ha : type = 0x0B → 64 ≤ n) :
    (ptpBytes k p type dom seq n locked).length = 14 + n ∧ slice (ptpBytes k p type dom seq n locked) 12 2 = toBE 2 0x88F7 := by
  unfold ptpBytes
  extract_lets b h
  have hb : b.length = 14 + n := ptpBlank_length k p n
  have h1 : ∀ v, (toBE 1 v).length = 1 := fun _ => rfl
  have h2 : ∀ v, (toBE 2 v).length = 2 := fun _ => rfl
  have hh : h.length = 14 + n ∧ slice h 12 2 = toBE 2 0x88F7 := by
    have l1 : (overlay b 14 (toBE 1 (field b 14 1 / 16 * 16 + type))).length = 14 + n := by rw [overlay_length (by rw [h1]; omega), hb]
    have l2 : (overlay (overlay b 14 (toBE 1 (field b 14 1 / 16 * 16 + type))) 18 (toBE 1 dom)).length = 14 + n := by rw [overlay_length (by rw [h1]; omega), l1]
    refine ⟨by rw [overlay_length (by rw [h2]; omega), l2], ?_⟩
    rw [slice_overlay (by omega) (by omega), slice_overlay (by omega) (by omega), slice_overlay (by omega) (by omega)]
    exact ptpBlank_etherType k p n
  split
  · next hann =>
    have h64 : 64 ≤ n := ha (by simpa using (Bool.and_eq_true_iff.mp hann).1)
    rw [overlay_length (by rw [h1]; omega), slice_overlay (by omega) (by omega)]
    exact hh
  · exact hh

/-- As it is sent it has no tag, and at least 64 bytes with its FCS (R108, R113). -/
theorem padFrame_ptp {b : Bytes} (h14 : 14 ≤ b.length) (htype : slice b 12 2 = toBE 2 0x88F7) :
    tagCount (padFrame b) = 0 ∧ frameLen (padFrame b) = max b.length 60 + 4 := by
  have hfield : field (padFrame b) 12 2 = 0x88F7 := by
    have hs : slice (padFrame b) 12 2 = slice b 12 2 := by
      unfold slice padFrame
      rw [List.drop_append_of_le_length (by omega), List.take_append_of_le_length (by simp; omega)]
    rw [field, hs, htype]
    decide
  refine ⟨by rw [tagCount, hfield]; rfl, ?_⟩
  simp only [frameLen, padFrame, zeros, List.length_append, List.length_replicate]
  omega

/-- A frame that a port may send is offered to its class (R122). -/
theorem portSend_offers {p cls n : Nat} {b : Bytes} {stamp : Option (Nat × Nat × Nat)} {s : State} (hact : s.portActive p = true) (hup : (s.prt p).up = true)
    (htag : tagCount (padFrame b) = 0) (hlen : frameLen (padFrame b) = n) (hmax : n ≤ s.maxFrame p 0) :
    portSend p cls b stamp s = (enqueueData (96 + 4 * p + cls) (txItem p cls n stamp) (padFrame b) s).2 := by
  unfold portSend
  dsimp only
  rw [htag, hlen, hact, if_neg (by simp [hmax]), if_pos hup]

/-- An item offered moves no port. -/
theorem enqueueData_port (q : Nat) (item data : Bytes) (s : State) : (enqueueData q item data s).2.port = s.port := by
  simp [enqueueData, refusePush, satEvent, chargeMoves, setPool, apply_ite State.port, apply_ite Prod.snd]

/-- A PTP message goes out in class 1: its item is the last of the queue, and nothing of the timebase or the ports changes. -/
theorem ptp_sent {p k type dom seq n : Nat} {locked : Bool} {stamp : Option (Nat × Nat × Nat)} {s : State} (hp : p < 6) (hact : s.portActive p = true)
    (hup : (s.prt p).up = true) (hn : 44 ≤ n) (ha : type = 0x0B → 64 ≤ n) (hmax : max (14 + n) 60 + 4 ≤ s.maxFrame p 0) (hfull : s.queueFull (97 + 4 * p) = false) :
    ((portSend p 1 (ptpBytes k p type dom seq n locked) stamp s).queue (97 + 4 * p)).items =
        (s.queue (97 + 4 * p)).items ++ [txItem p 1 (max (14 + n) 60 + 4) stamp] ∧
      (portSend p 1 (ptpBytes k p type dom seq n locked) stamp s).time = s.time ∧
      (portSend p 1 (ptpBytes k p type dom seq n locked) stamp s).port = s.port := by
  obtain ⟨hlen, htype⟩ := ptpBytes_shape k p type dom seq locked hn ha
  obtain ⟨htag, hframe⟩ := padFrame_ptp (by omega) htype
  rw [hlen] at hframe
  have hq : 96 + 4 * p + 1 = 97 + 4 * p := by omega
  rw [portSend_offers hact hup htag hframe hmax, hq, (enqueueData_items hfull).1, if_neg (by simp; omega)]
  exact ⟨rfl, (Undisturbed.refl s).enqueueData.time, enqueueData_port ..⟩

section Transmit
variable {s : State} {p dom seq : Nat}

/-- A port that runs is one of the six. -/
theorem State.ports_le (s : State) : s.ports ≤ 6 := by
  unfold State.ports byPart
  split <;> decide

theorem portActive_of_runs (h : s.portRuns p = true) : s.portActive p = true := (Bool.and_eq_true_iff.mp h).1

theorem lt_ports_of_runs (h : s.portRuns p = true) : p < s.ports := by
  simpa using (Bool.and_eq_true_iff.mp (portActive_of_runs h)).1

/-- What a PTP message goes out of: a port that runs, up and with PTP, and its class not full. -/
structure SendsPtp (s : State) (p : Nat) : Prop where
  runs : s.portRuns p = true
  up : (s.prt p).up = true
  ptp : s.cf.u (0x3020 + p) 1 0 1 ≠ 0
  room : s.queueFull (97 + 4 * p) = false

theorem SendsPtp.lt_six (h : SendsPtp s p) : p < 6 := Nat.lt_of_lt_of_le (lt_ports_of_runs h.runs) s.ports_le

/-- A Pdelay_Req as a port sends it. -/
theorem ptpTransmit_two (h : SendsPtp s p) : ptpTransmit p 2 dom seq s =
    portSend p 1 (ptpBytes s.freeCount p 2 dom seq 54 (decide (s.time.state = .locked))) (some (2, dom, seq)) s.takeFree.2 :=
  if_pos (by simp [lt_ports_of_runs h.runs, h.ptp])

/-- A Sync as a port sends it. -/
theorem ptpTransmit_zero (h : SendsPtp s p) : ptpTransmit p 0 dom seq s =
    if decide ((s.ptpP p).state = 6) && decide (s.time.state = .locked) then
      portSend p 1 (ptpBytes s.freeCount p 0 dom seq 44 (decide (s.time.state = .locked))) (some (0, dom, seq)) s.takeFree.2
    else s.takeFree.2 :=
  if_pos (by simp [lt_ports_of_runs h.runs, h.ptp])

/-- An Announce as a port sends it. -/
theorem ptpTransmit_eleven (h : SendsPtp s p) : ptpTransmit p 0x0B dom seq s =
    if (s.ptpP p).state = 6 then
      portSend p 1 (ptpBytes s.freeCount p 0x0B dom seq 64 (decide (s.time.state = .locked))) none
        (s.takeFree.2.setPtp p { s.ptpP p with announced := if s.time.state = .locked then 0 else 248 })
    else s.takeFree.2 :=
  if_pos (by simp [lt_ports_of_runs h.runs, h.ptp])

/-- A Pdelay_Req asks for its stamp (R131). -/
theorem ptpTransmit_pdelay (h : SendsPtp s p) (hmax : 72 ≤ s.maxFrame p 0) :
    ((ptpTransmit p 2 dom seq s).queue (97 + 4 * p)).items = (s.queue (97 + 4 * p)).items ++ [txItem p 1 72 (some (2, dom, seq))] ∧
      (ptpTransmit p 2 dom seq s).time = s.time ∧ (ptpTransmit p 2 dom seq s).port = s.port := by
  rw [ptpTransmit_two h]
  exact ptp_sent (n := 54) (s := s.takeFree.2) h.lt_six (portActive_of_runs h.runs) h.up (by decide) (by decide) hmax h.room

/-- An Announce goes out of a port in MASTER state (R82). -/
theorem ptpTransmit_announce (h : SendsPtp s p) (hmax : 82 ≤ s.maxFrame p 0) : ((ptpTransmit p 0x0B dom seq s).queue (97 + 4 * p)).items =
    if (s.ptpP p).state = 6 then (s.queue (97 + 4 * p)).items ++ [txItem p 1 82 none] else (s.queue (97 + 4 * p)).items := by
  rw [ptpTransmit_eleven h]
  by_cases hmaster : (s.ptpP p).state = 6
  · rw [if_pos hmaster, if_pos hmaster]
    exact (ptp_sent (n := 64) (s := s.takeFree.2.setPtp p { s.ptpP p with announced := if s.time.state = .locked then 0 else 248 })
      h.lt_six (portActive_of_runs h.runs) h.up (by decide) (by decide) hmax h.room).1
  · rw [if_neg hmaster, if_neg hmaster]
    rfl

/-- A Sync does so in LOCKED, asking for its stamp. -/
theorem ptpTransmit_sync (h : SendsPtp s p) (hmax : 82 ≤ s.maxFrame p 0) : ((ptpTransmit p 0 dom seq s).queue (97 + 4 * p)).items =
    if (s.ptpP p).state = 6 ∧ s.time.state = .locked then (s.queue (97 + 4 * p)).items ++ [txItem p 1 64 (some (0, dom, seq))]
    else (s.queue (97 + 4 * p)).items := by
  rw [ptpTransmit_zero h]
  by_cases hsends : (s.ptpP p).state = 6 ∧ s.time.state = .locked
  · rw [if_pos (by simpa using hsends), if_pos hsends]
    exact (ptp_sent (n := 44) (s := s.takeFree.2) h.lt_six (portActive_of_runs h.runs) h.up (by decide) (by decide) (Nat.le_trans (by decide) hmax) h.room).1
  · rw [if_neg (by simpa using hsends), if_neg hsends]
    rfl

end Transmit

end Sys2Proof.Machine
end

section
namespace Sys2Proof.Machine
open Sys2Proof

/-! ## What the sources bring (R81 to R84, R96, R101, R128, R131) -/

theorem within_prt {s t : State} {ps : List Part} (h : .port ∈ ps) (p : Nat) : (s.within ps t).prt p = t.prt p := by simp [State.prt, h]

/-- What a port has heard is as it was. -/
theorem ptpP_of_heard {s t : State} (h : t.time.heard = s.time.heard) (p : Nat) : t.ptpP p = s.ptpP p := by
  have hptp : t.time.ptp = s.time.ptp := congrArg (·.1) h
  rw [State.ptpP, hptp]
  rfl

theorem Follows.heard {s t : State} (h : Follows s t) : t.time.heard = s.time.heard := (congrArg TimeU.heard h.ground :)

/-! ### The judgement of a port, and measurements -/

theorem ptpJudge_valid {p : Nat} {s : State} (h : (s.ptpP p).valid = true) : ptpJudge p s = seeValid (p + 1) s := if_pos h
theorem ptpJudge_invalid {p : Nat} {s : State} (h : (s.ptpP p).valid = false) : ptpJudge p s = disqualify (p + 1) s := if_neg (by simp [h])

/-- A source seen valid. -/
theorem seeValid_src (k j : Nat) (s : State) :
    (seeValid k s).src j = if j = k then { s.src k with validSince := some ((s.src k).validSince.getD s.elapsed) } else s.src j := State.setSrc_src ..

/-- A judgement moves nothing that was heard, nor what a source carries. -/
theorem ptpJudge_carries (p : Nat) (s : State) : (ptpJudge p s).time.heard = s.time.heard ∧
    ((ptpJudge p s).src (p + 1)).utc = (s.src (p + 1)).utc ∧ ((ptpJudge p s).src (p + 1)).leap = (s.src (p + 1)).leap := by
  cases hv : (s.ptpP p).valid with
  | true =>
    rw [ptpJudge_valid hv, seeValid_src, if_pos rfl]
    exact ⟨rfl, rfl, rfl⟩
  | false =>
    have hsel := disqualify_selects (p + 1) s
    rw [ptpJudge_invalid hv, hsel.heard, hsel.utc, hsel.leap, without_src, if_pos rfl]
    exact ⟨rfl, rfl, rfl⟩

theorem noteOffset_heard (k : Nat) (raw : Int) (s : State) : (noteOffset k raw s).time.heard = s.time.heard := congrArg (·.1) (noteOffset_inputs k raw s)
theorem noteOffset_port (k : Nat) (raw : Int) (s : State) : (noteOffset k raw s).port = s.port := congrArg (·.2.2) (noteOffset_inputs k raw s)

/-- A measurement stands with its source. -/
theorem noteOffset_src (k j : Nat) (raw : Int) (s : State) :
    (noteOffset k raw s).src j = if j = k then { s.src k with offset := s.offsetOf k raw } else s.src j := by
  have hsources : (noteOffset k raw s).time.sources = (s.measured k raw).time.sources := congrArg (·.2.1) (noteOffset_inputs k raw s)
  rw [State.src, hsources]
  exact State.setSrc_src ..

theorem ptpMeasure_heard (f : PtpMsg) (rx : Stamp) (s : State) : (ptpMeasure f rx s).time.heard = s.time.heard := by
  unfold ptpMeasure
  split
  · exact noteOffset_heard ..
  · rfl

/-- A stamp of the present generation gives the offset (R81, R131). -/
theorem ptpMeasure_now {f : PtpMsg} {rx : Stamp} {s : State} (hgen : rx.gen = s.time.gen) :
    ptpMeasure f rx s = noteOffset (f.port + 1) (ptpOffset (s.ptpP f.port) rx f.origin) s := if_pos hgen

/-- Of a PTP port, which is none of 1PPS, the whole offset counts. -/
theorem offsetOf_ptp {p : Nat} (hp : p < 6) (raw : Int) (s : State) : s.offsetOf (p + 1) raw = raw := by
  unfold State.offsetOf
  rw [if_neg (by simp; omega)]

/-! ### Timestamp entries -/

/-- Reading an entry changes its port alone. -/
theorem takeTs_port (p : Nat) (pick : TsEntry → Bool) (s : State) : ∃ x, (takeTs p pick s).2 = { s with port := x } := by
  unfold takeTs
  dsimp only
  split
  · exact ⟨s.port, rfl⟩
  · exact ⟨_, rfl⟩

/-- The oldest entry is read when it is the one asked for. -/
theorem takeTs_first {p : Nat} {pick : TsEntry → Bool} {s : State} {e : TsEntry} {r : List TsEntry} (hq : (s.prt p).tsq = e :: r) (he : pick e = true) :
    (takeTs p pick s).1 = some e ∧ ((takeTs p pick s).2.prt p).tsq = r := by
  have hfind : (s.prt p).tsq.find? pick = some e := by rw [hq, List.find?_cons, he]
  unfold takeTs
  dsimp only
  rw [hfind]
  simp [hq]

/-! ### PTP messages of the port's domain -/

section Receive
variable {f : PtpMsg} {s : State}

/-- A message that its port takes: PTP runs there, and the domain is the port's. -/
structure HearsPtp (f : PtpMsg) (s : State) : Prop where
  port : f.port < s.ports
  ptp : s.cf.u (0x3020 + f.port) 1 0 1 ≠ 0
  domain : f.domain = s.cf.u (0x3020 + f.port) 3 0 1

theorem HearsPtp.cond (h : HearsPtp f s) : (f.port < s.ports && s.cf.u (0x3020 + f.port) 1 0 1 != 0 && f.domain = s.cf.u (0x3020 + f.port) 3 0 1) = true := by
  simp [h.port, h.ptp, h.domain]

/-- An Announce is what `ptpAnnounce` makes of it. -/
theorem ptpFrame_announce (h : HearsPtp f s) (ht : f.msgType = 0x0B) : ptpFrame f s = ptpAnnounce f s := by
  unfold ptpFrame
  rw [if_pos h.cond, ht]
  rfl

/-- The entry that an event message of the port asks for (R128). -/
def stampOf (f : PtpMsg) (s : State) : Option TsEntry × State :=
  takeTs f.port (fun e => !e.tx && e.kind = f.msgType && e.domain = f.domain && e.seqId = f.seqId) s

/-- A Sync of the sender followed has come. -/
def State.synced (s : State) (f : PtpMsg) : State :=
  (stampOf f s).2.setPtp f.port { s.ptpP f.port with
    syncAt := some s.elapsed, synced := if f.twoStep then (stampOf f s).1.map (fun e => (f.seqId, e.stamp)) else none }

theorem stampOf_port (f : PtpMsg) (s : State) : ∃ x, (stampOf f s).2 = { s with port := x } := takeTs_port _ _ s

/-- A Sync of the sender followed is judged, and measured when it carries its origin and has its stamp (R81, R131). -/
theorem ptpFrame_sync {d : PtpDs} (h : HearsPtp f s) (ht : f.msgType = 0) (hb : (s.ptpP f.port).best = some (d, f.sender)) :
    ptpFrame f s = match (stampOf f s).1 with
      | some e => if f.twoStep then ptpJudge f.port (s.synced f) else ptpMeasure f e.stamp (ptpJudge f.port (s.synced f))
      | none => ptpJudge f.port (s.synced f) := by
  obtain ⟨x, hx⟩ := stampOf_port f s
  have hport : (stampOf f s).2.ptpP f.port = s.ptpP f.port := by
    rw [hx]
    rfl
  have hnow : (stampOf f s).2.elapsed = s.elapsed := by
    rw [hx]
    rfl
  unfold ptpFrame
  rw [if_pos h.cond]
  dsimp only
  rw [if_pos (by simp [ht]), ← stampOf]
  simp only [ht]
  rw [if_neg (by rw [hport, hb]; simp), hport, hnow]
  rfl

/-- A Follow_Up of the sender followed gives the offset of the Sync that waits for it. -/
theorem ptpFrame_followUp {d : PtpDs} {rx : Stamp} (h : HearsPtp f s) (ht : f.msgType = 8) (hb : (s.ptpP f.port).best = some (d, f.sender))
    (hs : (s.ptpP f.port).synced = some (f.seqId, rx)) :
    ptpFrame f s = ptpMeasure f rx (s.setPtp f.port { s.ptpP f.port with synced := none }) := by
  unfold ptpFrame
  rw [if_pos h.cond]
  dsimp only
  rw [if_neg (by simp [ht])]
  simp only [ht]
  split
  · next q rx' hq =>
    obtain ⟨rfl, rfl⟩ : f.seqId = q ∧ rx = rx' := by simpa using hs.symm.trans hq
    rw [if_pos (by rw [hb]; simp)]
  · next hno => simp [hs] at hno

/-- A peer delay follow-up ends the exchange that waits for it. -/
theorem ptpFrame_delay {a b : Stamp} (h : HearsPtp f s) (ht : f.msgType = 0x0A) (ha : (s.ptpP f.port).answered = some (f.seqId, a, b)) :
    ptpFrame f s = s.setPtp f.port (ptpDelay a b f.turnaround (s.ptpP f.port)) := by
  unfold ptpFrame
  rw [if_pos h.cond]
  dsimp only
  rw [if_neg (by simp [ht])]
  simp only [ht]
  split
  · next q a' b' hq =>
    obtain ⟨rfl, rfl, rfl⟩ : f.seqId = q ∧ a = a' ∧ b = b' := by simpa using ha.symm.trans hq
    rw [if_pos rfl]
  · next hno => simp [ha] at hno

/-- A Sync of the sender followed leaves its time of arrival with the port. -/
theorem ptpFrame_sync_heard {d : PtpDs} (h : HearsPtp f s) (ht : f.msgType = 0) (hb : (s.ptpP f.port).best = some (d, f.sender)) :
    (ptpFrame f s).ptpP f.port = (s.synced f).ptpP f.port := by
  have hjudge := (ptpJudge_carries f.port (s.synced f)).1
  rw [ptpFrame_sync h ht hb]
  refine ptpP_of_heard ?_ f.port
  split
  · split
    · exact hjudge
    · exact (ptpMeasure_heard ..).trans hjudge
  · exact hjudge

theorem synced_ptpP (f : PtpMsg) (s : State) : (s.synced f).ptpP f.port = { s.ptpP f.port with
    syncAt := some s.elapsed, synced := if f.twoStep then (stampOf f s).1.map (fun e => (f.seqId, e.stamp)) else none } := by
  simp [State.synced]

/-- A one-step Sync with its stamp, from a sender fit to be followed: valid, and measured. -/
theorem ptpFrame_sync_measures {d : PtpDs} {e : TsEntry} {r : List TsEntry} (h : HearsPtp f s) (ht : f.msgType = 0)
    (hb : (s.ptpP f.port).best = some (d, f.sender)) (htwo : f.twoStep = false) (hclass : d.clockClass < 248) (hslave : (s.ptpP f.port).state = 9)
    (hann : (s.ptpP f.port).announceAt.isSome = true) (hq : (s.prt f.port).tsq = e :: r) (htx : e.tx = false) (hkind : e.kind = 0)
    (hdom : e.domain = f.domain) (hseq : e.seqId = f.seqId) (hgen : e.stamp.gen = s.time.gen) :
    ptpFrame f s = noteOffset (f.port + 1) ((e.stamp.ns : Int) - f.origin - (s.ptpP f.port).peerDelay) (seeValid (f.port + 1) (s.synced f)) ∧
      ((s.synced f).prt f.port).tsq = r := by
  obtain ⟨hfound, hrest⟩ := takeTs_first (pick := fun e => !e.tx && e.kind = f.msgType && e.domain = f.domain && e.seqId = f.seqId) hq
    (by simp [htx, hkind, hdom, hseq, ht])
  obtain ⟨x, hx⟩ := stampOf_port f s
  have hvalid : ((s.synced f).ptpP f.port).valid = true := by
    rw [synced_ptpP]
    simp [PtpPort.valid, hb, hclass, hslave, hann]
  have hnow : e.stamp.gen = (seeValid (f.port + 1) (s.synced f)).time.gen := by
    show _ = (stampOf f s).2.time.gen
    rw [hx]
    exact hgen
  refine ⟨?_, hrest⟩
  rw [ptpFrame_sync h ht hb, stampOf, hfound]
  dsimp only
  rw [htwo, if_neg Bool.false_ne_true, ptpJudge_valid hvalid, ptpMeasure_now hnow]
  have hdelay : ((seeValid (f.port + 1) (s.synced f)).ptpP f.port).peerDelay = (s.ptpP f.port).peerDelay := by
    rw [ptpP_of_heard (s := s.synced f) (t := seeValid (f.port + 1) (s.synced f)) rfl, synced_ptpP]
  rw [ptpOffset, hdelay]

/-- What an Announce that is followed leaves with its port and its source, before it is judged. -/
def State.announced (s : State) (f : PtpMsg) : State :=
  let s1 := s.setPtp f.port { s.ptpP f.port with
    state := s.ptpState f.port (some f.ds), best := some (f.ds, f.sender), gmId := f.ds.gmId, gmInacc := f.tlvNs.getD unknownErr, announceAt := some s.elapsed }
  s1.setSrc (f.port + 1) { s1.src (f.port + 1) with
    utc := f.utcOffset, leap := f.leap, inaccuracy := satErr (f.tlvNs.getD (ptpAccuracyNs f.ds.accuracy)) }

theorem announced_ptpP (f : PtpMsg) (s : State) : (s.announced f).ptpP f.port = { s.ptpP f.port with
    state := s.ptpState f.port (some f.ds), best := some (f.ds, f.sender), gmId := f.ds.gmId, gmInacc := f.tlvNs.getD unknownErr, announceAt := some s.elapsed } :=
  (State.setPtp_ptpP ..).trans (if_pos rfl)

theorem ptpAnnounce_taken (h : ∀ d who, (s.ptpP f.port).best = some (d, who) → who = f.sender ∨ PtpDs.better f.ds d = true) :
    ptpAnnounce f s = sourceInfo (f.port + 1) (s.src (f.port + 1)).utc (ptpJudge f.port (s.announced f)) := by
  unfold ptpAnnounce
  cases hbest : (s.ptpP f.port).best with
  | none => exact if_neg (by simp [hbest])
  | some y =>
    obtain ⟨d, who⟩ := y
    exact if_neg (by simpa [hbest, or_iff_not_imp_left] using h d who hbest)

/-- An Announce taken is followed: the port and its source have what it says (R82, R96, R101). -/
theorem ptpAnnounce_follows (h : ∀ d who, (s.ptpP f.port).best = some (d, who) → who = f.sender ∨ PtpDs.better f.ds d = true) :
    (ptpAnnounce f s).ptpP f.port = (s.announced f).ptpP f.port ∧ ((ptpAnnounce f s).src (f.port + 1)).utc = f.utcOffset ∧
      ((ptpAnnounce f s).src (f.port + 1)).leap = f.leap := by
  have hinfo : Follows (ptpJudge f.port (s.announced f)) (ptpAnnounce f s) := by
    rw [ptpAnnounce_taken h]
    exact .sourceInfo (.refl _)
  obtain ⟨hheard, hutc, hleap⟩ := ptpJudge_carries f.port (s.announced f)
  rw [ptpP_of_heard (hinfo.heard.trans hheard), hinfo.src, hutc, hleap]
  simp [State.announced]

end Receive

/-- A receipt timeout ends what was followed, and the source with it (R83). -/
theorem ptpTimeout_ends {p : Nat} {s : State} (hp : p < s.ports) (hptp : s.cf.u (0x3020 + p) 1 0 1 ≠ 0) :
    (ptpTimeout p s).ptpP p = { s.ptpP p with state := s.ptpState p none, best := none, announceAt := none, syncAt := none, synced := none } ∧
      ((ptpTimeout p s).src (p + 1)).validSince = none ∧ ((ptpTimeout p s).src (p + 1)).qualified = false := by
  have hsel := disqualify_selects (p + 1) (s.setPtp p { s.ptpP p with state := s.ptpState p none, best := none, announceAt := none, syncAt := none, synced := none })
  unfold ptpTimeout
  rw [if_pos (by simp [hp, hptp]), ptpJudge_invalid (by simp [PtpPort.valid]), hsel.ptpP, hsel.validSince, hsel.qualified, without_src, if_pos rfl]
  exact ⟨(State.setPtp_ptpP ..).trans (if_pos rfl), rfl, rfl⟩

/-! ### 1PPS -/

theorem onTime_iff (v a : Nat) : onTime (some v) a = true ↔ v + 999990000 ≤ a ∧ a ≤ v + 1000010000 := by
  simp only [onTime, decide_eq_true_eq]
  omega

/-- An edge of 1PPS has come. -/
def State.marked (s : State) : State := { s with time := { s.time with ppsLast := some s.elapsed } }

theorem ppsEdge_short {w : Nat} {s : State} (h : w < 1000 ∨ 500000000 < w) : ppsEdge w s = s := if_pos (by simpa using h)

theorem ppsEdge_on_time {w v : Nat} {s : State} (h1 : 1000 ≤ w) (h2 : w ≤ 500000000) (hlast : s.time.ppsLast = some v) (hlo : v + 999990000 ≤ s.elapsed)
    (hhi : s.elapsed ≤ v + 1000010000) : ppsEdge w s = noteOffset 7 s.ppsOffset (seeValid 7 s.marked) := by
  unfold ppsEdge
  rw [if_neg (by simp; omega)]
  exact if_pos (by rw [hlast, onTime_iff]; exact ⟨hlo, hhi⟩)

theorem ppsEdge_off_time {w v : Nat} {s : State} (h1 : 1000 ≤ w) (h2 : w ≤ 500000000) (hlast : s.time.ppsLast = some v)
    (h : s.elapsed < v + 999990000 ∨ v + 1000010000 < s.elapsed) : ppsEdge w s = disqualify 7 s.marked := by
  unfold ppsEdge
  rw [if_neg (by simp; omega)]
  exact if_neg (by rw [hlast, onTime_iff]; omega)

/-- What gives 1PPS its time of day does not hang on 1PPS. -/
theorem offsetOf_pps (raw : Int) (s : State) : (seeValid 7 s.marked).offsetOf 7 raw = s.offsetOf 7 raw :=
  State.offsetOf_congr (State.todSource_congr (s := s) (t := seeValid 7 s.marked) rfl fun j hj => by
    rw [seeValid_src, if_neg hj]
    rfl) 7 raw

/-! ### IRIG-B -/

/-- A frame with its extension has come: what it carries, before it is judged. -/
def State.framed (s : State) (f : IrigFrame) (x : IrigExt) : State :=
  ({ s with time := { s.time with irigExt := true, irigLast := some (s.elapsed - f.ago) } } : State).setSrc 8
    { s.src 8 with utc := some x.utcOffset, leap := x.leap, inaccuracy := irigQualityNs x.quality, fault := x.quality = 15 }

theorem framed_src (s : State) (f : IrigFrame) (x : IrigExt) :
    (s.framed f x).src 8 = { s.src 8 with utc := some x.utcOffset, leap := x.leap, inaccuracy := irigQualityNs x.quality, fault := x.quality = 15 } :=
  (State.setSrc_src ..).trans (if_pos rfl)

theorem irigFrame_on_time {f : IrigFrame} {x : IrigExt} {v : Nat} {s : State} (hen : s.cf.u 0x3030 2 0 1 ≠ 0) (hd : f.decodes = true) (hx : f.ext = some x)
    (hlast : s.time.irigLast = some v) (hlo : v + 999990000 ≤ s.elapsed - f.ago) (hhi : s.elapsed - f.ago ≤ v + 1000010000) :
    ∃ off, irigFrame f s = sourceInfo 8 (s.src 8).utc (noteOffset 8 off (seeValid 8 (s.framed f x))) := by
  unfold irigFrame
  rw [if_neg hen, hd, if_neg (by decide)]
  dsimp only
  rw [if_pos (by rw [hlast, onTime_iff]; exact ⟨hlo, hhi⟩), hx]
  exact ⟨_, rfl⟩

theorem irigFrame_broken {f : IrigFrame} {s : State} (hen : s.cf.u 0x3030 2 0 1 ≠ 0) (hd : f.decodes = false) : irigFrame f s = disqualify 8 s := by
  unfold irigFrame
  rw [if_neg hen, hd, if_pos (by decide)]

end Sys2Proof.Machine
end

section
namespace Sys2Proof.Machine
open Sys2Proof

/-- Settles O28: each message, edge and frame is what its rule makes of it, and what selection and the servo do afterwards leaves the
port and the source as that rule left them, but for the offset. -/
theorem timeSourcesAreRead : Obligations.TimeSourcesAreRead := by
  unfold Obligations.TimeSourcesAreRead
  refine ⟨fun dt f s hr hp hptp hdom ht hbest => ?announce, fun dt f s d hr hp hptp hdom ht hbest => ?sync,
    fun dt f s d e r hr hp hptp hdom ht htwo hbest hclass hslave hann hq htx hkind hedom hseq hgen => ?oneStep,
    fun dt f s d rx hr hp hptp hdom ht hbest hsynced hgen => ?followUp, fun dt f s a b hr hp hptp hdom ht hans hgen => ?delay,
    fun dt p s hr hp hptp => ?timeout, fun dt p dom seq s hr hruns hup hptp hroom hmax => ?pdelay,
    fun dt p dom seq k s hr hruns hup hptp hroom hmax hk => ?master, fun dt v w s hr h1 h2 hlast hlo hhi => ?edge,
    fun dt v w s hr h1 h2 hlast hoff => ?offTime, fun dt w s hr hw => ?short, fun dt v x f s hr hen hd hx hlast _ hlo hhi => ?irig,
    fun dt f s hr hen hd => ?broken⟩
  case announce =>
    obtain ⟨hport, hutc, hleap⟩ := ptpAnnounce_follows (f := f) (s := s.tick dt) hbest
    refine ⟨_, rfl, ?_⟩
    rw [State.act_runs _ _ _ _ hr, within_ptpP (by decide), within_src (by decide), ptpFrame_announce (s := s.tick dt) ⟨hp, hptp, hdom⟩ ht, hport, announced_ptpP]
    exact ⟨rfl, rfl, rfl, rfl, hutc, hleap⟩
  case sync =>
    refine ⟨_, rfl, ?_⟩
    rw [State.act_runs _ _ _ _ hr, within_ptpP (by decide), ptpFrame_sync_heard (s := s.tick dt) ⟨hp, hptp, hdom⟩ ht hbest, synced_ptpP]
    rfl
  case oneStep =>
    obtain ⟨hframe, hrest⟩ := ptpFrame_sync_measures (s := s.tick dt) ⟨hp, hptp, hdom⟩ ht hbest htwo hclass hslave hann hq htx hkind hedom hseq hgen
    refine ⟨_, rfl, ?_⟩
    rw [State.act_runs _ _ _ _ hr, within_src (by decide), within_prt (by decide), hframe, noteOffset_src, if_pos rfl, seeValid_src, if_pos rfl,
      offsetOf_ptp (Nat.lt_of_lt_of_le hp s.ports_le), State.prt, noteOffset_port]
    exact ⟨rfl, rfl, hrest⟩
  case followUp =>
    refine ⟨_, rfl, ?_⟩
    rw [State.act_runs _ _ _ _ hr, within_src (by decide), within_ptpP (by decide), ptpFrame_followUp (s := s.tick dt) ⟨hp, hptp, hdom⟩ ht hbest hsynced,
      ptpP_of_heard (ptpMeasure_heard ..), ptpMeasure_now (by exact hgen), noteOffset_src, if_pos rfl, offsetOf_ptp (Nat.lt_of_lt_of_le hp s.ports_le), ptpOffset,
      State.setPtp_ptpP, if_pos rfl]
    exact ⟨rfl, rfl⟩
  case delay =>
    refine ⟨_, rfl, ?_⟩
    rw [State.act_runs _ _ _ _ hr, within_ptpP (by decide), ptpFrame_delay (s := s.tick dt) ⟨hp, hptp, hdom⟩ ht hans, State.setPtp_ptpP, if_pos rfl, ptpDelay,
      if_pos hgen]
    exact ⟨rfl, rfl⟩
  case timeout =>
    obtain ⟨hport, hvalid, hqual⟩ := ptpTimeout_ends (p := p) (s := s.tick dt) hp hptp
    refine ⟨_, rfl, ?_⟩
    rw [State.act_runs _ _ _ _ hr, within_ptpP (by decide), within_src (by decide), hport]
    exact ⟨rfl, rfl, rfl, hvalid, hqual⟩
  case pdelay =>
    obtain ⟨hitems, htime, hport⟩ := ptpTransmit_pdelay (dom := dom) (seq := seq) (s := s.tick dt) ⟨hruns, hup, hptp, hroom⟩ hmax
    refine ⟨_, rfl, ?_⟩
    rw [State.act_runs _ _ _ _ hr, within_queue (by decide), within_timebase (by decide), State.within_port, if_pos (by decide), hitems, htime, hport]
    exact ⟨rfl, rfl, rfl⟩
  case master =>
    have hsends : SendsPtp (s.tick dt) p := ⟨hruns, hup, hptp, hroom⟩
    refine ⟨_, rfl, ?_⟩
    rw [State.act_runs _ _ _ _ hr, within_queue (by decide)]
    rcases hk with rfl | rfl
    · rw [ptpTransmit_sync hsends hmax, if_neg (c := _ ∧ (0 : Nat) = 0x0B) (by simp)]
      rfl
    · rw [ptpTransmit_announce hsends hmax]
      by_cases hmaster : ((s.tick dt).ptpP p).state = 6
      · rw [if_pos hmaster]
        exact (if_pos ⟨hmaster, rfl⟩).symm
      · rw [if_neg hmaster]
        exact ((if_neg (mt And.left hmaster)).trans (if_neg (mt And.left hmaster))).symm
  case edge =>
    refine ⟨_, rfl, ?_⟩
    rw [State.act_runs _ _ _ _ hr, within_timebase (by decide), within_src (by decide), ppsEdge_on_time (s := s.tick dt) h1 h2 hlast hlo hhi,
      noteOffset_src, if_pos rfl, seeValid_src, if_pos rfl, offsetOf_pps]
    exact ⟨congrArg (·.2.1) (noteOffset_heard ..), rfl, rfl, rfl⟩
  case offTime =>
    have hsel := disqualify_selects 7 (s.tick dt).marked
    refine ⟨_, rfl, ?_⟩
    rw [State.act_runs _ _ _ _ hr, within_timebase (by decide), within_src (by decide), ppsEdge_off_time (s := s.tick dt) h1 h2 hlast hoff,
      hsel.ppsLast, hsel.validSince, hsel.qualified, without_src, if_pos rfl]
    exact ⟨rfl, rfl, rfl⟩
  case short =>
    show Host.Outcome.next (s.act _ dt (ppsEdge w)) = .next (s.tick dt)
    rw [State.act_runs _ _ _ _ hr, ppsEdge_short hw, State.within_tick]
  case irig =>
    obtain ⟨off, hframe⟩ := irigFrame_on_time (s := s.tick dt) hen hd hx hlast hlo hhi
    have hinfo : Follows (noteOffset 8 off (seeValid 8 ((s.tick dt).framed f x))) (irigFrame f (s.tick dt)) := by
      rw [hframe]
      exact .sourceInfo (.refl _)
    have hheard := hinfo.heard.trans (noteOffset_heard ..)
    refine ⟨_, rfl, ?_⟩
    rw [State.act_runs _ _ _ _ hr, within_timebase (by decide), within_src (by decide), hinfo.src, noteOffset_src, if_pos rfl, seeValid_src, if_pos rfl, framed_src]
    exact ⟨rfl, rfl, rfl, congrArg (·.2.2.2) hheard, congrArg (·.2.2.1) hheard⟩
  case broken =>
    have hsel := disqualify_selects 8 (s.tick dt)
    refine ⟨_, rfl, ?_⟩
    rw [State.act_runs _ _ _ _ hr, within_src (by decide), irigFrame_broken (s := s.tick dt) hen hd, hsel.validSince, hsel.qualified, without_src, if_pos rfl]
    exact ⟨rfl, rfl⟩

end Sys2Proof.Machine
end

section
namespace Sys2Proof.Machine
open Sys2Proof

/-! ## Port statistics (R133, R562), and what they leave alone -/

/-- A state without its counts, its sticky flags and its latches. -/
def State.uncounted (s : State) : State := { s with stats := [], sticky := [], ev := { s.ev with latch := [] } }

/-- Work that only counts and tells. -/
def Counted (s t : State) : Prop := t.uncounted = s.uncounted

namespace Counted
variable {s t : State}

theorem refl (s : State) : Counted s s := rfl

/-- What can be read without counts and latches is as it was. -/
theorem same {α : Type} (h : Counted s t) {f : State → α} (hf : ∀ u : State, f u.uncounted = f u) : f t = f s := by
  rw [← hf t, h, hf s]

theorem raise {id inst param : Nat} (h : Counted s t) : Counted s (raise id inst param t) := by
  unfold Machine.raise
  split <;> exact h

theorem countN {idx sub n : Nat} (h : Counted s t) : Counted s (countN idx sub n t) := by
  unfold Machine.countN
  extract_lets old s1
  have h1 : Counted s s1 := h
  split
  · exact h1
  · cases stickyOf idx sub with
    | none => exact h1
    | some x =>
      dsimp only
      split
      · exact h1
      · exact raise (t := { s1 with sticky := _ }) h1

theorem tallyN {p sub n : Nat} (h : Counted s t) : Counted s (tallyN p sub n t) := by
  unfold Machine.tallyN
  split
  · exact h
  · exact h.countN

/-- A command that only counts and tells changes those parts alone, whatever more it may. -/
theorem onlyParts {dt : Nat} {ps : List Part} {u : State} (h : Counted (s.tick dt) u) (he : .events ∈ ps) (hs : .stats ∈ ps) :
    OnlyParts s dt [.events, .stats] (s.within ps u) := by
  have hu : u = { s.tick dt with stats := u.stats, sticky := u.sticky, ev := { s.ev with latch := u.ev.latch } } :=
    congrArg (fun v : State => { v with stats := u.stats, sticky := u.sticky, ev := { v.ev with latch := u.ev.latch } }) h
  have helapsed : u.time.elapsed = s.time.elapsed + dt := h.same (f := (·.time.elapsed)) fun _ => rfl
  refine ⟨⟨u, ?_⟩, helapsed⟩
  rw [hu]
  by_cases ht : Part.time ∈ ps <;> simp [State.within, State.tick, he, hs, ht]

end Counted

section Statistics
variable (p sub n : Nat) (s : State)

theorem tallyN_counted : Counted s (tallyN p sub n s) := (Counted.refl s).tallyN

@[simp] theorem tally_eq_tallyN : tally p sub s = tallyN p sub 1 s := rfl

@[simp] theorem tallyN_same : (tallyN p sub n s).variant = s.variant ∧ (tallyN p sub n s).freeCount = s.freeCount ∧ (tallyN p sub n s).mode = s.mode ∧
    (tallyN p sub n s).time = s.time ∧ (tallyN p sub n s).cfg = s.cfg ∧ (tallyN p sub n s).osr = s.osr ∧ (tallyN p sub n s).store = s.store ∧
    (tallyN p sub n s).port = s.port ∧ (tallyN p sub n s).cop = s.cop := by
  unfold tallyN
  split <;> simp

@[simp] theorem tallyN_prt (j : Nat) : (tallyN p sub n s).prt j = s.prt j := (tallyN_counted p sub n s).same (f := (·.prt j)) fun _ => rfl
@[simp] theorem tallyN_pcfg (j k m : Nat) : (tallyN p sub n s).pcfg j k m = s.pcfg j k m := (tallyN_counted p sub n s).same (f := (·.pcfg j k m)) fun _ => rfl
@[simp] theorem tallyN_elapsed : (tallyN p sub n s).elapsed = s.elapsed := (tallyN_counted p sub n s).same (f := State.elapsed) fun _ => rfl
@[simp] theorem tallyN_queue (q : Nat) : (tallyN p sub n s).queue q = s.queue q := (tallyN_counted p sub n s).same (f := (·.queue q)) fun _ => rfl

variable {p sub n s}

/-- Outside QUICKSET a statistic counts as every counter does; of its port the others stay. -/
@[simp] theorem tallyN_ctr (h : s.mode.cur ≠ .quickset) (k : Nat) : (tallyN p sub n s).ctr (0x2080 + p) k =
    if k = sub then min (s.ctr (0x2080 + p) sub + n) ctrMax else s.ctr (0x2080 + p) k := by
  rw [tallyN, if_neg h, countN_ctr]
  simp

theorem tallyN_ctr_self (h : s.mode.cur ≠ .quickset) : (tallyN p sub n s).ctr (0x2080 + p) sub = min (s.ctr (0x2080 + p) sub + n) ctrMax := by
  rw [tallyN_ctr h, if_pos rfl]

/-- Another statistic of the port stays, in any mode. -/
theorem tallyN_ctr_ne {k : Nat} (h : k ≠ sub) : (tallyN p sub n s).ctr (0x2080 + p) k = s.ctr (0x2080 + p) k := by
  unfold tallyN
  split
  · rfl
  · rw [countN_ctr, if_neg (by omega)]

end Statistics

@[simp] theorem raise_prt (id inst param : Nat) (s : State) (p : Nat) : (raise id inst param s).prt p = s.prt p :=
  (Counted.refl s).raise.same (f := (·.prt p)) fun _ => rfl
@[simp] theorem raise_queue (id inst param : Nat) (s : State) (q : Nat) : (raise id inst param s).queue q = s.queue q :=
  (Counted.refl s).raise.same (f := (·.queue q)) fun _ => rfl

/-- A command changes its parts, and takes no time of its own. -/
theorem onlyParts_of_time {s u : State} {dt : Nat} (ps : List Part) (h : u.time = (s.tick dt).time) : OnlyParts s dt ps (s.within ps u) :=
  ⟨⟨u, rfl⟩, congrArg TimeU.elapsed h⟩

@[simp] theorem State.setPort_ctr (s : State) (p : Nat) (x : Port) (j k : Nat) : (s.setPort p x).ctr j k = s.ctr j k := rfl
@[simp] theorem State.setPort_queue (s : State) (p : Nat) (x : Port) (q : Nat) : (s.setPort p x).queue q = s.queue q := rfl

/-- The events of the ports are there on every port that is. -/
theorem raise_port_latched {id p : Nat} {s u : State} (h : id = 0x20 ∨ id = 0x21) (hp : p < s.ports) (hv : u.variant = s.variant) (param : Nat) :
    Latched (raise id p param u) id p := by
  have hp' : p < byPart u.variant 6 6 4 := hv ▸ hp
  rcases h with rfl | rfl
  · exact raise_latched _ _ _ _ (by simp [eventAbsent, hp']) rfl
  · exact raise_latched _ _ _ _ (by simp [eventAbsent, hp']) rfl

end Sys2Proof.Machine
end

section
namespace Sys2Proof.Machine
open Sys2Proof

/-! ## Queues, as the ports use them (R105, R118) -/

@[simp] theorem setPool_stats (n : Nat) (s : State) : (setPool n s).stats = s.stats := by simp [setPool, apply_ite State.stats]

theorem setPool_queue (n k : Nat) (s : State) : (setPool n s).queue k = s.queue k := by
  obtain ⟨_, h⟩ := setPool_store n s
  exact queue_of_queues (by rw [h]) k

theorem State.ctr_congr {s t : State} (h : t.stats = s.stats) (j k : Nat) : t.ctr j k = s.ctr j k := by rw [State.ctr, h, State.ctr]

/-- An item offered is no port's statistic. -/
theorem enqueueData_stats (q : Nat) (item data : Bytes) (s : State) : (enqueueData q item data s).2.stats = s.stats := by
  simp [enqueueData, refusePush, satEvent, chargeMoves, apply_ite State.stats, apply_ite Prod.snd]

/-- The data of an item that a queue has room for stands last beside the others. -/
theorem enqueueData_data {q : Nat} {item data : Bytes} {s : State} (h : s.queueFull q = false) :
    ((enqueueData q item data s).2.queue q).data = (s.queue q).data ++ [data] := by
  unfold enqueueData
  rw [if_neg (by rw [h]; decide)]
  extract_lets count body placed y takes z s1
  have hs1 : s1.queue q = z := by
    rw [queue_of_queues (s := s.setQueue q z) (by simp only [s1]; rw [(satEvent_beside ..).1]; rfl), State.setQueue_queue, if_pos rfl]
  have hpool : (if takes then setPool (s.store.poolUsed + 1) s1 else s1).queue q = s1.queue q := by
    split
    · exact setPool_queue ..
    · rfl
  show ((if takes then setPool (s.store.poolUsed + 1) s1 else s1).queue q).data = _
  rw [hpool, hs1]

/-- A queue whose items are discarded. -/
def Queue.emptied (x : Queue) : Queue := { x with items := [], data := [], head := 0, middle := 0, pool := 0, fullAt := none }

theorem dropItems_queue (q k : Nat) (s : State) : (dropItems q s).queue k = if k = q then (s.queue q).emptied else s.queue k := by
  unfold dropItems
  dsimp only
  split
  · exact State.setQueue_queue ..
  · rw [setPool_queue]
    exact State.setQueue_queue ..

/-- A discard is neither a statistic nor a change of mode. -/
theorem dropItems_same (q : Nat) (s : State) : (dropItems q s).variant = s.variant ∧ (dropItems q s).mode = s.mode ∧ (dropItems q s).stats = s.stats := by
  simp [dropItems, setPool, apply_ite State.stats, apply_ite State.variant, apply_ite State.mode]

end Sys2Proof.Machine
end

section
namespace Sys2Proof.Machine
open Sys2Proof

/-! ## Frames received (R108 to R121) -/

section Receive
variable {p : Nat} {f : Frame} {s : State}

/-- A frame has come whole: it is counted, and its bytes are. -/
def State.received (s : State) (p : Nat) (f : Frame) : State := tallyN p 2 (frameLen f.bytes) (tally p 1 (tallyN p 6 f.pcsErrors s))

/-- A frame that passes the checks of length, damage and FCS at a port that runs and is up (R108 to R111). -/
structure Arrives (f : Frame) (p : Nat) (s : State) : Prop where
  runs : s.portRuns p = true
  up : (s.prt p).up = true
  undamaged : f.pcsErrors = 0
  fcs : f.fcsOk = true
  long : 64 ≤ frameLen f.bytes
  short : frameLen f.bytes ≤ longest (s.cfFor s.now).1 p (tagCount f.bytes)

/-- Such a frame is MAC control's, or goes to the filter. -/
theorem frameReceive_arrives (h : Arrives f p s) : frameReceive p f s =
    if frameType f.bytes = 0x8808 then
      macControl p (field f.bytes 0 6) (if tagCount f.bytes = 0 then field f.bytes 14 2 else 0) (field f.bytes 16 2) (s.received p f)
    else if destClass p (field f.bytes 0 6) = 3 && portF (s.cfFor s.now).1 p 4 1 != 1 then tally p 7 (s.received p f)
    else
      match filterFor (s.cfFor s.now).1 p f.bytes with
      | some (k, e) => if bit e 21 then tally p 9 (s.received p f) else steer (s.cfFor s.now).1 p (bits e 19 16) k f.bytes (s.received p f)
      | none =>
        if portF (s.cfFor s.now).1 p 8 1 = 16 then tally p 8 (s.received p f)
        else steer (s.cfFor s.now).1 p (portF (s.cfFor s.now).1 p 8 1) 0 f.bytes (s.received p f) := by
  have hlong := h.long
  unfold frameReceive
  rw [if_pos (by simp [h.runs, h.up])]
  dsimp only
  rw [if_neg (by omega), if_neg (by have := h.short; omega), if_neg (by simp [h.fcs, h.undamaged])]
  rfl

/-- One that fails a check is counted where the first check that it fails says. -/
theorem frameReceive_fails (hruns : s.portRuns p = true) (hup : (s.prt p).up = true) (hpcs : f.pcsErrors = 0)
    (h : frameLen f.bytes ≤ 63 ∨ longest (s.cfFor s.now).1 p (tagCount f.bytes) < frameLen f.bytes ∨ f.fcsOk = false) :
    frameReceive p f s = tally p (if frameLen f.bytes ≤ 63 then 3 else if longest (s.cfFor s.now).1 p (tagCount f.bytes) < frameLen f.bytes then 4 else 5)
      (tallyN p 6 0 s) := by
  unfold frameReceive
  rw [if_pos (by simp [hruns, hup])]
  dsimp only
  rw [hpcs]
  split
  · rfl
  · next hlong =>
    split
    · rfl
    · next hshort => rw [if_pos (by simp [(h.resolve_left hlong).resolve_left hshort])]

theorem received_counted (p : Nat) (f : Frame) (s : State) : Counted s (s.received p f) := (Counted.refl s).tallyN.tallyN.tallyN

theorem received_mode (p : Nat) (f : Frame) (s : State) : (s.received p f).mode = s.mode := (received_counted p f s).same (f := State.mode) fun _ => rfl

theorem received_ctr (hm : s.mode.cur ≠ .quickset) : (s.received p f).ctr (0x2080 + p) 1 = min (s.ctr (0x2080 + p) 1 + 1) ctrMax ∧
    (s.received p f).ctr (0x2080 + p) 2 = min (s.ctr (0x2080 + p) 2 + frameLen f.bytes) ctrMax := by
  simp [State.received, hm]

/-- Its other statistics, but for that of damage, stay. -/
theorem received_ctr_ne {k : Nat} (h1 : k ≠ 1) (h2 : k ≠ 2) (h6 : k ≠ 6) : (s.received p f).ctr (0x2080 + p) k = s.ctr (0x2080 + p) k := by
  rw [State.received, tallyN_ctr_ne h2, tally_eq_tallyN, tallyN_ctr_ne h1, tallyN_ctr_ne h6]

/-- A run of bytes is found where it stands. -/
theorem slice_middle {a m b : Bytes} {off n : Nat} (ha : a.length = off) (hm : m.length = n) : slice (a ++ m ++ b) off n = m := by
  subst ha hm
  rw [slice, List.append_assoc, List.drop_left, List.take_left]

/-- The item begins with its type, and holds the frame's length behind stamp and quality (R121); the queue's count stands between. -/
theorem rxItem_shape (p q entry : Nat) (b : Bytes) (ok : Bool) (idx count : Nat) (buffer : BitVec 64) (s : State) :
    ((rxItem p q entry b ok idx buffer s).take 4 ++ toBE 4 count ++ (rxItem p q entry b ok idx buffer s).drop 8).take 1 = [0x10#8] ∧
      (((rxItem p q entry b ok idx buffer s).take 4 ++ toBE 4 count ++ (rxItem p q entry b ok idx buffer s).drop 8).drop 22).take 2 =
        toBE 2 (frameLen b) := by
  have hstamp : (stampBytes s.now).length = 12 := by simp [stampBytes, toBE]
  obtain ⟨rest, hitem⟩ : ∃ rest, rxItem p q entry b ok idx buffer s =
      ([0x10#8] ++ toBE 1 p ++ toBE 1 q ++ toBE 1 entry) ++ zeros 4 ++ (stampBytes s.now ++ toBE 2 s.ownQual.toNat ++ toBE 2 (frameLen b) ++ rest) := by
    unfold rxItem
    simp only [List.append_assoc]
    exact ⟨_, rfl⟩
  have hhead : (rxItem p q entry b ok idx buffer s).take 4 = [0x10#8] ++ toBE 1 p ++ toBE 1 q ++ toBE 1 entry := by
    rw [hitem, List.append_assoc]
    exact List.take_left' (by simp [toBE])
  have htail : (rxItem p q entry b ok idx buffer s).drop 8 = stampBytes s.now ++ toBE 2 s.ownQual.toNat ++ toBE 2 (frameLen b) ++ rest := by
    rw [hitem]
    exact List.drop_left' (by simp [toBE, zeros])
  rw [hhead, htail]
  refine ⟨by simp, ?_⟩
  rw [← List.append_assoc, ← List.append_assoc]
  exact slice_middle (by simp [hstamp, toBE]) rfl

/-- A frame for stream ingest or the archive that has room becomes one item, with a free value (R118, R120, R121). -/
theorem steer_queues {c : Cf} {q entry : Nat} {b : Bytes} (hcode : consumerOf c p q = 1 ∨ consumerOf c p q = 2) (hruns : s.mode.cur.ingests = true)
    (htakes : consumerTakes (consumerOf c p q) b = true) (hfull : s.queueFull (16 * p + q) = false) (hroom : s.portBuffer p + frameLen b ≤ 268435456) :
    ∃ ok, steer c p q entry b s =
      (enqueueData (16 * p + q) (rxItem p q entry b ok 0xFFFF (Config.free64 s.freeCount) s.takeFree.2) b s.takeFree.2).2 := by
  have h0 : consumerOf c p q ≠ 0 := by omega
  have h3 : consumerOf c p q ≠ 3 := by omega
  have h4 : consumerOf c p q ≠ 4 := by omega
  unfold steer
  dsimp only
  rw [if_neg h0, if_neg (by simp [State.takes, hruns, htakes]), if_neg h4]
  dsimp only [Option.bind]
  rw [if_neg (by simpa [hfull] using hroom)]
  cases ptpEvent b with
  | none => exact ⟨true, rfl⟩
  | some e =>
    dsimp only
    rw [if_neg h3]
    exact ⟨false, rfl⟩

/-- Its queue holds the item behind the others, and its bytes beside it; no statistic and no port changes. -/
theorem steer_delivers {c : Cf} {q entry : Nat} {b : Bytes} (hp : p < 6) (hq : q < 16) (hcode : consumerOf c p q = 1 ∨ consumerOf c p q = 2)
    (hruns : s.mode.cur.ingests = true) (htakes : consumerTakes (consumerOf c p q) b = true) (hfull : s.queueFull (16 * p + q) = false)
    (hroom : s.portBuffer p + frameLen b ≤ 268435456) :
    ∃ it, ((steer c p q entry b s).queue (16 * p + q)).items = (s.queue (16 * p + q)).items ++ [it] ∧ it.take 1 = [0x10#8] ∧
      (it.drop 22).take 2 = toBE 2 (frameLen b) ∧ ((steer c p q entry b s).queue (16 * p + q)).data = (s.queue (16 * p + q)).data ++ [b] ∧
      (steer c p q entry b s).stats = s.stats ∧ (steer c p q entry b s).port = s.port := by
  obtain ⟨ok, hsteer⟩ := steer_queues (entry := entry) hcode hruns htakes hfull hroom
  have hfull' : s.takeFree.2.queueFull (16 * p + q) = false := hfull
  have hnumbered : (decide (16 * p + q ≤ 95) || decide (16 * p + q = 136)) = true := by
    simp only [Bool.or_eq_true, decide_eq_true_eq]
    omega
  obtain ⟨htype, hlen⟩ := rxItem_shape p q entry b ok 0xFFFF ((s.queue (16 * p + q)).seq + 1) (Config.free64 s.freeCount) s.takeFree.2
  refine ⟨_, ?_, htype, hlen, ?_, ?_, ?_⟩
  · rw [hsteer, (enqueueData_items hfull').1, if_pos hnumbered]
    rfl
  · rw [hsteer, enqueueData_data hfull']
    rfl
  · rw [hsteer, enqueueData_stats]
    rfl
  · rw [hsteer, enqueueData_port]
    rfl

end Receive

section Reassembly
variable {p : Nat} {r : Reasm} {s : State}

/-- A datagram of a source and an identification is late at an elapsed time (R119). -/
def Reasm.late (r : Reasm) (src ident now : Nat) : Bool := r.src = src && r.ident = ident && decide (r.start + 2000000000 ≤ now)

theorem reassemblyTimeout_late {src ident : Nat} (h : (s.prt p).reasm.any (·.late src ident s.elapsed) = true) : reassemblyTimeout p src ident s =
    tallyN p 0x1D ((s.prt p).reasm.filter (fun x => x.late src ident s.elapsed && !x.refused)).length
      (s.setPort p { s.prt p with reasm := (s.prt p).reasm.filter (fun x => !x.late src ident s.elapsed) }) := if_pos h

/-- A datagram that is late is dropped with its fragments, and counted unless it was when it was refused. -/
theorem reassemblyTimeout_drops (hmem : r ∈ (s.prt p).reasm) (hlate : r.start + 2000000000 ≤ s.elapsed)
    (honly : ∀ x ∈ (s.prt p).reasm, x.src = r.src → x.ident = r.ident → x = r) (hnd : (s.prt p).reasm.Nodup) :
    reassemblyTimeout p r.src r.ident s =
      tallyN p 0x1D (b2n !r.refused) (s.setPort p { s.prt p with reasm := (s.prt p).reasm.filter (fun x => !(x == r)) }) := by
  have hself : r.late r.src r.ident s.elapsed = true := by simp [Reasm.late, hlate]
  have hiff : ∀ x ∈ (s.prt p).reasm, x.late r.src r.ident s.elapsed = (x == r) := fun x hx => by
    rw [Bool.eq_iff_iff, beq_iff_eq]
    refine ⟨fun h => ?_, fun h => h ▸ hself⟩
    simp only [Reasm.late, Bool.and_eq_true, decide_eq_true_eq] at h
    exact honly x hx h.1.1 h.1.2
  have hone : (s.prt p).reasm.filter (· == r) = [r] := by
    rw [List.filter_beq, List.count_eq_one_of_mem hnd hmem]
    rfl
  have hcount : ((s.prt p).reasm.filter (fun x => x.late r.src r.ident s.elapsed && !x.refused)).length = b2n !r.refused := by
    rw [List.filter_congr (q := fun x => x == r && !x.refused) fun x hx => by rw [hiff x hx], ← List.filter_filter, List.filter_comm, hone]
    cases hr : r.refused <;> simp [hr, b2n]
  rw [reassemblyTimeout_late (List.any_eq_true.mpr ⟨r, hmem, hself⟩), hcount, List.filter_congr fun x hx => by rw [hiff x hx]]

end Reassembly

/-- Settles O30, by the check that a frame fails, by where a good one is steered, and by what is late of a port's reassembly. -/
theorem receivedFramesAreSteered : Obligations.ReceivedFramesAreSteered := by
  unfold Obligations.ReceivedFramesAreSteered
  refine ⟨fun dt p f c s hr hruns hup hm hpcs hc hfails => ?fails,
    fun dt p q f c s hr hruns hup hm hpcs hfcs hc hlong hshort htype hdest hfilter hact hq hcode htakes hfull hbuffer => ?queued,
    fun dt p k e f c s hr hruns hup hm hpcs hfcs hc hlong hshort htype hdest hfilter hrejects => ?rejected,
    fun dt p src ident r s hr hm hmem hsrc hident hlate honly hnd => ?late⟩
  case fails =>
    subst hc
    refine ⟨_, _, rfl, rfl, ?_⟩
    rw [State.act_runs _ _ _ _ hr, frameReceive_fails (s := s.tick dt) hruns hup hpcs hfails]
    refine ⟨?_, Counted.onlyParts (Counted.refl _).tallyN.tallyN (by decide) (by decide)⟩
    rw [within_ctr, if_pos (by decide), tally_eq_tallyN, tallyN_ctr_self (by simpa using hm), tallyN_ctr_ne (by split_ifs <;> decide)]
    rfl
  case queued =>
    subst hc
    have harr : Arrives f p (s.tick dt) := ⟨hruns, hup, hpcs, hfcs, hlong, hshort⟩
    have hquick : s.mode.cur ≠ .quickset := by
      intro h
      rw [h] at hm
      exact absurd hm (by decide)
    have hcounted := received_counted p f (s.tick dt)
    obtain ⟨it, hitems, hkind, hlen, hdata, hstats, hport⟩ := steer_delivers (entry := 0) (s := (s.tick dt).received p f)
      (Nat.lt_of_lt_of_le (lt_ports_of_runs hruns) s.ports_le) hq hcode ((hcounted.same (f := (·.mode.cur.ingests)) fun _ => rfl).trans hm) htakes
      ((hcounted.same (f := (·.queueFull (16 * p + q))) fun _ => rfl).trans hfull)
      ((congrArg (· + _) (hcounted.same (f := (·.portBuffer p)) fun _ => rfl)).trans_le hbuffer)
    have hqueue : ((s.tick dt).received p f).queue (16 * p + q) = s.queue (16 * p + q) := hcounted.same (f := (·.queue (16 * p + q))) fun _ => rfl
    obtain ⟨hone, htwo⟩ := received_ctr (p := p) (f := f) (s := s.tick dt) hquick
    refine ⟨_, it, rfl, ?_⟩
    rw [State.act_runs _ _ _ _ hr, frameReceive_arrives harr, if_neg htype, if_neg (by simpa using hdest), hfilter]
    dsimp only
    rw [hact, if_neg (by omega), within_queue (by decide), hitems, hdata, hqueue, within_ctr, within_ctr, if_pos (by decide), if_pos (by decide),
      State.ctr_congr hstats, State.ctr_congr hstats, hone, htwo, State.within_port, if_pos (by decide), hport]
    exact ⟨rfl, hkind, hlen, rfl, rfl, rfl, hcounted.same (f := State.port) fun _ => rfl⟩
  case rejected =>
    subst hc
    have harr : Arrives f p (s.tick dt) := ⟨hruns, hup, hpcs, hfcs, hlong, hshort⟩
    refine ⟨_, rfl, ?_⟩
    rw [State.act_runs _ _ _ _ hr, frameReceive_arrives harr, if_neg htype, if_neg (by simpa using hdest), hfilter]
    dsimp only
    rw [if_pos hrejects]
    refine ⟨?_, Counted.onlyParts (received_counted ..).tallyN (by decide) (by decide)⟩
    rw [within_ctr, if_pos (by decide), tally_eq_tallyN, tallyN_ctr_self (by rw [received_mode]; exact hm),
      received_ctr_ne (by decide) (by decide) (by decide)]
    rfl
  case late =>
    subst hsrc hident
    refine ⟨_, rfl, ?_⟩
    rw [State.act_runs _ _ _ _ hr, within_prt (by decide), within_ctr, if_pos (by decide), reassemblyTimeout_drops (s := s.tick dt) hmem hlate honly hnd,
      tallyN_prt, State.setPort_prt, if_pos rfl, tallyN_ctr_self (by exact hm)]
    exact ⟨by simp, fun x hx hne => List.mem_filter.mpr ⟨hx, by simpa using hne⟩, rfl⟩

end Sys2Proof.Machine
end

section
namespace Sys2Proof.Machine
open Sys2Proof

/-! ## Frames sent (R113, R122 to R124) -/

/-- Every frame that is sent has at least 64 bytes (R113). -/
theorem frameLen_padFrame_ge (b : Bytes) : 64 ≤ frameLen (padFrame b) := by
  simp only [frameLen, padFrame, zeros, List.length_append, List.length_replicate]
  omega

/-- A port whose longest frame is shorter sends none. -/
theorem portSend_of_short {p : Nat} {s : State} (h : ∀ tags, s.maxFrame p tags < 64) (cls : Nat) (b : Bytes) (stamp : Option (Nat × Nat × Nat)) :
    portSend p cls b stamp s = s :=
  if_pos (by simp [Nat.lt_of_lt_of_le (h _) (frameLen_padFrame_ge b)])

/-- It takes its messages, and nothing is sent for them. -/
theorem postMail_of_short {p : Nat} {s : State} (h : ∀ tags, s.maxFrame p tags < 64) : ∃ n osr, postMail p s = { s with freeCount := n, osr := osr } := by
  refine each_preserves (P := fun t : State => ∃ n osr, t = { s with freeCount := n, osr := osr }) ?_ ⟨_, _, rfl⟩
  rintro ⟨via, msg⟩ t ⟨n, osr, rfl⟩
  cases via with
  | port q ip udp => exact ⟨n + 1, osr, portSend_of_short (s := { s with freeCount := n + 1, osr := osr }) h ..⟩
  | uart => exact ⟨n, osr, rfl⟩

/-- A paused port starts no frame: it takes Osrider's messages, and its frame in progress ends (R122, R125). -/
theorem frameTransmit_paused {p e : Nat} {s : State} (h : ((postMail p s).prt p).pauseEnd = some e) : (frameTransmit p s).store = (postMail p s).store := by
  unfold frameTransmit
  extract_lets t x s1
  split
  · have hs1 : s1.store = t.store := by
      unfold s1
      cases x.sending with
      | none => rfl
      | some b => simp
    rw [if_pos (by rw [h]; rfl), hs1]
  · rfl

/-- Port 5 up and paused, with an empty Osrider message waiting for it; its longest frame is configured as 46 bytes, which R110 lets no
write leave so. -/
def shortFrames : State :=
  { mode := { cur := .standby }, port := [(5, { up := true, pauseEnd := some 500 })], osr := { outbox := [(.port 5 1 2, [])] },
    cfg := { live := [(cfgAddr 0x2015 3 1, 46#8)] } }

theorem shortFrames_maxFrame (tags : Nat) : shortFrames.maxFrame 5 tags = 46 := by
  have hcfg : portF shortFrames.cf 5 3 2 = 46 := by decide
  unfold State.maxFrame longest
  rw [hcfg]
  rfl

/-- Refutes O31: its clause on an Osrider message asks only that the message and 46 bytes more fit the port's longest frame, but a frame is
padded to 64 bytes (R113), so that a port whose longest frame is configured shorter than that sends none. -/
theorem not_framesAreSent : ¬ Obligations.FramesAreSent := by
  unfold Obligations.FramesAreSent
  rintro ⟨-, -, hmail, -⟩
  obtain ⟨t, ht, -, hitems⟩ := hmail 0 5 1 2 500 [] shortFrames rfl (by decide) rfl rfl rfl (by decide) (by rw [shortFrames_maxFrame]; decide)
  have hexec : exec (.frameTransmit 0 5) shortFrames = .next (shortFrames.within _ (frameTransmit 5 (shortFrames.tick 0))) := rfl
  obtain rfl := Host.Outcome.next.inj (hexec.symm.trans ht)
  obtain ⟨n, osr, hposted⟩ := postMail_of_short (p := 5) (s := shortFrames.tick 0) fun tags => (shortFrames_maxFrame tags).trans_lt (by decide)
  have hstore : (frameTransmit 5 (shortFrames.tick 0)).store = shortFrames.store := by
    rw [frameTransmit_paused (e := 500) (by rw [hposted]; rfl), hposted]
    rfl
  rw [within_queue (by decide), queue_of_queues (s := shortFrames) (by rw [hstore])] at hitems
  exact absurd hitems (by simp)

end Sys2Proof.Machine
end

section
namespace Sys2Proof.Machine
open Sys2Proof

/-! ## Flow control (R125, R126, R133) -/

section Pause
variable {p : Nat} {s : State}

/-- A PAUSE for a time, to the group address or the port's own, at a port that honours it outside a holdoff. -/
theorem macControl_pauses {dst quanta : Nat} (hdst : dst = 0x0180C2000001 ∨ dst = portMac p) (hen : s.pcfg p 5 1 = 1) (hhold : (s.prt p).holdoff = none)
    (hq : 0 < quanta) : macControl p dst 1 quanta s = (tally p 0x0C s).setPort p { s.prt p with
      pauseEnd := some (s.elapsed + pauseNs (s.prt p).rate quanta), episode := if (s.prt p).pauseEnd.isSome then (s.prt p).episode else s.elapsed } := by
  unfold macControl
  rw [if_pos (by simpa using hdst)]
  dsimp only
  rw [if_pos (by simp [hen, hhold]), if_neg (by omega)]
  simp

/-- Any other MAC control frame is dropped and counted. -/
theorem macControl_other {dst op quanta : Nat} (hop : op ≠ 1) : macControl p dst op quanta s = tally p 0x0D s := if_neg (by simp [hop])

/-- What such a PAUSE leaves: the end of the pause, and one more PAUSE received. -/
theorem macControl_paused {dst quanta : Nat} (hdst : dst = 0x0180C2000001 ∨ dst = portMac p) (hen : s.pcfg p 5 1 = 1) (hhold : (s.prt p).holdoff = none)
    (hq : 0 < quanta) (hm : s.mode.cur ≠ .quickset) :
    ((macControl p dst 1 quanta s).prt p).pauseEnd = some (s.elapsed + pauseNs (s.prt p).rate quanta) ∧
      (macControl p dst 1 quanta s).ctr (0x2080 + p) 0x0C = min (s.ctr (0x2080 + p) 0x0C + 1) ctrMax ∧ (macControl p dst 1 quanta s).time = s.time := by
  rw [macControl_pauses hdst hen hhold hq, State.setPort_prt, if_pos rfl, State.setPort_ctr, tally_eq_tallyN, tallyN_ctr_self hm]
  simp

theorem pauseReceive_up {dst op quanta : Nat} (hruns : s.portRuns p = true) (hup : (s.prt p).up = true) :
    pauseReceive p dst op quanta s = macControl p dst op quanta (tallyN p 2 64 (tallyN p 1 1 s)) := if_pos (by simp [hruns, hup])

/-- A pause that ends is counted with the time it lasted. -/
theorem endPause_ends {e at_ : Nat} (h : (s.prt p).pauseEnd = some e) :
    endPause p at_ s = tallyN p 0x19 ((at_ - (s.prt p).episode) / 1000) (s.setPort p { s.prt p with pauseEnd := none }) := if_pos (by rw [h]; rfl)

theorem pauseExpire_due {e : Nat} (h : (s.prt p).pauseEnd = some e) (hdue : e ≤ s.elapsed) : pauseExpire p s = endPause p e s := by
  rw [pauseExpire, h]
  exact if_pos hdue

/-- An episode that has lasted for the limit ends, and a holdoff begins. -/
theorem pauseTrip_due {e : Nat} (h : (s.prt p).pauseEnd = some e) (hnow : (s.prt p).episode + s.pcfg p 6 2 * 1000000 ≤ s.elapsed)
    (hlimit : (s.prt p).episode + s.pcfg p 6 2 * 1000000 ≤ e) : ∃ len, pauseTrip p s = tally p 0x18 (raise 0x21 p len ((endPause p s.elapsed s).setPort p
      { (endPause p s.elapsed s).prt p with holdoff := some (s.elapsed + s.pcfg p 7 2 * 1000000) })) := by
  unfold pauseTrip
  dsimp only
  rw [h]
  dsimp only
  rw [if_pos (by simp [hnow, hlimit])]
  exact ⟨_, rfl⟩

theorem pauseHoldoffEnd_due {e : Nat} (h : (s.prt p).holdoff = some e) (hdue : e ≤ s.elapsed) :
    pauseHoldoffEnd p s = s.setPort p { s.prt p with holdoff := none } := by
  rw [pauseHoldoffEnd, h]
  exact if_pos hdue

end Pause

/-! ## Links (R103 to R105) -/

section Link
variable {p rate : Nat} {s : State}

theorem linkUp_full (hruns : s.portRuns p = true) (hup : (s.prt p).up = false) (hf : s.fenced 17 p = false) : linkUp p rate false s =
    raise 0x20 p (1 + 2 * s.linkRate p rate) (s.setPort p { s.prt p with up := true, rate := s.linkRate p rate, an := s.negotiates p, half := false }) :=
  if_pos (by simp [hruns, hup, hf])

theorem linkUp_half (hruns : s.portRuns p = true) (hup : (s.prt p).up = false) (hf : s.fenced 17 p = false) (hneg : s.negotiates p = true) :
    linkUp p rate true s = raise 0x20 p 32 (s.setPort p { s.prt p with up := false, rate := 0, an := false, half := true }) := by
  unfold linkUp
  rw [if_pos (by simp [hruns, hup, hf])]
  exact if_pos (by simp [hneg])

/-- An Osrider message waits to be sent by a port. -/
def mailFor (p : Nat) (m : Via × Bytes) : Bool := match m.1 with | .port q _ _ => decide (q = p) | .uart => false

/-- What waits to be sent by a port: Osrider messages, and the frames of the four classes. -/
def State.unsent (s : State) (p : Nat) : Nat :=
  (s.osr.outbox.filter (mailFor p)).length + s.qlen (96 + 4 * p) + s.qlen (96 + 4 * p + 1) + s.qlen (96 + 4 * p + 2) + s.qlen (96 + 4 * p + 3)

/-- All of it dropped. -/
def State.unqueued (s : State) (p : Nat) : State :=
  each (List.range 4) (fun c st => dropItems (96 + 4 * p + c) st) { s with osr := { s.osr with outbox := s.osr.outbox.filter (fun m => !mailFor p m) } }

theorem dropLink_up (h : (s.prt p).up = true) : dropLink p s = raise 0x20 p 0 (tally p 0x1B (tallyN p 0x13 (s.unsent p)
    ((s.unqueued p).setPort p { s.prt p with up := false, rate := 0, an := false, sending := none }))) := if_pos h

/-- The transmit classes of the port are empty, and every other queue is as it was. -/
theorem unqueued_queue (q : Nat) : (s.unqueued p).queue q = if 96 + 4 * p ≤ q ∧ q < 96 + 4 * p + 4 then (s.queue q).emptied else s.queue q := by
  have heach : ∀ (n : Nat) (t : State), (each (List.range n) (fun c st => dropItems (96 + 4 * p + c) st) t).queue q =
      if 96 + 4 * p ≤ q ∧ q < 96 + 4 * p + n then (t.queue q).emptied else t.queue q := by
    intro n t
    induction n with
    | zero => rw [if_neg (by omega)]; rfl
    | succ n ih =>
      have hstep : each (List.range (n + 1)) (fun c st => dropItems (96 + 4 * p + c) st) t =
          dropItems (96 + 4 * p + n) (each (List.range n) (fun c st => dropItems (96 + 4 * p + c) st) t) := by
        rw [List.range_succ, each, List.foldl_append]
        rfl
      rw [hstep, dropItems_queue]
      by_cases hq : q = 96 + 4 * p + n
      · subst hq
        rw [if_pos rfl, ih, if_neg (by omega), if_pos (by omega)]
      · rw [if_neg hq, ih]
        exact if_congr (by omega) rfl rfl
  exact heach 4 _

theorem unqueued_same : (s.unqueued p).variant = s.variant ∧ (s.unqueued p).mode = s.mode ∧ (s.unqueued p).stats = s.stats := by
  refine each_preserves (P := fun t : State => t.variant = s.variant ∧ t.mode = s.mode ∧ t.stats = s.stats) (fun c t h => ?_) ⟨rfl, rfl, rfl⟩
  obtain ⟨hvariant, hmode, hstats⟩ := dropItems_same (96 + 4 * p + c) t
  exact ⟨hvariant.trans h.1, hmode.trans h.2.1, hstats.trans h.2.2⟩

theorem dropLink_queue (hup : (s.prt p).up = true) (q : Nat) :
    (dropLink p s).queue q = if 96 + 4 * p ≤ q ∧ q < 96 + 4 * p + 4 then (s.queue q).emptied else s.queue q := by
  rw [dropLink_up hup, raise_queue, tally_eq_tallyN, tallyN_queue, tallyN_queue, State.setPort_queue, unqueued_queue]

/-- What is dropped is counted, and so is the link's going down. -/
theorem dropLink_ctr (hup : (s.prt p).up = true) (hm : s.mode.cur ≠ .quickset) :
    (dropLink p s).ctr (0x2080 + p) 0x13 = min (s.ctr (0x2080 + p) 0x13 + s.unsent p) ctrMax ∧
      (dropLink p s).ctr (0x2080 + p) 0x1B = min (s.ctr (0x2080 + p) 0x1B + 1) ctrMax := by
  obtain ⟨-, hmode, hstats⟩ := unqueued_same (p := p) (s := s)
  rw [← hmode] at hm
  rw [dropLink_up hup, raise_ctr, raise_ctr, tally_eq_tallyN, tallyN_ctr_ne (by decide), tallyN_ctr_self (by exact hm), tallyN_ctr_self (by simpa using hm),
    tallyN_ctr_ne (by decide), State.setPort_ctr, State.setPort_ctr, State.ctr_congr hstats, State.ctr_congr hstats]
  exact ⟨rfl, rfl⟩

/-- The link is down, and that is told. -/
theorem dropLink_down (hup : (s.prt p).up = true) (hp : p < s.ports) : ((dropLink p s).prt p).up = false ∧ Latched (dropLink p s) 0x20 p := by
  rw [dropLink_up hup]
  exact ⟨by simp, raise_port_latched (.inl rfl) hp (by simpa using unqueued_same.1) _⟩

end Link

/-- Settles O32, command by command. -/
theorem linksAndPauseAct : Obligations.LinksAndPauseAct := by
  unfold Obligations.LinksAndPauseAct
  refine ⟨fun dt p rate s hr hruns hdown hf => ?up, fun dt p rate s hr hruns hdown hf hneg => ?half, fun dt p m s hr hruns hup hm hmail => ?down,
    fun dt p dst quanta s hr hruns hup hm hen hhold hq hdst => ?pause, fun dt p dst op quanta s hr hruns hup hm hop => ?other,
    fun dt p f s hr hruns hup hm hen hhold hpcs hfcs hlong hshort htag htype hdst hop hq => ?frame, fun dt p e s hr hm hpause hdue => ?expire,
    fun dt p e s hr hp hm hpause hnow hlimit => ?trip, fun dt p e s hr hhold hdue => ?holdoff⟩
  case up =>
    refine ⟨_, rfl, ?_⟩
    rw [State.act_runs _ _ _ _ hr, within_prt (by decide), linkUp_full (s := s.tick dt) hruns hdown hf, raise_prt, State.setPort_prt, if_pos rfl]
    exact ⟨rfl, rfl, rfl, within_latched (by decide) (raise_port_latched (.inl rfl) (lt_ports_of_runs hruns) (by simp) _), onlyParts_of_time _ (by simp)⟩
  case half =>
    refine ⟨_, rfl, ?_⟩
    rw [State.act_runs _ _ _ _ hr, within_prt (by decide), linkUp_half (s := s.tick dt) hruns hdown hf hneg, raise_prt, State.setPort_prt, if_pos rfl]
    exact ⟨rfl, rfl, within_latched (by decide) (raise_port_latched (.inl rfl) (lt_ports_of_runs hruns) (by simp) _), onlyParts_of_time _ (by simp)⟩
  case down =>
    subst hmail
    have hgo : linkDown p (s.tick dt) = dropLink p (s.tick dt) := if_pos hruns
    obtain ⟨hdown, hlatched⟩ := dropLink_down (s := s.tick dt) hup (lt_ports_of_runs hruns)
    obtain ⟨hdropped, hdowns⟩ := dropLink_ctr (s := s.tick dt) hup hm
    refine ⟨_, rfl, ?_⟩
    rw [State.act_runs _ _ _ _ hr, hgo, within_prt (by decide), within_ctr, within_ctr, if_pos (by decide), if_pos (by decide), hdropped, hdowns]
    refine ⟨hdown, fun c hc => ?_, fun q hlow => ?_, rfl, rfl, within_latched (by decide) hlatched⟩
    · rw [within_queue (by decide), dropLink_queue (s := s.tick dt) hup, if_pos (by omega)]
      rfl
    · rw [within_queue (by decide), dropLink_queue (s := s.tick dt) hup, if_neg (by omega)]
      rfl
  case pause =>
    have hcounted : Counted (s.tick dt) (tallyN p 2 64 (tallyN p 1 1 (s.tick dt))) := (Counted.refl _).tallyN.tallyN
    obtain ⟨hend, hctr, htime⟩ := macControl_paused (s := tallyN p 2 64 (tallyN p 1 1 (s.tick dt))) hdst
      ((hcounted.same (f := (·.pcfg p 5 1)) fun _ => rfl).trans hen) (by rw [tallyN_prt, tallyN_prt]; exact hhold) hq (by simpa using hm)
    refine ⟨_, rfl, ?_⟩
    rw [State.act_runs _ _ _ _ hr, within_prt (by decide), within_ctr, if_pos (by decide), pauseReceive_up (s := s.tick dt) hruns hup, hend, hctr,
      tallyN_ctr_ne (by decide), tallyN_ctr_ne (by decide), tallyN_prt, tallyN_prt, tallyN_elapsed, tallyN_elapsed]
    exact ⟨rfl, rfl, onlyParts_of_time _ (htime.trans (by simp))⟩
  case other =>
    refine ⟨_, rfl, ?_⟩
    rw [State.act_runs _ _ _ _ hr, within_ctr, if_pos (by decide), pauseReceive_up (s := s.tick dt) hruns hup, macControl_other hop, tally_eq_tallyN,
      tallyN_ctr_self (by simpa using hm), tallyN_ctr_ne (by decide), tallyN_ctr_ne (by decide)]
    exact ⟨rfl, Counted.onlyParts (Counted.refl _).tallyN.tallyN.tallyN (by decide) (by decide)⟩
  case frame =>
    have harr : Arrives f p (s.tick dt) := ⟨hruns, hup, hpcs, hfcs, hlong, by rw [htag]; exact hshort⟩
    have hcounted := received_counted p f (s.tick dt)
    have hprt : ((s.tick dt).received p f).prt p = s.prt p := hcounted.same (f := (·.prt p)) fun _ => rfl
    obtain ⟨hend, hctr, -⟩ := macControl_paused (s := (s.tick dt).received p f) (.inl hdst) ((hcounted.same (f := (·.pcfg p 5 1)) fun _ => rfl).trans hen)
      (by rw [hprt]; exact hhold) hq (by rw [received_mode]; exact hm)
    refine ⟨_, rfl, ?_⟩
    rw [State.act_runs _ _ _ _ hr, within_prt (by decide), within_ctr, if_pos (by decide), frameReceive_arrives harr, if_pos htype, if_pos htag, hop, hend, hctr, hprt,
      received_ctr_ne (by decide) (by decide) (by decide), hcounted.same (f := State.elapsed) fun _ => rfl]
    exact ⟨rfl, rfl⟩
  case expire =>
    refine ⟨_, rfl, ?_⟩
    rw [State.act_runs _ _ _ _ hr, within_prt (by decide), within_ctr, if_pos (by decide), pauseExpire_due (s := s.tick dt) hpause hdue,
      endPause_ends (s := s.tick dt) hpause, tallyN_prt, State.setPort_prt, if_pos rfl, tallyN_ctr_self (by exact hm)]
    exact ⟨rfl, rfl⟩
  case trip =>
    obtain ⟨len, htrip⟩ := pauseTrip_due (s := s.tick dt) hpause hnow hlimit
    have hend : endPause p (s.tick dt).elapsed (s.tick dt) = _ := endPause_ends (s := s.tick dt) hpause
    refine ⟨_, rfl, ?_⟩
    rw [State.act_runs _ _ _ _ hr, htrip, hend, within_prt (by decide), within_ctr, if_pos (by decide), tally_eq_tallyN, tallyN_prt, raise_prt, State.setPort_prt,
      if_pos rfl, tallyN_prt, State.setPort_prt, if_pos rfl, tallyN_ctr_self (by simpa using hm), raise_ctr, State.setPort_ctr, tallyN_ctr_ne (by decide)]
    exact ⟨rfl, rfl, rfl, within_latched (by decide) ((Undisturbed.refl _).tally.latched _ _ (raise_port_latched (.inr rfl) hp (by simp) _))⟩
  case holdoff =>
    refine ⟨_, rfl, ?_⟩
    rw [State.act_runs _ _ _ _ hr, within_prt (by decide), pauseHoldoffEnd_due (s := s.tick dt) hhold hdue, State.setPort_prt, if_pos rfl]
    exact ⟨rfl, onlyParts_of_time _ rfl⟩

end Sys2Proof.Machine
end

section
namespace Sys2Proof.Machine
open Sys2Proof

/-! ## Work that counts elsewhere (R196 to R210, R430) -/

/-- The counters of a unit stand as they did. -/
def CtrsKept (unit : Nat) (s t : State) : Prop := ∀ k < 256, t.ctr unit k = s.ctr unit k

namespace CtrsKept
variable {unit : Nat} {s t u : State}

theorem refl (s : State) : CtrsKept unit s s := fun _ _ => rfl

theorem trans (h : CtrsKept unit s t) (k : CtrsKept unit t u) : CtrsKept unit s u := fun n hn => (k n hn).trans (h n hn)

/-- An update that leaves the statistics. -/
theorem update (h : CtrsKept unit s t) (e : u.stats = t.stats) : CtrsKept unit s u := fun n hn => (State.ctr_congr e unit n).trans (h n hn)

theorem ite {p : Prop} [Decidable p] (h : CtrsKept unit s t) (k : CtrsKept unit s u) : CtrsKept unit s (if p then t else u) := by
  split
  · exact h
  · exact k

theorem each {α : Type} {f : α → State → State} {xs : List α} (h : CtrsKept unit s t) (hf : ∀ a u, CtrsKept unit u (f a u)) :
    CtrsKept unit s (each xs f t) :=
  each_preserves (P := CtrsKept unit s) (fun a _ hu => hu.trans (hf a _)) h

theorem when {f : State → State} {b : Bool} (h : CtrsKept unit s t) (hf : ∀ u, CtrsKept unit u (f u)) : CtrsKept unit s (when b f t) := by
  cases b
  · exact h
  · exact h.trans (hf t)

/-- A fold of steps that give something and a state. -/
theorem collects {α β : Type} {f : α → State → List β × State} {l : List α} {acc : List β} (h : CtrsKept unit s t)
    (hf : ∀ a u, CtrsKept unit u (f a u).2) : CtrsKept unit s (l.foldl (fun r a => (r.1 ++ (f a r.2).1, (f a r.2).2)) (acc, t)).2 :=
  (foldl_collects (R := CtrsKept unit s) (Q := fun _ => True) (fun a _ u hu => ⟨hu.trans (hf a u), fun _ _ => trivial⟩) (fun _ _ => trivial) h).1

theorem within {ps : List Part} (h : CtrsKept unit s t) : CtrsKept unit s (s.within ps t) := by
  intro k hk
  rw [within_ctr]
  split
  · exact h k hk
  · rfl

theorem raise {id inst param : Nat} (h : CtrsKept unit s t) : CtrsKept unit s (raise id inst param t) := h.update (by simp)

theorem satEvent {old n key ev inst param : Nat} (h : CtrsKept unit s t) : CtrsKept unit s (satEvent old n key ev inst param t) :=
  .ite h (.raise (h.update rfl))

/-- Another unit counts. -/
theorem countN {idx sub n : Nat} (h : CtrsKept unit s t) (hidx : unit ≠ idx) (hsub : sub < 256) : CtrsKept unit s (countN idx sub n t) := by
  intro k hk
  rw [countN_ctr, if_neg (by omega)]
  exact h k hk

theorem count {idx sub : Nat} (h : CtrsKept unit s t) (hidx : unit ≠ idx) (hsub : sub < 256) : CtrsKept unit s (count idx sub t) := h.countN hidx hsub

theorem enqueueData {q : Nat} {item data : Bytes} (h : CtrsKept unit s t) : CtrsKept unit s (enqueueData q item data t).2 :=
  h.update (enqueueData_stats ..)

theorem taskReady {n : Nat} (h : CtrsKept unit s t) : CtrsKept unit s (taskReady n t) := by
  have hmade : (makeReady n t.elapsed t).stats = t.stats := by
    unfold makeReady
    split <;> simp [noteReady]
  have hplaced : (placeTask n (makeReady n t.elapsed t)).stats = (makeReady n t.elapsed t).stats := congrArg (fun a => a.2.1) (placeIn_afar 17 n _)
  exact .ite (h.update (hplaced.trans hmade)) h

theorem push {q : Nat} {item : Bytes} (h : CtrsKept unit s t) : CtrsKept unit s (push q item t) := by
  have hq : CtrsKept unit t (Machine.enqueueData q item [] t).2 := (refl t).enqueueData
  refine h.trans ?_
  unfold Machine.push pushData
  refine .within (.ite ?_ hq)
  split
  · exact hq.taskReady
  · exact hq

/-! ### Trigger units: they count at the acquisition engine and at the bus -/

section Trigger
variable (hacq : unit ≠ 0x8080) (hbus : unit ≠ 0xE080)

theorem unitValue {n : Nat} {c : UnitCf} {at_ : Stamp} {y : F32} {cond : Cond} (h : CtrsKept unit s t) :
    CtrsKept unit s (unitValue n c at_ y cond t).2 := by
  unfold Machine.unitValue
  extract_lets x
  split
  · exact h.update rfl
  · exact h.update rfl

theorem digitalEdge {src num : Nat} {level : Bool} {at_ : Tick} (h : CtrsKept unit s t) : CtrsKept unit s (digitalEdge src num level at_ t).2 :=
  h.collects (f := fun (x : Nat × UnitCf) u => unitStep x.1 x.2 (u.unit x.1) none (if level then some at_ else none) none
    (if level then none else some at_) at_ nan32 u) fun _ u => (refl u).update rfl

include hacq in
theorem joinCapture {g : Nat} {x : Trig} (h : CtrsKept unit s t) : CtrsKept unit s (joinCapture g x t).2 := by
  unfold Machine.joinCapture
  cases t.capture g with
  | none => exact h.count hacq (by decide)
  | some r =>
    dsimp only
    cases listTrigger t (t.grp g) r x with
    | none => exact h.count hacq (by decide)
    | some r' => exact .when (h.update rfl) fun u => (refl u).count hacq (by decide)

include hacq in
theorem groupTrigger {g : Nat} {x : Trig} (h : CtrsKept unit s t) : CtrsKept unit s (groupTrigger g x t).2 := by
  unfold Machine.groupTrigger
  extract_lets y
  split
  · split
    · exact h.update rfl
    · split
      · exact h.count hacq (by decide)
      · exact h.update rfl
  · exact h.joinCapture hacq
  · exact h.count hacq (by decide)

include hbus in
theorem driveLine {l : Nat} {at_ : Tick} (h : CtrsKept unit s t) : CtrsKept unit s (driveLine l at_ t).2 := by
  unfold Machine.driveLine
  split
  · exact h.update rfl
  · unfold mergeDrive
    extract_lets x
    split
    · exact .count (h.update rfl) hbus (by decide)
    · exact .ite (h.update rfl) (h.update rfl)

include hacq hbus

theorem fire {n : Nat} {c : UnitCf} {x : Trig} (h : CtrsKept unit s t) : CtrsKept unit s (fire n c x t).2 := by
  unfold Machine.fire
  extract_lets gateOk e8 held _ s1
  have hfired : CtrsKept unit s s1 := h.update rfl
  have hdriven : CtrsKept unit s (if bit c.flags 3 then Machine.driveLine c.line x.at_ s1 else (none, s1)).2 := by
    split
    · exact hfired.driveLine hbus
    · exact hfired
  split
  · exact h
  · exact .raise (hdriven.groupTrigger hacq)

theorem decideAll {k : Nat} {fs : List (Nat × UnitCf × Trig)} (h : CtrsKept unit s t) : CtrsKept unit s (decideAll k fs t) := by
  induction k generalizing fs t with
  | zero => exact h
  | succ k ih =>
    have hfire := h.collects (f := fun (x : Nat × UnitCf × Trig) u => ((Machine.fire x.1 x.2.1 x.2.2 u).1.toList, (Machine.fire x.1 x.2.1 x.2.2 u).2))
      (l := byGroup fs) (acc := []) fun _ u => (refl u).fire hacq hbus
    unfold Machine.decideAll
    generalize hr : (byGroup fs).foldl _ (([], t) : List LineEdge × State) = r
    have hfired : CtrsKept unit s r.2 := hr ▸ hfire
    obtain ⟨edges, s1⟩ := r
    cases edges with
    | nil => exact hfired
    | cons e es =>
      exact ih (hfired.collects (f := fun (x : LineEdge) u => Machine.digitalEdge 5 x.line x.level x.at_ u) (l := e :: es) (acc := [])
        fun _ u => (refl u).digitalEdge)

theorem valueToUnits {src num ag : Nat} {at_ : Stamp} {y : F32} {cond : Cond} (h : CtrsKept unit s t) :
    CtrsKept unit s (valueToUnits src num ag at_ y cond t) := by
  refine .ite (h.trans (.within (.decideAll hacq hbus ?_))) h
  exact (refl t).collects (f := fun (x : Nat × UnitCf) u => Machine.unitValue x.1 x.2 at_ y cond u) fun _ u => (refl u).unitValue

end Trigger

/-! ### Sets: they count at alignment, and what they bring about at the acquisition engine and at Hedgerow -/

section Sets
variable (hacq : unit ≠ 0x8080) (hhr : unit ≠ 0xE080) (halign : unit ≠ 0x6080)

include hacq hhr in
theorem publish {g : Nat} {c : Close} (h : CtrsKept unit s t) : CtrsKept unit s (publish g c t) := by
  have huplink : ∀ {c : Close} {v : State}, CtrsKept unit s v → CtrsKept unit s (uplinkClose g c v) := fun hv =>
    .ite (.ite (hv.update rfl) (.ite (.count (.satEvent (hv.update rfl)) hhr (by decide)) hv)) hv
  unfold Machine.publish
  dsimp -zeta only [State.takeFree]
  extract_lets x item c' keep s3
  have hpushed : CtrsKept unit s s3 := .push (h.update rfl)
  exact .ite hpushed (huplink (.each hpushed fun _ u => (refl u).valueToUnits hacq hhr))

include hacq hhr halign

theorem finalClose {g cause : Nat} {o : OpenSet} {decAt : Int} (h : CtrsKept unit s t) : CtrsKept unit s (finalClose g o cause decAt t) := by
  unfold Machine.finalClose
  extract_lets after kind c s1 s2 s3
  have hpublished : CtrsKept unit s s1 := .publish hacq hhr (h.update rfl)
  have hcounted : CtrsKept unit s s2 := by
    unfold s2
    split
    · exact hpublished.count halign (by decide)
    · exact hpublished.count halign (by decide)
    · exact hpublished.count halign (by decide)
    · exact hpublished
  have htold : CtrsKept unit s s3 :=
    .ite (hcounted.count halign (by decide)) (.ite (.raise (hcounted.count halign (by decide))) hcounted)
  split
  · exact .ite htold.raise htold
  · exact htold

theorem provisionalClose {g : Nat} {o : OpenSet} {decAt : Int} (h : CtrsKept unit s t) : CtrsKept unit s (provisionalClose g o decAt t) :=
  .count (.publish hacq hhr (h.update rfl)) halign (by decide)

theorem advanceSet {g : Nat} {seq : Seq} (h : CtrsKept unit s t) : CtrsKept unit s (advanceSet g seq t) := by
  unfold Machine.advanceSet
  split
  · exact h
  · dsimp -zeta only
    extract_lets c p s1
    have hprov : CtrsKept unit s s1 :=
      .ite (.ite (h.provisionalClose hacq hhr halign) (.count (.raise (h.update rfl)) halign (by decide))) h
    refine .ite ?_ hprov
    split
    · exact hprov.finalClose hacq hhr halign
    · exact hprov

theorem arriveOpen {g who : Nat} {seq : Seq} (h : CtrsKept unit s t) : CtrsKept unit s (arriveOpen g who seq t).2 := by
  unfold Machine.arriveOpen
  extract_lets s1
  have hadvanced : CtrsKept unit s s1 := h.advanceSet hacq hhr halign
  split
  · exact hadvanced
  · split
    · exact hadvanced
    · extract_lets o s2 c e done
      have hcame : CtrsKept unit s s2 := hadvanced.update rfl
      exact .ite hcame (.ite (hcame.finalClose hacq hhr halign) (.ite (hcame.finalClose hacq hhr halign)
        (.ite (.ite (hcame.provisionalClose hacq hhr halign) (.ite hcame (.count (.raise (hcame.update rfl)) halign (by decide)))) hcame)))

omit hacq hhr in
theorem lateArrival {g who : Nat} {at_ : Stamp} {vals : List Slotted} (h : CtrsKept unit s t) : CtrsKept unit s (lateArrival g who at_ vals t) := by
  unfold Machine.lateArrival
  extract_lets s1
  have htold : CtrsKept unit s s1 := .raise (h.count halign (by decide))
  refine .ite ?_ htold
  have hsource : CtrsKept unit s (lateSource g at_ s1).2 := by
    unfold lateSource
    split
    · exact htold
    · exact htold.update rfl
  generalize lateSource g at_ s1 = r at hsource
  obtain ⟨item, s2⟩ := r
  dsimp -zeta only [State.takeFree]
  extract_lets it
  have hitem : CtrsKept unit s (Machine.enqueueData 136 it (slotBytes vals) { s2 with freeCount := s2.freeCount + 1 }).2 := .enqueueData (hsource.update rfl)
  exact .ite (hitem.count halign (by decide)) (hitem.count halign (by decide))

omit hacq hhr halign in
theorem openSet {g tr : Nat} {step : Bool} (h : CtrsKept unit s t) : CtrsKept unit s (openSet g tr step t) := by
  refine .each (h.update rfl) fun m u => ?_
  unfold tellDeadline
  extract_lets key s1
  split
  · exact (refl u).update rfl
  · exact .ite (.raise ((refl u).update rfl)) (refl u)

/-- An arrival, which each group takes into an open set, into one that it opens, or late. -/
theorem arrive {who tr : Nat} {vals : List Slotted} {q : Qual} (h : CtrsKept unit s t) : CtrsKept unit s (arrive who tr vals q t) := by
  have hlate : ∀ {g : Nat} {at_ : Stamp} {v w : State}, CtrsKept unit v w → CtrsKept unit v (Machine.lateArrival g who at_ vals w) :=
    fun hw => hw.lateArrival halign
  have hopen : ∀ {g : Nat} {seq : Seq} {at_ : Stamp} {v w : State}, CtrsKept unit v w →
      CtrsKept unit v (if (Machine.arriveOpen g who seq w).1 then (Machine.arriveOpen g who seq w).2 else Machine.lateArrival g who at_ vals (Machine.arriveOpen g who seq w).2) :=
    fun hw => .ite (hw.arriveOpen hacq hhr halign) (hlate (hw.arriveOpen hacq hhr halign))
  unfold Machine.arrive
  extract_lets at_ hist align s1 c mine unserved seen
  have hseen : CtrsKept unit t seen := by
    refine .ite ((refl t).update rfl) ?_
    unfold recordLatency
    exact .ite ((refl t).update rfl) ((refl t).update rfl)
  refine h.trans (.within (hseen.each fun g v => ?_))
  extract_lets x
  split
  · exact .ite (hopen (refl v)) (hlate (refl v))
  · have hopened : CtrsKept unit v (Machine.openSet g tr false v) := (refl v).openSet
    generalize Machine.openSet g tr false v = w at hopened ⊢
    exact .ite (hlate ((refl v).count halign (by decide))) (.ite (hlate (refl v)) (.ite (refl v) (.ite (hlate (refl v)) (.ite (refl v) (hopen hopened)))))

end Sets
end CtrsKept

end Sys2Proof.Machine
end

section
namespace Sys2Proof.Machine
open Sys2Proof

/-! ## Work that only counts, tells and queues (R122, R380 to R382) -/

/-- A state without what such work changes: its counts, sticky flags, latches, queues, and the number of free values taken. -/
def State.unoffered (s : State) : State := { s.uncounted with freeCount := 0, store := {} }

/-- Work that only counts, tells, and offers items to queues. -/
def Offers (s t : State) : Prop := t.unoffered = s.unoffered

namespace Offers
variable {s t u : State}

theorem refl (s : State) : Offers s s := rfl

theorem trans (h : Offers s t) (k : Offers t u) : Offers s u := Eq.trans k h

/-- What can be read without counts, latches and queues is as it was. -/
theorem same {α : Type} (h : Offers s t) {f : State → α} (hf : ∀ u : State, f u.unoffered = f u) : f t = f s := by
  rw [← hf t, h, hf s]

theorem counted (h : Offers s t) (k : Counted t u) : Offers s u :=
  h.trans (show u.unoffered = t.unoffered from congrArg (fun v : State => { v with freeCount := 0, store := {} }) k)

/-- An update of what such work changes. -/
theorem update (h : Offers s t) (e : u.unoffered = t.unoffered) : Offers s u := h.trans e

theorem ite {p : Prop} [Decidable p] (h : Offers s t) (k : Offers s u) : Offers s (if p then t else u) := by
  split
  · exact h
  · exact k

theorem when {f : State → State} {b : Bool} (h : Offers s t) (hf : ∀ u, Offers u (f u)) : Offers s (when b f t) := by
  cases b
  · exact h
  · exact h.trans (hf t)

theorem raise {id inst param : Nat} (h : Offers s t) : Offers s (raise id inst param t) := h.counted (Counted.refl t).raise
theorem countN {idx sub n : Nat} (h : Offers s t) : Offers s (countN idx sub n t) := h.counted (Counted.refl t).countN
theorem count {idx sub : Nat} (h : Offers s t) : Offers s (count idx sub t) := h.countN

theorem satEvent {old n key ev inst param : Nat} (h : Offers s t) : Offers s (satEvent old n key ev inst param t) :=
  .ite h (.raise (h.update rfl))

theorem setPool {n : Nat} (h : Offers s t) : Offers s (setPool n t) := .ite (.raise (h.update rfl)) (.ite (h.update rfl) (h.update rfl))

theorem enqueueData {q : Nat} {item data : Bytes} (h : Offers s t) : Offers s (enqueueData q item data t).2 := by
  have hrefused : Offers s (refusePush q t) := .ite (.satEvent (h.update rfl)) (.ite (.raise (.satEvent (h.update rfl))) (.raise (.satEvent (h.update rfl))))
  unfold Machine.enqueueData
  split
  · exact hrefused
  · exact .ite (.setPool (.satEvent (h.update rfl))) (.satEvent (h.update rfl))

theorem portSend {p cls : Nat} {b : Bytes} {stamp : Option (Nat × Nat × Nat)} (h : Offers s t) : Offers s (portSend p cls b stamp t) :=
  .ite h (.ite h.enqueueData (h.counted (tallyN_counted ..)))

theorem archiveFrame {k : Nat} {x : C37Rx} (h : Offers s t) : Offers s (archiveFrame k x t) := h.enqueueData

theorem ing (h : Offers s t) : t.ing = s.ing := h.same (f := State.ing) fun _ => rfl
theorem ctx (h : Offers s t) (k : Nat) : t.ctx k = s.ctx k := h.same (f := (·.ctx k)) fun _ => rfl
theorem svs (h : Offers s t) (r : Nat) : t.svs r = s.svs r := h.same (f := (·.svs r)) fun _ => rfl
theorem cf (h : Offers s t) : t.cf = s.cf := h.same (f := State.cf) fun _ => rfl
theorem mode (h : Offers s t) : t.mode = s.mode := h.same (f := State.mode) fun _ => rfl
theorem align (h : Offers s t) : t.align = s.align := h.same (f := State.align) fun _ => rfl
theorem chain (h : Offers s t) : t.chain = s.chain := h.same (f := State.chain) fun _ => rfl
theorem elapsed (h : Offers s t) : t.elapsed = s.elapsed := h.same (f := State.elapsed) fun _ => rfl

end Offers

namespace CtrsKept
variable {unit : Nat} {s t : State}

/-- Ports count at their own objects. -/
theorem portSend {p cls : Nat} {b : Bytes} {stamp : Option (Nat × Nat × Nat)} (h : CtrsKept unit s t) (hunit : 0x2086 ≤ unit) :
    CtrsKept unit s (portSend p cls b stamp t) := by
  unfold Machine.portSend
  extract_lets fr
  split
  · exact h
  · next hactive =>
    have hp : p < 6 := by
      have hports : t.ports ≤ 6 := by
        unfold State.ports byPart
        split <;> decide
      simp only [State.portActive, Bool.or_eq_true, Bool.not_eq_true', Bool.and_eq_false_iff, decide_eq_false_iff_not] at hactive
      omega
    refine .ite h.enqueueData ?_
    unfold tally tallyN
    exact .ite h (h.countN (by omega) (by decide))

theorem archiveFrame {k : Nat} {x : C37Rx} (h : CtrsKept unit s t) : CtrsKept unit s (archiveFrame k x t) := h.enqueueData

end CtrsKept

/-! ## Commands to sources (R138) -/

/-- The command frame that goes to the source of a context. -/
def State.sourceFrame (s : State) (c : Cf) (k cmd : Nat) : SentCmd :=
  { ctx := k, tcp := ctxF c k 1 1 = 1, dst := if ctxF c k 4 4 != 0 then ctxF c k 4 4 else (s.ctx k).src.getD 0,
    local_ := if ctxF c k 1 1 = 1 then 0 else ctxF c k 10 2, remote := ctxF c k 8 2,
    bytes := commandFrame ((s.ctx k).version.getD (if ctxThree c k then 2 else 1)) (ctxF c k 2 2) cmd s.freeCount s }

/-- A state with one more command frame sent. -/
def State.sends (s : State) (x : SentCmd) : State := { s with freeCount := s.freeCount + 1, ing := { s.ing with sent := s.ing.sent ++ [x] } }

/-- The command stands at its place of the frame. -/
theorem sourceFrame_cmd {cmd : Nat} (h : cmd < 65536) (s : State) (c : Cf) (k : Nat) : field (s.sourceFrame c k cmd).bytes 14 2 = cmd := by
  unfold State.sourceFrame commandFrame
  extract_lets b
  have hb : slice (b ++ toBE 2 (crc16 b)) 14 2 = toBE 2 cmd := slice_middle (by simp [toBE_length, freeRun]) (toBE_length ..)
  rw [field, hb, ofBE_toBE]
  exact Nat.mod_eq_of_lt h

section SourceCmd
variable {c : Cf} {k cmd : Nat} {s : State}

/-- A command either goes out, by some port, or it does not. -/
theorem sourceCmd_cases (c : Cf) (k cmd : Nat) (s : State) :
    sourceCmd c k cmd s = s ∨ ∃ p b, sourceCmd c k cmd s = portSend p 3 b none (s.sends (s.sourceFrame c k cmd)) := by
  unfold sourceCmd
  extract_lets x tcp ver known
  split
  · exact .inl rfl
  · exact .inr ⟨_, _, rfl⟩

/-- It goes out to a source of a known address, over TCP while the connection stands. -/
theorem sourceCmd_sends (hm : s.mode.cur.ingests = true) (htcp : ctxF c k 1 1 = 1 → (s.ctx k).tcp = true) (hlocal : ctxF c k 1 1 ≠ 2)
    (hdst : ctxF c k 4 4 ≠ 0) : Offers (s.sends (s.sourceFrame c k cmd)) (sourceCmd c k cmd s) := by
  have hgo : ¬ (!s.mode.cur.ingests || (decide (ctxF c k 1 1 = 1) && !(s.ctx k).tcp) || !(ctxF c k 4 4 != 0 || (s.ctx k).src.isSome) || decide (ctxF c k 1 1 = 2)) = true := by
    by_cases h : ctxF c k 1 1 = 1 <;> simp_all
  unfold sourceCmd
  extract_lets x tcp ver known
  rw [if_neg (by simpa [tcp, known, x] using hgo)]
  exact (Offers.refl _).portSend

theorem sourceCmd_ctx (j : Nat) : (sourceCmd c k cmd s).ctx j = s.ctx j := by
  obtain h | ⟨p, b, h⟩ := sourceCmd_cases c k cmd s
  · rw [h]
  · rw [h, (Offers.refl _).portSend.ctx]
    rfl

theorem sourceCmd_elapsed : (sourceCmd c k cmd s).elapsed = s.elapsed := by
  obtain h | ⟨p, b, h⟩ := sourceCmd_cases c k cmd s
  · rw [h]
  · rw [h, (Offers.refl _).portSend.elapsed]
    rfl

theorem sourceCmd_ctrs {unit : Nat} (hunit : 0x2086 ≤ unit) : CtrsKept unit s (sourceCmd c k cmd s) := by
  obtain h | ⟨p, b, h⟩ := sourceCmd_cases c k cmd s
  · rw [h]
    exact .refl s
  · rw [h]
    exact .portSend (CtrsKept.update (.refl s) rfl) hunit

end SourceCmd

section Sources
variable {k : Nat} {s : State}

/-- Commands change of a context when they went out, and nothing else. -/
theorem sourceStart_ctx : ∃ r, (sourceStart k s).ctx k = { s.ctx k with lastReq := r } := by
  unfold sourceStart
  split
  · exact ⟨_, by rw [State.setCtx_ctx, if_pos rfl, sourceCmd_ctx, sourceCmd_ctx]⟩
  · exact ⟨(s.ctx k).lastReq, rfl⟩

/-- A request for the configuration changes of a context when it went out, and nothing else. -/
theorem sourceAsk_ctx (always : Bool) : ∃ r, (sourceAsk k always s).ctx k = { s.ctx k with asked := r } := by
  unfold sourceAsk
  extract_lets x due s1
  have hsent : s1.ctx k = s.ctx k := sourceCmd_ctx k
  split
  · refine ⟨some s1.elapsed, ?_⟩
    rw [State.setCtx_ctx, if_pos rfl]
    show { s1.ctx k with asked := some s1.elapsed } = _
    rw [hsent]
  · exact ⟨(s.ctx k).asked, rfl⟩

theorem sourceAsk_ctrs {unit : Nat} (always : Bool) (hunit : 0x2086 ≤ unit) : CtrsKept unit s (sourceAsk k always s) :=
  .ite (.update (sourceCmd_ctrs hunit) rfl) (.refl s)

/-- Without the flag that asks for it nothing is sent. -/
theorem sourceStart_silent (h : bit (ctxF s.cf k 0 1) 1 = false) : sourceStart k s = s := if_neg (by simp [h])

/-- The configuration and the data are asked for, in this order, and it is noted when. -/
theorem sourceStart_asks (hask : bit (ctxF s.cf k 0 1) 1 = true) (hm : s.mode.cur.ingests = true) (htcp : ctxF s.cf k 1 1 = 1 → (s.ctx k).tcp = true)
    (hlocal : ctxF s.cf k 1 1 ≠ 2) (hdst : ctxF s.cf k 4 4 ≠ 0) :
    (sourceStart k s).ing.sent.map (fun c => (c.ctx, field c.bytes 14 2)) =
        s.ing.sent.map (fun c => (c.ctx, field c.bytes 14 2)) ++ [(k, if ctxThree s.cf k then 6 else 5), (k, 2)] ∧
      (sourceStart k s).ctx k = { s.ctx k with lastReq := some s.elapsed } := by
  have hcfg := sourceCmd_sends (cmd := if ctxThree s.cf k then 6 else 5) hm htcp hlocal hdst
  generalize hs1 : sourceCmd s.cf k (if ctxThree s.cf k then 6 else 5) s = s1 at hcfg
  have hdata := sourceCmd_sends (c := s.cf) (cmd := 2) (s := s1) (by rw [hcfg.mode]; exact hm) (by rw [hcfg.ctx]; exact htcp) hlocal hdst
  have hstart : sourceStart k s = (sourceCmd s.cf k 2 s1).setCtx k { (sourceCmd s.cf k 2 s1).ctx k with lastReq := some (sourceCmd s.cf k 2 s1).elapsed } := by
    rw [← hs1]
    exact if_pos hask
  have hcmd : (if ctxThree s.cf k then 6 else 5) < 65536 := by split <;> decide
  rw [hstart]
  constructor
  · show (sourceCmd s.cf k 2 s1).ing.sent.map _ = _
    rw [hdata.ing]
    simp only [State.sends]
    rw [hcfg.ing]
    simp only [State.sends, List.map_append, List.map_cons, List.map_nil, sourceFrame_cmd hcmd, sourceFrame_cmd (show 2 < 65536 by decide), List.append_assoc]
    rfl
  · rw [State.setCtx_ctx, if_pos rfl, sourceCmd_ctx, sourceCmd_elapsed, ← hs1, sourceCmd_ctx, sourceCmd_elapsed]

end Sources

end Sys2Proof.Machine
end

section
namespace Sys2Proof.Machine
open Sys2Proof

/-! ## C37.118 frames (R137, R140 to R148) -/

/-- Ingest has begun with a frame: it is counted, and no longer waits. -/
def State.c37Begun (s : State) (x : C37Rx) : State :=
  count 0x4080 1 (freshSent { s with ing := { s.ing with direct := s.ing.direct.eraseP (fun d => d.2 = x) } })

/-- A frame fails a check, which is counted, and is archived where that is asked for. -/
def c37Fails (n : Nat) (x : C37Rx) (s : State) : State := when (s.cf.u 0x4000 0x15 0 1 = 1) (archiveFrame 0xFFFF x) (count 0x4080 n s)

/-- A context notes the version and the sender of a frame. -/
def Ctx.hears (y : Ctx) (x : C37Rx) : Ctx := { y with version := some (field x.bytes 1 1 % 16), src := some x.src }

/-- The context of a frame has heard it. -/
def State.c37Heard (s : State) (k : Nat) (x : C37Rx) : State := (s.c37Begun x).setCtx k ((s.ctx k).hears x)

/-- It drops the frame. -/
def State.c37Dropped (s : State) (k : Nat) (x : C37Rx) : State :=
  (s.c37Heard k x).setCtx k { (s.ctx k).hears x with dropped := satCount (s.ctx k).dropped 1 }

/-- A frame is archived where that is asked for: any header frame, and every frame while a configuration is awaited. -/
def State.c37Keep (s : State) (kind k : Nat) (x : C37Rx) (t : State) : State :=
  when ((kind = 1 || ((s.ctx k).accepted.isNone || (s.ctx k).pending.isSome)) && bit (ctxF t.cf k 0 1) 3) (archiveFrame k x) t

section Frame
variable {s : State} {x : C37Rx}

theorem c37Begun_offers (s : State) (x : C37Rx) :
    Offers (freshSent { s with ing := { s.ing with direct := s.ing.direct.eraseP (fun d => d.2 = x) } }) (s.c37Begun x) := (Offers.refl _).count

theorem c37Begun_ctx : (s.c37Begun x).ing.ctx = s.ing.ctx := by
  rw [(c37Begun_offers s x).ing]
  rfl

theorem c37Begun_slots : (s.c37Begun x).ing.slots = s.ing.slots := by
  rw [(c37Begun_offers s x).ing]
  rfl

theorem c37Begun_ctr (j : Nat) : (s.c37Begun x).ctr 0x4080 j = if j = 1 then min (s.ctr 0x4080 1 + 1) ctrMax else s.ctr 0x4080 j := by
  rw [State.c37Begun, count_ctr]
  exact if_congr (by omega) rfl rfl

/-- A frame of a sound beginning whose size is right but not its check word fails check 3. -/
theorem c37Frame_badCheck (hruns : s.ingestRuns = true) (hlen : 16 ≤ x.bytes.length) (hsync : field x.bytes 0 1 = 0xAA) (hkind : field x.bytes 1 1 = 0x01)
    (hsize : field x.bytes 2 2 = x.bytes.length) (hcrc : crc16 x.bytes.dropLast.dropLast ≠ field x.bytes (x.bytes.length - 2) 2) :
    c37Frame x s = c37Fails 4 x (s.c37Begun x) := by
  unfold c37Frame
  rw [if_neg (by simp [hruns])]
  extract_lets b ing s0 fails kind ver
  have hk : kind = 0 := by simp [kind, b, hkind]
  have hv : ver = 1 := by simp [ver, b, hkind]
  rw [if_neg (by simp [b, hk, hv, hsync]; omega), if_neg (by simp [b, hsize, hlen]), if_pos (by simpa [b] using hcrc)]
  rfl

/-- A frame without the sync byte fails check 1, which a connection does not survive. -/
theorem c37Frame_badSync (hruns : s.ingestRuns = true) (hsync : field x.bytes 0 1 ≠ 0xAA) : c37Frame x s = closeFraming x (c37Fails 2 x (s.c37Begun x)) := by
  unfold c37Frame
  rw [if_neg (by simp [hruns])]
  extract_lets b ing s0 fails kind ver
  rw [if_pos (by simp [b, hsync])]
  rfl

/-- A frame that passes checks 1 to 3 and finds its context goes the way of its kind; all but the selected configuration frame and data frames are
dropped. -/
theorem c37Frame_sound {kind k : Nat} (hruns : s.ingestRuns = true) (hsound : SoundC37 x kind) (hctx : s.matchCtx x = some k)
    (hf : s.fenced 1 (k / 512) = false) : c37Frame x s =
      if kind = 0 then takeData k x (s.rxNs x) (s.c37Heard k x)
      else if kind = (if ctxThree s.cf k then 5 else 3) then takeCfg k x.bytes (s.c37Keep kind k x (s.c37Heard k x))
      else s.c37Keep kind k x (count 0x4080 6 (ctxSat k (s.ctx k).dropped 24 (s.c37Dropped k x))) := by
  obtain ⟨hlen, hsync, hkind, hsize, hver, hcrc⟩ := hsound
  have hmatch : (s.c37Begun x).matchCtx x = some k := ((c37Begun_offers s x).same (f := (·.matchCtx x)) fun _ => rfl).trans hctx
  have hfence : (s.c37Begun x).fenced 1 (k / 512) = false := ((c37Begun_offers s x).same (f := (·.fenced 1 (k / 512))) fun _ => rfl).trans hf
  have hsame : (s.c37Begun x).ctx k = s.ctx k := by rw [State.ctx, c37Begun_ctx, State.ctx]
  have hcf : (s.c37Heard k x).cf = s.cf := (c37Begun_offers s x).cf
  unfold c37Frame
  rw [if_neg (by simp [hruns])]
  extract_lets b ing s0 fails kind' ver
  obtain rfl : kind' = kind := hkind
  have hsync' : ¬ (decide (b.length < 2) || field b 0 1 != 0xAA || decide (5 < kind') || !(decide (ver = 1) || decide (ver = 2)) ||
      decide (kind' = 5) && decide (ver = 1)) = true := by
    rcases hver with ⟨h1, h2⟩ | ⟨h1, h2⟩ <;> simp [b, ver, h1, hsync] <;> omega
  rw [if_neg hsync', if_neg (by simp [b, hsize, hlen]), if_neg (by simpa [b] using hcrc)]
  have hs0 : s0 = s.c37Begun x := rfl
  clear_value s0
  subst hs0
  rw [hmatch]
  dsimp only
  rw [if_neg (by rw [hfence]; decide), hsame]
  have hthree : ctxThree ((s.c37Begun x).setCtx k { s.ctx k with version := some ver, src := some x.src }).cf k = ctxThree s.cf k := congrArg (ctxThree · k) hcf
  rw [hthree, State.setCtx_ctx, if_pos rfl]
  rfl

end Frame
end Sys2Proof.Machine
end

section
namespace Sys2Proof.Machine
open Sys2Proof

/-! ## What a frame of a known context does (R142 to R148) -/

theorem within_ctx {s t : State} {ps : List Part} (h : .ingest ∈ ps) (k : Nat) : (s.within ps t).ctx k = t.ctx k := by simp [State.ctx, h]

/-- A context to which a frame is delivered at a moment. -/
def Ctx.delivers (x : Ctx) (now : Nat) (seen : List Stamp) (change : Bool) : Ctx :=
  { x with delivered := satCount x.delivered 1, lastAt := now, lost := false, seen := seen, statChange := change }

/-- What a context does with a frame that is delivered: it counts it, it is told of when the stream was lost, and the frame may have it ask for its
configuration again (R147). -/
def State.frameDelivered (s : State) (k : Nat) (seen : List Stamp) (change again : Bool) : State :=
  when again (sourceAsk k false) (when (s.ctx k).lost (raise 0x34 k 0) (ctxSat k (s.ctx k).delivered 8
    (s.setCtx k ((s.ctx k).delivers s.elapsed seen change))))

section Take
variable {s : State} {k : Nat} {x : C37Rx}

theorem c37Heard_ctx : (s.c37Heard k x).ctx k = (s.ctx k).hears x := by
  rw [State.c37Heard, State.setCtx_ctx, if_pos rfl]

theorem c37Heard_ctr (j : Nat) : (s.c37Heard k x).ctr 0x4080 j = if j = 1 then min (s.ctr 0x4080 1 + 1) ctrMax else s.ctr 0x4080 j := c37Begun_ctr j

theorem c37Heard_same : (s.c37Heard k x).cf = s.cf ∧ (s.c37Heard k x).align = s.align ∧ (s.c37Heard k x).time = s.time ∧
    (s.c37Heard k x).ing.slots = s.ing.slots :=
  ⟨(c37Begun_offers s x).cf, (c37Begun_offers s x).align, (c37Begun_offers s x).same (f := State.time) fun _ => rfl, c37Begun_slots⟩

/-- While a configuration is pending a data frame is counted, archived where that is asked for, and read no further (R147). -/
theorem takeData_quarantines {b : Bytes} (hpend : (s.ctx k).pending = some b) (at_ : Nat) : takeData k x at_ s =
    when (bit (ctxF s.cf k 0 1) 3) (archiveFrame k x) (count 0x4080 8 (ctxSat k (s.ctx k).quarantined 16
      (s.setCtx k { s.ctx k with quarantined := satCount (s.ctx k).quarantined 1 }))) := by
  unfold takeData
  extract_lets y bytes p? archive quarantine early
  split
  · next hnone => exact absurd (hpend.symm.trans hnone) (by simp)
  · rfl

/-- A data frame that passes its checks is delivered: the context notes it, its values are written, and it arrives (R140, R148, R158, R196). -/
theorem takeData_delivers {a : Bytes} {p : CfgP} {at_ tr : Nat} (hacc : (s.ctx k).accepted = some a) (hpend : (s.ctx k).pending = none)
    (hsince : (s.ctx k).since = none) (hparse : parseCfg (ctxThree s.cf k) a = some p) (hchecks : s.dataChecks (s.ctx k) p x.bytes at_ = (0, tr)) :
    ∃ vals q seen change again, takeData k x at_ s =
      arrive k tr vals q (writeSlots vals ⟨s.time.gen, tr⟩ (s.frameDelivered k (⟨s.time.gen, tr⟩ :: seen) change again)) := by
  unfold takeData
  extract_lets y bytes p? archive quarantine early
  have hp : p? = some p := by simp only [p?, y, hacc, hparse]
  split
  · next p' hp' _ =>
    obtain rfl : p' = p := Option.some.inj (hp'.symm.trans hp)
    have hearly : early p' = false := by simp only [early, y, hsince]
    clear_value early p?
    rw [if_neg (by rw [hearly]; decide), show s.dataChecks y p' bytes at_ = (0, tr) from hchecks]
    dsimp only
    rw [if_neg (by decide)]
    exact ⟨_, _, _, _, _, rfl⟩
  · next hnot => exact absurd hpend (hnot p hp)

/-- The context notes when and for which instant; it may have asked for its configuration again (R147, R161). -/
theorem frameDelivered_ctx (seen : List Stamp) (change again : Bool) :
    ∃ r, (s.frameDelivered k seen change again).ctx k = { (s.ctx k).delivers s.elapsed seen change with asked := r } := by
  unfold State.frameDelivered
  generalize hheard : when (s.ctx k).lost (raise 0x34 k 0) (ctxSat k (s.ctx k).delivered 8 (s.setCtx k ((s.ctx k).delivers s.elapsed seen change))) = u
  have hu : u.ctx k = (s.ctx k).delivers s.elapsed seen change := by
    have htold : Offers (s.setCtx k ((s.ctx k).delivers s.elapsed seen change)) u := hheard ▸ .when (.satEvent (.refl _)) fun _ => .raise (.refl _)
    rw [htold.ctx, State.setCtx_ctx, if_pos rfl]
  cases again with
  | false => exact ⟨((s.ctx k).delivers s.elapsed seen change).asked, hu⟩
  | true =>
    obtain ⟨r, hr⟩ := sourceAsk_ctx (k := k) (s := u) false
    exact ⟨r, by rw [when_true, hr, hu]⟩

/-- No check counts it. -/
theorem frameDelivered_ctrs (seen : List Stamp) (change again : Bool) : CtrsKept 0x4080 s (s.frameDelivered k seen change again) :=
  .when (.when (.satEvent (.update (.refl s) rfl)) fun _ => .raise (.refl _)) fun _ => sourceAsk_ctrs false (by decide)

/-- A first configuration that the context does not accept by itself is pending, and told (R142, R143). -/
theorem takeCfg_pends {b : Bytes} (hacc : (s.ctx k).accepted = none) (hauto : bit (ctxF s.cf k 0 1) 2 = false) :
    ∃ w, takeCfg k b s = raise 0x30 k (k * 65536 + fingerprint b) (s.setCtx k { s.ctx k with pending := some b, bound := w, first := true }) := by
  unfold takeCfg
  extract_lets y three flags isAcc isPend first s1 auto
  have hisAcc : isAcc = false := by simp only [isAcc, y, hacc]
  have hno : auto = false := by simp [auto, y, hacc, show bit flags 2 = false from hauto]
  clear_value isAcc auto
  rw [hisAcc, hno]
  exact ⟨_, rfl⟩

/-- Only what counts, tells and queues is done to keep a frame. -/
theorem c37Keep_offers (kind : Nat) (t : State) : Offers t (s.c37Keep kind k x t) := .when (.refl t) fun _ => .archiveFrame (.refl _)

theorem c37Keep_ctrs {unit : Nat} (kind : Nat) (t : State) : CtrsKept unit t (s.c37Keep kind k x t) := .when (.refl t) fun _ => .archiveFrame (.refl _)

theorem c37Fails_offers (n : Nat) (t : State) : Offers t (c37Fails n x t) := .when (.count (.refl t)) fun _ => .archiveFrame (.refl _)

/-- A check that fails counts at its own counter. -/
theorem c37Fails_ctr {n j : Nat} (hj : j < 256) (t : State) :
    (c37Fails n x t).ctr 0x4080 j = if j = n then min (t.ctr 0x4080 n + 1) ctrMax else t.ctr 0x4080 j := by
  have harchive : CtrsKept 0x4080 (count 0x4080 n t) (c37Fails n x t) := .when (.refl _) fun _ => .archiveFrame (.refl _)
  rw [harchive j hj, count_ctr]
  exact if_congr (by omega) rfl rfl

/-- The connection that stood is lost, which is counted (R138, R141). -/
theorem tcpLost_stood (h : (s.ctx k).tcp = true) : (∀ j, (tcpLost k s).ctx j = if j = k then { s.ctx k with tcp := false, lastReq := some s.elapsed } else s.ctx j) ∧
    ∀ j, (tcpLost k s).ctr 0x4080 j = if j = 0x15 then min (s.ctr 0x4080 0x15 + 1) ctrMax else s.ctr 0x4080 j := by
  have hlost : tcpLost k s = count 0x4080 0x15 (s.setCtx k { s.ctx k with tcp := false, lastReq := some s.elapsed }) := if_pos h
  rw [hlost]
  refine ⟨fun j => ?_, fun j => ?_⟩
  · rw [(Offers.refl _).count.ctx, State.setCtx_ctx]
  · rw [count_ctr]
    exact if_congr (by omega) rfl rfl

end Take
end Sys2Proof.Machine
end

section
namespace Sys2Proof.Machine
open Sys2Proof

/-! ## Frames from sources, from check to context (R137 to R148) -/

section Frames
variable {s : State} {x : C37Rx} {k : Nat}

/-- A data frame of an accepted configuration that passes its checks is delivered, and counted among the frames only. -/
theorem c37Frame_delivers {a : Bytes} {p : CfgP} {tr : Nat} (hruns : s.ingestRuns = true) (hsound : SoundC37 x 0) (hctx : s.matchCtx x = some k)
    (hf : s.fenced 1 (k / 512) = false) (hacc : (s.ctx k).accepted = some a) (hpend : (s.ctx k).pending = none) (hsince : (s.ctx k).since = none)
    (hparse : parseCfg (ctxThree s.cf k) a = some p) (hchecks : s.dataChecks (s.ctx k) p x.bytes (s.rxNs x) = (0, tr)) :
    (∃ seen change asked, (c37Frame x s).ctx k = { ((s.ctx k).hears x).delivers s.elapsed (⟨s.time.gen, tr⟩ :: seen) change with asked := asked }) ∧
    (c37Frame x s).ctr 0x4080 1 = min (s.ctr 0x4080 1 + 1) ctrMax := by
  obtain ⟨hcf, -, htime, -⟩ := c37Heard_same (s := s) (k := k) (x := x)
  have hheard := c37Heard_ctx (s := s) (k := k) (x := x)
  have hctr := c37Heard_ctr (s := s) (k := k) (x := x) 1
  have hsame := c37Begun_offers s x
  have hchecks' : (s.c37Heard k x).dataChecks ((s.c37Heard k x).ctx k) p x.bytes (s.rxNs x) = (0, tr) := by
    rw [hheard]
    exact (hsame.same (f := fun u => u.dataChecks ((s.ctx k).hears x) p x.bytes (s.rxNs x)) fun _ => rfl).trans hchecks
  rw [c37Frame_sound hruns hsound hctx hf, if_pos rfl]
  generalize s.c37Heard k x = u at *
  obtain ⟨vals, q, seen, change, again, htake⟩ := takeData_delivers (s := u) (k := k) (x := x) (by rw [hheard]; exact hacc) (by rw [hheard]; exact hpend)
    (by rw [hheard]; exact hsince) (by rw [hcf]; exact hparse) hchecks'
  obtain ⟨r, hnoted⟩ := frameDelivered_ctx (s := u) (k := k) (⟨u.time.gen, tr⟩ :: seen) change again
  have hwritten : CtrsKept 0x4080 u (writeSlots vals ⟨u.time.gen, tr⟩ (u.frameDelivered k (⟨u.time.gen, tr⟩ :: seen) change again)) :=
    CtrsKept.update (frameDelivered_ctrs _ _ _) rfl
  rw [htake]
  constructor
  · refine ⟨seen, change, r, hnoted.trans ?_⟩
    rw [hheard, State.elapsed, htime]
    rfl
  · rw [hwritten.arrive (by decide) (by decide) (by decide) 1 (by decide), hctr, if_pos rfl]

/-- A data frame while a configuration is pending is quarantined: no value of it is written. -/
theorem c37Frame_quarantines {b : Bytes} (hruns : s.ingestRuns = true) (hsound : SoundC37 x 0) (hctx : s.matchCtx x = some k)
    (hf : s.fenced 1 (k / 512) = false) (hpend : (s.ctx k).pending = some b) :
    (c37Frame x s).ctx k = { (s.ctx k).hears x with quarantined := satCount (s.ctx k).quarantined 1 } ∧
    (c37Frame x s).ctr 0x4080 8 = min (s.ctr 0x4080 8 + 1) ctrMax ∧ (c37Frame x s).ing.slots = s.ing.slots ∧ (c37Frame x s).align = s.align := by
  obtain ⟨-, halign, -, hslots⟩ := c37Heard_same (s := s) (k := k) (x := x)
  have hheard := c37Heard_ctx (s := s) (k := k) (x := x)
  have hctr := c37Heard_ctr (s := s) (k := k) (x := x) 8
  rw [c37Frame_sound hruns hsound hctx hf, if_pos rfl]
  generalize s.c37Heard k x = u at *
  rw [takeData_quarantines (by rw [hheard]; exact hpend)]
  have hq : ∀ (v : State), Offers v (when (bit (ctxF u.cf k 0 1) 3) (archiveFrame k x) (count 0x4080 8 (ctxSat k (u.ctx k).quarantined 16 v))) := fun v =>
    .when (.count (.satEvent (.refl v))) fun _ => .archiveFrame (.refl _)
  have harchived : ∀ (v : State), CtrsKept 0x4080 v (when (bit (ctxF u.cf k 0 1) 3) (archiveFrame k x) v) := fun v => .when (.refl v) fun _ => .archiveFrame (.refl _)
  have hsat : ∀ (v : State), CtrsKept 0x4080 v (ctxSat k (u.ctx k).quarantined 16 v) := fun v => .satEvent (.refl v)
  refine ⟨?_, ?_, ?_, ?_⟩
  · rw [(hq _).ctx, State.setCtx_ctx, if_pos rfl, hheard]
    rfl
  · rw [harchived _ 8 (by decide), count_ctr, if_pos rfl, hsat _ 8 (by decide)]
    show min (u.ctr 0x4080 8 + 1) ctrMax = _
    rw [hctr, if_neg (by decide)]
  · rw [(hq _).ing]
    exact hslots
  · rw [(hq _).align]
    exact halign

/-- The first configuration of a context that does not accept it by itself is pending, and told. -/
theorem c37Frame_pends (hruns : s.ingestRuns = true) (hsound : SoundC37 x (if ctxThree s.cf k then 5 else 3)) (hctx : s.matchCtx x = some k)
    (hf : s.fenced 1 (k / 512) = false) (hacc : (s.ctx k).accepted = none) (hauto : bit (ctxF s.cf k 0 1) 2 = false) :
    (∃ bound, (c37Frame x s).ctx k = { (s.ctx k).hears x with pending := some x.bytes, bound := bound, first := true }) ∧
    Latched (c37Frame x s) 0x30 k ∧ (c37Frame x s).align = s.align := by
  obtain ⟨hcf, halign, -, -⟩ := c37Heard_same (s := s) (k := k) (x := x)
  have hheard := c37Heard_ctx (s := s) (k := k) (x := x)
  have hdata : (if ctxThree s.cf k then 5 else 3) ≠ 0 := by split <;> decide
  rw [c37Frame_sound hruns hsound hctx hf, if_neg hdata, if_pos rfl]
  have hkept := c37Keep_offers (s := s) (k := k) (x := x) (if ctxThree s.cf k then 5 else 3) (s.c37Heard k x)
  generalize s.c37Keep (if ctxThree s.cf k then 5 else 3) k x (s.c37Heard k x) = u at hkept ⊢
  have hu : u.ctx k = _ := (hkept.ctx k).trans hheard
  obtain ⟨w, htake⟩ := takeCfg_pends (s := u) (k := k) (b := x.bytes) (by rw [hu]; exact hacc) (by rw [hkept.cf, hcf]; exact hauto)
  rw [htake]
  refine ⟨⟨w, ?_⟩, raise_latched _ _ _ _ (by simp [eventAbsent]) rfl, ?_⟩
  · rw [(Offers.refl _).raise.ctx, State.setCtx_ctx, if_pos rfl, hu]
  · rw [(Offers.refl _).raise.align]
    exact hkept.align.trans halign

/-- A header frame is dropped, and counted. -/
theorem c37Frame_dropsHeader (hruns : s.ingestRuns = true) (hsound : SoundC37 x 1) (hctx : s.matchCtx x = some k) (hf : s.fenced 1 (k / 512) = false) :
    (c37Frame x s).ctx k = { (s.ctx k).hears x with dropped := satCount (s.ctx k).dropped 1 } ∧
    (c37Frame x s).ctr 0x4080 6 = min (s.ctr 0x4080 6 + 1) ctrMax ∧ (c37Frame x s).align = s.align := by
  obtain ⟨-, halign, -, -⟩ := c37Heard_same (s := s) (k := k) (x := x)
  have hcfg : 1 ≠ (if ctxThree s.cf k then 5 else 3) := by split <;> decide
  have hkept : ∀ v, Offers v (s.c37Keep 1 k x (count 0x4080 6 (ctxSat k (s.ctx k).dropped 24 v))) := fun v =>
    (Offers.count (.satEvent (.refl v))).trans (c37Keep_offers ..)
  have hsat : ∀ (v : State), CtrsKept 0x4080 v (ctxSat k (s.ctx k).dropped 24 v) := fun v => .satEvent (.refl v)
  rw [c37Frame_sound hruns hsound hctx hf, if_neg (by decide), if_neg hcfg]
  refine ⟨?_, ?_, ?_⟩
  · rw [(hkept _).ctx, State.c37Dropped, State.setCtx_ctx, if_pos rfl]
  · rw [c37Keep_ctrs 1 _ 6 (by decide), count_ctr, if_pos rfl, hsat _ 6 (by decide)]
    show min ((s.c37Heard k x).ctr 0x4080 6 + 1) ctrMax = _
    rw [c37Heard_ctr, if_neg (by decide)]
  · rw [(hkept _).align]
    exact halign

/-- A frame that fails a check before its context is known reaches none. -/
theorem c37Fails_begun_same (n : Nat) : (c37Fails n x (s.c37Begun x)).ing.ctx = s.ing.ctx ∧ (c37Fails n x (s.c37Begun x)).align = s.align := by
  rw [(c37Fails_offers n _).ing, (c37Fails_offers n _).align]
  exact ⟨c37Begun_ctx, (c37Begun_offers s x).align⟩

/-- It counts at that check. -/
theorem c37Fails_begun_ctr {n j : Nat} (hn : n ≠ 1) (hj : j < 256) (hj1 : j ≠ 1) :
    (c37Fails n x (s.c37Begun x)).ctr 0x4080 j = if j = n then min (s.ctr 0x4080 n + 1) ctrMax else s.ctr 0x4080 j := by
  rw [c37Fails_ctr hj, c37Begun_ctr, c37Begun_ctr, if_neg hn, if_neg hj1]

end Frames

/-- Settles O33, command by command. -/
theorem sourceFramesAreTaken : Obligations.SourceFramesAreTaken := by
  unfold Obligations.SourceFramesAreTaken
  refine ⟨fun dt k tr x a p s hr hruns hsound hctx hf hacc hpend hsince hparse hchecks => ?delivered, fun dt k x b s hr hruns hsound hctx hf hpend => ?quarantined,
    fun dt x s hr hruns hlen hsync hkind hsize hcrc => ?badCheck, fun dt x s hr hruns htcp hsync hstood => ?badSync,
    fun dt k x s hr hruns hsound hctx hf hacc hpend hauto => ?pending, fun dt k x s hr hruns hsound hctx hf => ?header⟩
  case delivered =>
    obtain ⟨⟨seen, _, _, hnoted⟩, hctr⟩ := c37Frame_delivers (s := s.tick dt) hruns hsound hctx hf hacc hpend hsince hparse hchecks
    refine ⟨_, rfl, ?_⟩
    rw [State.act_runs _ _ _ _ hr, within_ctx (by decide), within_ctr, if_pos (by decide), hnoted, hctr]
    exact ⟨rfl, rfl, rfl, rfl, hacc, rfl⟩
  case quarantined =>
    obtain ⟨hnoted, hctr, hslots, halign⟩ := c37Frame_quarantines (s := s.tick dt) hruns hsound hctx hf hpend
    refine ⟨_, rfl, ?_⟩
    rw [State.act_runs _ _ _ _ hr, within_ctx (by decide), within_ctr, if_pos (by decide), hnoted, hctr]
    exact ⟨rfl, rfl, rfl, hslots, halign⟩
  case badCheck =>
    obtain ⟨hnoted, halign⟩ := c37Fails_begun_same (s := s.tick dt) (x := x) 4
    refine ⟨_, rfl, ?_⟩
    rw [State.act_runs _ _ _ _ hr, c37Frame_badCheck (s := s.tick dt) hruns hlen hsync hkind hsize hcrc, within_ctr, if_pos (by decide),
      c37Fails_begun_ctr (by decide) (by decide) (by decide), if_pos rfl]
    exact ⟨rfl, hnoted, halign⟩
  case badSync =>
    obtain ⟨hnoted, -⟩ := c37Fails_begun_same (s := s.tick dt) (x := x) 2
    have hctx : ∀ j, (c37Fails 2 x ((s.tick dt).c37Begun x)).ctx j = s.ctx j := fun j => by rw [State.ctx, hnoted]; rfl
    have hclosed : closeFraming x (c37Fails 2 x ((s.tick dt).c37Begun x)) = tcpLost x.via (c37Fails 2 x ((s.tick dt).c37Begun x)) := by
      rw [closeFraming, htcp]
      rfl
    obtain ⟨hlost, hctr⟩ := tcpLost_stood (s := c37Fails 2 x ((s.tick dt).c37Begun x)) (k := x.via) (by rw [hctx]; exact hstood)
    refine ⟨_, rfl, ?_⟩
    rw [State.act_runs _ _ _ _ hr, c37Frame_badSync (s := s.tick dt) hruns hsync, hclosed, within_ctr, if_pos (by decide), within_ctr, if_pos (by decide),
      within_ctx (by decide), hctr, hctr, hlost, if_pos rfl, if_neg (by decide), if_pos rfl, c37Fails_begun_ctr (by decide) (by decide) (by decide),
      c37Fails_begun_ctr (by decide) (by decide) (by decide), if_pos rfl, if_neg (by decide)]
    refine ⟨rfl, rfl, rfl, fun j hj => ?_⟩
    rw [within_ctx (by decide), hlost, if_neg hj, hctx]
  case pending =>
    obtain ⟨⟨_, hnoted⟩, hlatched, halign⟩ := c37Frame_pends (s := s.tick dt) hruns hsound hctx hf hacc hauto
    refine ⟨_, rfl, ?_⟩
    rw [State.act_runs _ _ _ _ hr, within_ctx (by decide), hnoted]
    exact ⟨rfl, hacc, within_latched (by decide) hlatched, halign⟩
  case header =>
    obtain ⟨hnoted, hctr, halign⟩ := c37Frame_dropsHeader (s := s.tick dt) hruns hsound hctx hf
    refine ⟨_, rfl, ?_⟩
    rw [State.act_runs _ _ _ _ hr, within_ctx (by decide), within_ctr, if_pos (by decide), hnoted, hctr]
    exact ⟨rfl, rfl, rfl, halign⟩

end Sys2Proof.Machine
end

section
namespace Sys2Proof.Machine
open Sys2Proof

/-! ## Connections to sources, and lost streams (R138, R161) -/

section Connections
variable {s : State} {k : Nat}

theorem ingests_of_runs (h : s.ingestRuns = true) : s.mode.cur.ingests = true := (Bool.and_eq_true_iff.mp h).1

/-- A connection that is being opened stands, and the commands go out over it. -/
theorem ingestConnect_stands (hruns : s.ingestRuns = true) (hvalid : ctxValid s.cf k = true) (htcp : ctxF s.cf k 1 1 = 1) (htrying : (s.ctx k).trying = true) :
    ingestConnect k s = sourceStart k (freshSent (s.setCtx k { s.ctx k with tcp := true, trying := false })) :=
  if_pos (by simp [hruns, hvalid, htcp, htrying])

/-- The retry interval has passed since the last commands or attempt. -/
def State.retryDue (s : State) (k : Nat) : Prop := ∀ u, (s.ctx k).lastReq = some u → u + s.cf.u 0x4000 0x14 0 2 * 1000000000 ≤ s.elapsed

/-- When it has, a TCP context without a connection opens one anew, and a UDP context without a configuration asks. -/
theorem ingestRetry_due (hruns : s.ingestRuns = true) (hvalid : ctxValid s.cf k = true) (hdue : s.retryDue k) :
    (ctxF s.cf k 1 1 = 1 → (s.ctx k).tcp = false → ingestRetry k s = s.setCtx k { s.ctx k with lastReq := some s.elapsed, trying := true }) ∧
    (ctxF s.cf k 1 1 = 0 → (s.ctx k).accepted = none → ingestRetry k s = sourceStart k (freshSent s)) := by
  have hpassed : (match (s.ctx k).lastReq with | some t => decide (t + s.cf.u 0x4000 0x14 0 2 * 1000000000 ≤ s.elapsed) | none => true) = true := by
    cases hlast : (s.ctx k).lastReq with
    | none => rfl
    | some u => exact decide_eq_true (hdue u hlast)
  unfold ingestRetry
  extract_lets x due
  rw [if_pos (by simp only [hruns, hvalid, Bool.true_and]; exact hpassed)]
  exact ⟨fun htcp hdown => if_pos (by simp [htcp, x, hdown]), fun hudp hacc => (if_neg (by simp [hudp])).trans (if_pos (by simp [x, hacc]))⟩

/-- A stream that has delivered nothing for the timeout is lost, and told. -/
theorem streamLost_times (hruns : s.ingestRuns = true) (hk : k < s.contexts) (hvalid : ctxValid s.cf k = true) (hlive : (s.ctx k).lost = false)
    (hdue : (s.ctx k).lastAt + s.cf.u 0x4000 0x11 0 2 * 1000000 ≤ s.elapsed) :
    streamLost false k s = raise 0x33 k (s.cf.u 0x4000 0x11 0 2) (s.setCtx k { s.ctx k with lost := true }) := by
  unfold streamLost
  extract_lets ms x first y
  rw [if_neg (by simp [hruns]), if_neg (by decide)]
  exact if_pos (by simp [hk, hvalid, y, hlive, hdue, ms])

end Connections

/-! ## Sampled values (R151 to R154) -/

theorem within_svs {s t : State} {ps : List Part} (h : .ingest ∈ ps) (r : Nat) : (s.within ps t).svs r = t.svs r := by simp [State.svs, h]

/-- Samples go to the channels; ingest stays. -/
theorem rawSample_ing (ch : Nat) (r : Raw) (s : State) : (rawSample ch r s).ing = s.ing := by
  unfold rawSample
  split <;> rfl

section Sv
variable {s : State} {f : SvFrame} {a : Asdu} {r : Nat}

/-- A frame of one ASDU whose record is known. -/
theorem svFrame_single (hm : s.mode.cur.ingests = true) (hrst : Table.getD s.rst.status 8 0 = 0) (hdec : f.decodes = true) (hone : f.asdus = [a])
    (hmatch : matchSv s.cf f a = some r) : svFrame f s = svAsdu f a 0 r (count 0x4080 0x0E s) := by
  have hcf : (count 0x4080 0x0E s).cf = s.cf := (Offers.count (.refl s)).cf
  unfold svFrame
  rw [if_pos (by simp [hm, hrst])]
  extract_lets s0
  rw [if_neg (by simp [hdec, hone]), hone]
  show (match matchSv s0.cf f a with | none => _ | some r => _) = _
  rw [show matchSv s0.cf f a = some r from hcf ▸ hmatch]
  rfl

/-- An ASDU of the record's layout whose smpCnt is the one expected is delivered, and the next one is expected. -/
theorem svAsdu_delivers (hsim : f.simulate = false) (hrev : a.confRev = svF s.cf r 12 4) (hlen : a.dataLen = 8 * svF s.cf r 18 1)
    (hsamples : a.samples.length = svF s.cf r 18 1) (hcnt : a.smpCnt < svRate (svF s.cf r 1 1)) (hnext : (s.svs r).next = some a.smpCnt) (after : Nat) :
    ((svAsdu f a after r s).svs r).delivered = satCount (s.svs r).delivered 1 ∧ ((svAsdu f a after r s).svs r).lost = false ∧
      ((svAsdu f a after r s).svs r).lastAt = s.elapsed ∧ ((svAsdu f a after r s).svs r).next = some ((a.smpCnt + 1) % svRate (svF s.cf r 1 1)) := by
  unfold svAsdu
  extract_lets c x rate n drop quarantined d t own q unl gap s1 s2 fill s3 wasLost before heard s4 s5
  have hd : d = 0 := by simp [d, x, hnext]
  have htold : Offers (s3.setSv r heard) s5 := .when (.satEvent (.refl _)) fun _ => .raise (.refl _)
  rw [if_neg (by simp [hsim]), if_neg (by simp [hrev, c]), if_neg (by simp [hlen, hsamples, n, c, rate, hcnt]), if_neg (by rw [hd]; exact Nat.not_le.mpr (Nat.zero_lt_of_lt hcnt)),
    State.svs, each_preserves (P := fun u : State => u.ing = s5.ing) (fun x u hu => (rawSample_ing ..).trans hu) rfl]
  have hheard : s5.svs r = heard := by rw [htold.svs, State.setSv_svs, if_pos rfl]
  rw [show Table.getD s5.ing.sv r {} = heard from hheard]
  exact ⟨rfl, rfl, rfl, rfl⟩

end Sv

end Sys2Proof.Machine
end

section
namespace Sys2Proof.Machine
open Sys2Proof

/-! ## Estimators that report (R179, R186) -/

theorem within_est {s t : State} {ps : List Part} (h : .chain ∈ ps) (e : Nat) : (s.within ps t).est e = t.est e := by simp [State.est, h]

/-- Values go to the slots; the chain stays. -/
theorem writeSlots_chain (vs : List Slotted) (at_ : Stamp) (s : State) : (writeSlots vs at_ s).chain = s.chain := rfl

theorem State.setCtx_chain (s : State) (k : Nat) (x : Ctx) : (s.setCtx k x).chain = s.chain := rfl

/-- An arrival at alignment leaves the chain as it is. -/
theorem arrive_chain (who tr : Nat) (vals : List Slotted) (q : Qual) (s : State) : (arrive who tr vals q s).chain = s.chain := rfl

/-- A block of a local context goes to the slots and to alignment; the chain stays. -/
theorem localBlock_chain (k j : Nat) (at_ : Stamp) (b : Block) (s : State) : (localBlock k j at_ b s).chain = s.chain := by
  unfold localBlock
  extract_lets c vals s1 x part p rest wasLost s2
  have hcounted : s2.chain = s.chain := (Offers.satEvent (.refl (s1.setCtx k _))).chain
  have htold : (when wasLost (raise 0x34 k 0) s2).chain = s2.chain := (Offers.when (.refl s2) fun _ => .raise (.refl _)).chain
  split
  · exact (arrive_chain ..).trans (htold.trans hcounted)
  · exact (State.setCtx_chain ..).trans (writeSlots_chain ..)

/-- The estimator whose window is complete notes the instant; what follows goes to counters, events, slots and alignment. -/
theorem estimatorReport_reports {s : State} {e : Nat} {tr : Stamp} {c : Cf} (hruns : s.chainRuns = true) (he : e < s.estimators) (hf : s.fenced 3 (e / 16) = false)
    (hnext : s.earliest (s.estNext e) = some (tr, c)) (hdone : (estChans c e).all (s.windowDone c (estWindow c e) tr) = true) :
    ∃ y, y.last = some tr ∧ (estimatorReport e s).chain = (s.setEst e y).chain := by
  unfold estimatorReport
  rw [if_pos (by simp [hruns, he, hf]), hnext]
  dsimp -zeta only
  extract_lets chs under w x0 x f0 ft flags sums at3 refNo refSums df dx wide h xs xAt refMag low f rocof lim outside extra lowBit three chanPh seqPh fq b invalid
    clampF back y s1 s2 s3
  rw [if_neg (by simp [chs, w, hdone])]
  have hs1 : Offers (s.setEst e y) s1 := .when (.refl _) fun _ => .count (.refl _)
  have hs2 : Offers s1 s2 := .when (.refl _) fun _ => .raise (.refl _)
  have hs3 : Offers s2 s3 := .when (.refl _) fun _ => .raise (.refl _)
  exact ⟨y, rfl, each_preserves (P := fun u : State => u.chain = (s.setEst e y).chain) (fun _ _ hu => (localBlock_chain ..).trans hu)
    (hs3.chain.trans (hs2.chain.trans hs1.chain))⟩

/-- Settles O34, command by command. -/
theorem streamsAreFollowed : Obligations.StreamsAreFollowed := by
  unfold Obligations.StreamsAreFollowed
  refine ⟨fun dt k s hr hruns hvalid htcp htrying => ?connect, fun dt k s hr hm hstood => ?lost, fun dt k s hr hruns hvalid hudp hdst hask hdue hacc => ?asks,
    fun dt k s hr hruns hvalid htcp hdown hdue => ?dials, fun dt r f a s hr hm hrst hdec hsim hone hmatch hrev hlen hsamples hcnt hnext => ?sv,
    fun dt k s hr hruns hk hvalid hlive hdue => ?silent, fun dt e tr c s hr hruns he hf hnext hdone => ?estimator⟩
  case connect =>
    obtain ⟨u, hu⟩ : ∃ u, u = freshSent ((s.tick dt).setCtx k { s.ctx k with tcp := true, trying := false }) := ⟨_, rfl⟩
    have hgo : ingestConnect k (s.tick dt) = sourceStart k u := (ingestConnect_stands (s := s.tick dt) hruns hvalid htcp htrying).trans (by rw [hu]; rfl)
    have huctx : u.ctx k = { s.ctx k with tcp := true, trying := false } := by
      rw [hu]
      exact (State.setCtx_ctx ..).trans (if_pos rfl)
    have hucf : u.cf = s.cf := by rw [hu]; rfl
    obtain ⟨req, hreq⟩ := sourceStart_ctx (k := k) (s := u)
    refine ⟨_, rfl, ?_⟩
    rw [State.act_runs _ _ _ _ hr, hgo, within_ctx (by decide), hreq, huctx]
    refine ⟨rfl, rfl, rfl, fun hdst => ?_⟩
    show (sourceStart k u).ing.sent.map _ = _
    cases hask : bit (ctxF s.cf k 0 1) 1 with
    | true =>
      rw [(sourceStart_asks (by rw [hucf]; exact hask) (by rw [hu]; exact ingests_of_runs hruns) (fun _ => by rw [huctx]) (by rw [hucf, htcp]; decide)
        (by rw [hucf]; exact hdst)).1, hucf, hu]
      rfl
    | false =>
      rw [sourceStart_silent (by rw [hucf]; exact hask), hu]
      rfl
  case lost =>
    have hgo : when (s.tick dt).mode.cur.ingests (tcpLost k) (s.tick dt) = tcpLost k (s.tick dt) := if_pos hm
    obtain ⟨hctx, hctr⟩ := tcpLost_stood (s := s.tick dt) (k := k) hstood
    refine ⟨_, rfl, ?_⟩
    rw [State.act_runs _ _ _ _ hr, hgo, within_ctx (by decide), within_ctr, if_pos (by decide), hctx, hctr, if_pos rfl, if_pos rfl]
    exact ⟨rfl, rfl⟩
  case asks =>
    obtain ⟨-, hgo⟩ := ingestRetry_due (s := s.tick dt) hruns hvalid hdue
    obtain ⟨hsent, hctx⟩ := sourceStart_asks (s := freshSent (s.tick dt)) hask (ingests_of_runs hruns) (fun h => absurd (hudp.symm.trans h) (by decide))
      (fun h => absurd (hudp.symm.trans h) (by decide)) hdst
    refine ⟨_, rfl, ?_⟩
    rw [State.act_runs _ _ _ _ hr, hgo hudp hacc, within_ctx (by decide), hctx]
    exact ⟨hsent, rfl⟩
  case dials =>
    obtain ⟨hgo, -⟩ := ingestRetry_due (s := s.tick dt) hruns hvalid hdue
    refine ⟨_, rfl, ?_⟩
    rw [State.act_runs _ _ _ _ hr, hgo htcp hdown, within_ctx (by decide), State.setCtx_ctx, if_pos rfl]
    exact ⟨rfl, ⟨(s.tick dt).setCtx k { s.ctx k with lastReq := some (s.tick dt).elapsed, trying := true }, rfl⟩, rfl⟩
  case sv =>
    have hcounted : Offers (s.tick dt) (count 0x4080 0x0E (s.tick dt)) := (Offers.refl _).count
    have hsvs : (count 0x4080 0x0E (s.tick dt)).svs r = s.svs r := hcounted.svs r
    have hcf : (count 0x4080 0x0E (s.tick dt)).cf = s.cf := hcounted.cf
    obtain ⟨hdelivered, hlive, hat, hexpected⟩ := svAsdu_delivers (s := count 0x4080 0x0E (s.tick dt)) hsim (by rw [hcf]; exact hrev) (by rw [hcf]; exact hlen)
      (by rw [hcf]; exact hsamples) (by rw [hcf]; exact hcnt) (by rw [hsvs]; exact hnext) 0
    refine ⟨_, rfl, ?_⟩
    rw [State.act_runs _ _ _ _ hr, svFrame_single (s := s.tick dt) hm hrst hdec hone hmatch, within_svs (by decide), hdelivered, hexpected, hsvs, hcf]
    exact ⟨rfl, hlive, hat.trans hcounted.elapsed, rfl⟩
  case silent =>
    refine ⟨_, rfl, ?_⟩
    rw [State.act_runs _ _ _ _ hr, streamLost_times (s := s.tick dt) hruns hk hvalid hlive hdue, within_ctx (by decide), (Offers.refl _).raise.ctx,
      State.setCtx_ctx, if_pos rfl]
    exact ⟨rfl, within_latched (by decide) (raise_latched _ _ _ _ (by simp [eventAbsent]) rfl), (Offers.refl _).raise.chain⟩
  case estimator =>
    obtain ⟨y, hy, hchain⟩ := estimatorReport_reports (s := s.tick dt) hruns he hf hnext hdone
    have hest : ∀ j, (estimatorReport e (s.tick dt)).est j = if j = e then y else s.est j := fun j => by
      rw [State.est, hchain]
      exact State.setEst_est ..
    refine ⟨_, rfl, ?_⟩
    rw [State.act_runs _ _ _ _ hr, within_est (by decide), hest, if_pos rfl]
    refine ⟨hy, fun j hj => ?_⟩
    rw [within_est (by decide), hest, if_neg hj]

end Sys2Proof.Machine
end

section
namespace Sys2Proof.Machine
open Sys2Proof

/-! ## Set sequence numbers (R197, R200, R209) -/

/-- A set of instant 0 that lacks its one member, which a provisional close requires. -/
def lackingSet : OpenSet :=
  { at_ := ⟨0#16, 0⟩, base := 0, seq := 5#32, step := false, rate := 50, members := [⟨3, false, true, true, true, 1, 100⟩] }

/-- Group 2, at 50 a second with D_f = 100 ms and D_p = 10 ms, holds that set open while its next number is the same one, 5, as only the wrap of
the sequence number could make it. -/
def numberInUse : State :=
  { mode := { cur := .operate }, cfg := wCfg [(0x6100, 1, 64, toBE 1 5 ++ toBE 1 50 ++ toBE 2 100 ++ toBE 2 10)],
    align := { group := [(2, { open_ := [lackingSet], next := 5#32 })] } }

theorem within_grpG {s t : State} {ps : List Part} (h : .align ∈ ps) (g : Nat) : (s.within ps t).grpG g = t.grpG g := by simp [State.grpG, h]

/-- SET_OPEN at 20 ms: the test of the number under which the new set has opened finds the older one, and writes it to both places. -/
theorem numberInUse_setOpen : (setOpen 2 (numberInUse.tick 20000000)).grpG 2 =
    { open_ := [{ lackingSet with lostRaised := true }, { lackingSet with lostRaised := true }], next := 6#32, opened := true,
      high := ⟨0#16, 20000000⟩, upto := 20000000 } := by decide

/-- Refutes O35: its clause on the opening does not ask that the next number be free. The set of the instant 20 ms opens under the number of one
still open, whose provisional deadline has passed without quorum; the test of that number finds the older set first and writes it, marked,
to every place of the number, so that no set of the new instant stands and nothing is published. -/
theorem not_setsOpenAndClose : ¬ Obligations.SetsOpenAndClose := by
  unfold Obligations.SetsOpenAndClose
  rintro ⟨hopens, -⟩
  have hnext : numberInUse.groupNext 2 = some 20000000 := by decide
  obtain ⟨t, ht, -, -, -, -, hopened⟩ := hopens 20000000 2 20000000 numberInUse rfl (by decide) (by decide) (by decide) hnext (by decide) rfl
    (by decide) (by decide)
  have hexec : exec (.setOpen 20000000 2) numberInUse = .next (numberInUse.within _ (setOpen 2 (numberInUse.tick 20000000))) := rfl
  obtain rfl := Host.Outcome.next.inj (hexec.symm.trans ht)
  rw [within_grpG (by decide), numberInUse_setOpen] at hopened
  obtain ⟨y, hy, hat, -⟩ | hpubs := hopened
  · obtain rfl : y = { lackingSet with lostRaised := true } := by simpa using hy
    exact absurd hat (by decide)
  · exact absurd hpubs (by decide)

end Sys2Proof.Machine
end

section
namespace Sys2Proof.Machine
open Sys2Proof

/-! ## Work beside the groups of the oscillation engine (R228, R229, R235, R247, R286, R354) -/

/-- Of a state what the engine's events, conditions and summaries leave alone: its groups, the sessions, and the count of its evaluations. -/
def State.oscCore (s : State) : Table OscGroup × OsrU × Nat := (s.osc, s.osr, s.ctr 0x6880 8)

/-- Work that leaves these alone, whatever else it changes. Each lemma says that a piece of work, done after other such work, is such work. -/
def BesideOsc (s t : State) : Prop := t.oscCore = s.oscCore

namespace BesideOsc
variable {s t u : State}

theorem refl (s : State) : BesideOsc s s := rfl

theorem trans (h : BesideOsc s t) (k : BesideOsc t u) : BesideOsc s u := Eq.trans k h

theorem oscG (h : BesideOsc s t) (g : Nat) : t.oscG g = s.oscG g := congrArg (fun v : Table OscGroup × OsrU × Nat => v.1.getD g {}) h
theorem sessions (h : BesideOsc s t) : t.osr.sessions = s.osr.sessions := congrArg (·.2.1.sessions) h
theorem evaluations (h : BesideOsc s t) : t.ctr 0x6880 8 = s.ctr 0x6880 8 := congrArg (·.2.2) h

/-- An update of fields beside these. -/
theorem update (h : BesideOsc s t) (e : u.oscCore = t.oscCore) : BesideOsc s u := h.trans e

theorem ite {p : Prop} [Decidable p] (h : BesideOsc s t) (k : BesideOsc s u) : BesideOsc s (if p then t else u) := by
  split
  · exact h
  · exact k

theorem when {f : State → State} {b : Bool} (h : BesideOsc s t) (hf : ∀ u, BesideOsc u (f u)) : BesideOsc s (when b f t) := .ite (h.trans (hf t)) h

theorem each {α : Type} {f : α → State → State} {xs : List α} (h : BesideOsc s t) (hf : ∀ a u, BesideOsc u (f a u)) : BesideOsc s (each xs f t) :=
  each_preserves (P := BesideOsc s) (fun a _ hu => hu.trans (hf a _)) h

theorem raise {id inst param : Nat} (h : BesideOsc s t) : BesideOsc s (raise id inst param t) := h.trans (by simp [BesideOsc, State.oscCore])

/-- Any count but that of the evaluations. -/
theorem countN {idx sub n : Nat} (h : BesideOsc s t) (hsub : 0x6880 * 256 + 8 ≠ idx * 256 + sub) : BesideOsc s (countN idx sub n t) := by
  refine h.trans ?_
  unfold BesideOsc State.oscCore
  rw [countN_ctr, if_neg hsub]
  simp

theorem count {idx sub : Nat} (h : BesideOsc s t) (hsub : 0x6880 * 256 + 8 ≠ idx * 256 + sub) : BesideOsc s (count idx sub t) := h.countN hsub

theorem oscDecision {kind inst value : Nat} {at_ : Stamp} {q : Qual} (h : BesideOsc s t) : BesideOsc s (oscDecision kind inst value at_ q t) := h.update rfl

theorem sendSummary {kind num : Nat} {body : Bytes} (h : BesideOsc s t) : BesideOsc s (sendSummary kind num body t) := .ite (h.update rfl) h

theorem alarmChanged {c : Cf} {a : Nat} {at_ : Stamp} {x : Alarm} (h : BesideOsc s t) : BesideOsc s (alarmChanged c a at_ x t) := by
  unfold Machine.alarmChanged
  extract_lets y s1 s2
  have hcounted : BesideOsc s s1 := .count (.ite (h.update rfl) (h.update rfl)) (by decide)
  have htold : BesideOsc s s2 := hcounted.when fun v => .raise (.refl v)
  have hmarked : BesideOsc s (markDirty c a at_ s2) := htold.each fun _ v => (refl v).each fun _ _ => rfl
  exact hmarked.sendSummary

theorem freezeAlarms {which : Nat → Nat → Bool} (h : BesideOsc s t) : BesideOsc s (freezeAlarms which t) :=
  .ite h (.each h fun _ v => .alarmChanged (.refl v))

theorem countSignals {g : Nat} {sg : List Sgn} {outs : List SigOut} {fo : Bool} (h : BesideOsc s t) : BesideOsc s (countSignals g sg outs fo t) :=
  h.each fun _ v => .when (.when (.when (.when (.refl v) fun w => .count (.refl w) (by decide)) fun w => .raise (.count (.refl w) (by decide)))
    fun w => .count (.refl w) (by decide)) fun w => .raise (.refl w)

/-- A fold each of whose steps does such work. -/
theorem foldl {α β : Type} {f : β → α → β} {state : β → State} {l : List α} {b : β} (h : BesideOsc s (state b))
    (hf : ∀ b a, BesideOsc (state b) (state (f b a))) : BesideOsc s (state (l.foldl f b)) :=
  List.foldlRecOn (motive := fun b => BesideOsc s (state b)) l f h fun _ hb a _ => hb.trans (hf _ a)

theorem assignModes {g : Nat} {cs : List Cand} {ms : List OscMode} (h : BesideOsc s t) : BesideOsc s (assignModes g cs ms t).2 := by
  unfold Machine.assignModes
  extract_lets take
  dsimp -zeta only
  refine .foldl (state := Prod.snd) (.foldl (state := fun b : List OscMode × List Nat × State => b.2.2) h fun b x => ?matched) fun b i => ?aged
  case matched =>
    dsimp only
    split
    · exact .refl _
    · split
      · exact .raise (.refl _)
      · exact .count (.refl _) (by decide)
  case aged =>
    extract_lets m
    split
    · exact .refl _
    · split
      · exact .raise (.refl _)
      · exact .refl _

end BesideOsc

theorem State.setOsc_ctr (s : State) (g : Nat) (x : OscGroup) (j k : Nat) : (s.setOsc g x).ctr j k = s.ctr j k := rfl

@[simp] theorem count_oscG (idx sub : Nat) (s : State) (j : Nat) : (count idx sub s).oscG j = s.oscG j := by simp [State.oscG]

/-! ## One group changes (R221, R232, R236, R243) -/

/-- Group `g` becomes `y`, and every other group is as it was. -/
def SetsGroup (g : Nat) (y : OscGroup) (s t : State) : Prop := ∀ j, t.oscG j = if j = g then y else s.oscG j

namespace SetsGroup
variable {g : Nat} {y z : OscGroup} {s t u : State}

theorem setOsc (g : Nat) (y : OscGroup) (s : State) : SetsGroup g y s (s.setOsc g y) := fun _ => State.setOsc_oscG ..

theorem self (h : SetsGroup g y s t) : t.oscG g = y := (h g).trans (if_pos rfl)

theorem others (h : SetsGroup g y s t) {j : Nat} (hj : j ≠ g) : t.oscG j = s.oscG j := (h j).trans (if_neg hj)

theorem trans (h : SetsGroup g y s t) (k : SetsGroup g z t u) : SetsGroup g z s u := fun j => by
  rw [k, h]
  split <;> rfl

theorem beside (h : SetsGroup g y s t) (k : BesideOsc t u) : SetsGroup g y s u := fun j => (k.oscG j).trans (h j)

theorem after (h : BesideOsc s t) (k : SetsGroup g y t u) : SetsGroup g y s u := fun j => by rw [k, h.oscG]

/-- Updates of other fields, before and after. -/
theorem congr {s' t' : State} (h : SetsGroup g y s t) (hs : s.osc = s'.osc) (ht : t'.osc = t.osc) : SetsGroup g y s' t' := fun j => by
  have hj := h j
  rwa [State.oscG, ← ht, State.oscG, hs] at hj

/-- A command whose parts hold the engine changes it as its rules do; the passing of time leaves it. -/
theorem within {dt : Nat} {ps : List Part} (hp : .osc ∈ ps) (h : SetsGroup g y (s.tick dt) t) : SetsGroup g y s (s.within ps t) := fun j => by
  have hw : (s.within ps t).oscG j = t.oscG j := by simp [State.oscG, hp]
  exact hw.trans (h j)

end SetsGroup

/-- Of the groups only one changes, and of it only the mode slots. -/
def RetestsModes (g : Nat) (s t : State) : Prop := ∃ ms, SetsGroup g { s.oscG g with modes := ms } s t

namespace RetestsModes
variable {g : Nat} {s t u : State}

theorem of_beside (h : BesideOsc s t) : RetestsModes g s t := ⟨(s.oscG g).modes, fun j => by
  rw [h.oscG]
  split
  · next e => rw [e]
  · rfl⟩

theorem trans (h : RetestsModes g s t) (k : RetestsModes g t u) : RetestsModes g s u := by
  obtain ⟨ms, hs⟩ := h
  obtain ⟨ms', ht⟩ := k
  rw [hs.self] at ht
  exact ⟨ms', hs.trans ht⟩

/-- The tests of a slot write the slot; what they tell is beside the groups (R244, R245). -/
theorem testSlot (c : Cf) (g i : Nat) (at_ : Stamp) (q : Qual) (fresh : Bool) (s : State) : RetestsModes g s (testSlot c g i at_ q fresh s) := by
  unfold Machine.testSlot
  extract_lets x m m1 s1 zeta s2 s3 pass s4
  have hs3 : BesideOsc s1 s3 := .when (.when (.refl s1) fun v => .raise (.refl v)) fun v => .raise (.refl v)
  have hs4 : BesideOsc s1 s4 := hs3.when fun v => .oscDecision (.refl v)
  exact ⟨x.modes.set i m1, (SetsGroup.setOsc g _ s).beside (hs4.when fun v => .oscDecision (.refl v))⟩

theorem each {α : Type} {f : α → State → State} {xs : List α} (hf : ∀ a u, RetestsModes g u (f a u)) (s : State) : RetestsModes g s (each xs f s) :=
  each_preserves (P := RetestsModes g s) (fun a _ hu => hu.trans (hf a _)) (of_beside (.refl s))

end RetestsModes

/-! ## Updates and evaluations (R232, R236, R243, R250, R251) -/

/-- An update that is due is made, under the next number and its instant; it ends a freeze, and leaves the window. -/
theorem oscUpdate_due {s : State} {g : Nat} {at_ : Stamp} {gen : BitVec 32} (h : (s.oscG g).due = some (at_, gen)) :
    ∃ y, SetsGroup g y s (oscUpdate g s) ∧ y.due = none ∧ y.head.seq = ((s.oscG g).head.seq + 1) % 2 ^ 32 ∧ y.head.at_ = at_ ∧ y.head.cfgGen = gen ∧
      y.frozen = false ∧ y.window = (s.oscG g).window := by
  unfold oscUpdate
  extract_lets x _ was was5
  have hx : x.due = some (at_, gen) := h
  rw [hx]
  dsimp -zeta only
  extract_lets c nw u s1 hd s3 s4 ms4 top any6 s5 s6 y
  have hcounted : BesideOsc s s1 := .when (.count (.refl s) (by decide)) fun v => .count (.refl v) (by decide)
  have hset : SetsGroup g _ s s3 := .after (.assignModes hcounted) (.setOsc g _ _)
  have htested : RetestsModes g s3 s6 := (RetestsModes.each (fun i v => .testSlot c g i at_ hd.qual was v) s3).trans
    (.of_beside (.when (.when (.refl s4) fun v => .oscDecision (.refl v)) fun v => .oscDecision (.refl v)))
  obtain ⟨ms, hmodes⟩ := htested
  have hy : y = { s3.oscG g with modes := ms } := hmodes.self
  refine ⟨{ y with shapes := modeShapes (signalsOf c g).length y }, (hset.trans (hmodes.trans (.setOsc g _ s6))).beside (.sendSummary (.refl _)), ?_⟩
  rw [hy, hset.self]
  exact ⟨rfl, rfl, rfl, rfl, rfl, rfl⟩

/-- An evaluation that is due is made and counted, under the next number and its instant; it ends a freeze, and leaves the mode slots. -/
theorem foEvaluation_due {s : State} {g : Nat} {at_ : Stamp} {gen : BitVec 32} (h : (s.oscG g).foDue = some (at_, gen)) :
    (∃ y, SetsGroup g y s (foEvaluation g s) ∧ y.foDue = none ∧ y.foHead.seq = ((s.oscG g).foHead.seq + 1) % 2 ^ 32 ∧ y.foHead.at_ = at_ ∧
      y.foHead.cfgGen = gen ∧ y.foFrozen = false ∧ y.modes = (s.oscG g).modes) ∧
      (foEvaluation g s).ctr 0x6880 8 = min (s.ctr 0x6880 8 + 1) ctrMax := by
  unfold foEvaluation
  extract_lets x _ fresh
  have hx : x.foDue = some (at_, gen) := h
  rw [hx]
  dsimp -zeta only
  extract_lets c nf tf sg ins m0 bins quals all s1 ts1 ts2 hd s2 s3 any s4 _ z
  have hcounted : BesideOsc (count 0x6880 8 s) s1 := .countN (.refl _) (by decide)
  have hset : SetsGroup g _ s s2 := fun j => by rw [State.setOsc_oscG, hcounted.oscG, count_oscG]
  have htold : BesideOsc s2 s4 := .when (.each (.refl s2) fun i v => .when (.when (.refl v) fun w => .raise (.refl w)) fun w => .oscDecision (.refl w))
    fun v => .oscDecision (.refl v)
  have hz : z = { s2.oscG g with foBand := foBand c g } := by rw [← htold.oscG]
  have hsent : BesideOsc (s4.setOsc g { z with foData := foTrackData c g z }) (sendSummary 2 g (foResults c g z) _) := .sendSummary (.refl _)
  refine ⟨⟨{ z with foData := foTrackData c g z }, (hset.trans ((SetsGroup.setOsc g _ s4).after htold)).beside hsent, ?_⟩, ?_⟩
  · rw [hz, hset.self]
    exact ⟨rfl, rfl, rfl, rfl, rfl, rfl⟩
  · rw [hsent.evaluations, State.setOsc_ctr, htold.evaluations, State.setOsc_ctr, hcounted.evaluations, count_ctr, if_pos rfl]

/-! ## Intake (R221, R237) -/

/-- An instant enters the windows of its group. -/
theorem oscInstant_enters (g : Nat) (c : Cf) (at_ : Stamp) (vals : List Slotted) (q : Qual) (gen : BitVec 32) (s : State) :
    ∃ y, SetsGroup g y s (oscInstant g c at_ vals q gen s) ∧ y.seen = some at_ ∧
      y.foCount = if mgFlag c g 2 && !(signalsOf c g).isEmpty then (s.oscG g).foCount + 1 else 0 := by
  unfold oscInstant
  extract_lets x sg fg mo gs nw nf i sigs news foOn foBeta fos s1 sigs1 vs fo x1 beta label on outs s2 smp window upd isUpdate stamp
  have hs1 : BesideOsc s s1 := .countSignals (.refl s)
  split
  · exact ⟨_, (SetsGroup.setOsc g _ s1).after hs1, rfl, rfl⟩
  · exact ⟨_, (SetsGroup.setOsc g _ s2).after hs1.countSignals, rfl, rfl⟩

/-- A group that runs takes closes too. -/
theorem State.oscTakes_of_runs {s : State} {g : Nat} (h : s.oscRuns g = true) : s.oscTakes g = true := by
  obtain ⟨hable, hserved⟩ := Bool.and_eq_true_iff.mp h
  simp [State.oscTakes, State.serving, hable, hserved]

theorem State.fenced_of_oscRuns {s : State} {g : Nat} (h : s.oscRuns g = true) : s.fenced 5 g = false := by
  obtain ⟨hable, -⟩ := Bool.and_eq_true_iff.mp h
  simp only [State.oscAble, Bool.and_eq_true, Bool.not_eq_true'] at hable
  exact hable.1.2

/-- A message that is taken stops no group. -/
theorem State.afterTake_oscRuns (s : State) (m : Msg) (type : Nat) (p : Bytes) (x : Session) (g : Nat) :
    (s.afterTake m type p x).oscRuns g = s.oscRuns g := by
  simp [State.oscRuns, State.oscAble, State.hasOsc, State.fenced, State.served, State.cf]

theorem respond_osc (x : Session) (type tag status : Nat) (body : Bytes) (s : State) : (respond x type tag status body s).osc = s.osc := by simp

/-- With neither an update nor an evaluation due nothing comes before an instant. -/
theorem oscDue_idle {s : State} {g : Nat} (hdue : (s.oscG g).due = none) (hfo : (s.oscG g).foDue = none) : oscDue g s = s := by
  have he : foEvaluation g s = s := by simp [foEvaluation, hfo]
  simp [oscDue, he, oscUpdate, hdue]

/-- The first close of a group that nothing else waits for enters its windows as it is. -/
theorem oscIntake_first {s : State} {g : Nat} {cl : Close} (hruns : s.oscRuns g = true) (hdue : (s.oscG g).due = none) (hfo : (s.oscG g).foDue = none)
    (hseen : (s.oscG g).seen = none) (hredo : (s.oscG g).redo = none) (hfrom : (s.oscG g).from_ = none)
    (hnext : s.nextFinal (fun c => if mgFlag c g 0 then some (mgGroup c g) else none) none (fun _ _ => true) = some cl)
    (hon : mgFlag (s.cfFor cl.at_).1 g 0 = true) :
    oscIntake g s = oscInstant g (s.cfFor cl.at_).1 cl.at_ cl.vals cl.qual cl.cfgGen s := by
  have hidle : oscDue g s = s := oscDue_idle hdue hfo
  have hgaps : (s.oscG g).gaps (mgFg (s.cfFor cl.at_).1 g) cl.at_ = [] := by simp [OscGroup.gaps, hseen, hfrom]
  unfold oscIntake
  rw [if_neg (by simp [State.oscTakes_of_runs hruns])]
  simp only [hidle, hseen, hnext, hredo, hfrom, hon, hgaps, each, List.foldl_nil, Bool.not_true, Bool.or_self, Bool.false_eq_true, if_false]

/-! ## Restarts (R236, R237, R247) -/

/-- A group of a lane that is in service restarts: its window is empty, its results keep their number, its conditions are frozen. -/
theorem oscRestart_restarts {s : State} {g cause : Nat} (from_ : Stamp) (h : s.fenced 5 g = false) :
    ∃ y : OscGroup, y.state = 1 ∧ y.cause = cause ∧ y.window = [] ∧ y.fo = [] ∧ y.frozen = true ∧ y.foFrozen = true ∧ y.head.seq = (s.oscG g).head.seq ∧
      BesideOsc (s.setOsc g y) (oscRestart g cause from_ s) := by
  unfold oscRestart
  rw [if_neg (by simp [h])]
  extract_lets x clear y s1
  exact ⟨y, rfl, rfl, rfl, rfl, rfl, rfl, rfl, .when (.raise (.count (.refl _) (by decide))) fun v => .freezeAlarms (.refl v)⟩

/-- A request that names a group which runs restarts that group alone. -/
theorem oscRestartWrite_restarts {s : State} {g : Nat} (x : Session) (hruns : s.oscRuns g = true) (hon : mgFlag s.cf g 0 = true) :
    oscRestartWrite x g s = (stOk, oscRestart g 5 s.now s) := by
  have hg : g < 16 := by simp only [State.oscRuns, State.oscAble, Bool.and_eq_true, decide_eq_true_eq] at hruns; omega
  unfold oscRestartWrite
  rw [if_neg (by simp; omega), if_neg (by omega)]
  simp [hruns, hon, each]

/-- Settles O36, command by command. -/
theorem oscillationEngineActs : Obligations.OscillationEngineActs := by
  unfold Obligations.OscillationEngineActs
  refine ⟨fun dt g cl s hr hruns hdue hfo hseen hredo hfrom hnext hon => ?intake, fun dt g at_ gen s hr hruns hdue => ?update,
    fun dt g at_ gen s hr hruns hdue => ?evaluation, fun dt g m v s x hr h hruns hon => ?restart⟩
  case intake =>
    obtain ⟨y, hy, hentered, hcount⟩ := oscInstant_enters g (s.cfFor cl.at_).1 cl.at_ cl.vals cl.qual cl.cfgGen (s.tick dt)
    have hgo : oscIntake g (s.tick dt) = oscInstant g (s.cfFor cl.at_).1 cl.at_ cl.vals cl.qual cl.cfgGen (s.tick dt) :=
      oscIntake_first (s := s.tick dt) hruns hdue hfo hseen hredo hfrom hnext hon
    have hset := hy.within (ps := [.events, .stats, .hr, .alarm, .goose, .osc]) (by decide)
    refine ⟨_, rfl, ?_⟩
    rw [State.act_runs _ _ _ _ hr, hgo, hset.self]
    exact ⟨hentered, hcount, fun j hj => hset.others hj⟩
  case update =>
    obtain ⟨y, hy, hnone, hseq, hat, hgen, hthawed, hwindow⟩ := oscUpdate_due (s := s.tick dt) hdue
    have hset := hy.within (ps := [.events, .stats, .hr, .alarm, .osc]) (by decide)
    refine ⟨_, rfl, ?_⟩
    rw [State.act_runs _ _ _ _ hr, State.oscTakes_of_runs (s := s.tick dt) hruns, when_true, hset.self]
    exact ⟨hnone, hseq, hat, hgen, hthawed, hwindow, fun j hj => hset.others hj⟩
  case evaluation =>
    obtain ⟨⟨y, hy, hnone, hseq, hat, hgen, hthawed, hmodes⟩, hctr⟩ := foEvaluation_due (s := s.tick dt) hdue
    have hset := hy.within (ps := [.events, .stats, .hr, .alarm, .osc]) (by decide)
    refine ⟨_, rfl, ?_⟩
    rw [State.act_runs _ _ _ _ hr, State.oscTakes_of_runs (s := s.tick dt) hruns, when_true, hset.self, within_ctr, if_pos (by decide)]
    exact ⟨hnone, hseq, hat, hgen, hthawed, hmodes, hctr, fun j hj => hset.others hj⟩
  case restart =>
    have hruns' : ((s.tick dt).afterWrite m 0x6800 2 v x).oscRuns g = true := (State.afterTake_oscRuns ..).trans hruns
    have hon' : mgFlag ((s.tick dt).afterWrite m 0x6800 2 v x).cf g 0 = true := by simpa [State.cf] using hon
    obtain ⟨y, hstate, hcause, hwindow, hfo, hfrozen, hfoFrozen, hseq, hbeside⟩ :=
      oscRestart_restarts (cause := 5) ((s.tick dt).afterWrite m 0x6800 2 v x).now (State.fenced_of_oscRuns hruns')
    obtain ⟨t, ht, hanswered, body, rfl⟩ := write_answers (c := .oscRestartRequest dt m v) (hc := rfl) (by decide) hr h
      (oscRestartWrite_restarts _ hruns' hon') (.of_sessions hbeside.sessions)
    have hrestarted := ((SetsGroup.setOsc g y _).beside hbeside).congr (s' := s.tick dt) (by simp)
      (respond_osc (x.afterWrite m 0x6800 2 v (s.tick dt).elapsed) 0x12 m.tag stOk body _)
    have hset := hrestarted.within (ps := [.events, .stats, .sessions, .hr, .alarm, .goose, .osc, .keyPort]) (by decide)
    have hnumber : ((s.tick dt).afterWrite m 0x6800 2 v x).oscG g = s.oscG g := by simp [State.oscG]
    refine ⟨_, ht, hanswered, ?_⟩
    rw [hset.self]
    exact ⟨hstate, hcause, hwindow, hfo, hfrozen, hfoFrozen, hseq.trans (by rw [hnumber]), fun j hj => hset.others hj⟩

end Sys2Proof.Machine
end

section
namespace Sys2Proof.Machine
open Sys2Proof

/-! ## Work beside the islanding engine (R268, R272, R286) -/

/-- Of a state what passing decisions on leaves alone: the engine but for the marks of what its alarms have been told, the sessions, and
the counts of reports, provisional runs and restarts. -/
def State.islCore (s : State) : IslU × OsrU × Nat × Nat × Nat :=
  ({ s.isl with passed := false, formerly := none }, s.osr, s.ctr 0x7080 1, s.ctr 0x7080 2, s.ctr 0x7080 8)

/-- Work that leaves these alone, whatever else it changes. Each lemma says that a piece of work, done after other such work, is such work. -/
def BesideIsl (s t : State) : Prop := t.islCore = s.islCore

namespace BesideIsl
variable {s t u : State}

theorem refl (s : State) : BesideIsl s s := rfl

theorem trans (h : BesideIsl s t) (k : BesideIsl t u) : BesideIsl s u := Eq.trans k h

theorem chain (h : BesideIsl s t) : t.isl.chain = s.isl.chain := congrArg (·.1.chain) h
theorem final (h : BesideIsl s t) : t.isl.final = s.isl.final := congrArg (·.1.final) h
theorem latest (h : BesideIsl s t) : t.isl.latest = s.isl.latest := congrArg (·.1.latest) h
theorem redo (h : BesideIsl s t) : t.isl.redo = s.isl.redo := congrArg (·.1.redo) h
theorem state (h : BesideIsl s t) : t.isl.state = s.isl.state := congrArg (·.1.state) h
theorem provSeen (h : BesideIsl s t) : t.isl.provSeen = s.isl.provSeen := congrArg (·.1.provSeen) h
theorem sessions (h : BesideIsl s t) : t.osr.sessions = s.osr.sessions := congrArg (·.2.1.sessions) h
theorem reports (h : BesideIsl s t) : t.ctr 0x7080 1 = s.ctr 0x7080 1 := congrArg (·.2.2.1) h
theorem runs (h : BesideIsl s t) : t.ctr 0x7080 2 = s.ctr 0x7080 2 := congrArg (·.2.2.2.1) h
theorem restarts (h : BesideIsl s t) : t.ctr 0x7080 8 = s.ctr 0x7080 8 := congrArg (·.2.2.2.2) h

/-- An update of fields beside these. -/
theorem update (h : BesideIsl s t) (e : u.islCore = t.islCore) : BesideIsl s u := h.trans e

theorem ite {p : Prop} [Decidable p] (h : BesideIsl s t) (k : BesideIsl s u) : BesideIsl s (if p then t else u) := by
  split
  · exact h
  · exact k

theorem when {f : State → State} {b : Bool} (h : BesideIsl s t) (hf : ∀ u, BesideIsl u (f u)) : BesideIsl s (when b f t) := .ite (h.trans (hf t)) h

theorem each {α : Type} {f : α → State → State} {xs : List α} (h : BesideIsl s t) (hf : ∀ a ∈ xs, ∀ u, BesideIsl u (f a u)) :
    BesideIsl s (each xs f t) :=
  List.foldlRecOn (motive := BesideIsl s) xs _ h fun u hu a ha => hu.trans (hf a ha u)

theorem raise {id inst param : Nat} (h : BesideIsl s t) : BesideIsl s (raise id inst param t) := h.trans (by simp [BesideIsl, State.islCore])

/-- Any count but those of reports, provisional runs and restarts. -/
theorem countN {idx sub n : Nat} (h : BesideIsl s t) (hsub : ∀ k ∈ [1, 2, 8], 0x7080 * 256 + k ≠ idx * 256 + sub) :
    BesideIsl s (countN idx sub n t) := by
  refine h.trans ?_
  unfold BesideIsl State.islCore
  simp only [List.forall_mem_cons] at hsub
  obtain ⟨h1, h2, h8, -⟩ := hsub
  rw [countN_ctr, countN_ctr, countN_ctr, if_neg h1, if_neg h2, if_neg h8]
  simp

theorem count {idx sub : Nat} (h : BesideIsl s t) (hsub : ∀ k ∈ [1, 2, 8], 0x7080 * 256 + k ≠ idx * 256 + sub) : BesideIsl s (count idx sub t) :=
  h.countN hsub

theorem handDecision {kind inst : Nat} {final : Bool} {d : Decision} (h : BesideIsl s t) : BesideIsl s (handDecision kind inst final d t) := h.update rfl

theorem sendSummary {kind num : Nat} {body : Bytes} (h : BesideIsl s t) : BesideIsl s (sendSummary kind num body t) := .ite (h.update rfl) h

theorem setAlarmFor {a : Nat} {at_ : Stamp} {x : Alarm} (h : BesideIsl s t) : BesideIsl s (t.setAlarmFor a at_ x) := .ite (h.update rfl) (h.update rfl)

theorem alarmChanged {c : Cf} {a : Nat} {at_ : Stamp} {x : Alarm} (h : BesideIsl s t) : BesideIsl s (alarmChanged c a at_ x t) := by
  unfold Machine.alarmChanged
  extract_lets y s1 s2
  have hcounted : BesideIsl s s1 := .count (.setAlarmFor h) (by decide)
  have htold : BesideIsl s s2 := hcounted.when fun v => .raise (.refl v)
  have hmarked : BesideIsl s (markDirty c a at_ s2) := htold.each fun _ _ v => (refl v).each fun _ _ _ => rfl
  exact hmarked.sendSummary

theorem freezeAlarms {which : Nat → Nat → Bool} (h : BesideIsl s t) : BesideIsl s (freezeAlarms which t) :=
  .ite h (.each h fun _ _ v => .alarmChanged (.refl v))

theorem inheritAlarms {moves : List (Nat × Nat)} (h : BesideIsl s t) : BesideIsl s (inheritAlarms moves t) := by
  refine h.each fun _ _ u => (refl u).each fun k _ v => ?_
  dsimp only
  split
  · exact .refl v
  · exact (refl v).each fun _ _ w => .ite (.update (.refl w) rfl) (.alarmChanged (.refl w))

theorem thaw (h : BesideIsl s t) : BesideIsl s (thaw t) := by
  unfold Machine.thaw
  split
  · exact h
  · exact .inheritAlarms (h.update rfl)

theorem passFinal {rate : Nat} {r : Rep} {x y : IslChain} (h : BesideIsl s t) : BesideIsl s (passFinal rate r x y t) :=
  h.each fun _ _ v => .handDecision (.refl v)

theorem passProvisional {ds : List (Nat × Nat × Decision)} (h : BesideIsl s t) : BesideIsl s (passProvisional ds t) :=
  h.each fun _ _ v => .handDecision (.refl v)

end BesideIsl

/-! ## One report (R264 to R267, R279) -/

/-- The commits that a report is the first to serve leave the numbers of reports (R273). -/
theorem applyChanges_numbers (c : Cf) (at_ : Stamp) (x : IslChain) :
    (applyChanges c at_ x).reports = x.reports ∧ (applyChanges c at_ x).frozen = x.frozen := by
  unfold applyChanges
  extract_lets now buses edges valid live gone
  split <;> exact ⟨rfl, rfl⟩

/-- A report is the chain's last, one more, and one less of those still frozen. -/
theorem report_chain (c : Cf) (r : Rep) (x : IslChain) :
    (report c r x).chain.last = some r.at_ ∧ (report c r x).chain.reports = x.reports + 1 ∧ (report c r x).chain.frozen = x.frozen - 1 := by
  obtain ⟨hreports, hfrozen⟩ := applyChanges_numbers c r.at_ x
  exact ⟨rfl, congrArg (· + 1) hreports, congrArg (· - 1) hfrozen⟩

/-- A report counts islands declared and cleared, and candidates that find no slot, besides itself (R279). -/
theorem report_counts (c : Cf) (r : Rep) (x : IslChain) : ∀ n ∈ (report c r x).counts, n ∈ [4, 5, 7] := by
  unfold report
  extract_lets y ids bs es edges cl picked act refCl noRef evRef counts aged standing clOf inCl deadClear taken cands
  split
  next isl1 clear _ =>
  extract_lets cleared
  split
  next isl2 subj1 ev1 declared full fulls hcands =>
  have hdeclared : ∀ n ∈ (isl2, subj1, ev1, declared, full, fulls).2.2.2.1, n ∈ [4, 5, 7] := by
    rw [← hcands]
    refine List.foldlRecOn (motive := fun acc : Table Island × Table Subject × List (Nat × Nat) × List Nat × Bool × List Nat =>
      ∀ n ∈ acc.2.2.2.1, n ∈ [4, 5, 7]) _ _ (by simp) fun acc hacc k _ => ?_
    dsimp only
    split
    · exact List.forall_mem_append.mpr ⟨hacc, by simp⟩
    · split
      · exact hacc
      · exact List.forall_mem_append.mpr ⟨hacc, by simp⟩
  exact List.forall_mem_append.mpr ⟨hdeclared, by simp⟩

/-! ## The final chain (R269, R274, R276) -/

/-- A report of the final chain: its chain and results are the engine's, and it is counted. -/
theorem finalReport_reports (r : Rep) (s : State) :
    (finalReport r s).isl.chain = (report (s.cfFor r.at_).1 r s.isl.chain).chain ∧ (finalReport r s).isl.latest = (finalReport r s).isl.final ∧
      (finalReport r s).isl.redo = s.isl.redo ∧ (finalReport r s).ctr 0x7080 1 = min (s.ctr 0x7080 1 + 1) ctrMax := by
  unfold finalReport
  extract_lets c o frozen bytes _ s1 s2 s3 s5 _ s4
  have hcounted : BesideIsl (count 0x7080 1 s1) s2 := .each (.refl _) fun n hn _ => by
    have hn' := report_counts c r s.isl.chain n hn
    simp only [List.mem_cons, List.not_mem_nil, or_false] at hn'
    obtain rfl | rfl | rfl := hn' <;> exact .count (.refl _) (by decide)
  have hraised : BesideIsl (count 0x7080 1 s1) s3 := hcounted.each fun _ _ v => .raise (.refl v)
  have htold : BesideIsl (count 0x7080 1 s1) s4 := .ite hraised.freezeAlarms (.ite (.passFinal (hraised.thaw.update rfl)) hraised)
  have hsent : BesideIsl (count 0x7080 1 s1) (sendSummary 3 0 bytes s4) := htold.sendSummary
  have hisl : (count 0x7080 1 s1).isl = s1.isl := by simp
  have hctr : (count 0x7080 1 s1).ctr 0x7080 1 = min (s.ctr 0x7080 1 + 1) ctrMax := by rw [count_ctr, if_pos rfl]; rfl
  rw [hsent.chain, hsent.latest, hsent.final, hsent.redo, hsent.reports, hisl, hctr]
  exact ⟨rfl, rfl, rfl, rfl⟩

/-- An engine that runs is on in a configuration that serves the sets. -/
theorem State.islRuns_serves {s : State} (h : s.islRuns = true) : s.islAble = true ∧ s.serving.any (fun x => islConf x.1) = true := by
  obtain ⟨hable, hserved⟩ := Bool.and_eq_true_iff.mp h
  obtain ⟨x, hx, hin⟩ := List.any_eq_true.mp hserved
  exact ⟨hable, List.any_eq_true.mpr ⟨x, List.mem_append_right _ hx, (Bool.and_eq_true_iff.mp hin).1⟩⟩

/-- With no restart waiting there is none to settle. -/
theorem islSettle_idle {s : State} (h : s.isl.redo = none) : islSettle s = s := by rw [islSettle, h]

/-- The next final close of a chain that has processed none is its first report. -/
theorem islFinal_first {s : State} {cl : Close} (hruns : s.islRuns = true) (hlast : s.isl.chain.last = none) (hredo : s.isl.redo = none)
    (hfrom : s.isl.from_ = none) (hnext : s.islNext = some cl) : islFinal s = finalReport (repOfClose cl) s := by
  obtain ⟨hable, hserves⟩ := State.islRuns_serves hruns
  obtain ⟨-, -, hredo', -⟩ := finalReport_reports (repOfClose cl) s
  have hearly : s.islEarly cl.at_ = false := by simp [State.islEarly, hfrom]
  unfold islFinal
  rw [if_neg (by simp [hable, hserves])]
  simp only [hnext, hearly, hredo, hlast, each, List.foldl_nil, Bool.false_eq_true, if_false]
  exact islSettle_idle (hredo'.trans hredo)

/-! ## The provisional chain (R269, R270) -/

/-- A provisional close that no final one precedes is seen and counted; the final chain, and its results, stay. -/
theorem islProvisional_runs {s : State} {g : Nat} {cl : Close} (hruns : s.islRuns = true) (hnext : s.islNext = none)
    (hpub : s.nextPub (fun c => if islProv c then islTakes c else none) s.isl.provSeen (fun c => c.kind = 0x20) = some (g, cl))
    (hlast : s.isl.chain.last = none) (hfrom : s.isl.from_ = none) :
    Table.getD (islProvisional s).isl.provSeen g 0 = cl.pub ∧ (islProvisional s).isl.chain = s.isl.chain ∧ (islProvisional s).isl.final = s.isl.final ∧
      (islProvisional s).ctr 0x7080 2 = min (s.ctr 0x7080 2 + 1) ctrMax := by
  have hearly : s.islEarly cl.at_ = false := by simp [State.islEarly, hfrom]
  unfold islProvisional
  rw [if_neg (by simp [hruns, hnext]), hpub]
  dsimp -zeta only
  extract_lets _ s0 past mids acc s1 _ s2
  rw [if_neg (by simp [past, hlast, hearly])]
  have htold : BesideIsl s2 (passProvisional (provReport s cl.at_ (some cl.conf) acc).1.2 s2) := .passProvisional (.refl s2)
  have hisl : s1.isl = s0.isl := by simp [s1]
  have hctr : s2.ctr 0x7080 2 = min (s.ctr 0x7080 2 + 1) ctrMax := by
    rw [State.ctr_congr (t := s2) (s := s1) rfl, countN_ctr, if_neg (by decide), count_ctr, if_pos rfl]; rfl
  rw [htold.provSeen, htold.chain, htold.final, htold.runs, hctr, show s2.isl = { s0.isl with latest := s2.isl.latest } from hisl ▸ rfl]
  exact ⟨(Table.getD_set ..).trans (if_pos rfl), rfl, rfl, rfl⟩

/-! ## Restarts (R272) -/

/-- A restart of an engine that can run begins its chain afresh, in state 1, is counted, and tells its cause. -/
theorem islRestart_restarts {s : State} {cause : Nat} (from_ : Option Stamp) (hable : s.islAble = true) (hin : s.islIn s.cf = true) :
    (islRestart cause from_ s).isl.state = 1 ∧ (islRestart cause from_ s).isl.chain = { frozen := s.freezeReports s.cf } ∧
      (islRestart cause from_ s).ctr 0x7080 8 = min (s.ctr 0x7080 8 + 1) ctrMax ∧ (islRestart cause from_ s).osr.sessions = s.osr.sessions ∧
      Latched (islRestart cause from_ s) 0x77 0 := by
  unfold islRestart
  extract_lets old keep y s1
  have hfrozen : BesideIsl s1 (when old.passed (freezeAlarms (fun k _ => k ≤ 4)) s1) := (BesideIsl.refl s1).when fun v => .freezeAlarms (.refl v)
  have hkept : Undisturbed s1 (when old.passed (freezeAlarms (fun k _ => k ≤ 4)) s1) := (Undisturbed.refl s1).when fun v => .freezeAlarms (.refl v)
  have hraised : Latched s1 0x77 0 := raise_latched _ _ _ _ (by simp [eventAbsent]) rfl
  have hisl : s1.isl = y := by simp [s1]
  have hstate : y.state = 1 := by
    simp only [State.islAble, Bool.and_eq_true, Bool.not_eq_true'] at hable
    simp [y, hable, hin]
  have hctr : s1.ctr 0x7080 8 = min (s.ctr 0x7080 8 + 1) ctrMax := by
    rw [raise_ctr, count_ctr, if_pos rfl]; rfl
  rw [hfrozen.state, hfrozen.chain, hfrozen.restarts, hfrozen.sessions, hisl, hctr]
  exact ⟨hstate, rfl, rfl, by simp [s1], hkept.latched _ _ hraised⟩

/-- An answer counts at most at the port it leaves by (R105). -/
theorem respond_ctr (x : Session) (type tag status : Nat) (body : Bytes) (s : State) {j k : Nat} (hj : j < 0x2080 ∨ 0x2086 ≤ j) (hk : k < 256) :
    (respond x type tag status body s).ctr j k = s.ctr j k := mail_ctr _ _ _ _ _ hj hk

theorem respond_isl (x : Session) (type tag status : Nat) (body : Bytes) (s : State) : (respond x type tag status body s).isl = s.isl := by simp

/-- A message that is taken neither stops the engine nor moves its group. -/
theorem State.afterWrite_isl (s : State) (m : Msg) (idx sub : Nat) (v : Bytes) (x : Session) :
    (s.afterWrite m idx sub v x).islAble = s.islAble ∧ (s.afterWrite m idx sub v x).cf = s.cf ∧
      (∀ c, (s.afterWrite m idx sub v x).islIn c = s.islIn c) ∧ ∀ c, (s.afterWrite m idx sub v x).freezeReports c = s.freezeReports c := by
  simp [State.islAble, State.islIn, State.freezeReports, State.forming, State.draining, State.fenced, State.cf]

/-- Settles O37, command by command. -/
theorem islandingEngineActs : Obligations.IslandingEngineActs := by
  unfold Obligations.IslandingEngineActs
  refine ⟨fun dt cl s hr hruns hlast hredo hfrom hnext => ?final, fun dt g cl s hr hruns hnext hpub hlast hfrom hredo => ?provisional,
    fun dt n m v s x hr h hable hin => ?restart⟩
  case final =>
    have hgo : islFinal (s.tick dt) = finalReport (repOfClose cl) (s.tick dt) := islFinal_first (s := s.tick dt) hruns hlast hredo hfrom hnext
    obtain ⟨hchain, hlatest, -, hctr⟩ := finalReport_reports (repOfClose cl) (s.tick dt)
    obtain ⟨hat, hreports, hfrozen⟩ := report_chain ((s.tick dt).cfFor cl.at_).1 (repOfClose cl) s.isl.chain
    refine ⟨_, rfl, ?_⟩
    rw [State.act_runs _ _ _ _ hr, hgo, State.within_isl, if_pos (by decide), within_ctr, if_pos (by decide), hchain]
    exact ⟨hat, hreports, hfrozen, hlatest, hctr⟩
  case provisional =>
    have hgo := islProvisional_runs (s := s.tick dt) hruns hnext hpub hlast hfrom
    refine ⟨_, rfl, ?_⟩
    rw [State.act_runs _ _ _ _ hr, State.within_isl, if_pos (by decide), within_ctr, if_pos (by decide)]
    exact hgo
  case restart =>
    obtain ⟨hable', hcf, hin', hfreeze⟩ := (s.tick dt).afterWrite_isl m 0x7000 5 v x
    obtain ⟨hstate, hchain, hctr, hsessions, hlatched⟩ := islRestart_restarts (cause := 4) (s := (s.tick dt).afterWrite m 0x7000 5 v x) none
      (hable'.trans hable) ((hin' _).trans (hcf ▸ hin))
    have hwrite : okWrite islRestartWrite (x.afterWrite m 0x7000 5 v (s.tick dt).elapsed) n ((s.tick dt).afterWrite m 0x7000 5 v x) =
        (stOk, islRestart 4 none ((s.tick dt).afterWrite m 0x7000 5 v x)) := by
      rw [okWrite, islRestartWrite, hable', hcf, hin', show (s.tick dt).islAble = true from hable,
        show (s.tick dt).islIn (s.tick dt).cf = true from hin, Bool.and_self, when_true]
    obtain ⟨t, ht, hanswered, body, rfl⟩ := write_answers (c := .islRestartRequest dt m v) (hc := rfl) (by decide) hr h hwrite (.of_sessions hsessions)
    refine ⟨_, ht, hanswered, ?_⟩
    have hisl := respond_isl (x.afterWrite m 0x7000 5 v (s.tick dt).elapsed) 0x12 m.tag stOk body (islRestart 4 none ((s.tick dt).afterWrite m 0x7000 5 v x))
    rw [State.within_isl, if_pos (by decide), within_ctr, if_pos (by decide), hisl, respond_ctr _ _ _ _ _ _ (.inr (by decide)) (by decide), hstate, hchain, hctr,
      hfreeze, hcf, State.afterTake_ctr _ _ _ _ _ _ _ (by decide), if_neg (by decide)]
    exact ⟨rfl, rfl, rfl, answered_latched (by decide) hlatched⟩

end Sys2Proof.Machine
end

section
namespace Sys2Proof.Machine
open Sys2Proof

/-! ## Work beside the alarms (R287, R291, R354) -/

/-- Of a state what an alarm change leaves alone once the alarm is written: the alarms, those held from before a T_c, the decisions that
wait, and what tells which of them an instant belongs to. -/
def State.alarmCore (s : State) : Table Alarm × Table Alarm × List Waiting × CfgU :=
  (s.alm.alarm, s.alm.old, s.alm.inbox, s.cfg)

/-- Work that leaves these alone, whatever else it changes. Each lemma says that a piece of work, done after other such work, is such work. -/
def BesideAlarms (s t : State) : Prop := t.alarmCore = s.alarmCore

/-- Whether an instant lies before the last T_c is a matter of the configuration. -/
theorem State.beforeChange_congr {s t : State} (h : t.cfg = s.cfg) (at_ : Stamp) : t.beforeChange at_ = s.beforeChange at_ := by
  simp only [State.beforeChange, h]

namespace BesideAlarms
variable {s t u : State}

theorem refl (s : State) : BesideAlarms s s := rfl

theorem trans (h : BesideAlarms s t) (k : BesideAlarms t u) : BesideAlarms s u := Eq.trans k h

theorem alarms (h : BesideAlarms s t) : t.alm.alarm = s.alm.alarm := congrArg (·.1) h
theorem old (h : BesideAlarms s t) : t.alm.old = s.alm.old := congrArg (·.2.1) h
theorem inbox (h : BesideAlarms s t) : t.alm.inbox = s.alm.inbox := congrArg (·.2.2.1) h
theorem cfg (h : BesideAlarms s t) : t.cfg = s.cfg := congrArg (·.2.2.2) h

theorem alarm (h : BesideAlarms s t) (a : Nat) : t.alarm a = s.alarm a := by simp only [State.alarm, h.alarms]

theorem alarmFor (h : BesideAlarms s t) (a : Nat) (at_ : Stamp) : t.alarmFor a at_ = s.alarmFor a at_ := by
  simp only [State.alarmFor, State.beforeChange_congr h.cfg, h.old, h.alarm]

/-- An update of fields beside these. -/
theorem update (h : BesideAlarms s t) (e : u.alarmCore = t.alarmCore) : BesideAlarms s u := h.trans e

theorem ite {p : Prop} [Decidable p] (h : BesideAlarms s t) (k : BesideAlarms s u) : BesideAlarms s (if p then t else u) := by
  split
  · exact h
  · exact k

theorem when {f : State → State} {b : Bool} (h : BesideAlarms s t) (hf : ∀ u, BesideAlarms u (f u)) : BesideAlarms s (when b f t) :=
  .ite (h.trans (hf t)) h

theorem each {α : Type} {f : α → State → State} {xs : List α} (h : BesideAlarms s t) (hf : ∀ a u, BesideAlarms u (f a u)) :
    BesideAlarms s (each xs f t) :=
  each_preserves (P := BesideAlarms s) (fun a _ hu => hu.trans (hf a _)) h

theorem raise {id inst param : Nat} (h : BesideAlarms s t) : BesideAlarms s (raise id inst param t) :=
  h.trans (by simp [BesideAlarms, State.alarmCore])

theorem count {idx sub : Nat} (h : BesideAlarms s t) : BesideAlarms s (count idx sub t) := h.trans (by simp [BesideAlarms, State.alarmCore])

/-- What tells of a change of an alarm is beside the alarm, whose number has moved (R287). -/
theorem alarmChanged (c : Cf) (a : Nat) (at_ : Stamp) (x : Alarm) (s : State) :
    BesideAlarms (s.setAlarmFor a at_ { x with seq := (x.seq + 1) % 2 ^ 32 }) (alarmChanged c a at_ x s) := by
  unfold Machine.alarmChanged
  extract_lets y s1 s2
  have hcounted : BesideAlarms (s.setAlarmFor a at_ y) s1 := .count (.refl _)
  have htold : BesideAlarms (s.setAlarmFor a at_ y) s2 := hcounted.when fun v => .raise (.refl v)
  have hmarked : BesideAlarms (s.setAlarmFor a at_ y) (markDirty c a at_ s2) := htold.each fun _ v => (refl v).each fun _ _ => rfl
  exact .ite (hmarked.update rfl) hmarked

end BesideAlarms

/-! ## One alarm changes (R17, R283, R285) -/

namespace State
variable (s : State) (a : Nat) (at_ : Stamp) (x : Alarm)

/-- What was written for an instant is read for it. -/
theorem setAlarmFor_self : (s.setAlarmFor a at_ x).alarmFor a at_ = x := by
  by_cases h : (s.beforeChange at_ && (Table.find s.alm.old a).isSome) = true
  · simp_all [setAlarmFor, alarmFor, beforeChange_congr (s := s) (t := { s with alm := { s.alm with old := Table.put s.alm.old a x } }) rfl]
  · have hkept : (s.setAlarm a x).beforeChange at_ = s.beforeChange at_ := beforeChange_congr rfl at_
    have hold : (s.setAlarm a x).alm.old = s.alm.old := rfl
    rw [setAlarmFor, if_neg h, alarmFor, hkept, hold, setAlarm_alarm, if_pos rfl]
    cases hf : Table.find s.alm.old a <;> simp_all

/-- Every other alarm stays. -/
theorem setAlarmFor_others {b : Nat} (hb : b ≠ a) : (s.setAlarmFor a at_ x).alarm b = s.alarm b := by
  unfold setAlarmFor
  split
  · rfl
  · rw [setAlarm_alarm, if_neg hb]

@[simp] theorem setAlarmFor_inbox : (s.setAlarmFor a at_ x).alm.inbox = s.alm.inbox := by
  unfold setAlarmFor
  split <;> rfl

@[simp] theorem setAlarmFor_cfg : (s.setAlarmFor a at_ x).cfg = s.cfg := by
  unfold setAlarmFor
  split <;> rfl

variable {s a at_} in
/-- An instant that the last T_c does not divide from the present belongs to the alarm as it stands. -/
theorem setAlarmFor_present (h : s.beforeChange at_ = false ∨ Table.find s.alm.old a = none) : s.setAlarmFor a at_ x = s.setAlarm a x := by
  rcases h with h | h <;> simp [setAlarmFor, h]

variable {s a at_} in
theorem alarmFor_present (h : s.beforeChange at_ = false ∨ Table.find s.alm.old a = none) : s.alarmFor a at_ = s.alarm a := by
  rcases h with h | h <;> simp [alarmFor, h]

variable {s at_} in
/-- What is not before the last T_c is not so later either. -/
theorem beforeChange_later (n : Nat) (h : s.beforeChange at_ = false) : s.beforeChange { at_ with ns := at_.ns + n } = false := by
  unfold beforeChange at h ⊢
  cases hprev : (s.cfg.prev <|> s.cfg.spent) with
  | none => rfl
  | some p =>
    simp only [hprev, Stamp.before, Bool.or_eq_false_iff, Bool.and_eq_false_iff, decide_eq_false_iff_not] at h ⊢
    exact ⟨h.1, h.2.imp_right (by omega)⟩

end State

/-- The alarm of an instant becomes `y`; the other alarms, and the decisions that wait, are as they were. -/
structure SetsAlarm (a : Nat) (at_ : Stamp) (y : Alarm) (s t : State) : Prop where
  self : t.alarmFor a at_ = y
  present : s.beforeChange at_ = false ∨ Table.find s.alm.old a = none → t.alarm a = y
  others : ∀ b, b ≠ a → t.alarm b = s.alarm b
  inbox : t.alm.inbox = s.alm.inbox
  cfg : t.cfg = s.cfg

namespace SetsAlarm
variable {a : Nat} {at_ : Stamp} {y : Alarm} {s t u : State}

theorem setAlarmFor (a : Nat) (at_ : Stamp) (y : Alarm) (s : State) : SetsAlarm a at_ y s (s.setAlarmFor a at_ y) where
  self := s.setAlarmFor_self a at_ y
  present h := by rw [State.setAlarmFor_present y h, State.setAlarm_alarm, if_pos rfl]
  others _ := s.setAlarmFor_others a at_ y
  inbox := s.setAlarmFor_inbox a at_ y
  cfg := s.setAlarmFor_cfg a at_ y

theorem beside (h : SetsAlarm a at_ y s t) (k : BesideAlarms t u) : SetsAlarm a at_ y s u where
  self := (k.alarmFor a at_).trans h.self
  present hs := (k.alarm a).trans (h.present hs)
  others b hb := (k.alarm b).trans (h.others b hb)
  inbox := k.inbox.trans h.inbox
  cfg := k.cfg.trans h.cfg

theorem after (h : BesideAlarms s t) (k : SetsAlarm a at_ y t u) : SetsAlarm a at_ y s u where
  self := k.self
  present hs := k.present (by rwa [State.beforeChange_congr h.cfg, h.old])
  others b hb := (k.others b hb).trans (h.alarm b)
  inbox := k.inbox.trans h.inbox
  cfg := k.cfg.trans h.cfg

/-- An alarm change writes the alarm, under the next number (R287). -/
theorem alarmChanged (c : Cf) (a : Nat) (at_ : Stamp) (x : Alarm) (s : State) :
    SetsAlarm a at_ { x with seq := (x.seq + 1) % 2 ^ 32 } s (alarmChanged c a at_ x s) :=
  (setAlarmFor a at_ _ s).beside (.alarmChanged c a at_ x s)

/-- A command whose parts hold the alarms leaves the alarm of the instant as its rules do. -/
theorem within_alarmFor {ps : List Part} (hp : .alarm ∈ ps) (h : SetsAlarm a at_ y s t) {s' : State} (hs : s'.cfg = s.cfg) :
    (s'.within ps t).alarmFor a at_ = y := by
  have hcfg : (s'.within ps t).cfg = t.cfg := by simp [h.cfg, hs]
  rw [← h.self]
  simp [State.alarmFor, State.alarm, State.beforeChange_congr hcfg, hp]

end SetsAlarm

theorem within_alarm {s t : State} {ps : List Part} (hp : .alarm ∈ ps) (a : Nat) : (s.within ps t).alarm a = t.alarm a := by simp [State.alarm, hp]

end Sys2Proof.Machine
end

section
namespace Sys2Proof.Machine
open Sys2Proof

/-! ## Decisions (R282, R283) -/

/-- A value revised by an acknowledgement or a release changes what frames look back on, and nothing else of an alarm (R300). -/
@[simp] theorem Alarm.revise_same (x : Alarm) :
    x.revise.v = x.v ∧ x.revise.vf = x.vf ∧ x.revise.prov = x.prov ∧ x.revise.frozen = x.frozen ∧ x.revise.peak = x.peak ∧ x.revise.seq = x.seq := by
  unfold Alarm.revise
  split <;> exact ⟨rfl, rfl, rfl, rfl, rfl, rfl⟩

section Decide
variable {a : Nat} {d : Decision} {s : State}

/-- A provisional decision of enough confidence above the value raises it (R283). -/
theorem provisional_raises (hruns : s.alarmRuns = true) (hflag : alFlag (s.cfFor d.at_).1 a 2 = true) (hconf : alF (s.cfFor d.at_).1 a 6 2 ≤ d.conf)
    (habove : (s.alarmFor a d.at_).v < d.value) :
    ∃ y, SetsAlarm a d.at_ y s (provisional a d s) ∧ y.v = d.value ∧ y.prov = true ∧ y.vf = (s.alarmFor a d.at_).vf ∧ y.frozen = false ∧
      y.seq = ((s.alarmFor a d.at_).seq + 1) % 2 ^ 32 ∧ y.at_ = d.at_ := by
  have hlow : ¬ d.conf < alF (s.cfFor d.at_).1 a 6 2 := by omega
  simp only [provisional, hruns, hflag, hlow, habove, Bool.not_true, decide_false, Bool.or_false, Bool.false_eq_true, if_false, if_true]
  exact ⟨_, .after (.count (.refl s)) (.alarmChanged ..), rfl, rfl, rfl, rfl, rfl, rfl⟩

/-- One of less confidence is counted. -/
theorem provisional_counts (hruns : s.alarmRuns = true) (hconf : d.conf < alF (s.cfFor d.at_).1 a 6 2) : provisional a d s = count 0x7880 6 s := by
  simp [provisional, hruns, hconf]

/-- A final decision gives an alarm without latch and provisional value its value, under the next number when that, or the end of a
freeze, is a change (R283, R286). -/
theorem finalDecision_gives (hruns : s.alarmRuns = true) (hlatch : alFlag (s.cfFor d.at_).1 a 1 = false) (hprov : (s.alarmFor a d.at_).prov = false) :
    ∃ y, SetsAlarm a d.at_ y s (finalDecision a d s) ∧ y.v = d.value ∧ y.vf = d.value ∧ y.prov = false ∧ y.pulse = (s.alarmFor a d.at_).pulse ∧
      y.seq = if d.value = (s.alarmFor a d.at_).v ∧ (s.alarmFor a d.at_).frozen = false then (s.alarmFor a d.at_).seq
        else ((s.alarmFor a d.at_).seq + 1) % 2 ^ 32 := by
  simp only [finalDecision, hruns, hlatch, hprov, Bool.not_true, Bool.not_false, Bool.false_eq_true, if_false, if_true, Nat.max_self,
    reduceCtorEq, decide_true, decide_false, Bool.and_true, Bool.or_self, Bool.and_eq_true, decide_eq_true_eq, Bool.not_eq_true']
  by_cases hsame : d.value = (s.alarmFor a d.at_).v ∧ (s.alarmFor a d.at_).frozen = false
  · rw [if_pos hsame]
    exact ⟨_, .setAlarmFor .., rfl, rfl, rfl, rfl, (if_pos hsame).symm⟩
  · rw [if_neg hsame]
    exact ⟨_, .alarmChanged .., rfl, rfl, rfl, rfl, (if_neg hsame).symm⟩

end Decide

/-- A decision leaves those that wait. -/
def State.dropWaiting (s : State) (w : Waiting) : State := { s with alm := { s.alm with inbox := s.alm.inbox.erase w } }

/-- The decision that waits first for an alarm, of the kind asked for and not for a later configuration, is taken from the others. -/
theorem takeDecision_takes {final : Bool} {a : Nat} {w : Waiting} {s : State} (hw : s.alm.inbox.find? (fun w => w.alarm = a) = some w)
    (hfinal : w.final = final) (hearly : s.tooEarly w = false) :
    takeDecision final a s = (if final then finalDecision a w.d else provisional a w.d) (s.dropWaiting w) := by
  simp only [takeDecision, hw, hfinal, hearly, bne_self_eq_false, Bool.or_self, Bool.false_eq_true, if_false]
  cases final <;> rfl

/-- One for an instant that a commit still to come serves waits (R17). -/
theorem takeDecision_waits {final : Bool} {a : Nat} {w : Waiting} {s : State} (hw : s.alm.inbox.find? (fun w => w.alarm = a) = some w)
    (hearly : s.tooEarly w = true) : takeDecision final a s = s := by
  simp [takeDecision, hw, hearly]

/-- The pulse of an event alarm without latch ends at 0 (R282). -/
theorem pulseEnd_ends {a e : Nat} {at_ : Stamp} {s : State} (hruns : s.alarmRuns = true) (hpulse : (s.alarm a).pulse = some (e, at_)) (he : e ≤ s.elapsed)
    (hpresent : s.beforeChange at_ = false ∨ Table.find s.alm.old a = none)
    (hlatch : alFlag (s.cfFor { at_ with ns := at_.ns + alF (s.cfFor at_).1 a 12 2 * 1000000 }).1 a 1 = false) (hprov : (s.alarm a).prov = false) :
    ((pulseEnd a s).alarm a).pulse = none ∧ ((pulseEnd a s).alarm a).v = 0 ∧ ((pulseEnd a s).alarm a).vf = 0 ∧
      ∀ b, b ≠ a → (pulseEnd a s).alarm b = s.alarm b := by
  set later : Stamp := { at_ with ns := at_.ns + alF (s.cfFor at_).1 a 12 2 * 1000000 } with hlater
  set ended : State := s.setAlarm a { s.alarm a with pulse := none } with hended
  have hgo : pulseEnd a s = finalDecision a (ended.pulseDecision 0 later) ended := by
    simp [pulseEnd, hpulse, he, State.setAlarmFor_present _ hpresent, State.alarmFor_present hpresent, hended, hlater]
  have hpresent' : ended.beforeChange later = false ∨ Table.find ended.alm.old a = none := hpresent.imp_left (State.beforeChange_later _)
  have hfor : ended.alarmFor a later = { s.alarm a with pulse := none } := by
    rw [State.alarmFor_present hpresent', hended, State.setAlarm_alarm, if_pos rfl]
  obtain ⟨y, hset, hv, hvf, -, hp, -⟩ := finalDecision_gives (a := a) (d := ended.pulseDecision 0 later) (s := ended) hruns hlatch
    ((congrArg Alarm.prov hfor).trans hprov)
  rw [hgo, hset.present hpresent']
  exact ⟨hp.trans (congrArg Alarm.pulse hfor), hv, hvf, fun b hb => by rw [hset.others b hb, hended, State.setAlarm_alarm, if_neg hb]⟩

/-! ## Acknowledgement and release (R285, R286) -/

/-- A frozen alarm let go: its final value stands, under the next number. -/
def Alarm.released (x : Alarm) : Alarm :=
  if x.frozen then
    let y := { x with frozen := false, prov := false, v := x.vf, peak := x.vf }.revise
    { y with seq := (y.seq + 1) % 2 ^ 32 }
  else x

theorem Alarm.released_thawed (x : Alarm) : x.released.frozen = false := by
  by_cases h : x.frozen = true <;> simp [released, h]

theorem Alarm.released_twice (x : Alarm) : x.released.released = x.released := by
  rw [released, if_neg (by simp [released_thawed])]

theorem Alarm.released_final {x : Alarm} (h : x.frozen = true) : x.released.v = x.vf ∧ x.released.prov = false := by
  simp [released, h]

section Present
variable {s : State} (h : s.beforeChange s.now = false)
include h

/-- An acknowledgement gives the final value, and the latch lets go. -/
theorem acknowledge_gives (a : Nat) :
    ∃ y, SetsAlarm a s.now y s (acknowledge a s) ∧ y.v = (s.alarm a).vf ∧ y.vf = (s.alarm a).vf ∧ y.peak = (s.alarm a).vf := by
  unfold acknowledge
  extract_lets x y
  by_cases hv : x.v = x.vf
  · rw [if_pos hv, ← State.setAlarmFor_present y (.inl h)]
    exact ⟨y, .setAlarmFor .., hv, rfl, rfl⟩
  · rw [if_neg hv]
    exact ⟨_, .alarmChanged .., by simp [x], by simp [y, x], by simp [y, x]⟩

theorem release_alarm (a b : Nat) : (release a s).alarm b = if b = a then (s.alarm b).released else s.alarm b := by
  by_cases hf : (s.alarm a).frozen = true
  · have hset := SetsAlarm.alarmChanged s.cf a s.now { s.alarm a with frozen := false, prov := false, v := (s.alarm a).vf, peak := (s.alarm a).vf }.revise s
    rw [release, if_pos hf]
    split
    · next e => rw [e, hset.present (.inl h), Alarm.released, if_pos hf]
    · next e => exact hset.others b e
  · rw [release, if_neg hf]
    split
    · next e => rw [e, Alarm.released, if_neg hf]
    · rfl

end Present

/-- What acknowledgements and releases leave of time, configuration and sessions. -/
theorem acknowledge_sessions (a : Nat) (s : State) : (acknowledge a s).osr.sessions = s.osr.sessions :=
  BesideIsl.sessions (.ite (.update (.refl s) rfl) (.alarmChanged (.refl s)))
theorem release_besideIsl (a : Nat) (s : State) : BesideIsl s (release a s) := .ite (.alarmChanged (.refl s)) (.refl s)
theorem release_undisturbed (a : Nat) (s : State) : Undisturbed s (release a s) := .ite (.alarmChanged (.refl s)) (.refl s)

/-- Alarms released one after another: each once, and no other. -/
theorem each_release_alarm {s : State} (h : s.beforeChange s.now = false) (as : List Nat) (b : Nat) :
    (each as release s).alarm b = if b ∈ as then (s.alarm b).released else s.alarm b := by
  induction as generalizing s with
  | nil => rfl
  | cons a r ih =>
    have hframe := release_undisturbed a s
    have hnow : (release a s).beforeChange (release a s).now = false := by
      rw [State.beforeChange_congr hframe.cfg, State.now, hframe.time]
      exact h
    rw [show each (a :: r) release s = each r release (release a s) from rfl, ih hnow, release_alarm h]
    by_cases hb : b = a <;> simp [hb, Alarm.released_twice]

/-- A message that is taken leaves the alarms, and what serves an instant. -/
theorem State.afterWrite_alarms (s : State) (m : Msg) (idx sub : Nat) (v : Bytes) (x : Session) :
    (∀ a, (s.afterWrite m idx sub v x).alarm a = s.alarm a) ∧ (s.afterWrite m idx sub v x).cf = s.cf ∧
      (s.afterWrite m idx sub v x).beforeChange (s.afterWrite m idx sub v x).now = s.beforeChange s.now := by
  simp [State.alarm, State.cf, State.beforeChange, State.now]

/-- An answer leaves the alarms as the effect of its message has left them. -/
theorem answered_alarm {s u : State} {ps : List Part} {x : Session} {type tag status : Nat} {body : Bytes} (hp : .alarm ∈ ps) (a : Nat) :
    (s.within ps (respond x type tag status body u)).alarm a = u.alarm a := by simp [State.alarm, hp]

/-- Settles O38, command by command. -/
theorem alarmsAct : Obligations.AlarmsAct := by
  unfold Obligations.AlarmsAct
  refine ⟨fun dt a w s hr hruns hw hfinal hearly hflag hconf habove => ?raised, fun dt a w s hr hruns hw hfinal hearly hflag hconf => ?unsure,
    fun dt a w s hr hruns hw hfinal hearly hlatch hprov hfrozen => ?final, fun dt a w c s hc hr hw hearly => ?waits,
    fun dt a e at_ s hr hruns hpulse he hpresent hlatch hprov => ?pulse, fun dt a m v s x hr h ha hvalid hnow => ?acknowledge,
    fun dt n m v s x hr h hnow => ?release⟩
  case raised =>
    have hgo := takeDecision_takes (s := s.tick dt) hw hfinal hearly
    obtain ⟨y, hset, hv, hprov, hvf, hfrozen, hseq, hat⟩ := provisional_raises (s := (s.tick dt).dropWaiting w) hruns hflag hconf habove
    refine ⟨_, y, rfl, ?_⟩
    rw [State.act_runs _ _ _ _ hr, hgo, if_neg Bool.false_ne_true]
    exact ⟨hset.within_alarmFor (by decide) rfl, hv, hprov, hvf, hfrozen, hseq, hat, hset.inbox, fun b hb => (within_alarm (by decide) b).trans (hset.others b hb)⟩
  case unsure =>
    have hgo := takeDecision_takes (s := s.tick dt) hw hfinal hearly
    have hbeside : BesideAlarms ((s.tick dt).dropWaiting w) (count 0x7880 6 ((s.tick dt).dropWaiting w)) := .count (.refl _)
    refine ⟨_, rfl, ?_⟩
    rw [State.act_runs _ _ _ _ hr, hgo, if_neg Bool.false_ne_true, provisional_counts (s := (s.tick dt).dropWaiting w) hruns hconf, within_ctr,
      if_pos (by decide), count, countN_ctr, if_pos rfl]
    exact ⟨fun b => (within_alarm (by decide) b).trans (hbeside.alarm b), rfl, hbeside.inbox⟩
  case final =>
    have hgo := takeDecision_takes (s := s.tick dt) hw hfinal hearly
    obtain ⟨y, hset, hv, hvf, hprov, -, hseq⟩ := finalDecision_gives (s := (s.tick dt).dropWaiting w) hruns hlatch hprov
    have hthawed : (((s.tick dt).dropWaiting w).alarmFor a w.d.at_).frozen = false := hfrozen
    simp only [hthawed, and_true] at hseq
    refine ⟨_, y, rfl, ?_⟩
    rw [State.act_runs _ _ _ _ hr, hgo, if_pos rfl]
    exact ⟨hset.within_alarmFor (by decide) rfl, hv, hvf, hprov, hseq, fun b hb => (within_alarm (by decide) b).trans (hset.others b hb)⟩
  case waits =>
    simp only [List.mem_cons, List.not_mem_nil, or_false] at hc
    rcases hc with rfl | rfl
    all_goals
      refine ⟨_, rfl, ?_⟩
      rw [State.act_runs _ _ _ _ hr, takeDecision_waits (s := s.tick dt) hw hearly]
      exact ⟨rfl, rfl, rfl⟩
  case pulse =>
    obtain ⟨hp, hv, hvf, hothers⟩ := pulseEnd_ends (s := s.tick dt) hruns hpulse he hpresent hlatch hprov
    refine ⟨_, rfl, ?_⟩
    simp only [State.act_runs _ _ _ _ hr, within_alarm (ps := [.events, .stats, .hr, .alarm, .goose]) (by decide)]
    exact ⟨hp, hv, hvf, hothers⟩
  case acknowledge =>
    obtain ⟨halarm, hcf, hbefore⟩ := (s.tick dt).afterWrite_alarms m 0x7820 1 v x
    have hpresent := hbefore.trans hnow
    obtain ⟨y, hset, hv, hvf, hpeak⟩ := acknowledge_gives hpresent a
    have hwrite : ackWrite (x.afterWrite m 0x7820 1 v (s.tick dt).elapsed) a ((s.tick dt).afterWrite m 0x7820 1 v x) =
        (stOk, acknowledge a ((s.tick dt).afterWrite m 0x7820 1 v x)) := by
      have hcontains : (validAlarms ((s.tick dt).afterWrite m 0x7820 1 v x).cf).contains a = true := by
        rw [hcf]
        exact List.contains_iff_mem.mpr hvalid
      rw [ackWrite, if_neg (by omega), if_neg (by omega), hcontains, when_true]
    obtain ⟨t, ht, hanswered, body, rfl⟩ := write_answers (c := .alarmAcknowledge dt m v) (hc := rfl) (by decide) hr h hwrite
      (.of_sessions (acknowledge_sessions a _))
    refine ⟨_, ht, hanswered, ?_⟩
    simp only [answered_alarm (ps := [.events, .stats, .sessions, .hr, .alarm, .goose, .keyPort]) (by decide), hset.present (.inl hpresent)]
    rw [halarm] at hv hvf hpeak
    exact ⟨hv, hvf, hpeak, by simp [Alarm.latched, hv, hvf], fun b hb => (hset.others b hb).trans (halarm b)⟩
  case release =>
    obtain ⟨halarm, hcf, hbefore⟩ := (s.tick dt).afterWrite_alarms m 0x7800 5 v x
    have hread := each_release_alarm (hbefore.trans hnow) (validAlarms s.cf)
    have hwrite : okWrite (fun _ t => each (validAlarms t.cf) release t) (x.afterWrite m 0x7800 5 v (s.tick dt).elapsed) n
        ((s.tick dt).afterWrite m 0x7800 5 v x) = (stOk, each (validAlarms s.cf) release ((s.tick dt).afterWrite m 0x7800 5 v x)) := by
      rw [okWrite, hcf]
      rfl
    obtain ⟨t, ht, hanswered, body, rfl⟩ := write_answers (c := .releaseFrozenAlarms dt m v) (hc := rfl) (by decide) hr h hwrite
      (.of_sessions (BesideIsl.each (.refl _) fun a _ u => release_besideIsl a u).sessions)
    refine ⟨_, ht, hanswered, ?_⟩
    simp only [answered_alarm (ps := [.events, .stats, .sessions, .hr, .alarm, .goose, .keyPort]) (by decide), hread, halarm]
    refine ⟨fun a ha => ?_, fun b hb => if_neg hb⟩
    rw [if_pos ha]
    exact ⟨Alarm.released_thawed _, Alarm.released_final⟩

end Sys2Proof.Machine
end

section
namespace Sys2Proof.Machine
open Sys2Proof

/-! ## Frames of publications (R289, R290) -/

/-- Publication `p` becomes `y`, and every other publication is as it was. -/
def SetsPub (p : Nat) (y : Goose) (s t : State) : Prop := ∀ q, t.pub q = if q = p then y else s.pub q

namespace SetsPub
variable {p : Nat} {y z : Goose} {s t u : State}

theorem setPub (p : Nat) (y : Goose) (s : State) : SetsPub p y s (s.setPub p y) := fun _ => State.setPub_pub ..

theorem self (h : SetsPub p y s t) : t.pub p = y := (h p).trans (if_pos rfl)

theorem others (h : SetsPub p y s t) {q : Nat} (hq : q ≠ p) : t.pub q = s.pub q := (h q).trans (if_neg hq)

theorem trans (h : SetsPub p y s t) (k : SetsPub p z t u) : SetsPub p z s u := fun q => by
  rw [k, h]
  split <;> rfl

/-- Work that leaves every publication. -/
theorem same (h : SetsPub p y s t) (e : u.alm = t.alm) : SetsPub p y s u := fun q => by
  rw [← h q, State.pub, e]
  rfl

/-- A command whose parts hold the publications changes them as its rules do. -/
theorem within {ps : List Part} (hp : .goose ∈ ps) (h : SetsPub p y s t) {s' : State} (hs : s'.alm = s.alm) : SetsPub p y s' (s'.within ps t) := fun q => by
  have hw : (s'.within ps t).pub q = t.pub q := by simp [State.pub, hp]
  rw [hw, h q, State.pub, State.pub, hs]

end SetsPub

theorem Offers.alm {s t : State} (h : Offers s t) : t.alm = s.alm := h.same (f := State.alm) fun _ => rfl

theorem Offers.each {α : Type} {f : α → State → State} {xs : List α} {s t : State} (h : Offers s t) (hf : ∀ a u, Offers u (f a u)) :
    Offers s (each xs f t) :=
  each_preserves (P := Offers s) (fun a _ hu => hu.trans (hf a _)) h

/-- Which configuration a publication's frames have is a matter of the instant of its last change. -/
theorem State.pubCf_setPub (s : State) (p : Nat) {x : Goose} (h : x.of_ = (s.pub p).of_) : (s.setPub p x).pubCf p = s.pubCf p := by
  have hof : ((s.setPub p x).pub p).of_ = (s.pub p).of_ := by rw [State.setPub_pub, if_pos rfl, h]
  simp only [State.pubCf, hof]
  rfl

theorem Offers.pubCf {s t : State} (h : Offers s t) (p : Nat) : t.pubCf p = s.pubCf p := h.same (f := (·.pubCf p)) fun _ => rfl

/-- What is written of a publication for a frame without the security extension stays once that has gone out on its ports, beside the
frame itself (R290). -/
theorem pubSend_keeps {p : Nat} {y : Goose} {s : State} (hof : y.of_ = (s.pub p).of_) (hplain : bit (gpF (s.pubCf p) p 0 1) 2 = false) :
    ∃ frame, SetsPub p { y with frame := frame } s (pubSend p (s.setPub p y)) := by
  simp only [pubSend, s.pubCf_setPub p hof, hplain, Bool.not_false, if_true, pubOut, State.setPub_pub]
  exact ⟨_, .trans (y := y) (.setPub p y s) (.same (.setPub p _ _) (Offers.alm (.count (.each (.refl _) fun _ u => .portSend (.refl u)))))⟩

/-- A state whose contents no frame has carried goes out as the next one (R290). -/
theorem gooseBuild_begins {p : Nat} {s : State} (hsends : s.pubSends p = true) (hplain : bit (gpF (s.pubCf p) p 0 1) 2 = false)
    (hnew : (s.pub p).due = none ∨ s.pubContent p ≠ (s.pub p).built) :
    ∃ y, SetsPub p y s (gooseBuild p s) ∧ y.stNum = nextNum (s.pub p).stNum ∧ y.sqNum = 0 ∧ y.interval = gpF (s.pubCf p) p 18 2 ∧
      y.due = some (s.elapsed + gpF (s.pubCf p) p 18 2 * 1000000) ∧ y.built = s.pubContent p ∧ y.dirty = [] := by
  have hold : (decide (s.pubContent p = (s.pub p).built) && (s.pub p).due.isSome) = false := by
    rcases hnew with h | h <;> simp [h]
  unfold gooseBuild
  extract_lets x now s1 t1 sent
  rw [if_neg (by simp [now, x, hsends, hold]), if_neg (by simp [now, x, hold])]
  have hcounted : Offers (s.setPub p { x with dirty := [] }) s1 := .countN (.refl _)
  have hcleared : SetsPub p { x with dirty := [] } s s1 := .same (.setPub p _ s) hcounted.alm
  have hsent : sent = { x with dirty := [] } := hcleared.self
  have hcf : s1.pubCf p = s.pubCf p := (hcounted.pubCf p).trans (s.pubCf_setPub p rfl)
  rw [hsent]
  obtain ⟨frame, hset⟩ := pubSend_keeps (s := s1)
    (y := { x with built := now, stNum := nextNum x.stNum, sqNum := 0, interval := t1, due := some (s.elapsed + t1 * 1000000),
                   since := s.utcTime s.now s.ownQual, dirty := [] })
    (congrArg Goose.of_ hsent).symm (hcf ▸ hplain)
  exact ⟨_, hcleared.trans hset, rfl, rfl, rfl, rfl, rfl, rfl⟩

/-- An unchanged state goes out again under the next number, at an interval doubled up to T0 (R290). -/
theorem gooseRetransmit_repeats {p e : Nat} {s : State} (hsends : s.pubSends p = true) (hplain : bit (gpF (s.pubCf p) p 0 1) 2 = false)
    (hdue : (s.pub p).due = some e) (he : e ≤ s.elapsed) (hsame : s.pubContent p = (s.pub p).built) :
    ∃ y, SetsPub p y s (gooseRetransmit p s) ∧ y.stNum = (s.pub p).stNum ∧ y.sqNum = nextNum (s.pub p).sqNum ∧
      y.interval = (if (s.pub p).sqNum = 0 then (s.pub p).interval else min (2 * (s.pub p).interval) (gpF (s.pubCf p) p 16 2)) ∧
      y.due = some (e + y.interval * 1000000) ∧ y.built = (s.pub p).built := by
  unfold gooseRetransmit
  extract_lets x t0 iv
  have hiv : iv = if x.sqNum = 0 then x.interval else min (2 * x.interval) t0 := by
    unfold iv
    split
    · rfl
    · split <;> omega
  simp only [x, hdue, hsends, he, hsame, decide_true, Bool.and_self, bne_self_eq_false, Bool.and_false, Bool.false_eq_true, if_false, if_true]
  obtain ⟨frame, hset⟩ := pubSend_keeps (s := s) (y := { x with sqNum := nextNum x.sqNum, interval := iv, due := some (e + iv * 1000000) }) rfl hplain
  exact ⟨_, hset, rfl, rfl, hiv, rfl, rfl⟩

/-- One that has changed by then goes out as the next state (R65, R290). -/
theorem gooseRetransmit_begins {p e : Nat} {s : State} (hsends : s.pubSends p = true) (hdue : (s.pub p).due = some e) (he : e ≤ s.elapsed)
    (hnew : s.pubContent p ≠ (s.pub p).built) : gooseRetransmit p s = gooseBuild p s := by
  simp [gooseRetransmit, hdue, hsends, he, hnew]

/-! ## Values of a close (R289) -/

/-- The value of a member's slot in a close, whatever it was before. -/
def closeValue (c : Cf) (cl : Close) (t : Table GooseVal) (m slot : Nat) : GooseVal :=
  match cl.vals.find? (fun v => v.slot = slot) with
  | some v => { val := v.val, q := if v.valid then 0 else 2, at_ := cl.at_, qual := cl.qual }
  | none => { (Table.find t slot).getD { val := BitVec.ofNat 32 (c.u 0x7910 1 (8 * m + 4) 4) } with q := 3, at_ := cl.at_, qual := cl.qual }

/-- The values of members taken from a close, one after another. -/
def closeValues (c : Cf) (cl : Close) (ms : List (Nat × Nat)) (t : Table GooseVal) : Table GooseVal :=
  ms.foldl (fun t m => Table.put t m.2 (closeValue c cl t m.1 m.2)) t

/-- A slot that a member names, and the close has, has the value of the close: any other member of the slot takes the same. -/
theorem closeValues_find {c : Cf} {cl : Close} {k : Nat} {v : Slotted} (hv : cl.vals.find? (fun v => v.slot = k) = some v) {ms : List (Nat × Nat)}
    {t : Table GooseVal} (h : (∃ i, (i, k) ∈ ms) ∨ Table.find t k = some { val := v.val, q := if v.valid then 0 else 2, at_ := cl.at_, qual := cl.qual }) :
    Table.find (closeValues c cl ms t) k = some { val := v.val, q := if v.valid then 0 else 2, at_ := cl.at_, qual := cl.qual } := by
  induction ms generalizing t with
  | nil =>
    rcases h with ⟨i, hi⟩ | h
    · exact absurd hi List.not_mem_nil
    · exact h
  | cons m r ih =>
    refine ih ?_
    rw [Table.find_put]
    by_cases hk : k = m.2
    · subst hk
      exact .inr (by rw [if_pos rfl, closeValue, hv])
    · rw [if_neg hk]
      exact h.imp_left fun ⟨i, hi⟩ => ⟨i, (List.mem_cons.mp hi).resolve_left fun e => hk (congrArg Prod.snd e)⟩

/-- The next final close of the publication's group is taken: its number, its instant, its values, and the changes that wait. -/
theorem gooseEvaluate_takes {p g : Nat} {cl : Close} {s : State} (hsends : s.pubSends p = true)
    (hnext : s.nextPub (pubGroup p) (s.pub p).cursor (fun c => c.kind != 0x20) = some (g, cl)) :
    ∃ y, (gooseEvaluate p s).time = s.time ∧ SetsPub p y s (gooseEvaluate p s) ∧ y.cursor = Table.set (s.pub p).cursor g cl.pub 0 ∧
      y.vals = closeValues (s.cfFor cl.at_).1 cl (pubMembers (s.cfFor cl.at_).1 p) (s.pub p).vals := by
  simp only [State.pubSends, Bool.and_eq_true, Bool.not_eq_true', decide_eq_true_eq] at hsends
  obtain ⟨⟨⟨hforming, hfenced⟩, hreset⟩, -⟩ := hsends
  unfold gooseEvaluate
  simp only [hforming, hfenced, hreset, hnext, Bool.not_true, bne_self_eq_false, Bool.or_self, Bool.false_eq_true, if_false, State.setPub_pub, if_true]
  exact ⟨_, rfl, .trans (SetsPub.setPub p _ s) (.setPub p _ _), rfl, rfl⟩

/-- Settles O39, command by command. -/
theorem publicationsAct : Obligations.PublicationsAct := by
  unfold Obligations.PublicationsAct
  refine ⟨fun dt p s hr hsends hdue hplain => ?first, fun dt p e s hr hsends hdue he hplain hsame => ?again,
    fun dt p e s hr hsends hdue he hplain hnew => ?changed, fun dt p g cl s hr hsends hvalue hnext => ?values⟩
  case first =>
    obtain ⟨y, hset, hst, hsq, hinterval, hdue', hbuilt, hdirty⟩ := gooseBuild_begins (s := s.tick dt) hsends hplain (.inl hdue)
    have hset' := hset.within (ps := [.events, .stats, .free, .queues, .goose, .keyPort]) (by decide) (s' := s) rfl
    refine ⟨_, rfl, ?_⟩
    rw [State.act_runs _ _ _ _ hr, hset'.self]
    exact ⟨hst, hsq, hinterval, hdue', hbuilt, hdirty, fun q hq => hset'.others hq⟩
  case again =>
    obtain ⟨y, hset, hst, hsq, hinterval, hdue', hbuilt⟩ := gooseRetransmit_repeats (s := s.tick dt) hsends hplain hdue he hsame
    have hset' := hset.within (ps := [.events, .stats, .free, .queues, .goose, .keyPort]) (by decide) (s' := s) rfl
    refine ⟨_, rfl, ?_⟩
    rw [State.act_runs _ _ _ _ hr, hset'.self]
    exact ⟨hst, hsq, hinterval, hdue', hbuilt, fun q hq => hset'.others hq⟩
  case changed =>
    obtain ⟨y, hset, hst, hsq, -, -, hbuilt, -⟩ := gooseBuild_begins (s := s.tick dt) hsends hplain (.inr hnew)
    have hset' := hset.within (ps := [.events, .stats, .free, .queues, .goose, .keyPort]) (by decide) (s' := s) rfl
    refine ⟨_, rfl, ?_⟩
    rw [State.act_runs _ _ _ _ hr, gooseRetransmit_begins (s := s.tick dt) hsends hdue he hnew, hset'.self]
    exact ⟨hst, hsq, hbuilt, fun q hq => hset'.others hq⟩
  case values =>
    obtain ⟨y, htime, hset, hcursor, hvals⟩ := gooseEvaluate_takes (s := s.tick dt) hsends hnext
    have hset' := hset.within (ps := [.goose]) (by decide) (s' := s) rfl
    refine ⟨_, rfl, ?_⟩
    rw [State.act_runs _ _ _ _ hr, hset'.self, hcursor, Table.getD_set, if_pos rfl, hvals]
    exact ⟨rfl, onlyParts_of_time _ htime, fun i k hi v hv => closeValues_find hv (.inl ⟨i, hi⟩)⟩

end Sys2Proof.Machine
end

section
namespace Sys2Proof.Machine
open Sys2Proof

/-! ## The bytes that await transport (R301, R370) -/

/-- The next close that a session takes gives a frame, which goes into its buffer (R298, R301). -/
theorem outData_buffers {n g : Nat} {cl : Close} {s : State} (hforming : s.forming = true) (hserves : s.outServes n = true)
    (hactive : s.outActive (s.cfFor cl.at_).1 n = true) (hfirst : s.outFirst n cl.at_ = false)
    (hnext : s.nextPub (fun c => if outValid c n then some (outGroup c n) else none) (s.out n).cursor (fun c => s.outFirst n c.at_ || c.kind != 0x20) = some (g, cl)) :
    let s1 := s.setOut n { s.out n with cursor := Table.set (s.out n).cursor g cl.pub 0 }
    outData n s = bufferFrame n cl.rate (s1.outFrame n cl) s1 := by
  simp [outData, hforming, hserves, hnext, hactive, hfirst]

theorem outDataFrame_runs {dt n : Nat} {s : State} (h : s.runs = true) :
    exec (.outDataFrame dt n) s = .next (s.within [.events, .stats, .out] (outData n (s.tick dt))) := by
  rw [← State.act_runs _ _ _ _ h]
  rfl

theorem within_out {s t : State} {ps : List Part} (hp : .out ∈ ps) (n : Nat) : (s.within ps t).out n = t.out n := by simp [State.out, hp]

/-- A frame for which region 0x7 has no room pushes the oldest of the buffer out (R370). -/
theorem bufferFrame_of_no_room {n rate : Nat} {b : OutFrame} {s : State} (h : 2 ^ 30 < s.outBytes + b.bytes.length) :
    ((bufferFrame n rate b s).out n).buf = ((s.out n).buf ++ [b]).drop 1 := by
  unfold bufferFrame
  extract_lets x y s1
  have hdiscarded : Offers (s.setOut n { y with discarded := satCount y.discarded 1 }) s1 := .count (.satEvent (.refl _))
  have hout : Offers (s.setOut n { y with discarded := satCount y.discarded 1 }) (if x.burst then s1 else raise 0x84 n y.buf.length s1) :=
    .ite hdiscarded hdiscarded.raise
  rw [if_pos (by rw [decide_eq_true h, Bool.or_true]), State.out, hout.alm]
  exact congrArg Out.buf ((State.setOut_out ..).trans (if_pos rfl))

/-- A frame of half of region 0x7, which awaits transport. -/
def longFrame : OutFrame := { seq := 4#32, bytes := List.replicate (2 ^ 29) 0#8 }

/-- A session with a client, data on, and that frame. -/
def longSession : Out := { client := some (8, 4), on := true, buf := [longFrame] }

/-- A device in OPERATE with a close for output session 3, whose entry stands behind that of session 5 in the table, an order that no
command makes. -/
def disordered : State :=
  { wGrp [(0x7A00, 1, 96, toBE 1 1 ++ toBE 1 0 ++ toBE 2 7 ++ toBE 1 2)] [wClose] with alm := { out := [(5, {}), (3, longSession)] } }

theorem longFrame_length : longFrame.bytes.length = 2 ^ 29 := List.length_replicate

theorem disordered_outBytes : disordered.outBytes = 2 ^ 29 := by
  simp [State.outBytes, disordered, longSession, longFrame_length]

/-- Session 3 as it takes the close: its entry is now there twice. -/
def doubled : State :=
  (disordered.tick 0).setOut 3 { (disordered.tick 0).out 3 with cursor := Table.set ((disordered.tick 0).out 3).cursor 2 wClose.pub 0 }

theorem disordered_out : disordered.out 3 = longSession := rfl

theorem doubled_out : doubled.alm.out = [(3, { longSession with cursor := [(2, 3)] }), (5, {}), (3, longSession)] := by
  have hentry : doubled.alm.out = Table.set disordered.alm.out 3 { longSession with cursor := [(2, 3)] } {} := rfl
  have hne : ({ longSession with cursor := [(2, 3)] } : Out) ≠ {} := fun h => absurd (congrArg Out.cursor h) (by decide)
  rw [hentry, Table.set, if_neg hne]
  rfl

theorem doubled_outBytes : doubled.outBytes = 2 ^ 30 := by
  simp [State.outBytes, doubled_out, longSession, longFrame_length]

theorem disordered_serves : disordered.outServes 3 = true := by decide
theorem disordered_active : disordered.outActive (disordered.cfFor wClose.at_).1 3 = true := by decide
theorem disordered_later : disordered.outFirst 3 wClose.at_ = false := by decide
theorem disordered_next : disordered.nextPub (fun c => if outValid c 3 then some (outGroup c 3) else none) (disordered.out 3).cursor
    (fun c => disordered.outFirst 3 c.at_ || c.kind != 0x20) = some (2, wClose) := by decide
theorem doubled_frame_length : (doubled.outFrame 3 wClose).bytes.length = 16 := by decide

/-- The frame counts the session's bytes twice, finds no room, and pushes the one before it out. -/
theorem disordered_buf : ((outData 3 (disordered.tick 0)).out 3).buf = [doubled.outFrame 3 wClose] := by
  have hgo : outData 3 (disordered.tick 0) = bufferFrame 3 wClose.rate (doubled.outFrame 3 wClose) doubled :=
    outData_buffers (s := disordered.tick 0) rfl disordered_serves disordered_active disordered_later disordered_next
  rw [hgo, bufferFrame_of_no_room (by rw [doubled_outBytes, doubled_frame_length]; decide)]
  rfl

/-- Refutes O40: its clause on data frames measures the room of region 0x7 before the close is taken, over whatever table of sessions; the
model measures it with the close taken, and in a table out of order, as no command makes it, that enters the session a second time. The
session's 2^29 bytes then count twice, and its frame is discarded where the clause has it kept. -/
theorem not_outputSessionsAct : ¬ Obligations.OutputSessionsAct := by
  unfold Obligations.OutputSessionsAct
  rintro ⟨-, -, -, -, -, -, -, hframe, -⟩
  obtain ⟨t, f, full, ht, -, -, -, hfull, hbuf, -⟩ := hframe 0 3 2 wClose disordered rfl rfl disordered_serves disordered_active disordered_later disordered_next
  obtain rfl := Host.Outcome.next.inj ((outDataFrame_runs rfl).symm.trans ht)
  rw [within_out (by decide), disordered_buf, disordered_out] at hbuf
  have hkept : [doubled.outFrame 3 wClose] = if full then [f] else [longFrame, f] := hbuf
  cases full with
  | false => exact absurd (congrArg List.length hkept) (by simp)
  | true =>
    have hf : doubled.outFrame 3 wClose = f := List.head_eq_of_cons_eq hkept
    have hroom := of_decide_eq_true hfull.symm
    rw [← hf, disordered_outBytes, doubled_frame_length] at hroom
    exact absurd hroom (by decide)

end Sys2Proof.Machine
end

section
namespace Sys2Proof.Machine
open Sys2Proof

/-! ## Readers, and the arming of groups (R322, R331 to R337) -/

/-! ### What an effect finds, and what an answer leaves -/

/-- A WRITE whose value is taken, and whose effect answers the value applied: the effect, then its answer. -/
theorem onWriteVal_takes {s : State} {m : Msg} {x : Session} {idx sub n : Nat} {v : Bytes} (h : TakesWrite s m x idx sub v n) {f : Nat → State → Nat × Nat × State}
    {st val : Nat} {u : State} (hf : f n (s.afterWrite m idx sub v x) = (st, val, u)) :
    onWriteVal m idx sub v f s = respond (x.afterWrite m idx sub v s.elapsed) 0x12 m.tag st (if st = stClamped then toBE v.length val else []) u := by
  have hw : (s.afterWrite m idx sub v x).checkWrite (x.afterWrite m idx sub v s.elapsed) idx sub v = (stOk, n) := (State.checkWrite_after h.1.2.2.1).trans h.2
  unfold onWriteVal
  rw [onMsg_takes h.1]
  simp only [hw, decide_true, Bool.true_or, if_true, hf]

/-- A command that carries such a WRITE: its answer, and the state it leaves. -/
theorem writeVal_acts {s : State} {dt : Nat} {m : Msg} {x : Session} {c : Instr} {ps : List Part} {idx sub n : Nat} {v : Bytes} {f : Nat → State → Nat × Nat × State}
    (hc : exec c s = .next (s.act ps dt (onWriteVal m idx sub v f))) (hp : .sessions ∈ ps) (hr : s.runs = true) (h : TakesWrite (s.tick dt) m x idx sub v n)
    {st val : Nat} {u : State} {z : Session} (hf : f n ((s.tick dt).afterWrite m idx sub v x) = (st, val, u)) (hu : u.session m.sid = some z)
    (hz : z.txSeq = x.txSeq) : ∃ t, exec c s = .next t ∧ Answered t m x 0x12 st ∧
      ∃ body, t = s.within ps (respond (x.afterWrite m idx sub v (s.tick dt).elapsed) 0x12 m.tag st body u) := by
  rw [hc, State.act_runs _ _ _ _ hr, onWriteVal_takes h hf]
  exact ⟨_, rfl, Answered.of_respond _ st _ _ _ h.1.2.1 hu hz hp s, _, rfl⟩

/-- The session and the state as the effect of a READ finds them. -/
abbrev Session.afterRead (x : Session) (m : Msg) (idx sub off n now : Nat) : Session := x.after m 0x10 (readPayload idx sub off n) now
abbrev State.afterRead (s : State) (m : Msg) (idx sub off n : Nat) (x : Session) : State := s.afterTake m 0x10 (readPayload idx sub off n) x

/-- The session has its own ID there. -/
theorem State.afterRead_found {s : State} {m : Msg} {x : Session} {idx sub off n : Nat} (h : s.session m.sid = some x) :
    (s.afterRead m idx sub off n x).session (x.afterRead m idx sub off n s.elapsed).id = some (x.afterRead m idx sub off n s.elapsed) := by
  rw [(Session.after_same ..).1, State.session_id h, State.afterTake_self h]

/-- A command that carries a READ whose effect leaves the session its number: the response, and the state it leaves. -/
theorem read_gives {s : State} {dt : Nat} {m : Msg} {x : Session} {c : Instr} {ps : List Part} {idx sub off n : Nat} {f : Session → State → Nat × Bytes × State}
    (hc : exec c s = .next (s.act ps dt (onMsg m 0x10 (readPayload idx sub off n) f))) (hp : .sessions ∈ ps) (hr : s.runs = true)
    (h : Takes (s.tick dt) m x 0x10 (readPayload idx sub off n)) {st : Nat} {body : Bytes} {u : State}
    (hf : f (x.afterRead m idx sub off n (s.tick dt).elapsed) ((s.tick dt).afterRead m idx sub off n x) = (st, body, u))
    (hu : ∃ z, u.session (x.afterRead m idx sub off n (s.tick dt).elapsed).id = some z ∧ z.txSeq = (x.afterRead m idx sub off n (s.tick dt).elapsed).txSeq) :
    ∃ t rp, exec c s = .next t ∧ Answered t m x 0x10 st ∧ t.osr.resp = some rp ∧ rp.body = body ∧
      t = s.within ps (respond (x.afterRead m idx sub off n (s.tick dt).elapsed) 0x10 m.tag st body u) := by
  obtain ⟨z, hz, hseq⟩ := hu
  have hid : (x.afterRead m idx sub off n (s.tick dt).elapsed).id = m.sid := (Session.after_same ..).1.trans (State.session_id h.2.1)
  obtain ⟨t, ht, ha, rfl⟩ := msg_acts hc hp hr h hf (by rw [← hid, hz]) (by simpa using hseq)
  obtain ⟨rp, hresp, -, -, -, -, -, hbody⟩ := respond_resp hz 0x10 m.tag st body
  exact ⟨_, rp, ht, ha, by simp only [State.within_osr, if_pos hp, hresp], hbody, rfl⟩

/-- A message that is taken leaves the readers and the records. -/
theorem State.afterTake_readers (s : State) (dt : Nat) (m : Msg) (type : Nat) (p : Bytes) (x : Session) :
    (∀ r, ((s.tick dt).afterTake m type p x).rdr r = s.rdr r) ∧ (∀ q, ((s.tick dt).afterTake m type p x).nextStored q = s.nextStored q) ∧
      ((s.tick dt).afterTake m type p x).oldestSeq = s.oldestSeq ∧ (∀ n, ((s.tick dt).afterTake m type p x).storedSeq n = s.storedSeq n) := by
  simp [State.rdr, State.nextStored, State.oldestSeq, State.grp, State.storedSeq]

/-- It leaves the groups, which of them are valid, and whether the engine runs. -/
theorem State.afterTake_groups (s : State) (dt : Nat) (m : Msg) (type : Nat) (p : Bytes) (x : Session) :
    (∀ g, ((s.tick dt).afterTake m type p x).grp g = s.grp g) ∧ ((s.tick dt).afterTake m type p x).validGroups = s.validGroups ∧
      ((s.tick dt).afterTake m type p x).acqRuns = s.acqRuns := by
  simp [State.grp, State.validGroups, State.cf, State.acqRuns, State.hasAcq]

/-- An answer leaves a reader as the effect of its message has left it. -/
theorem answered_rdr {s u : State} {ps : List Part} {x : Session} {type tag status : Nat} {body : Bytes} (hp : .reader ∈ ps) (r : Nat) :
    (s.within ps (respond x type tag status body u)).rdr r = u.rdr r := by simp [State.rdr, hp]

/-- An effect that sets reader `r`, once it is answered: that reader is as it was set, and the others are as before. -/
theorem answered_setRdr {s u : State} {ps : List Part} {x : Session} {type tag status r : Nat} {body : Bytes} {y : Reader} (hp : .reader ∈ ps)
    (hu : ∀ k, u.rdr k = s.rdr k) : (s.within ps (respond x type tag status body (u.setRdr r y))).rdr r = y ∧
      ∀ k, k ≠ r → (s.within ps (respond x type tag status body (u.setRdr r y))).rdr k = s.rdr k := by
  simp only [answered_rdr hp, State.setRdr_rdr, if_true, true_and]
  exact fun k hk => (if_neg hk).trans (hu k)

/-- An answer leaves a group as the effect of its message has left it. -/
theorem answered_grp {s u : State} {ps : List Part} {x : Session} {type tag status : Nat} {body : Bytes} (hp : .acq ∈ ps) (g : Nat) :
    (s.within ps (respond x type tag status body u)).grp g = u.grp g := by simp [State.grp, hp]

/-! ### Reads (R331, R332, R334) -/

/-- What a READ of a reader looks at, beside the sessions, is the same in two states. -/
structure ReadsAlike (s t : State) : Prop where
  acq : t.acq = s.acq
  time : t.time = s.time
  variant : t.variant = s.variant
  mode : t.mode = s.mode

namespace ReadsAlike
variable {s t : State}

theorem afterTake (s : State) (m : Msg) (type : Nat) (p : Bytes) (x : Session) : ReadsAlike s (s.afterTake m type p x) := by constructor <;> simp

theorem touchSnap (h : ReadsAlike s t) (x : Session) : ReadsAlike s (touchSnap x t) := by
  obtain ⟨hacq, htime, hvariant, hmode⟩ := h
  unfold Machine.touchSnap
  cases t.session x.id <;> exact ⟨hacq, htime, hvariant, hmode⟩

theorem rdr (h : ReadsAlike s t) (r : Nat) : t.rdr r = s.rdr r := by
  unfold State.rdr
  rw [h.acq]

theorem reaches (h : ReadsAlike s t) (uart : Bool) (k : Reach) (idx sub : Nat) : t.reaches uart k idx sub = s.reaches uart k idx sub := by
  unfold State.reaches
  rw [h.mode]

theorem readerRec (h : ReadsAlike s t) (r : Nat) : t.readerRec r = s.readerRec r := by
  unfold State.readerRec
  rw [h.acq, h.rdr]

/-- What is exported is its record's and the timebase's. -/
theorem exportCfg (h : ReadsAlike s t) (z : Rec) : t.exportCfg z = s.exportCfg z := by
  have hline : ∀ ns, t.exportTime ns = s.exportTime ns := fun ns => by
    unfold State.exportTime State.socOf
    rw [h.time]
  unfold State.exportCfg
  simp only [hline]

theorem readerBytes (h : ReadsAlike s t) (r sub : Nat) : t.readerBytes r sub = s.readerBytes r sub := by
  unfold State.readerBytes
  simp only [h.readerRec, h.exportCfg, h.rdr]

end ReadsAlike

/-- The end of a snapshot leaves the readers. -/
theorem dropSnap_rdr (x : Session) (s : State) (r : Nat) : (dropSnap x s).rdr r = s.rdr r := by
  unfold dropSnap
  cases s.session x.id <;> rfl

/-- A session replaced under its ID is there, and a change of something else of it leaves its number. -/
theorem setSession_keepsNumber {sid : Nat} {y w : Session} {s : State} (h : s.session sid = some y) (hid : w.id = y.id) (hseq : w.txSeq = y.txSeq) :
    ∃ z, (s.setSession w).session sid = some z ∧ z.txSeq = y.txSeq :=
  ⟨w, (State.session_set_self h hid sid).trans (if_pos rfl), hseq⟩

/-- A session that makes a READ keeps its number. -/
theorem touchSnap_session {x y : Session} {s : State} (h : s.session x.id = some y) : ∃ z, (touchSnap x s).session x.id = some z ∧ z.txSeq = y.txSeq := by
  unfold touchSnap
  simp only [h]
  exact setSession_keepsNumber h rfl rfl

/-- So does one whose snapshot ends. -/
theorem dropSnap_session {x y : Session} {s : State} (h : s.session x.id = some y) : ∃ z, (dropSnap x s).session x.id = some z ∧ z.txSeq = y.txSeq := by
  unfold dropSnap
  simp only [h]
  exact setSession_keepsNumber h rfl rfl

/-- So does one whose READ begins a record. -/
theorem readBegun_session {x : Session} {s : State} (h : s.session x.id = some x) (r : Nat) (y : Reader) :
    ∃ z, (dropSnap x ((touchSnap x s).setRdr r y)).session x.id = some z ∧ z.txSeq = x.txSeq := by
  obtain ⟨z, hz, hseq⟩ := touchSnap_session h
  obtain ⟨w, hw, hwz⟩ := dropSnap_session (s := (touchSnap x s).setRdr r y) hz
  exact ⟨w, hw, hwz.trans hseq⟩

/-- A read from offset 0 that is within its bounds: it begins the record it gives. -/
theorem readerRead_begins {r sub n : Nat} {x : Session} {s t : State} (h : ReadsAlike s t) (h0 : 0 < n) (hn : n ≤ 1280)
    (habs : objAbsent s.variant (0x8500 + r) sub = false) (hreach : s.reaches x.uart .look (0x8500 + r) sub = true) :
    readerRead r sub 0 n x t = (stOk, readBody 11 (s.readerBytes r sub) 0 n,
      dropSnap x ((touchSnap x t).setRdr r { s.rdr r with reading := (s.readerRec r).map (·.seq) })) := by
  have h' := h.touchSnap x
  have hinside : (n = 0 || 1280 < n) = false := by simp [Nat.pos_iff_ne_zero.mp h0, hn]
  unfold readerRead
  simp only [h'.variant, habs, h'.reaches, hreach, h'.rdr, hinside, h'.readerRec, h'.readerBytes]
  cases (s.rdr r).reading <;> rfl

/-- A read of the flags clears the first (R334). -/
theorem readerFlags_clears {r : Nat} {x : Session} {s t : State} (h : ReadsAlike s t) (habs : objAbsent s.variant (0x8410 + r) 8 = false)
    (hreach : s.reaches x.uart .look (0x8410 + r) 8 = true) :
    readerFlags r x t = (stOk, readBody 1 (toBE 1 (s.rdr r).flags) 0 1, (touchSnap x t).setRdr r { s.rdr r with flags := (s.rdr r).flags / 2 * 2 }) := by
  have h' := h.touchSnap x
  unfold readerFlags
  simp only [h'.variant, habs, h'.reaches, hreach, h'.rdr, Bool.not_true, Bool.false_eq_true, if_false]

/-! ### Writes (R333, R337) -/

/-- A reader with a stored record after its own moves to it. -/
theorem readerAdvance_moves {r n : Nat} {q : Seq} {s : State} (h : s.nextStored (s.rdr r).cur = some q) (x : Session) :
    readerAdvance r x n s = (stOk, s.setRdr r { s.rdr r with cur := q, reading := none }) := by
  unfold readerAdvance
  simp only [h]

/-- A reader that rewinds: to its mark, or, with the mark lost, to the oldest record. -/
theorem readerRewind_returns (r n : Nat) (x : Session) (s : State) : ∃ y, readerRewind r x n s = (if bit (s.rdr r).flags 1 then stMarkLost else stOk, s.setRdr r y) ∧
    y.cur = if bit (s.rdr r).flags 1 then s.oldestSeq else (s.rdr r).mark := by
  unfold readerRewind
  dsimp only
  cases bit (s.rdr r).flags 1
  · exact ⟨{ s.rdr r with cur := (s.rdr r).mark, reading := none }, rfl, rfl⟩
  · exact ⟨{ s.rdr r with cur := s.oldestSeq, first := (s.rdr r).mark, last := s.oldestSeq - 1#32, reading := none }, rfl, rfl⟩

/-- A sequence that is stored is taken as it is. -/
theorem State.storedSeq_stored {n : Nat} {s : State} (h : s.acq.recs.any (fun z => z.seq = BitVec.ofNat 32 n) = true) : s.storedSeq n = (stOk, BitVec.ofNat 32 n) := if_pos h

/-- A sequence taken is the current one. -/
theorem readerSetSeq_stored {r n : Nat} {q : Seq} {s : State} (h : s.storedSeq n = (stOk, q)) :
    readerSetSeq r n s = (stOk, q.toNat, s.setRdr r { s.rdr r with cur := q, reading := none }) := by
  unfold readerSetSeq
  rw [h]

/-- A sequence taken is the mark, which is not lost any more. -/
theorem readerSetMark_stored {r n : Nat} {q : Seq} {s : State} (h : s.storedSeq n = (stOk, q)) :
    readerSetMark r n s = (stOk, q.toNat, s.setRdr r { s.rdr r with mark := q, flags := (s.rdr r).flags % 2 }) := by
  unfold readerSetMark
  rw [h]

/-! ### Groups (R322, R337) -/

/-- A group once it is armed, while the engine runs or not. -/
def GroupA.armed (runs : Bool) (x : GroupA) : GroupA := { x with state := if x.state = 3 && runs then 1 else x.state, off := false }

/-- A group once it is disarmed. -/
def GroupA.disarmed (x : GroupA) : GroupA :=
  if x.state = 2 || (x.state = 1 && x.seq.isSome) then { x with off := true } else { x with state := if x.state = 1 then 3 else x.state }

/-- An armed group without a trigger that waits is disarmed at once. -/
theorem GroupA.disarmed_of_armed {x : GroupA} (h : x.state = 1) (hseq : x.seq = none) : x.disarmed.state = 3 := by
  simp [GroupA.disarmed, h, hseq]

/-- A group in capture completes its record first. -/
theorem GroupA.disarmed_of_capture {x : GroupA} (h : x.state = 2) : x.disarmed.state = 2 ∧ x.disarmed.off = true := by
  simp [GroupA.disarmed, h]

theorem armGroup_eq (g : Nat) (s : State) : armGroup g s = s.setGrp g ((s.grp g).armed s.acqRuns) := rfl

theorem disarmGroup_eq (g : Nat) (s : State) : disarmGroup g s = s.setGrp g (s.grp g).disarmed :=
  (apply_ite (s.setGrp g) _ _ _).symm

/-- A step on each group of a list, in terms of the group and of whether the engine runs: those listed take it, once each, and nothing else
that it looks at changes. -/
theorem each_setGrp {f : Nat → State → State} {φ : Bool → GroupA → GroupA} (hf : ∀ g s, f g s = s.setGrp g (φ s.acqRuns (s.grp g))) {xs : List Nat} (hnd : xs.Nodup)
    (s : State) : (∀ k, (each xs f s).grp k = if k ∈ xs then φ s.acqRuns (s.grp k) else s.grp k) ∧ (each xs f s).osr = s.osr := by
  induction xs generalizing s with
  | nil => exact ⟨fun k => (if_neg List.not_mem_nil).symm, rfl⟩
  | cons g r ih =>
    obtain ⟨hg, hr⟩ := List.nodup_cons.mp hnd
    obtain ⟨hgrp, hosr⟩ := ih hr (f g s)
    have hruns : (f g s).acqRuns = s.acqRuns := by rw [hf]; rfl
    have hfirst : ∀ k, (f g s).grp k = if k = g then φ s.acqRuns (s.grp g) else s.grp k := fun k => by rw [hf, State.setGrp_grp]
    refine ⟨fun k => ?_, hosr.trans (by rw [hf]; rfl)⟩
    rw [show each (g :: r) f s = each r f (f g s) from rfl, hgrp, hruns, hfirst]
    by_cases hk : k = g
    · simp [hk, hg]
    · simp [hk]

/-- A write that names valid groups only: they take the step, and no other. -/
theorem eachGroup_named {f : Nat → State → State} {φ : Bool → GroupA → GroupA} (hf : ∀ g s, f g s = s.setGrp g (φ s.acqRuns (s.grp g))) {n : Nat} {s : State}
    (hn : n.land s.validGroups = n) : ∃ u, eachGroup n f s = (stOk, n, u) ∧ u.osr = s.osr ∧ (∀ g, g < 16 → bit n g = true → u.grp g = φ s.acqRuns (s.grp g)) ∧
      (∀ k, bit n k = false → u.grp k = s.grp k) := by
  obtain ⟨hgrp, hosr⟩ := each_setGrp hf (List.nodup_range.filter (bit n)) (xs := (List.range 16).filter (bit n)) s
  refine ⟨_, ?_, hosr, fun g h16 hg => ?_, fun k hk => ?_⟩
  · unfold eachGroup
    simp only [hn, if_true]
  · rw [hgrp, if_pos (List.mem_filter.mpr ⟨List.mem_range.mpr h16, hg⟩)]
  · rw [hgrp, if_neg fun hmem => by simp [hk] at hmem]

/-- The command of a WRITE that names valid groups only, which steps each of them. -/
theorem groupWrite_acts {s : State} {dt idx sub n : Nat} {m : Msg} {x : Session} {v : Bytes} {c : Instr} {ps : List Part} {f : Nat → State → State} {φ : Bool → GroupA → GroupA}
    (hc : exec c s = .next (s.act ps dt (onWriteVal m idx sub v (fun n t => eachGroup n f t)))) (hps : [.sessions, .acq] ⊆ ps) (hr : s.runs = true)
    (h : TakesWrite (s.tick dt) m x idx sub v n) (hn : n.land s.validGroups = n) (hf : ∀ g u, f g u = u.setGrp g (φ u.acqRuns (u.grp g))) :
    ∃ t, exec c s = .next t ∧ Answered t m x 0x12 stOk ∧ (∀ g, g < 16 → bit n g = true → t.grp g = φ s.acqRuns (s.grp g)) ∧ (∀ k, bit n k = false → t.grp k = s.grp k) := by
  obtain ⟨hgrp, hvalid, hruns⟩ := s.afterTake_groups dt m 0x12 (objPayload idx sub (zeros 1 ++ v)) x
  obtain ⟨u, hu, hosr, hnamed, hothers⟩ := eachGroup_named hf (s := (s.tick dt).afterWrite m idx sub v x) (by rw [hvalid, hn])
  have hsession : u.session m.sid = some (x.afterWrite m idx sub v (s.tick dt).elapsed) :=
    (State.session_congr (congrArg OsrU.sessions hosr) _).trans (State.afterTake_self h.1.2.1)
  obtain ⟨t, ht, ha, body, rfl⟩ := writeVal_acts hc (hps List.mem_cons_self) hr h hu hsession (by simp)
  have hacq : Part.acq ∈ ps := hps (by simp)
  exact ⟨_, ht, ha, fun g h16 hg => by rw [answered_grp hacq, hnamed g h16 hg, hruns, hgrp], fun k hk => by rw [answered_grp hacq, hothers k hk, hgrp]⟩

/-! ### The commands -/

/-- A command whose operands name an object of a reader acts on it. -/
theorem exec_guarded {c : Instr} {s : State} {ps : List Part} {dt : Nat} {p : Prop} [Decidable p] {f : State → State}
    (hc : exec c s = .next (s.act ps dt (if p then f else id))) (h : p) : exec c s = .next (s.act ps dt f) := by
  rw [hc, if_pos h]

/-- The command of a WRITE whose effect sets reader `r`: that reader is as it was set, and the others are as before. -/
theorem readerWrite_sets {s : State} {dt idx sub n r st : Nat} {m : Msg} {x : Session} {v : Bytes} {c : Instr} {ps : List Part} {f : Session → Nat → State → Nat × State}
    {y : Reader} (hc : exec c s = .next (s.act ps dt (onWrite m idx sub v f))) (hps : [.sessions, .reader] ⊆ ps) (hr : s.runs = true) (h : TakesWrite (s.tick dt) m x idx sub v n)
    (hf : f (x.afterWrite m idx sub v (s.tick dt).elapsed) n ((s.tick dt).afterWrite m idx sub v x) = (st, ((s.tick dt).afterWrite m idx sub v x).setRdr r y)) :
    ∃ t, exec c s = .next t ∧ Answered t m x 0x12 st ∧ t.rdr r = y ∧ ∀ k, k ≠ r → t.rdr k = s.rdr k := by
  obtain ⟨t, ht, ha, body, rfl⟩ := write_acts hc (hps List.mem_cons_self) hr h hf (State.afterTake_self h.1.2.1) (by simp)
  exact ⟨_, ht, ha, answered_setRdr (hps (by simp)) (s.afterTake_readers dt m 0x12 _ x).1⟩

/-- The same of a WRITE whose effect answers the value applied. -/
theorem readerWriteVal_sets {s : State} {dt idx sub n r st val : Nat} {m : Msg} {x : Session} {v : Bytes} {c : Instr} {ps : List Part} {f : Nat → State → Nat × Nat × State}
    {y : Reader} (hc : exec c s = .next (s.act ps dt (onWriteVal m idx sub v f))) (hps : [.sessions, .reader] ⊆ ps) (hr : s.runs = true)
    (h : TakesWrite (s.tick dt) m x idx sub v n) (hf : f n ((s.tick dt).afterWrite m idx sub v x) = (st, val, ((s.tick dt).afterWrite m idx sub v x).setRdr r y)) :
    ∃ t, exec c s = .next t ∧ Answered t m x 0x12 st ∧ t.rdr r = y ∧ ∀ k, k ≠ r → t.rdr k = s.rdr k := by
  obtain ⟨t, ht, ha, body, rfl⟩ := writeVal_acts hc (hps List.mem_cons_self) hr h hf (State.afterTake_self h.1.2.1) (by simp)
  exact ⟨_, ht, ha, answered_setRdr (hps (by simp)) (s.afterTake_readers dt m 0x12 _ x).1⟩

/-- Settles O42, command by command. -/
theorem readersAct : Obligations.ReadersAct := by
  unfold Obligations.ReadersAct
  refine ⟨fun dt r sub n m s x hr h h8 h1 h3 h0 hn habs hreach => ?read, fun dt r n q m v s x hr h h8 hq => ?advance, fun dt r n m v s x hr h h8 => ?rewind,
    fun dt r n m v s x hr h h8 hq => ?sequence, fun dt r n m v s x hr h h8 hq => ?mark, fun dt r m s x hr h h8 habs hreach => ?flags,
    fun dt r n m v s x hr h h8 => ?enable, fun dt n g m v s x hr h hvalid h16 hg hruns hoff => ?arm, fun dt n g m v s x hr h hvalid h16 hg => ?disarm⟩
  case read =>
    have huart : (x.afterRead m (0x8500 + r) sub 0 n (s.tick dt).elapsed).uart = x.uart := by simp [h.2.2.1]
    have hin : r < 8 && 1 ≤ sub && sub ≤ 3 := by simp [h8, h1, h3]
    obtain ⟨t, rp, ht, ha, hresp, hbody, rfl⟩ := read_gives (c := .readerRead dt m r sub 0 n) (exec_guarded rfl hin) (by decide) hr h
      (readerRead_begins (.afterTake ..) h0 hn habs (huart ▸ hreach)) (readBegun_session (State.afterRead_found h.2.1) ..)
    refine ⟨_, rp, ht, ha, hresp, hbody, ?_⟩
    simp only [answered_rdr (ps := [.events, .stats, .sessions, .reader, .keyPort]) (by decide), dropSnap_rdr, State.setRdr_rdr, if_true]
    exact ⟨rfl, rfl⟩
  case advance =>
    obtain ⟨hrdr, hnext, -, -⟩ := s.afterTake_readers dt m 0x12 (objPayload (0x8410 + r) 3 (zeros 1 ++ v)) x
    rw [← hrdr]
    exact readerWrite_sets (c := .readerAdvance dt m r v) (exec_guarded rfl h8) (by decide) hr h (readerAdvance_moves (by rw [hnext, hrdr, hq]) _)
  case rewind =>
    obtain ⟨hrdr, -, hold, -⟩ := s.afterTake_readers dt m 0x12 (objPayload (0x8410 + r) 4 (zeros 1 ++ v)) x
    obtain ⟨y, hgo, hcur⟩ := readerRewind_returns r n (x.afterWrite m (0x8410 + r) 4 v (s.tick dt).elapsed) ((s.tick dt).afterWrite m (0x8410 + r) 4 v x)
    rw [hrdr] at hgo hcur
    obtain ⟨t, ht, ha, hset, hothers⟩ := readerWrite_sets (c := .readerRewind dt m r v) (exec_guarded rfl h8) (by decide) hr h hgo
    exact ⟨t, ht, ha, by rw [hset, hcur, hold], hothers⟩
  case sequence =>
    obtain ⟨hrdr, -, -, hstored⟩ := s.afterTake_readers dt m 0x12 (objPayload (0x8410 + r) 1 (zeros 1 ++ v)) x
    have hgo := readerSetSeq_stored (r := r) ((hstored n).trans (State.storedSeq_stored hq))
    rw [hrdr] at hgo
    obtain ⟨t, ht, ha, hset, -⟩ := readerWriteVal_sets (c := .readerSetSequence dt m r v) (exec_guarded rfl h8) (by decide) hr h hgo
    exact ⟨t, ht, ha, hset⟩
  case mark =>
    obtain ⟨hrdr, -, -, hstored⟩ := s.afterTake_readers dt m 0x12 (objPayload (0x8410 + r) 2 (zeros 1 ++ v)) x
    have hgo := readerSetMark_stored (r := r) ((hstored n).trans (State.storedSeq_stored hq))
    rw [hrdr] at hgo
    obtain ⟨t, ht, ha, hset, -⟩ := readerWriteVal_sets (c := .readerSetMark dt m r v) (exec_guarded rfl h8) (by decide) hr h hgo
    exact ⟨t, ht, ha, hset⟩
  case flags =>
    have huart : (x.afterRead m (0x8410 + r) 8 0 1 (s.tick dt).elapsed).uart = x.uart := by simp [h.2.2.1]
    obtain ⟨t, rp, ht, ha, hresp, hbody, rfl⟩ := read_gives (c := .readerFlagsRead dt m r) (exec_guarded rfl h8) (by decide) hr h
      (readerFlags_clears (.afterTake ..) habs (huart ▸ hreach)) (touchSnap_session (State.afterRead_found h.2.1))
    refine ⟨_, rp, ht, ha, hresp, hbody, ?_⟩
    rw [answered_rdr (by decide), State.setRdr_rdr, if_pos rfl]
    rfl
  case enable =>
    obtain ⟨hrdr, -, -, -⟩ := s.afterTake_readers dt m 0x12 (objPayload (0x8410 + r) 9 (zeros 1 ++ v)) x
    obtain ⟨t, ht, ha, hset, -⟩ := readerWrite_sets (c := .exportEnable dt m r v) (exec_guarded rfl h8) (by decide) hr h rfl
    exact ⟨t, ht, ha, by rw [hset, hrdr]⟩
  case arm =>
    obtain ⟨t, ht, ha, hnamed, hothers⟩ := groupWrite_acts (c := .armGroup dt m v) rfl (by decide) hr h hvalid armGroup_eq
    exact ⟨t, ht, ha, by simp [hnamed g h16 hg, GroupA.armed, hoff, hruns], hothers⟩
  case disarm =>
    obtain ⟨t, ht, ha, hnamed, hothers⟩ := groupWrite_acts (c := .disarmGroup dt m v) (φ := fun _ => GroupA.disarmed) rfl (by decide) hr h hvalid disarmGroup_eq
    have hgrp := hnamed g h16 hg
    exact ⟨t, ht, ha, fun h1 hseq => hgrp ▸ GroupA.disarmed_of_armed h1 hseq, fun h2 => hgrp ▸ GroupA.disarmed_of_capture h2, hothers⟩

end Sys2Proof.Machine
end

section
namespace Sys2Proof.Machine
open Sys2Proof

/-! ## What Hedgerow's commands share (R340 to R351) -/

/-- Where `v` was set, it is read; before that place a missing element is `v` too, and behind it the list is as it was. -/
theorem listSet_getD {α : Type} (xs : List α) (i : Nat) (v : α) (j : Nat) (d : α) :
    (listSet xs i v).getD j d = if j = i then v else if j < i then xs.getD j v else xs.getD j d := by
  unfold listSet
  by_cases hj : j < max xs.length (i + 1)
  · by_cases hji : j = i
    · simp [hji]
    · have hin : ¬ j < i → j < xs.length := by omega
      by_cases hlt : j < i
      · simp [hj, hji, hlt]
      · simp [hj, hji, hlt, hin hlt]
  · have hout : xs.length ≤ j ∧ ¬ j = i ∧ ¬ j < i := by omega
    simp [hj, hout]

theorem listSet_self {α : Type} (xs : List α) (i : Nat) (v d : α) : (listSet xs i v).getD i d = v := by rw [listSet_getD, if_pos rfl]

/-- A default that is set changes nothing but its place. -/
theorem listSet_default {α : Type} (xs : List α) (i j : Nat) (d : α) : (listSet xs i d).getD j d = if j = i then d else xs.getD j d := by
  rw [listSet_getD, ite_self]

theorem within_hr {s t : State} {ps : List Part} (h : .hr ∈ ps) : (s.within ps t).hr = t.hr := by simp [h]
theorem within_wkr {s t : State} {ps : List Part} (h : .hr ∈ ps) (w : Nat) : (s.within ps t).wkr w = t.wkr w := by simp [State.wkr, h]
theorem within_bus {s t : State} {ps : List Part} (h : .bus ∈ ps) : (s.within ps t).bus = t.bus := by simp [h]
theorem within_line {s t : State} {ps : List Part} (h : .bus ∈ ps) (l : Nat) : (s.within ps t).line l = t.line l := by simp [State.line, h]

/-- Hedgerow runs only where it is (R340). -/
theorem State.hasHr_of_runs {s : State} {role : Nat} (h : s.hrRuns role = true) : s.hasHr = true := by
  simp only [State.hrRuns, Bool.and_eq_true] at h
  exact h.1.1.1

theorem State.hrRole_of_runs {s : State} {role : Nat} (h : s.hrRuns role = true) : s.hrRole = role := by
  simp only [State.hrRuns, Bool.and_eq_true, decide_eq_true_eq] at h
  exact h.1.1.2

/-- The events of Hedgerow are there where it is (R6, R340). -/
theorem raise_hr_latched {id inst param : Nat} {s u : State} (hid : 0xA0 ≤ id ∧ id ≤ 0xA5) (h : s.hasHr = true) (hu : u.variant = s.variant) :
    Latched (raise id inst param u) id inst := by
  have hv : ¬ 2 ≤ u.variant := hu ▸ Nat.not_le.mpr (Nat.lt_succ_of_le (of_decide_eq_true h))
  refine raise_latched _ _ _ _ ?_ ?_
  · have a : ¬ id ≤ 0x67 := by omega
    have b : ¬ id ≤ 0x24 := by omega
    simp [eventAbsent, hv, a, b]
  · have below : ¬ id ≤ 0x9F ∧ ¬ 0xA6 ≤ id := by omega
    have afar : ∀ k, k < 0xA0 → ¬ id ≤ k := by omega
    have beyond : ∀ k, 0xA6 ≤ k → ¬ k ≤ id := by omega
    have other : id ≠ 0xF7 := by omega
    simp [eventReserved, afar, beyond, other]

theorem State.setWkr_self (s : State) (w : Nat) (x : Worker) : (s.setWkr w x).wkr w = x := by rw [State.setWkr_wkr, if_pos rfl]

theorem raise_wkr (id inst param : Nat) (s : State) (w : Nat) : (raise id inst param s).wkr w = s.wkr w := by simp [State.wkr]

theorem Counted.satEvent {s t : State} {old n key ev inst param : Nat} (h : Counted s t) :
    Counted s (satEvent old n key ev inst param t) := by
  unfold Machine.satEvent
  split
  · exact h
  · exact .raise (show Counted s _ from h)

/-! ### States of workers and of this device (R351) -/

theorem setWkState_wkr (w st : Nat) (s : State) (v : Nat) : (setWkState w st s).wkr v = if v = w then { s.wkr w with state := st } else s.wkr v := by
  unfold setWkState
  extract_lets x
  split
  · next h =>
    split
    · next hv => rw [hv, ← h]
    · rfl
  · rw [raise_wkr, State.setWkr_wkr]

theorem setWkState_latched {w st : Nat} {s : State} (h : s.hasHr = true) (hst : (s.wkr w).state ≠ st) : Latched (setWkState w st s) 0xA1 w := by
  rw [setWkState, if_neg hst]
  exact raise_hr_latched (by decide) h rfl

theorem setMgrState_changes {st : Nat} {s : State} (h : s.hasHr = true) (hst : s.hr.state ≠ st) :
    (setMgrState st s).hr = { s.hr with state := st } ∧ Latched (setMgrState st s) 0xA2 0 := by
  rw [setMgrState, if_neg hst]
  exact ⟨by simp [State.setHr], raise_hr_latched (by decide) h rfl⟩

/-! ### Copies of frames (R350, R367) -/

/-- A state without its counts and latches, and without the numbers of the frames it has received. -/
def State.unheard (s : State) : State := { s.uncounted with hr := { s.hr with rx := [] } }

/-- Work that only counts, tells, and notes which copies have come. -/
def Copies (s t : State) : Prop := t.unheard = s.unheard

namespace Copies
variable {s t u : State}

theorem refl (s : State) : Copies s s := rfl

/-- What can be read without counts, latches and numbers received is as it was. -/
theorem same {α : Type} (h : Copies s t) {f : State → α} (hf : ∀ u : State, f u.unheard = f u) : f t = f s := by
  rw [← hf t, h, hf s]

theorem counted (h : Copies s t) (k : Counted t u) : Copies s u :=
  Eq.trans (congrArg (fun v : State => { v with hr := { v.hr with rx := [] } }) k) h

theorem wkr (h : Copies s t) (w : Nat) : t.wkr w = s.wkr w := h.same (f := (·.wkr w)) fun _ => rfl
theorem line (h : Copies s t) (l : Nat) : t.line l = s.line l := h.same (f := (·.line l)) fun _ => rfl
theorem bus (h : Copies s t) : t.bus = s.bus := h.same (f := State.bus) fun _ => rfl
theorem time (h : Copies s t) : t.time = s.time := h.same (f := State.time) fun _ => rfl
theorem cf (h : Copies s t) : t.cf = s.cf := h.same (f := State.cf) fun _ => rfl
theorem cfg (h : Copies s t) : t.cfg = s.cfg := h.same (f := State.cfg) fun _ => rfl
theorem variant (h : Copies s t) : t.variant = s.variant := h.same (f := State.variant) fun _ => rfl
theorem mode (h : Copies s t) : t.mode = s.mode := h.same (f := State.mode) fun _ => rfl
theorem ing (h : Copies s t) : t.ing = s.ing := h.same (f := State.ing) fun _ => rfl
theorem align (h : Copies s t) : t.align = s.align := h.same (f := State.align) fun _ => rfl
theorem hasHr (h : Copies s t) : t.hasHr = s.hasHr := h.same (f := State.hasHr) fun _ => rfl

/-- Of Hedgerow only the numbers received differ. -/
theorem hr (h : Copies s t) : t.hr = { s.hr with rx := t.hr.rx } := congrArg (fun v : State => { v.hr with rx := t.hr.rx }) h

/-- A command that does no more changes those parts alone, whatever more it may. -/
theorem onlyParts {dt : Nat} {ps : List Part} (h : Copies (s.tick dt) u) (he : .events ∈ ps) (hs : .stats ∈ ps) (hh : .hr ∈ ps) :
    OnlyParts s dt [.events, .stats, .hr] (s.within ps u) := by
  have hu : u = { s.tick dt with stats := u.stats, sticky := u.sticky, ev := { s.ev with latch := u.ev.latch }, hr := u.hr } :=
    congrArg (fun v : State => { v with stats := u.stats, sticky := u.sticky, ev := { v.ev with latch := u.ev.latch }, hr := u.hr }) h
  refine ⟨⟨u, ?_⟩, congrArg TimeU.elapsed h.time⟩
  rw [hu]
  by_cases ht : Part.time ∈ ps <;> simp [State.within, State.tick, he, hs, hh, ht]

end Copies

section Copy
variable (src type lane seq : Nat) (both : Bool) (s : State)

theorem takeCopy_damaged : takeCopy src type lane seq false both s = (false, count 0xE080 2 s) := rfl

/-- A good copy is counted once, the numbers that both lanes have missed are counted, and a copy of no use is counted again. -/
theorem takeCopy_good : ∃ rx missed again, (takeCopy src type lane seq true both s).2 =
    when again (count 0xE080 3) (countN 0xE080 4 missed (count 0xE080 1 (s.setHr { s.hr with rx := rx }))) := by
  unfold takeCopy
  rw [if_neg (by decide)]
  extract_lets key x other up brought own skipped open_ late gone kept gaps last y hr s1
  refine ⟨Table.set s.hr.rx key y {}, gone.length, (brought seq || own) && !both, ?_⟩
  change _ = when _ (count 0xE080 3) s1
  cases brought seq || own
  · rfl
  · cases both <;> rfl

theorem takeCopy_copies (crcOk : Bool) : Copies s (takeCopy src type lane seq crcOk both s).2 := by
  cases crcOk with
  | false => exact (Copies.refl s).counted (Counted.refl s).countN
  | true =>
    obtain ⟨rx, missed, again, h⟩ := takeCopy_good src type lane seq both s
    rw [h]
    have hnoted : Copies s (s.setHr { s.hr with rx := rx }) := rfl
    cases again
    · exact hnoted.counted (Counted.refl _).countN.countN
    · exact hnoted.counted (Counted.refl _).countN.countN.countN

theorem takeCopy_ctr : (takeCopy src type lane seq true both s).2.ctr 0xE080 1 = min (s.ctr 0xE080 1 + 1) ctrMax := by
  obtain ⟨rx, missed, again, h⟩ := takeCopy_good src type lane seq both s
  have hset : (s.setHr { s.hr with rx := rx }).ctr 0xE080 1 = s.ctr 0xE080 1 := rfl
  rw [h]
  cases again <;> simp [hset]

end Copy

theorem forgetSource_copies (src : Nat) (s : State) : Copies s (forgetSource src s) := rfl

section FromWorker
variable {type : Nat} {x : HrRx} {s : State} (f : State → State)

/-- The first good copy of a registered worker's frame has its effect. -/
theorem fromWorker_first (htakes : s.takesFrom x.worker = true) (hlane : x.lane < 2) (hfence : s.fenced 18 x.lane = false)
    (hfirst : (takeCopy x.worker type x.lane x.seq x.crcOk false s).1 = true) : ∃ u, Copies s u ∧ fromWorker type x f s = f u := by
  have hw : s.hrRuns 2 = true ∧ x.worker < 16 := by
    simp only [State.takesFrom, Bool.and_eq_true, decide_eq_true_eq] at htakes
    exact htakes.1
  refine ⟨(takeCopy x.worker type x.lane x.seq x.crcOk false s).2, takeCopy_copies .., ?_⟩
  simp [fromWorker, hw, hlane, hfence, hfirst, htakes]

variable (hruns : s.hrRuns 2 = true) (hw : x.worker < 16) (hlane : x.lane < 2) (hfence : s.fenced 18 x.lane = false)
include hruns hw hlane hfence

theorem fromWorker_damaged (hcrc : x.crcOk = false) : fromWorker type x f s = count 0xE080 2 s := by
  simp [fromWorker, hruns, hw, hlane, hfence, hcrc, takeCopy_damaged]

theorem fromWorker_unregistered (hstate : (s.wkr x.worker).state ≠ 2) :
    fromWorker type x f s = (takeCopy x.worker type x.lane x.seq x.crcOk false s).2 := by
  simp [fromWorker, hruns, hw, hlane, hfence, State.takesFrom, hstate]

end FromWorker

/-- The commands of frames that go up, with what each may change. -/
theorem exec_fromWorker {dt l rise len : Nat} {o : Int} {usable : Bool} {q g : BitVec 16} {f : Fragment} {y : Summary} {x : HrRx} {c : Instr}
    (h : c ∈ [Instr.driveFrame dt x l rise len, .offsetReport dt x o usable q g, .setFragment dt x f, .summaryFrame dt x y]) (s : State) :
    ∃ type act ps, exec c s = .next (s.act ps dt (fromWorker type x act)) ∧ .events ∈ ps ∧ .stats ∈ ps ∧ .hr ∈ ps := by
  simp only [List.mem_cons, List.not_mem_nil, or_false] at h
  obtain rfl | rfl | rfl | rfl := h
  all_goals exact ⟨_, _, _, rfl, by decide, by decide, by decide⟩

end Sys2Proof.Machine
end

section
namespace Sys2Proof.Machine
open Sys2Proof

/-! ## Lines of the trigger bus (R359 to R361) -/

/-- What drives do to the bus: a line that is up stays up, an edge that waits for a header still waits, the lines keep their source. -/
structure Drives (s t : State) : Prop where
  up : ∀ l, (s.line l).level = true → (t.line l).level = true
  out : ∀ e ∈ s.bus.out, e ∈ t.bus.out
  remote : t.bus.remote = s.bus.remote

namespace Drives
variable {s t u : State}

theorem refl (s : State) : Drives s s := ⟨fun _ h => h, fun _ h => h, rfl⟩

theorem trans (h : Drives s t) (k : Drives t u) : Drives s u :=
  ⟨fun l hl => k.up l (h.up l hl), fun e he => k.out e (h.out e he), k.remote.trans h.remote⟩

/-- An update that leaves the bus. -/
theorem update (h : Drives s t) (e : u.bus = t.bus) : Drives s u :=
  h.trans ⟨fun l hl => by rwa [State.line, e], fun x hx => by rwa [e], by rw [e]⟩

theorem ite {p : Prop} [Decidable p] (h : Drives s t) (k : Drives s u) : Drives s (if p then t else u) := by
  split
  · exact h
  · exact k

theorem when {f : State → State} {b : Bool} (h : Drives s t) (hf : ∀ u, Drives u (f u)) : Drives s (when b f t) := by
  cases b
  · exact h
  · exact h.trans (hf t)

theorem count {idx sub : Nat} (h : Drives s t) : Drives s (count idx sub t) := h.update (by simp)
theorem raise {id inst param : Nat} (h : Drives s t) : Drives s (raise id inst param t) := h.update (by simp)

/-- A fold of steps that give something and a state. -/
theorem collects {α β : Type} {f : α → State → List β × State} {l : List α} {acc : List β} (h : Drives s t) (hf : ∀ a u, Drives u (f a u).2) :
    Drives s (l.foldl (fun r a => (r.1 ++ (f a r.2).1, (f a r.2).2)) (acc, t)).2 :=
  (foldl_collects (R := Drives s) (Q := fun _ => True) (fun a _ u hu => ⟨hu.trans (hf a u), fun _ _ => trivial⟩) (fun _ _ => trivial) h).1

/-- A line that is set to a level it may have. -/
theorem setLine {l : Nat} {x : Line} (h : Drives s t) (hx : x.level = true) : Drives s (t.setLine l x) :=
  h.trans ⟨fun j hj => by rw [State.setLine_line]; split <;> assumption, fun _ he => he, rfl⟩

theorem mergeDrive {l r n8 : Nat} (h : Drives s t) : Drives s (mergeDrive l r n8 t).2 := by
  unfold Machine.mergeDrive
  extract_lets x r1 e s1
  split
  · next hup => exact .count (h.setLine hup)
  · have hraised : Drives s s1 := h.setLine rfl
    refine .ite (hraised.trans ⟨fun _ hl => hl, fun y hy => List.mem_append_left _ hy, rfl⟩) hraised

theorem driveLine {l : Nat} {at_ : Tick} (h : Drives s t) : Drives s (driveLine l at_ t).2 := by
  unfold Machine.driveLine
  split
  · exact h.trans ⟨fun _ hl => hl, fun _ he => he, rfl⟩
  · exact h.mergeDrive

theorem joinCapture {g : Nat} {x : Trig} (h : Drives s t) : Drives s (joinCapture g x t).2 := by
  unfold Machine.joinCapture
  cases t.capture g with
  | none => exact h.count
  | some r =>
    dsimp only
    cases listTrigger t (t.grp g) r x with
    | none => exact h.count
    | some r' => exact .when (h.update rfl) fun u => (refl u).count

theorem groupTrigger {g : Nat} {x : Trig} (h : Drives s t) : Drives s (groupTrigger g x t).2 := by
  unfold Machine.groupTrigger
  extract_lets y
  split
  · split
    · exact h.update rfl
    · split
      · exact h.count
      · exact h.update rfl
  · exact h.joinCapture
  · exact h.count

theorem fire {n : Nat} {c : UnitCf} {x : Trig} (h : Drives s t) : Drives s (fire n c x t).2 := by
  unfold Machine.fire
  extract_lets gateOk e8 held _ s1
  have hdriven : Drives s (if bit c.flags 3 then Machine.driveLine c.line x.at_ s1 else (none, s1)).2 := by
    split
    · exact .driveLine (h.update rfl)
    · exact h.update rfl
  split
  · exact h
  · exact .raise hdriven.groupTrigger

theorem digitalEdge {src num : Nat} {level : Bool} {at_ : Tick} (h : Drives s t) : Drives s (digitalEdge src num level at_ t).2 :=
  h.collects (f := fun (x : Nat × UnitCf) u => unitStep x.1 x.2 (u.unit x.1) none (if level then some at_ else none) none
    (if level then none else some at_) at_ nan32 u) fun _ u => (refl u).update rfl

theorem decideAll {k : Nat} {fs : List (Nat × UnitCf × Trig)} (h : Drives s t) : Drives s (decideAll k fs t) := by
  induction k generalizing fs t with
  | zero => exact h
  | succ k ih =>
    have hfire := h.collects (f := fun (x : Nat × UnitCf × Trig) u => ((Machine.fire x.1 x.2.1 x.2.2 u).1.toList, (Machine.fire x.1 x.2.1 x.2.2 u).2))
      (l := byGroup fs) (acc := []) fun _ u => (refl u).fire
    unfold Machine.decideAll
    generalize hr : (byGroup fs).foldl _ (([], t) : List LineEdge × State) = r
    have hfired : Drives s r.2 := hr ▸ hfire
    obtain ⟨edges, s1⟩ := r
    cases edges with
    | nil => exact hfired
    | cons e es =>
      exact ih (hfired.collects (f := fun (x : LineEdge) u => Machine.digitalEdge 5 x.line x.level x.at_ u) (l := e :: es) (acc := [])
        fun _ u => (refl u).digitalEdge)

theorem edgeToUnits {src num : Nat} {level : Bool} {at_ : Tick} (h : Drives s t) : Drives s (edgeToUnits src num level at_ t) :=
  .ite (h.trans (.update (.decideAll (digitalEdge (refl t))) rfl)) h

end Drives

/-- An edge that reaches the units changes nothing of Hedgerow. -/
theorem edgeToUnits_hr (src num : Nat) (level : Bool) (at_ : Tick) (s : State) :
    (edgeToUnits src num level at_ s).hr = s.hr ∧ (edgeToUnits src num level at_ s).variant = s.variant := by
  unfold edgeToUnits
  split <;> exact ⟨rfl, rfl⟩

/-- Forced falls change the lines alone: neither Hedgerow nor where the lines come from (R361). -/
theorem forcedFalls_beside (s : State) : (forcedFalls s).hr = s.hr ∧ (forcedFalls s).variant = s.variant ∧ (forcedFalls s).bus.remote = s.bus.remote := by
  refine each_preserves (P := fun t : State => t.hr = s.hr ∧ t.variant = s.variant ∧ t.bus.remote = s.bus.remote) (fun l t ht => ?_) ⟨rfl, rfl, rfl⟩
  obtain ⟨hhr, hvariant, hremote⟩ := ht
  extract_lets at_
  obtain ⟨h1, h2⟩ := edgeToUnits_hr 5 l false at_ (count 0xE080 8 (t.setLine l { t.line l with level := false, last := 8 * t.time.tai }))
  refine ⟨h1.trans (by simpa using hhr), h2.trans (by simpa using hvariant), (Drives.edgeToUnits (.refl _)).remote.trans ?_⟩
  simpa [State.setLine] using hremote

theorem toRemote_beside (on : Bool) (s : State) : (toRemote on s).hr = s.hr ∧ (toRemote on s).variant = s.variant ∧ (toRemote on s).bus.remote = on :=
  forcedFalls_beside { s with bus := { s.bus with remote := on, drives := [] } }

section Fall
variable {l : Nat} {s : State}

/-- The edge of a line that falls at its time. -/
def State.fallEdge (s : State) (l : Nat) : LineEdge := ⟨l, false, ⟨s.time.gen, (s.line l).fall⟩⟩

/-- The state of a line that has fallen, its edge on the way to the workers (R359). -/
def State.fallen (s : State) (l : Nat) : State :=
  let t := s.setLine l { s.line l with level := false, last := (s.line l).fall }
  if s.hrRole = 2 then { t with bus := { t.bus with out := t.bus.out ++ [s.fallEdge l] } } else t

theorem fallen_line : (s.fallen l).line l = { s.line l with level := false, last := (s.line l).fall } := by
  unfold State.fallen
  split <;> simp [State.line, State.setLine]

theorem fallen_relays (h : s.hrRole = 2) : (s.fallen l).bus.out = s.bus.out ++ [s.fallEdge l] := by rw [State.fallen, if_pos h]; rfl

theorem fallen_acqRuns : (s.fallen l).acqRuns = s.acqRuns := by
  unfold State.fallen
  split <;> rfl

theorem triggerLineFall_due (hup : (s.line l).level = true) (hdue : (s.line l).fall ≤ 8 * s.time.tai) (hown : s.bus.remote = false) :
    triggerLineFall l s = edgeToUnits 5 l false (s.fallEdge l).at_ (s.fallen l) := by
  rw [triggerLineFall, if_pos (by simp [hup, hdue, hown])]
  rfl

end Fall

section Drive
variable {l r n8 : Nat} {s : State}

/-- A drive of a line that is up holds it longer, and is counted (R359). -/
theorem mergeDrive_holds (h : (s.line l).level = true) :
    mergeDrive l r n8 s = (none, count 0xE080 7 (s.setLine l { s.line l with fall := max (s.line l).fall (r + n8) })) := if_pos h

/-- The edge by which a drive raises a line. -/
def State.riseEdge (s : State) (l r : Nat) : LineEdge := ⟨l, true, ⟨s.time.gen, max r ((s.line l).last + 8)⟩⟩

/-- A drive of a line that is down raises it; a manager relays the edge (R359). -/
theorem mergeDrive_raises (h : (s.line l).level = false) (hrole : s.hrRole = 2) : ∃ t, mergeDrive l r n8 s = (some (s.riseEdge l r), t) ∧
    (t.line l).level = true ∧ s.riseEdge l r ∈ t.bus.out := by
  unfold mergeDrive
  extract_lets x r1 e s1
  rw [if_neg (by simp [x, h]), if_pos hrole]
  have hup : (s1.line l).level = true := by simp [s1]
  exact ⟨_, rfl, hup, List.mem_append_right _ List.mem_cons_self⟩

end Drive

end Sys2Proof.Machine
end

section
namespace Sys2Proof.Machine
open Sys2Proof

/-! ## The manager's cycles (R343 to R348) -/

/-- A worker is registered: what it was measured by begins anew (R348). -/
def registerWorker (w : Nat) (s : State) : State :=
  setWkState w 2 ((forgetSource w s).setWkr w { s.wkr w with ranged := false, told := [false, false], bursts := [[], []], burstAt := [some s.elapsed, some s.elapsed] })

/-- The workers whose EqD has gone out are registered. -/
def State.registering (s : State) : State := each ((List.range 16).filter (fun w => (s.wkr w).informed)) registerWorker s

theorem registerWorker_state (w v : Nat) (s : State) : ((registerWorker w s).wkr v).state = if v = w then 2 else (s.wkr v).state := by
  rw [registerWorker, setWkState_wkr]
  split
  · rfl
  · next hv => rw [State.setWkr_wkr, if_neg hv, (forgetSource_copies w s).wkr]

theorem registering_registers {w : Nat} {s : State} (hw : w < 16) (h : (s.wkr w).informed = true) : (s.registering.wkr w).state = 2 :=
  each_once (P := fun _ => True) (Q := fun t : State => (t.wkr w).state = 2) (List.nodup_range.filter _) (List.mem_filter.mpr ⟨List.mem_range.mpr hw, h⟩)
    (fun _ _ _ _ _ => trivial) (fun t _ => by rw [registerWorker_state, if_pos rfl])
    (fun v _ hv t ht => by rw [registerWorker_state, if_neg (Ne.symm hv)]; exact ht) trivial

theorem registering_beside (s : State) : s.registering.hr.txSeq = s.hr.txSeq ∧ s.registering.bus = s.bus := by
  refine each_preserves (P := fun t : State => t.hr.txSeq = s.hr.txSeq ∧ t.bus = s.bus) (fun w t ht => ?_) ⟨rfl, rfl⟩
  unfold registerWorker setWkState
  extract_lets x
  split
  · exact ht
  · simpa [State.setWkr, forgetSource, State.setHr] using ht

/-- A frame begins with its type and its source (R344). -/
theorem hrFrame_begins (src type seq : Nat) (payload : Bytes) : (hrFrame src type seq payload).take 2 = [BitVec.ofNat 8 type, BitVec.ofNat 8 src] := rfl

/-- A new cycle: one header, the edges that wait, the workers that have their EqD (R343, R345, R348). -/
theorem cycleStart_begins {m : Nat} {s : State} (hruns : s.hrRuns 2 = true) (hm : s.time.tai / 100000 * 100000 = m) (hnew : m ≠ s.hr.m) :
    (cycleStart s).hr.m = m ∧ (cycleStart s).hr.cycle = m % 1000000000 / 100000 ∧
      (cycleStart s).hr.frames.map (fun f => (f.seq, f.lane)) = [(Table.getD s.hr.txSeq 1 0, some 0), (Table.getD s.hr.txSeq 1 0, some 1)] ∧
      (∀ f ∈ (cycleStart s).hr.frames, f.bytes.take 2 = [1#8, 0x10#8]) ∧ (cycleStart s).bus.out = s.bus.out.drop 64 ∧
      ∀ w, w < 16 → (s.wkr w).informed = true → ((cycleStart s).wkr w).state = 2 := by
  unfold cycleStart
  rw [hm]
  dsimp -zeta only
  extract_lets m' s1 c un quiet invited edges s2 frames u x s3 bus hr
  rw [if_pos (by simp [m', hruns, hnew])]
  obtain ⟨hseq, hbus⟩ : s1.hr.txSeq = s.hr.txSeq ∧ s1.bus = s.bus := registering_beside s
  have hregistered : ∀ w, w < 16 → (s.wkr w).informed = true → (s1.wkr w).state = 2 := fun w hw h => registering_registers hw h
  have hnum : (takeSeq 1 s1).1 = Table.getD s.hr.txSeq 1 0 := congrArg (fun x : Table Nat => Table.getD x 1 0) hseq
  have hinvited : s2.bus = s.bus ∧ ∀ v, (s2.wkr v).state = (s1.wkr v).state := by
    unfold s2
    cases invited with
    | none => exact ⟨hbus, fun _ => rfl⟩
    | some w =>
      refine ⟨hbus, fun v => ?_⟩
      rw [State.setWkr_wkr]
      split
      · next hv => rw [hv]; rfl
      · rfl
  have hx : x.state = (s2.wkr u).state := by
    unfold x
    split <;> rfl
  have hsent : ∀ v, (s3.wkr v).state = (s2.wkr v).state := by
    intro v
    unfold s3
    rw [State.setWkr_wkr]
    split
    · next hv =>
      rw [hv, ← hx]
      split <;> rfl
    · rfl
  refine ⟨rfl, rfl, ?_, fun f hf => ?_, ?_, fun w hw h => ?_⟩
  · simp [frames, hnum]
  · obtain ⟨l, -, rfl⟩ := List.mem_map.mp hf
    exact hrFrame_begins ..
  · exact congrArg (fun b : BusU => b.out.drop 64) (hinvited.1)
  · exact (hsent w).trans ((hinvited.2 w).trans (hregistered w hw h))

/-! ## Ranging (R348, R349) -/

/-- A worker that is not registered, and has been invited at M, responds first on a lane. -/
structure Responds (w m lane : Nat) (s : State) : Prop where
  runs : s.hrRuns 2 = true
  valid : wkValid s.cf w = true
  state : (s.wkr w).state ≠ 2
  asked : s.hr.asked = some (w, m)
  known : lane < 2
  fence : s.fenced 18 lane = false
  first : (s.wkr w).rts = [none, none]

/-- A worker out of reach on a lane, by its round trip. -/
def Worker.tooFar (x : Worker) (lane r : Nat) : Worker := { x with reach := true, ranged := false, rts := listSet x.rts lane (some r) }

/-- A worker ranged on a lane, by its round trip and its asymmetry there. -/
def Worker.inReach (x : Worker) (lane r : Nat) (asym : Int) : Worker :=
  { x with reach := false, ranged := true, rts := listSet x.rts lane (some r),
           eqd := [0, 1].map (fun l => if l = lane then 250000 - r else x.eqd.getD l 0),
           down := [0, 1].map (fun l => if l = lane then ((r : Int) + asym) / 2 else x.down.getD l 0) }

theorem Worker.inReach_lane {lane : Nat} (h : lane < 2) (x : Worker) (r : Nat) (asym : Int) :
    (x.inReach lane r asym).eqd.getD lane 0 = 250000 - r ∧ (x.inReach lane r asym).down.getD lane 0 = ((r : Int) + asym) / 2 := by
  obtain rfl | rfl : lane = 0 ∨ lane = 1 := by omega
  · exact ⟨rfl, rfl⟩
  · exact ⟨rfl, rfl⟩

/-- The first response of the invited worker is judged by the round trip of its lane alone. -/
theorem rangingResponse_invited {w m lane r : Nat} {s : State} (h : Responds w m lane s) (hr : s.time.tai - m - 6000 = r) (q : Nat) :
    ∃ u param, Copies s u ∧ u.ctr 0xE080 1 = min (s.ctr 0xE080 1 + 1) ctrMax ∧ rangingResponse w (wkF s.cf w 8 8) lane (some q) s =
      if 200000 < (r : Int) + wkAsym s.cf w lane ∨ 200000 < (r : Int) - wkAsym s.cf w lane then raise 0xA4 w param (u.setWkr w ((s.wkr w).tooFar lane r))
      else u.setWkr w ((s.wkr w).inReach lane r (wkAsym s.cf w lane)) := by
  obtain ⟨hruns, hvalid, hstate, hasked, hlane, hfence, hfirst⟩ := h
  have hw : w < 16 := by
    simp only [wkValid, Bool.and_eq_true, decide_eq_true_eq] at hvalid
    exact hvalid.1
  have hcopies : Copies s (takeCopy w 0x14 lane q true false s).2 := takeCopy_copies ..
  unfold rangingResponse
  extract_lets s1 x
  rw [if_pos (by simp [hruns, hlane, hw, hfence]), hasked]
  dsimp -zeta only
  extract_lets rts rt far most
  rw [if_pos (by simp [hvalid, hstate])]
  refine ⟨s1, 2 * 2 ^ 24 + satBits 16 (most / 1000), hcopies, takeCopy_ctr .., ?_⟩
  have hx : x = s.wkr w := hcopies.wkr w
  have hrts : rts = listSet [none, none] lane (some r) := by rw [← hr, ← hfirst, ← hx]
  have hrt : ∀ l, rt l = (listSet [none, none] lane (some r)).getD l none := fun l => by rw [← hrts]
  have hfar : far = decide (200000 < (r : Int) + wkAsym s.cf w lane ∨ 200000 < (r : Int) - wkAsym s.cf w lane) := by
    unfold far
    obtain rfl | rfl : lane = 0 ∨ lane = 1 := by omega
    · simp [hrt, listSet, List.range_succ]
    · simp [hrt, listSet, List.range_succ]
  rw [hfar]
  simp only [decide_eq_true_eq]
  split
  · rw [Worker.tooFar, hx, hrts, hfirst]
  · rw [Worker.inReach, hx, hrts, hfirst]
    obtain rfl | rfl : lane = 0 ∨ lane = 1 := by omega
    · simp [hrt, listSet, List.range_succ]
    · simp [hrt, listSet, List.range_succ]

/-! ## Bursts (R349, R351) -/

theorem laneSeen_hr (lane : Nat) (s : State) :
    (laneSeen lane s).hr = { s.hr with laneUp := listSet s.hr.laneUp lane true, laneAt := listSet s.hr.laneAt lane (some s.elapsed) } := by
  unfold laneSeen
  extract_lets up hr s1
  cases up
  · simp [s1, hr, State.setHr]
  · rfl

/-- What a burst makes of its worker: it joins the last 16, and where their average departs by more than 8 ns from its due value EqD is set anew
(log entry 40). -/
def Worker.heard (x : Worker) (lane now : Nat) (bs : List Int) (rt down : Int) : Worker :=
  { x with bursts := listSet x.bursts lane bs, burstAt := listSet x.burstAt lane (some now), down := listSet x.down lane down,
           eqd := if 8 < (rt + x.eqd.getD lane 0 - 250000).natAbs then listSet x.eqd lane (250000 - rt).toNat else x.eqd }

/-- A burst of a registered worker, valid or not. -/
theorem burstReceive_registered {lane w : Nat} {s : State} (hruns : s.hrRuns 2 = true) (hlane : lane < 2) (hw : w < 16) (hstate : (s.wkr w).state = 2)
    (hfence : s.fenced 18 lane = false) (valid : Bool) {bs : List Int} {rt : Int}
    (hbs : bs = (((s.time.tai : Int) - burstCycle s.time.tai w - (s.wkr w).eqdAt lane (burstCycle s.time.tai w)) :: (s.wkr w).bursts.getD lane []).take 16)
    (hrt : rt = nearestDiv (bs.foldl (· + ·) 0) bs.length - 6000 * w) :
    ∃ down, burstReceive lane w valid s = (when valid (laneSeen lane) s).setWkr w ((s.wkr w).heard lane s.elapsed bs rt down) := by
  have hx : (when valid (laneSeen lane) s).wkr w = s.wkr w := by
    cases valid
    · rfl
    · simp only [when_true, State.wkr, laneSeen_hr]
  unfold burstReceive
  rw [if_pos (by simp [hruns, hlane, hw, hstate, hfence])]
  dsimp only
  rw [hx, ← hbs, ← hrt]
  exact ⟨(rt + wkAsym s.cf w lane) / 2, rfl⟩

/-! ## Offsets (R353) -/

section Offset
variable {w : Nat} {s : State}

/-- A usable offset above the limit, of a worker whose record has it checked. -/
theorem offsetReport_above {o : Int} (hchecked : bit (wkF s.cf w 0 1) 1 = true) (hover : s.cf.u 0xE000 6 0 4 < o.natAbs) (hlow : (s.wkr w).above = false) :
    offsetReport w o true s = raise 0xA3 w (offsetParam o) (s.setWkr w { s.wkr w with offset := o, above := true, clearSince := none }) := by
  simp [offsetReport, hchecked, hover, hlow]

/-- Offsets have stayed low for 1 s. -/
theorem offsetClear_due {since : Nat} (hup : (s.wkr w).above = true) (hsince : (s.wkr w).clearSince = some since) (hdue : since + 1000000000 ≤ s.elapsed) :
    offsetClear w s = raise 0xA3 w (offsetParam (s.wkr w).offset) (s.setWkr w { s.wkr w with above := false, clearSince := none }) := by
  simp [offsetClear, hsince, hup, hdue]

/-! ## Closes and summaries (R350, R356, R357, R363) -/

/-- The first fragment of a close of several is kept. -/
theorem setFragment_keeps {seq : Nat} {f : Fragment} (hindex : f.index < f.count) (hmore : 1 < f.count) (hnone : (s.wkr w).frags = none) :
    setFragment w seq f s = s.setWkr w { s.wkr w with frags := some ((seq + 2 ^ 32 - f.index) % 2 ^ 32, [(f.index, f.chunk)]) } := by
  simp [setFragment, hindex, hnone, hmore]

/-- A close of one fragment is whole at once, whatever was assembled before. -/
theorem setFragment_whole {seq : Nat} {f : Fragment} (hindex : f.index = 0) (hone : f.count = 1) : setFragment w seq f s = workerClose w f.rate f.chunk s := by
  simp [setFragment, hindex, hone]

theorem State.cfFor_congr {s t : State} (hv : t.variant = s.variant) (hc : t.cfg = s.cfg) (at_ : Stamp) : t.cfFor at_ = s.cfFor at_ := by
  simp only [State.cfFor, State.cf, hv, hc]

theorem State.uplinkVals_congr {s t : State} (h : (t.wkr w).above = (s.wkr w).above) (c : Cf) (vs : List SlotVal) : t.uplinkVals c w vs = s.uplinkVals c w vs := by
  simp only [State.uplinkVals, h]

theorem writeSlots_congr {s t : State} (hv : t.variant = s.variant) (hc : t.cfg = s.cfg) (hi : t.ing = s.ing) (vs : List Slotted) (at_ : Stamp) :
    (writeSlots vs at_ t).ing.slots = (writeSlots vs at_ s).ing.slots := by
  simp only [writeSlots, State.cfFor_congr hv hc, hi]

/-- An arrival leaves the slots (R158, R195). -/
theorem arrive_slots (who tr : Nat) (vals : List Slotted) (q : Qual) (s : State) : (arrive who tr vals q s).ing.slots = s.ing.slots := rfl

/-- A close that is whole is written to the mapped slots while sets form, in the manager's own generation. -/
theorem workerClose_writes {rate tr : Nat} {b : Bytes} (hforming : s.forming = true) (htr : field b 10 6 * 1000000000 + field b 16 4 = tr) :
    (workerClose w rate b s).ing.slots =
      (writeSlots (s.uplinkVals (s.cfFor ⟨s.time.gen, tr⟩).1 w (closeVals b)) ⟨s.time.gen, tr⟩ s).ing.slots := by
  unfold workerClose
  rw [htr]
  extract_lets tr' at_ c x bad s1 s2 vals
  have hcounted : Counted (s.setWkr w { x with frags := none, rate := rate, received := satCount x.received 1 }) s1 :=
    .countN (Counted.refl (s.setWkr w _)).satEvent
  have htold : Counted (s.setWkr w { x with frags := none, rate := rate, received := satCount x.received 1 }) s2 := by
    unfold s2
    split
    · exact each_preserves (P := Counted _) (fun _ _ hu => hu.raise) hcounted
    · exact hcounted
  have hstill : s2.forming = true := (htold.same (f := State.forming) fun _ => rfl).trans hforming
  have habove : (s2.wkr w).above = (s.wkr w).above := by
    rw [htold.same (f := (·.wkr w)) fun _ => rfl, State.setWkr_wkr, if_pos rfl]
  have hvals : vals = s.uplinkVals c w (closeVals b) := State.uplinkVals_congr habove ..
  rw [if_neg (by simp [hstill]), arrive_slots, hvals]
  exact writeSlots_congr (htold.same (f := State.variant) fun _ => rfl) (htold.same (f := State.cfg) fun _ => rfl) (htold.same (f := State.ing) fun _ => rfl) _ _

end Offset

theorem summaryFrame_replaces {y : Summary} (h1 : 1 ≤ y.kind) (h4 : y.kind ≤ 4) (w : Nat) (s : State) (k : Nat) :
    Table.find (summaryFrame w y s).hr.summary k =
      if k = w * 8 + y.kind then some (toBE 1 y.kind ++ toBE 2 y.num ++ [0#8] ++ y.body) else Table.find s.hr.summary k := by
  simp [summaryFrame, h1, h4, State.setHr]

/-! ## Drives (R359), and workers that are lost (R351) -/

theorem driveFrame_holds {w l rise len : Nat} {s : State} (hl : l < 16) (hup : (s.line l).level = true) :
    (driveFrame w l rise len s).line l = { s.line l with fall := max (s.line l).fall (((rise : Int) - 8 * (s.wkr w).offset).toNat + 8 * len) } ∧
      (driveFrame w l rise len s).bus.out = s.bus.out := by
  rw [driveFrame, if_pos hl, mergeDrive_holds hup]
  dsimp only
  have hcounted : ∀ t : State, (count 0xE080 7 t).bus = t.bus := fun t => by simp
  refine ⟨?_, by rw [hcounted]; rfl⟩
  rw [State.line, hcounted]
  exact (State.setLine_line s l l _).trans (if_pos rfl)

theorem driveFrame_raises {w l rise len : Nat} {s : State} (hl : l < 16) (hdown : (s.line l).level = false) (hrole : s.hrRole = 2) :
    ((driveFrame w l rise len s).line l).level = true ∧ s.riseEdge l ((rise : Int) - 8 * (s.wkr w).offset).toNat ∈ (driveFrame w l rise len s).bus.out := by
  obtain ⟨t, ht, hup, hout⟩ := mergeDrive_raises (r := ((rise : Int) - 8 * (s.wkr w).offset).toNat) (n8 := 8 * len) hdown hrole
  rw [driveFrame, if_pos hl, ht]
  have hgrows : ∀ e : LineEdge, Drives t (edgeToUnits 5 e.line e.level e.at_ t) := fun _ => .edgeToUnits (.refl t)
  exact ⟨(hgrows _).up l hup, (hgrows _).out _ hout⟩

/-- A worker silent on both lanes is lost, and tells it. -/
theorem workerLost_silent {w : Nat} {s : State} (htakes : s.takesFrom w = true)
    (hsilent : ∀ b ∈ (s.wkr w).burstAt, ∀ at_, b = some at_ → at_ + s.lossNs ≤ s.elapsed) :
    ((workerLost w s).wkr w).state = 3 ∧ Latched (workerLost w s) 0xA1 w ∧ ∀ k, k ≠ w → (workerLost w s).wkr k = s.wkr k := by
  have hregistered : s.hrRuns 2 = true ∧ (s.wkr w).state = 2 := by
    simp only [State.takesFrom, Bool.and_eq_true, decide_eq_true_eq] at htakes
    exact ⟨htakes.1.1, htakes.2⟩
  have hall : (s.wkr w).burstAt.all (fun t => match t with | some t => decide (t + s.lossNs ≤ s.elapsed) | none => true) = true := by
    refine List.all_eq_true.mpr fun b hb => ?_
    cases b with
    | none => rfl
    | some at_ => exact decide_eq_true (hsilent _ hb at_ rfl)
  unfold workerLost
  extract_lets x silent
  rw [if_pos (by rw [htakes]; exact hall)]
  refine ⟨by rw [setWkState_wkr, if_pos rfl], setWkState_latched (State.hasHr_of_runs hregistered.1) ?_, fun k hk => ?_⟩
  · simp [x, hregistered.2]
  · rw [setWkState_wkr, if_neg hk, State.setWkr_wkr, if_neg hk, (forgetSource_copies w s).wkr]

end Sys2Proof.Machine
end

section
namespace Sys2Proof.Machine
open Sys2Proof

/-- Settles O43, command by command. -/
theorem managerFollowsItsWorkers : Obligations.ManagerFollowsItsWorkers := by
  unfold Obligations.ManagerFollowsItsWorkers
  refine ⟨fun dt s hr hruns hnew => ?cycle, fun dt w m lane q r s hr hruns hvalid hstate hasked hlane hfence hfirst hround hdown hup => ?ranged,
    fun dt w m lane q r s hr hruns hvalid hstate hasked hlane hfence hfirst hround hfar => ?far,
    fun dt lane w m b v s hr hruns hlane hw hstate hfence hm hb => ?burst,
    fun dt l rise len x s hr htakes hlane hfence hfirst hl hup => ?held, fun dt l rise len x s hr htakes hlane hfence hfirst hl hdown => ?raised,
    fun dt o q g x s hr htakes hlane hfence hfirst hchecked hover hlow => ?above, fun dt w since s hr hhas hup hsince hdue => ?clear,
    fun dt f x s hr htakes hlane hfence hfirst hindex hmore hnone => ?fragment,
    fun dt tr f x s hr htakes hlane hfence hfirst hindex hone hforming htr => ?whole, fun dt y x s hr htakes hlane hfence hfirst h1 h4 => ?summary,
    fun dt l rise len o u q g f y x c s hc hr hruns hw hlane hfence hcrc => ?damaged,
    fun dt l rise len o u q g f y x c s hc hr hruns hw hstate hlane hfence hcrc => ?unregistered, fun dt w s hr htakes hsilent => ?lost⟩
  case cycle =>
    obtain ⟨hm, hcycle, hframes, hbytes, hout, hstates⟩ := cycleStart_begins (s := s.tick dt) hruns rfl hnew
    refine ⟨_, rfl, ?_⟩
    rw [State.act_runs _ _ _ _ hr, within_hr (by decide), within_bus (by decide)]
    exact ⟨hm, by rw [hcycle, hm], hframes, hbytes, hout, fun w hw h => by rw [within_wkr (by decide)]; exact hstates w hw h⟩
  case ranged =>
    obtain ⟨u, param, -, hctr, hacts⟩ := rangingResponse_invited (s := s.tick dt) ⟨hruns, hvalid, hstate, hasked, hlane, hfence, hfirst⟩ rfl q
    rw [← hround, State.tick_cf, if_neg (by omega)] at hacts
    obtain ⟨heqd, hdelay⟩ := ((s.tick dt).wkr w).inReach_lane hlane ((s.tick dt).time.tai - m - 6000) (wkAsym s.cf w lane)
    refine ⟨_, rfl, ?_⟩
    rw [State.act_runs _ _ _ _ hr, within_wkr (by decide), within_ctr, if_pos (by decide), hacts, State.setWkr_self, heqd, hdelay]
    exact ⟨rfl, by omega, by rw [hround], rfl, hctr⟩
  case far =>
    obtain ⟨u, param, hcopies, -, hacts⟩ := rangingResponse_invited (s := s.tick dt) ⟨hruns, hvalid, hstate, hasked, hlane, hfence, hfirst⟩ rfl q
    rw [← hround, State.tick_cf, if_pos hfar] at hacts
    refine ⟨_, rfl, ?_⟩
    rw [State.act_runs _ _ _ _ hr, within_wkr (by decide), hacts, raise_wkr, State.setWkr_self]
    exact ⟨rfl, rfl, rfl, within_latched (by decide) (raise_hr_latched (by decide) (State.hasHr_of_runs hruns) hcopies.variant)⟩
  case burst =>
    obtain ⟨down, hacts⟩ := burstReceive_registered (s := s.tick dt) (bs := b) hruns hlane hw hstate hfence v (by rw [← hm]; exact hb) rfl
    refine ⟨_, rfl, ?_⟩
    rw [State.act_runs _ _ _ _ hr, within_hr (by decide), within_wkr (by decide), hacts, State.setWkr_self]
    refine ⟨fun hv => ?_, fun hv => ?_, listSet_self .., hstate, listSet_self .., fun hnear => ?_, fun hoff => ?_⟩
    · subst hv
      have hlanes := laneSeen_hr lane (s.tick dt)
      exact ⟨(congrArg (·.laneUp.getD lane false) hlanes).trans (listSet_self ..), (congrArg (·.laneAt.getD lane none) hlanes).trans (listSet_self ..)⟩
    · subst hv
      exact ⟨rfl, rfl⟩
    · exact if_neg (Nat.not_lt.mpr hnear)
    · exact (congrArg (fun xs : List Nat => xs.getD lane 0) (if_pos hoff)).trans (listSet_self ..)
  case held =>
    obtain ⟨u, hcopies, hacts⟩ := fromWorker_first (s := s.tick dt) (driveFrame x.worker l rise len) htakes hlane hfence hfirst
    obtain ⟨hline, hout⟩ := driveFrame_holds (w := x.worker) (rise := rise) (len := len) hl (by rw [hcopies.line]; exact hup)
    rw [hcopies.line, hcopies.wkr] at hline
    refine ⟨_, rfl, ?_⟩
    rw [State.act_runs _ _ _ _ hr, within_line (by decide), within_bus (by decide), hacts]
    exact ⟨hline, hout.trans (congrArg BusU.out hcopies.bus)⟩
  case raised =>
    obtain ⟨u, hcopies, hacts⟩ := fromWorker_first (s := s.tick dt) (driveFrame x.worker l rise len) htakes hlane hfence hfirst
    have hrole : u.hrRole = 2 := by
      rw [hcopies.same (f := State.hrRole) fun _ => rfl]
      simp only [State.takesFrom, Bool.and_eq_true] at htakes
      exact State.hrRole_of_runs (s := s) htakes.1.1
    obtain ⟨hup, hout⟩ := driveFrame_raises (w := x.worker) (rise := rise) (len := len) hl (by rw [hcopies.line]; exact hdown) hrole
    rw [State.riseEdge, hcopies.line, hcopies.wkr, hcopies.time] at hout
    refine ⟨_, rfl, ?_⟩
    rw [State.act_runs _ _ _ _ hr, within_line (by decide), within_bus (by decide), hacts]
    exact ⟨hup, hout⟩
  case above =>
    obtain ⟨u, hcopies, hacts⟩ := fromWorker_first (s := s.tick dt) (offsetReport x.worker o true) htakes hlane hfence hfirst
    rw [offsetReport_above (by rw [hcopies.cf]; exact hchecked) (by rw [hcopies.cf]; exact hover) (by rw [hcopies.wkr]; exact hlow)] at hacts
    have hhas : s.hasHr = true := by
      simp only [State.takesFrom, Bool.and_eq_true] at htakes
      exact State.hasHr_of_runs htakes.1.1
    refine ⟨_, rfl, ?_⟩
    rw [State.act_runs _ _ _ _ hr, within_wkr (by decide), hacts, raise_wkr, State.setWkr_self]
    exact ⟨rfl, rfl, within_latched (by decide) (raise_hr_latched (by decide) hhas hcopies.variant)⟩
  case clear =>
    refine ⟨_, rfl, ?_⟩
    rw [State.act_runs _ _ _ _ hr, within_wkr (by decide), offsetClear_due (s := s.tick dt) hup hsince hdue, raise_wkr, State.setWkr_self]
    exact ⟨rfl, within_latched (by decide) (raise_hr_latched (by decide) hhas rfl)⟩
  case fragment =>
    obtain ⟨u, hcopies, hacts⟩ := fromWorker_first (s := s.tick dt) (setFragment x.worker x.seq f) htakes hlane hfence hfirst
    rw [setFragment_keeps hindex hmore (by rw [hcopies.wkr]; exact hnone), hcopies.wkr] at hacts
    refine ⟨_, rfl, ?_⟩
    rw [State.act_runs _ _ _ _ hr, within_wkr (by decide), hacts, State.setWkr_self]
    exact ⟨rfl, by simp [hcopies.ing], by simp [hcopies.align]⟩
  case whole =>
    obtain ⟨u, hcopies, hacts⟩ := fromWorker_first (s := s.tick dt) (setFragment x.worker x.seq f) htakes hlane hfence hfirst
    rw [setFragment_whole hindex hone] at hacts
    have hslots := workerClose_writes (w := x.worker) (rate := f.rate) (b := f.chunk) (s := u)
      ((hcopies.same (f := State.forming) fun _ => rfl).trans hforming) htr.symm
    rw [State.cfFor_congr hcopies.variant hcopies.cfg, State.uplinkVals_congr (congrArg Worker.above (hcopies.wkr x.worker)), hcopies.time,
      writeSlots_congr hcopies.variant hcopies.cfg hcopies.ing] at hslots
    refine ⟨_, rfl, ?_⟩
    rw [State.act_runs _ _ _ _ hr, hacts]
    exact hslots
  case summary =>
    obtain ⟨u, hcopies, hacts⟩ := fromWorker_first (s := s.tick dt) (summaryFrame x.worker y) htakes hlane hfence hfirst
    have hold : u.hr.summary = s.hr.summary := hcopies.same (f := (·.hr.summary)) fun _ => rfl
    refine ⟨_, rfl, ?_⟩
    rw [State.act_runs _ _ _ _ hr, within_hr (by decide), hacts]
    exact ⟨by rw [summaryFrame_replaces h1 h4, if_pos rfl], fun k hk => by rw [summaryFrame_replaces h1 h4, if_neg hk, hold]⟩
  case damaged =>
    obtain ⟨type, act, ps, hexec, hevents, hstats, -⟩ := exec_fromWorker hc s
    refine ⟨_, hexec, ?_⟩
    rw [State.act_runs _ _ _ _ hr, fromWorker_damaged (s := s.tick dt) act hruns hw hlane hfence hcrc, within_ctr, if_pos hstats]
    exact ⟨by rw [count_ctr, if_pos rfl]; rfl, (Counted.refl _).countN.onlyParts hevents hstats⟩
  case unregistered =>
    obtain ⟨type, act, ps, hexec, hevents, hstats, hhr⟩ := exec_fromWorker hc s
    have hcopies : Copies (s.tick dt) (takeCopy x.worker type x.lane x.seq x.crcOk false (s.tick dt)).2 := takeCopy_copies ..
    refine ⟨_, hexec, ?_⟩
    rw [State.act_runs _ _ _ _ hr, fromWorker_unregistered (s := s.tick dt) act hruns hw hlane hfence hstate, within_ctr, if_pos hstats]
    refine ⟨?_, ?_, hcopies.onlyParts hevents hstats hhr⟩
    · rw [hcrc, takeCopy_ctr]; rfl
    · rw [within_hr hhr, hcopies.hr]; rfl
  case lost =>
    obtain ⟨hstate, hlatched, hothers⟩ := workerLost_silent (s := s.tick dt) htakes hsilent
    refine ⟨_, rfl, ?_⟩
    rw [State.act_runs _ _ _ _ hr, within_wkr (by decide)]
    exact ⟨hstate, within_latched (by decide) hlatched, fun k hk => by rw [within_wkr (by decide)]; exact hothers k hk⟩

end Sys2Proof.Machine
end

section
namespace Sys2Proof.Machine
open Sys2Proof

/-! ## Headers that a worker receives (R343, R350, R351) -/

theorem setMgrState_beside (st : Nat) (s : State) :
    (setMgrState st s).bus = s.bus ∧ (setMgrState st s).stats = s.stats ∧ (setMgrState st s).cf = s.cf := by
  unfold setMgrState
  split <;> simp [State.cf]

theorem laneSeen_beside (lane : Nat) (s : State) :
    (laneSeen lane s).stats = s.stats ∧ (laneSeen lane s).variant = s.variant ∧ (laneSeen lane s).cf = s.cf := by
  unfold laneSeen
  extract_lets up hr s1
  cases up <;> simp [s1, State.cf]

theorem headerReceive_damaged {lane : Nat} {h : CycleHeader} {s : State} (hruns : s.hrRuns 1 = true) (hlane : lane < 2) (hfence : s.fenced 18 lane = false)
    (hcrc : h.crcOk = false) : headerReceive lane h s = count 0xE080 2 s := by
  simp [headerReceive, hruns, hlane, hfence, hcrc, takeCopy_damaged]

/-- Work on Hedgerow alone that leaves the device's own state, whether it has answered, and its lanes. -/
def Awaits (s t : State) : Prop :=
  ∃ h, t = s.setHr h ∧ h.state = s.hr.state ∧ h.answered = s.hr.answered ∧ h.laneUp = s.hr.laneUp ∧ h.laneAt = s.hr.laneAt

theorem Awaits.refl (s : State) : Awaits s s := ⟨s.hr, rfl, rfl, rfl, rfl, rfl⟩

theorem Awaits.trans {s t u : State} (h : Awaits s t) (k : Awaits t u) : Awaits s u := by
  obtain ⟨x, rfl, h1, h2, h3, h4⟩ := h
  obtain ⟨y, rfl, k1, k2, k3, k4⟩ := k
  exact ⟨y, rfl, k1.trans h1, k2.trans h2, k3.trans h3, k4.trans h4⟩

section Header
variable {lane : Nat} {h : CycleHeader} {s : State}

/-- A header that does not invite this worker leaves it awaiting its invitation. -/
theorem headerFirst_awaits (hstate : s.hr.state = 2) (hanswered : s.hr.answered = false) (hother : h.invited ≠ some s.myNumber) (fresh : Bool) :
    Awaits s (headerFirst fresh h s) := by
  unfold headerFirst
  extract_lets lanes x0 s1 x1 s2 x2 s3
  have h1 : s1 = s := if_neg (by simp [hanswered])
  have h2 : Awaits s s2 := by
    unfold s2 x1
    rw [h1]
    exact ⟨_, rfl, rfl, rfl, rfl, rfl⟩
  have h3 : s3 = s2 := if_neg (by obtain ⟨x, hx, -⟩ := h2; rw [hx]; exact hother)
  have hawaiting : ¬ s2.hr.state = 3 := by
    obtain ⟨x, hx, hs, -⟩ := h2
    rw [hx]
    exact fun hc => absurd (hc.symm.trans (hs.trans hstate)) (by decide)
  rw [h3, if_neg hawaiting]
  exact h2

theorem answer_awaits (seq : Nat) : Awaits s (answer lane seq s) := by
  unfold answer
  split
  · have hnumbered : Awaits s (if s.hr.frames.isEmpty then takeSeq 0x14 s else ((s.hr.frames.headD ⟨0, none, []⟩).seq, s)).2 := by
      split
      · exact ⟨_, rfl, rfl, rfl, rfl, rfl⟩
      · exact .refl s
    exact hnumbered.trans ⟨_, rfl, rfl, rfl, rfl, rfl⟩
  · exact .refl s

/-- A good header finds a searching worker its manager (R350, R351). -/
theorem headerReceive_finds (hruns : s.hrRuns 1 = true) (hlane : lane < 2) (hfence : s.fenced 18 lane = false) (hcrc : h.crcOk = true)
    (hstate : s.hr.state = 1) (hother : h.invited ≠ some s.myNumber) :
    (headerReceive lane h s).hr.state = 2 ∧ (headerReceive lane h s).hr.laneUp.getD lane false = true ∧
      (headerReceive lane h s).hr.laneAt.getD lane none = some s.elapsed ∧ (headerReceive lane h s).ctr 0xE080 1 = min (s.ctr 0xE080 1 + 1) ctrMax ∧
      Latched (headerReceive lane h s) 0xA2 0 := by
  have hcopies : Copies (laneSeen lane s) (takeCopy 0x10 1 lane h.seq true true (laneSeen lane s)).2 := takeCopy_copies ..
  have hctr := takeCopy_ctr 0x10 1 lane h.seq true (laneSeen lane s)
  unfold headerReceive
  rw [if_neg (by simp [hruns, hlane, hfence]), if_neg (by simp [hcrc])]
  generalize takeCopy 0x10 1 lane h.seq true true (laneSeen lane s) = r at hcopies hctr
  obtain ⟨first, s1⟩ := r
  dsimp -zeta only at hcopies hctr ⊢
  extract_lets x1 s2 s3 x3 s4
  obtain ⟨hstats, hvariant, hcf⟩ := laneSeen_beside lane s
  have hheard : s1.hr = { (laneSeen lane s).hr with rx := s1.hr.rx } := hcopies.hr
  rw [laneSeen_hr] at hheard
  have hfound : s2 = setMgrState 2 (s1.setHr { s1.hr with answered := false }) := if_neg (by rw [hheard]; simp [hstate])
  have hhas : s1.hasHr = true := hcopies.hasHr.trans ((congrArg (fun v : Nat => decide (v ≤ 1)) hvariant).trans (State.hasHr_of_runs hruns))
  obtain ⟨hhr, hlatched⟩ := setMgrState_changes (st := 2) (s := s1.setHr { s1.hr with answered := false }) hhas
    (fun hc => absurd ((congrArg HrU.state hheard).symm.trans hc) (by simp [hstate]))
  obtain ⟨-, hcounts, hnumber⟩ := setMgrState_beside 2 (s1.setHr { s1.hr with answered := false })
  rw [← hfound] at hhr hlatched hcounts hnumber
  have hmine : s2.myNumber = s.myNumber := congrArg (fun c : Cf => c.u 0xE000 2 0 1) (hnumber.trans (hcopies.cf.trans hcf))
  have hstate2 : s2.hr.state = 2 := congrArg HrU.state hhr
  have hanswered2 : s2.hr.answered = false := congrArg HrU.answered hhr
  have hfirst : Awaits s2 s3 := by
    unfold s3
    cases first
    · exact .refl s2
    · exact headerFirst_awaits hstate2 hanswered2 (hmine ▸ hother) _
  have hlanes : s2.hr.laneUp = listSet s.hr.laneUp lane true ∧ s2.hr.laneAt = listSet s.hr.laneAt lane (some s.elapsed) :=
    ⟨(congrArg HrU.laneUp hhr).trans (congrArg HrU.laneUp hheard), (congrArg HrU.laneAt hhr).trans (congrArg HrU.laneAt hheard)⟩
  have hawaits : ∀ {t}, Awaits s2 t → ¬ t.hr.state = 3 ∧ t.hr.answered = false := fun {t} ht => by
    obtain ⟨x, rfl, hx, hans, -⟩ := ht
    exact ⟨fun hc => absurd (hc.symm.trans (hx.trans hstate2)) (by decide), hans.trans hanswered2⟩
  have hkept : s4 = s3 := if_neg (by simp [hawaits hfirst])
  have howed : oweBurst lane h s3 = s3 := if_neg (by simp [hawaits hfirst])
  have hreplied : Awaits s2 (answer lane h.seq s3) := hfirst.trans (answer_awaits h.seq)
  have hsampled : offsetSample lane h (answer lane h.seq s3) = answer lane h.seq s3 := if_pos (by simp [hawaits hreplied])
  rw [hkept, howed, hsampled]
  obtain ⟨x, hx, hxstate, -, hxup, hxat⟩ := hreplied
  rw [hx]
  refine ⟨hxstate.trans hstate2, ?_, ?_, ?_, hlatched⟩
  · exact (congrArg (·.getD lane false) (hxup.trans hlanes.1)).trans (listSet_self ..)
  · exact (congrArg (·.getD lane none) (hxat.trans hlanes.2)).trans (listSet_self ..)
  · rw [State.ctr_congr (s := s) hstats] at hctr
    exact (State.ctr_congr (s := s1) hcounts _ _).trans hctr

end Header

end Sys2Proof.Machine
end

section
namespace Sys2Proof.Machine
open Sys2Proof

/-! ## Bursts that a worker sends (R346, R354) -/

/-- Numbering the frames of a burst changes the numbers to come alone (R344). -/
theorem numbered_numbers (type : Nat) (bodies : List Bytes) (s : State) :
    ∃ next, (numbered type bodies s).2 = s.setHr { s.hr with txSeq := next } := by
  have hfold : ∀ acc : List HrFrame × State, (∃ next, acc.2 = s.setHr { s.hr with txSeq := next }) →
      ∃ next, (bodies.foldl (fun (fs, st) b =>
        let (q, st1) := takeSeq type st; (fs ++ [{ seq := q, bytes := hrFrame s.myNumber type q b }], st1)) acc).2 = s.setHr { s.hr with txSeq := next } := by
    induction bodies with
    | nil => exact fun acc h => h
    | cons b bodies ih =>
      rintro ⟨fs, st⟩ ⟨next, rfl⟩
      exact ih _ ⟨_, rfl⟩
  exact hfold ([], s) ⟨s.hr.txSeq, rfl⟩

/-- The numbers of frames to come aside, Hedgerow and the time are as they were. -/
def Numbers (s t : State) : Prop := t.hr = { s.hr with txSeq := t.hr.txSeq } ∧ t.time = s.time

namespace Numbers
variable {s t u : State}

theorem refl (s : State) : Numbers s s := ⟨rfl, rfl⟩

theorem numbered {type : Nat} {bodies : List Bytes} (h : Numbers s t) : Numbers s (numbered type bodies t).2 := by
  obtain ⟨next, hnext⟩ := numbered_numbers type bodies t
  rw [hnext]
  exact ⟨congrArg (fun x : HrU => { x with txSeq := next }) h.1, h.2⟩

theorem counted (h : Numbers s t) (k : Counted t u) : Numbers s u := by
  have hhr : u.hr = t.hr := k.same (f := State.hr) fun _ => rfl
  exact ⟨hhr ▸ h.1, (k.same (f := State.time) fun _ => rfl).trans h.2⟩

end Numbers

/-- What filling a burst leaves: the bursts that are due, the lanes' pulses and the device's own state; it is built for its cycle, and
with no drive that waits the offset of these 16 cycles has been reported. -/
structure FillsBurst (seq cyc : Nat) (s t : State) : Prop where
  dues : t.hr.dues = s.hr.dues
  pulse : t.hr.pulse = s.hr.pulse
  state : t.hr.state = s.hr.state
  time : t.time = s.time
  builtFor : t.hr.builtFor = some seq
  reported : s.bus.drives = [] → t.hr.reported = some (cyc / 16)

theorem fillBurst_fills (seq cyc : Nat) (s : State) : FillsBurst seq cyc s (fillBurst seq cyc s) := by
  unfold fillBurst
  dsimp -zeta only
  extract_lets h rep body s5 bus5 hr5
  have h2 : ∀ ds, Numbers s (if rep = true then numbered 0x11 [body] (numbered 0x10 ds s).2 else ([], (numbered 0x10 ds s).2)).2 := fun ds => by
    split
    · exact (Numbers.refl s).numbered.numbered
    · exact (Numbers.refl s).numbered
  obtain ⟨hhr, htime⟩ : Numbers s s5 := (h2 _).numbered.numbered.counted (Counted.refl _).satEvent.countN
  refine ⟨(congrArg HrU.dues hhr :), (congrArg HrU.pulse hhr :), (congrArg HrU.state hhr :), htime, rfl, fun hnone => ?_⟩
  have hroom : (s.fillDrives s.bus.drives 6500).2.2 = 6500 := by rw [hnone]; rfl
  have hrep : rep = (h.reported != some (cyc / 16)) := by simp [rep, hroom]
  change (if rep then some (cyc / 16) else h.reported) = some (cyc / 16)
  rw [hrep]
  by_cases hdone : h.reported = some (cyc / 16)
  · rw [hdone, ite_self]
  · exact if_pos (bne_iff_ne.mpr hdone)

section Burst
variable {lane : Nat} {d : BurstDue} {s : State}

/-- A state whose lane sends its oldest burst, `d`. -/
def State.sending (s : State) (lane : Nat) (d : BurstDue) : State :=
  s.setHr { s.hr with dues := s.hr.dues.erase d, pulse := listSet s.hr.pulse lane (s.elapsed, s.elapsed + 6000) }

/-- A burst that is due is sent, and filled when its header is a new one (R346). -/
theorem workerBurst_due (hruns : s.hrRuns 1 = true) (hlane : lane < 2) (hfence : s.fenced 18 lane = false) (hstate : s.hr.state = 3)
    (hfind : s.hr.dues.find? (fun d => d.lane = lane) = some d) (hdue : d.at_ ≤ s.elapsed) :
    workerBurst lane s = when (s.hr.builtFor.all fun q => seqAfter q d.seq) (fillBurst d.seq d.cyc) (s.sending lane d) := by
  unfold workerBurst
  rw [hfind]
  dsimp -zeta only
  rw [if_pos (by simp [hruns, hlane, hfence, hstate, hdue])]
  extract_lets x s1 fresh
  have hbuilt : s1.hr.builtFor = s.hr.builtFor := rfl
  have hfresh : fresh = s.hr.builtFor.all fun q => seqAfter q d.seq := by
    unfold fresh
    rw [hbuilt]
    cases s.hr.builtFor with
    | none => rfl
    | some q => exact Option.all_some.symm
  rw [hfresh]
  rfl

/-- What a burst leaves, filled or not. -/
theorem workerBurst_sends (hruns : s.hrRuns 1 = true) (hlane : lane < 2) (hfence : s.fenced 18 lane = false) (hstate : s.hr.state = 3)
    (hfind : s.hr.dues.find? (fun d => d.lane = lane) = some d) (hdue : d.at_ ≤ s.elapsed) :
    (workerBurst lane s).hr.dues = s.hr.dues.erase d ∧
      (workerBurst lane s).hr.pulse.getD lane (0, 0) = (s.elapsed, s.elapsed + 6000) ∧ (workerBurst lane s).hr.state = 3 ∧
      (workerBurst lane s).time = s.time ∧
      ((s.hr.builtFor.all fun q => seqAfter q d.seq) = true → (workerBurst lane s).hr.builtFor = some d.seq ∧
        (s.bus.drives = [] → (workerBurst lane s).hr.reported = some (d.cyc / 16))) := by
  rw [workerBurst_due hruns hlane hfence hstate hfind hdue]
  have hpulse : (s.sending lane d).hr.pulse.getD lane (0, 0) = (s.elapsed, s.elapsed + 6000) := listSet_self ..
  cases s.hr.builtFor.all fun q => seqAfter q d.seq
  · exact ⟨rfl, hpulse, hstate, rfl, fun h => absurd h Bool.false_ne_true⟩
  · have hfills := fillBurst_fills d.seq d.cyc (s.sending lane d)
    exact ⟨hfills.dues, hfills.pulse ▸ hpulse, hfills.state.trans hstate, hfills.time, fun _ => ⟨hfills.builtFor, hfills.reported⟩⟩

/-- The lane's BURST_EN is high while its pulse lasts (R354). -/
theorem State.burstEnable_of_pulse (hrunning : s.runs = true) (hruns : s.hrRuns 1 = true) (hfence : s.fenced 18 lane = false)
    (hpulse : s.hr.pulse.getD lane (0, 0) = (s.elapsed, s.elapsed + 6000)) : s.burstEnable lane = true := by
  have hhas := State.hasHr_of_runs hruns
  unfold State.burstEnable
  rw [hpulse]
  simp [hrunning, hruns, hfence, hhas]

end Burst

end Sys2Proof.Machine
end

section
namespace Sys2Proof.Machine
open Sys2Proof

/-! ## Silent lanes, and a manager that is lost (R343, R351, R361) -/

/-- A lane silent for the loss time is down, and no other (R343). -/
theorem laneLoss_silent {lane at_ : Nat} {s : State} (hruns : s.hrRuns 1 = true ∨ s.hrRuns 2 = true) (hup : s.hr.laneUp.getD lane false = true)
    (hat : s.hr.laneAt.getD lane none = some at_) (hdue : at_ + s.lossNs ≤ s.elapsed) :
    (laneLoss lane s).hr = { s.hr with laneUp := listSet s.hr.laneUp lane false } ∧ Latched (laneLoss lane s) 0xA0 lane := by
  unfold laneLoss
  rw [hat, hup]
  dsimp -zeta only
  extract_lets silent x
  rw [if_pos (by simpa [silent, hdue] using hruns)]
  exact ⟨by simp [x, State.setHr], raise_hr_latched (by decide) (hruns.elim State.hasHr_of_runs State.hasHr_of_runs) rfl⟩

/-- The state of a device that has let its manager go, with what waited to go up discarded (R351). -/
def State.orphaned (s : State) : State :=
  (forgetSource 0x10 s).setHr { (forgetSource 0x10 s).hr with
    up := [], sums := [], dues := [], eqdSeen := [false, false], builtFor := none, answered := false, usable := false, samples := [],
    discarded := satCount s.hr.discarded s.hr.up.length }

/-- With both lanes down, a registered worker has lost its manager, and the lines are its own again (R351, R361). -/
theorem managerLost_loses {s : State} (hruns : s.hrRuns 1 = true) (hstate : s.hr.state = 3) (hdown : s.hr.laneUp = [false, false]) :
    (managerLost s).hr = { s.orphaned.hr with state := 4 } ∧ (managerLost s).bus.remote = false ∧ Latched (managerLost s) 0xA2 0 := by
  unfold managerLost
  rw [if_pos (by simp [hruns, hstate, hdown])]
  extract_lets was n old s1 s2
  have hcounted : Counted s.orphaned s1 := (Counted.refl s.orphaned).satEvent.countN
  have hs2 : s2 = toRemote false s1 := if_pos (decide_eq_true hstate)
  obtain ⟨hhr, hvariant, hremote⟩ := toRemote_beside false s1
  rw [← hs2] at hhr hvariant hremote
  have hleft : s2.hr = s.orphaned.hr := hhr.trans (hcounted.same (f := State.hr) fun _ => rfl)
  have hhas : s2.hasHr = true :=
    (congrArg (fun v : Nat => decide (v ≤ 1)) (hvariant.trans (hcounted.same (f := State.variant) fun _ => rfl))).trans (State.hasHr_of_runs hruns)
  have hregistered : s.orphaned.hr.state = 3 := hstate
  obtain ⟨hlost, hlatched⟩ := setMgrState_changes (st := 4) hhas (by rw [hleft, hregistered]; decide)
  rw [hleft] at hlost
  exact ⟨hlost, (congrArg BusU.remote (setMgrState_beside 4 s2).1).trans hremote, hlatched⟩

/-- A line that falls at its time, at a device whose acquisition does not run (R359). -/
theorem triggerLineFall_quiet {l : Nat} {s : State} (hup : (s.line l).level = true) (hdue : (s.line l).fall ≤ 8 * s.time.tai) (hown : s.bus.remote = false)
    (hquiet : s.acqRuns = false) : triggerLineFall l s = s.fallen l := by
  rw [triggerLineFall_due hup hdue hown]
  exact if_neg (by simp [fallen_acqRuns, hquiet])

/-- Settles O44, command by command. -/
theorem workerFollowsItsManager : Obligations.WorkerFollowsItsManager := by
  unfold Obligations.WorkerFollowsItsManager
  refine ⟨fun dt lane h s hr hruns hlane hfence hcrc hstate hother => ?header, fun dt lane h s hr hruns hlane hfence hcrc => ?damaged,
    fun dt lane d s hr hruns hlane hfence hstate hfind hdue => ?burst, fun dt lane at_ s hr hruns hup hat hdue => ?silent,
    fun dt s hr hruns hstate hdown => ?lost, fun dt l s hr hup hdue hown hquiet => ?falls, fun dt l s hr hup hdue hown hrole => ?relayed,
    fun lane s hhas hfence hruns hr => ?manager, fun lane s hr => ?stopped⟩
  case header =>
    obtain ⟨hawaits, hup, hat, hctr, hlatched⟩ := headerReceive_finds (s := s.tick dt) hruns hlane hfence hcrc hstate hother
    refine ⟨_, rfl, ?_⟩
    rw [State.act_runs _ _ _ _ hr, within_hr (by decide), within_ctr, if_pos (by decide)]
    exact ⟨hawaits, hup, hat, hctr, within_latched (by decide) hlatched⟩
  case damaged =>
    refine ⟨_, rfl, ?_⟩
    rw [State.act_runs _ _ _ _ hr, headerReceive_damaged (s := s.tick dt) hruns hlane hfence hcrc, within_ctr, if_pos (by decide)]
    exact ⟨by rw [count_ctr, if_pos rfl]; rfl, (Counted.refl _).countN.onlyParts (by decide) (by decide)⟩
  case burst =>
    obtain ⟨hdues, hpulse, hregistered, htime, hfilled⟩ := workerBurst_sends (s := s.tick dt) hruns hlane hfence hstate hfind hdue
    refine ⟨_, rfl, ?_⟩
    rw [State.act_runs _ _ _ _ hr]
    have hhr := within_hr (s := s) (t := workerBurst lane (s.tick dt)) (ps := [.events, .stats, .bus, .hr]) (by decide)
    have helapsed : (s.within [.events, .stats, .bus, .hr] (workerBurst lane (s.tick dt))).elapsed = s.elapsed + dt := congrArg TimeU.elapsed htime
    have hhigh : (s.within [.events, .stats, .bus, .hr] (workerBurst lane (s.tick dt))).burstEnable lane = true :=
      State.burstEnable_of_pulse hr hruns hfence (by rw [hhr, helapsed]; exact hpulse)
    rw [hhr]
    exact ⟨hdues, hpulse, hhigh, hregistered, hfilled⟩
  case silent =>
    obtain ⟨hhr, hlatched⟩ := laneLoss_silent (s := s.tick dt) hruns hup hat hdue
    refine ⟨_, rfl, ?_⟩
    rw [State.act_runs _ _ _ _ hr, within_hr (by decide), hhr]
    exact ⟨listSet_self .., fun k hk => (listSet_default ..).trans (if_neg hk), within_latched (by decide) hlatched⟩
  case lost =>
    obtain ⟨hhr, hremote, hlatched⟩ := managerLost_loses (s := s.tick dt) hruns hstate hdown
    refine ⟨_, rfl, ?_⟩
    rw [State.act_runs _ _ _ _ hr, within_hr (by decide), within_bus (by decide), hhr]
    exact ⟨rfl, rfl, rfl, rfl, hremote, within_latched (by decide) hlatched⟩
  case falls =>
    refine ⟨_, rfl, ?_⟩
    rw [State.act_runs _ _ _ _ hr, within_line (by decide), within_bus (by decide), triggerLineFall_quiet (s := s.tick dt) hup hdue hown hquiet, fallen_line]
    exact ⟨rfl, rfl, fun hrole => fallen_relays hrole⟩
  case relayed =>
    refine ⟨_, rfl, ?_⟩
    rw [State.act_runs _ _ _ _ hr, within_bus (by decide), triggerLineFall_due (s := s.tick dt) hup hdue hown]
    refine (Drives.edgeToUnits (.refl _)).out _ ?_
    rw [fallen_relays (s := s.tick dt) hrole]
    exact List.mem_append_right _ List.mem_cons_self
  case manager =>
    simp [State.burstEnable, hr, hhas, hfence, hruns]
  case stopped =>
    simp [State.burstEnable, hr]

end Sys2Proof.Machine
end
